-- ==== Sys2Proof/Word.lean ====
section
/-! DEFINITION. The word types of the Plovash 7: what the manual treats as bits, and nothing else. -/

set_option Elab.async false

namespace Sys2Proof

/-- A scalar register value, 64 bits (R180). -/
abbrev Word := BitVec 64

/-- The smallest addressable unit (R6). -/
abbrev Byte := BitVec 8

/-- A vector register value, 1,024 bits (R180). -/
abbrev Vec := BitVec 1024

/-- A mask register value, 128 bits (R184). -/
abbrev Mask := BitVec 128

/-- An 8-bit operand specifier (R179).  It stays a bit field, because REP steps it arithmetically
(R187) and its legality depends on the position it stands in. -/
abbrev Spec := BitVec 8

/-- Addition of two scalars, modulo 2^64 (R233). -/
def Word.plus (a b : Word) : Word := a + b

/-- Subtraction of two scalars, modulo 2^64 (R233). -/
def Word.minus (a b : Word) : Word := a - b

end Sys2Proof
end

