-- ==== Sys2Proof/Machine/Bits.lean ====
section
/-! DEFINITION. Bit fields, sign extension, lanes of a vector and byte order: the helpers that every other
definition reads and writes bits with. -/

namespace Sys2Proof.Bits

/-- Bits [lo + len − 1 : lo] of a natural number. -/
def field (w lo len : Nat) : Nat := (w >>> lo) % 2 ^ len

/-- One bit of a natural number. -/
def bit (w i : Nat) : Bool := (w >>> i) % 2 == 1

/-- `w` with bits [lo + len − 1 : lo] replaced by the low `len` bits of `v`. -/
def setField (w lo len v : Nat) : Nat :=
  w - (field w lo len) * 2 ^ lo + (v % 2 ^ len) * 2 ^ lo

/-- A w-bit code read as two's complement (R215). -/
def signed (w n : Nat) : Int :=
  if n % 2 ^ w < 2 ^ (w - 1) then ((n % 2 ^ w : Nat) : Int) else ((n % 2 ^ w : Nat) : Int) - (2 ^ w : Nat)

/-- An integer wrapped to w bits (R215). -/
def wrap (w : Nat) (x : Int) : Nat := (x % ((2 ^ w : Nat) : Int)).toNat

/-- Bits as a natural number: 1 for true. -/
def ofBool (b : Bool) : Nat := if b then 1 else 0

/-- Sign-extension of an n-bit field to a word. -/
def sext (n : Nat) (x : BitVec n) : Word := x.signExtend 64

/-- The value of an immediate specifier (R234): its low seven bits, sign-extended. -/
def immVal (sp : Spec) : Word := (sp.extractLsb' 0 7).signExtend 64

/-- The low `n` bytes of a natural number, least significant first (R6). -/
def bytesOf : Nat → Nat → List Byte
  | 0, _ => []
  | n + 1, v => BitVec.ofNat 8 v :: bytesOf n (v / 256)

/-- The value of a byte list, least significant first (R6). -/
def valOf : List Byte → Nat
  | [] => 0
  | b :: bs => b.toNat + 256 * valOf bs

/-- Lane `i` of a vector of w-bit lanes (R215, R280). -/
def lane (w : Nat) (v : Vec) (i : Nat) : Nat := (v.toNat >>> (w * i)) % 2 ^ w

/-- A value built from lanes, lane 0 lowest. -/
def packLanes (w : Nat) : List Nat → Nat
  | [] => 0
  | x :: xs => x % 2 ^ w + 2 ^ w * packLanes w xs

/-- The vector whose lanes are those of the list (R215). -/
def ofLanes (w : Nat) (xs : List Nat) : Vec := BitVec.ofNat 1024 (packLanes w xs)

/-- A mask bit (R184). -/
def maskBit (m : Mask) (i : Nat) : Bool := m.toNat.testBit i

/-- A mask whose bit i is `f i` for i below n, and 0 above. -/
def maskOf (n : Nat) (f : Nat → Bool) : Mask :=
  BitVec.ofNat 128 (packLanes 1 ((List.range n).map fun i => ofBool (f i)))

/-- The bits that `a` has set and `m` does not (the effect of clearing by writing ones). -/
def clearBits (a m : Word) : Word := a &&& ~~~m

/-- Aligned to `n` bytes. -/
def aligned (a n : Nat) : Bool := a % n == 0

/-- Replace element `i` of a list. -/
def setAt {α : Type} : List α → Nat → α → List α
  | [], _, _ => []
  | _ :: xs, 0, v => v :: xs
  | x :: xs, i + 1, v => x :: setAt xs i v

/-- The value of a key in a sparse table. -/
def look {α : Type} : List (Nat × α) → Nat → Option α
  | [], _ => none
  | (k, v) :: xs, i => if k == i then some v else look xs i

/-- A sparse table with the entry of one key replaced; keys stay strictly rising when they were. -/
def put {α : Type} : List (Nat × α) → Nat → α → List (Nat × α)
  | [], i, v => [(i, v)]
  | (k, w) :: xs, i, v =>
    if i < k then (i, v) :: (k, w) :: xs
    else if i = k then (i, v) :: xs
    else (k, w) :: put xs i v

/-- A sparse table without one key. -/
def drop {α : Type} (xs : List (Nat × α)) (i : Nat) : List (Nat × α) := xs.filter fun p => p.1 != i

/-- A list without the first element that equals `x`. -/
def dropFirst {α : Type} (p : α → Bool) : List α → List α
  | [] => []
  | x :: xs => if p x then xs else x :: dropFirst p xs

/-- Put an element before the first one that it may precede. -/
def insertBy {α : Type} (le : α → α → Bool) (x : α) : List α → List α
  | [] => [x]
  | y :: ys => if le x y then x :: y :: ys else y :: insertBy le x ys

/-- A list in order; equal elements keep their order. -/
def sortBy {α : Type} (le : α → α → Bool) : List α → List α
  | [] => []
  | x :: xs => insertBy le x (sortBy le xs)

/-- Numbers in rising order. -/
def sortNat (xs : List Nat) : List Nat := sortBy (fun a b => decide (a ≤ b)) xs

/-- The first index below the length whose element meets `p`. -/
def indexOf {α : Type} (p : α → Bool) : List α → Option Nat
  | [] => none
  | x :: xs => if p x then some 0 else (indexOf p xs).map (· + 1)

/-- Split a list into pieces of `n`, with `fuel` at least the number of pieces. -/
def pieces {α : Type} (n : Nat) : Nat → List α → List (List α)
  | 0, _ => []
  | fuel + 1, xs => if xs.isEmpty then [] else xs.take n :: pieces n fuel (xs.drop n)

end Sys2Proof.Bits
end

