-- ==== Sys2Proof/Machine/Flags.lean ====
section
/-! DEFINITION. Number formats, rounding, conversions and every flag computation: chapter "Number Formats,
Scales and Conversions" (R215 to R232) and the arithmetic rules of the vector and matrix chapters that round
(R283, R284, R286, R291, R292, R307, R315, R336). -/

namespace Sys2Proof.Flt

open Sys2Proof.Bits

/-- The seven status flags in the order of FSTAT bits 0 to 6 (R189): NV, DZ, OF, UF, NX, SAT, NANW. -/
abbrev Flags := BitVec 7

/-- No flag. -/
def none7 : Flags := 0
/-- Invalid operation. -/
def NV : Flags := 0x01
/-- Division by zero. -/
def DZ : Flags := 0x02
/-- Overflow. -/
def OF : Flags := 0x04
/-- Underflow. -/
def UF : Flags := 0x08
/-- Inexact. -/
def NX : Flags := 0x10
/-- Saturated. -/
def SAT : Flags := 0x20
/-- A NaN decided a reduction. -/
def NANW : Flags := 0x40

/-- A flag when a condition holds. -/
def flagIf (b : Bool) (f : Flags) : Flags := if b then f else 0

/-- The bits, lanes and kind of an element type code (R190): its width. -/
def etWidth (et : BitVec 4) : Nat :=
  match et.toNat with
  | 0 => 8 | 1 => 8 | 2 => 16 | 3 => 16 | 4 => 32 | 5 => 32 | 6 => 64 | 7 => 64
  | 8 => 16 | 9 => 16 | 10 => 32 | 11 => 8 | 12 => 8 | 13 => 4 | _ => 8

/-- The lanes of a vector of a type (R190). -/
def etLanes (et : BitVec 4) : Nat := 1024 / etWidth et

/-- The signed integer types i8, i16, i32 and i64. -/
def etSigned (et : BitVec 4) : Bool := et.toNat < 8 && et.toNat % 2 == 0

/-- The integer types, signed and natural. -/
def etInt (et : BitVec 4) : Bool := et.toNat < 8

/-- The layout of a binary floating-point format (R216): exponent bits, fraction bits, bias. -/
structure Fmt where
  eb : Nat
  fb : Nat
  bias : Nat
  deriving DecidableEq, Repr

/-- binary32. -/
def f32 : Fmt := { eb := 8, fb := 23, bias := 127 }
/-- binary16. -/
def f16 : Fmt := { eb := 5, fb := 10, bias := 15 }
/-- bf16, the upper half of a binary32. -/
def bf16 : Fmt := { eb := 8, fb := 7, bias := 127 }

/-- The float format of an ET code 0x8 to 0xA. -/
def fmtOf (et : BitVec 4) : Fmt := if et = 8 then f16 else if et = 9 then bf16 else f32

/-- The code width of a format. -/
def Fmt.width (f : Fmt) : Nat := 1 + f.eb + f.fb
/-- The code of +∞. -/
def Fmt.infCode (f : Fmt) : Nat := (2 ^ f.eb - 1) * 2 ^ f.fb
/-- The weight of the sign bit. -/
def Fmt.signBit (f : Fmt) : Nat := 2 ^ (f.eb + f.fb)
/-- The canonical NaN (R217). -/
def Fmt.canon (f : Fmt) : Nat := f.infCode + 2 ^ (f.fb - 1)
/-- The exponent of the smallest quantum: that of a subnormal's last bit. -/
def Fmt.qmin (f : Fmt) : Int := 1 - (f.bias : Int) - (f.fb : Int)

/-- An element read exactly: a NaN, signalling or quiet; an infinity; or the number m × 2^e with its sign, which a
zero has too. -/
inductive Val where
  | nan (signalling : Bool)
  | inf (neg : Bool)
  | fin (neg : Bool) (m : Nat) (e : Int)
  deriving DecidableEq, Repr

/-- Decode a binary floating-point code (R216). -/
def decodeBin (f : Fmt) (code : Nat) : Val :=
  let neg := bit code (f.eb + f.fb)
  let ex := field code f.fb f.eb
  let fr := code % 2 ^ f.fb
  if ex = 2 ^ f.eb - 1 then
    if fr = 0 then .inf neg else .nan (! bit fr (f.fb - 1))
  else if ex = 0 then .fin neg fr f.qmin
  else .fin neg (fr + 2 ^ f.fb) (f.qmin + (ex : Int) - 1)

/-- The leading zeros of a t8 body within its 7 bits (R219). -/
def t8z (b : Nat) : Nat :=
  if 64 ≤ b then 0 else if 32 ≤ b then 1 else if 16 ≤ b then 2 else if 8 ≤ b then 3
  else if 4 ≤ b then 4 else if 2 ≤ b then 5 else 6

/-- WF of R219: the fraction bits of a t8 body. -/
def t8wf (z : Nat) : Nat := if z ≤ 4 then 4 - z else 0

/-- BIAS of R219. -/
def t8bias (z : Nat) : Nat :=
  match z with
  | 0 => 0 | 1 => 4 | 2 => 8 | 3 => 12 | 4 => 16 | 5 => 18 | _ => 19

/-- The magnitude of a t8 body in units of 2^−19 (R219). -/
def t8mag (b : Nat) : Nat :=
  if b = 0 then 0 else
    let z := t8z b
    let rest := b % 2 ^ (6 - z)
    let wf := t8wf z
    let e := rest / 2 ^ wf
    let f := rest % 2 ^ wf
    (2 ^ wf + f) * 2 ^ (19 + e) / 2 ^ (t8bias z + wf)

/-- Decode a t8 code (R219). -/
def decodeT8 (code : Nat) : Val :=
  let c := code % 256
  if c = 0x80 then .nan false
  else .fin (decide (0x80 ≤ c)) (t8mag (c % 128)) (-19)

/-- Decode an integer as an exact value. -/
def ofInt (x : Int) : Val := .fin (decide (x < 0)) x.natAbs 0

/-- Decode a code of any element type; `zp` is the zero point of o8 and o4 (R221, R227). -/
def decode (et : BitVec 4) (zp code : Nat) : Val :=
  match et.toNat with
  | 8 => decodeBin f16 code
  | 9 => decodeBin bf16 code
  | 10 => decodeBin f32 code
  | 11 => decodeT8 code
  | 12 => ofInt ((code % 256 : Nat) - (zp : Int))
  | 13 => ofInt ((code % 16 : Nat) - (zp : Int))
  | _ => ofInt (if etSigned et then signed (etWidth et) code else ((code % 2 ^ etWidth et : Nat) : Int))

/-- Is the value a NaN? -/
def Val.isNan : Val → Bool
  | .nan _ => true
  | _ => false

/-- Is the value a signalling NaN? -/
def Val.isSnan : Val → Bool
  | .nan s => s
  | _ => false

/-- Is the value an infinity? -/
def Val.isInf : Val → Bool
  | .inf _ => true
  | _ => false

/-- The sign of a value that is not NaN. -/
def Val.neg : Val → Bool
  | .nan _ => false
  | .inf n => n
  | .fin n _ _ => n

/-- Is the value a zero? -/
def Val.isZero : Val → Bool
  | .fin _ 0 _ => true
  | _ => false

/-- An exact number m × 2^e as a signed pair. -/
structure Dy where
  m : Int
  e : Int
  deriving DecidableEq, Repr

/-- The number of a finite value (0 for the others). -/
def Val.dy : Val → Dy
  | .fin n m e => { m := if n then -(m : Int) else (m : Int), e := e }
  | _ => { m := 0, e := 0 }

/-- The exact sum of two numbers. -/
def Dy.add (a b : Dy) : Dy :=
  if a.e ≤ b.e then { m := a.m + b.m * ((2 ^ (b.e - a.e).toNat : Nat) : Int), e := a.e }
  else { m := a.m * ((2 ^ (a.e - b.e).toNat : Nat) : Int) + b.m, e := b.e }

/-- The exact product of two numbers. -/
def Dy.mul (a b : Dy) : Dy := { m := a.m * b.m, e := a.e + b.e }

/-- Comparison of two numbers: is a below b? -/
def Dy.lt (a b : Dy) : Bool := (Dy.add a { m := -b.m, e := b.e }).m < 0

/-- The bits of a natural number: 0 for 0. -/
def bitLen (n : Nat) : Nat := if n = 0 then 0 else Nat.log2 n + 1

/-- Does rounding a magnitude that lies strictly between two neighbours take the greater one (R225)?  `odd`: the lower
neighbour's last bit; `cmp`: the remainder against half (lt, eq, gt). -/
def roundsUp (rm : BitVec 2) (neg odd : Bool) (cmp : Ordering) : Bool :=
  match rm.toNat with
  | 0 => match cmp with
    | .lt => false
    | .eq => odd
    | .gt => true
  | 1 => false
  | 2 => !neg
  | _ => neg

/-- Round the magnitude m × 2^e to a multiple of 2^q (R225): the multiple, and whether it is inexact. -/
def roundMag (rm : BitVec 2) (neg : Bool) (m : Nat) (e q : Int) : Nat × Bool :=
  if q ≤ e then (m * 2 ^ (e - q).toNat, false)
  else
    let sh := (q - e).toNat
    let n := m >>> sh
    let r := m % 2 ^ sh
    if r = 0 then (n, false)
    else (if roundsUp rm neg (n % 2 == 1) (compare (2 * r) (2 ^ sh)) then n + 1 else n, true)

/-- Overflow's result magnitude under a mode (R227): +∞ or the largest finite code. -/
def overflowCode (f : Fmt) (rm : BitVec 2) (neg : Bool) : Nat :=
  match rm.toNat with
  | 0 => f.infCode
  | 1 => f.infCode - 1
  | 2 => if neg then f.infCode - 1 else f.infCode
  | _ => if neg then f.infCode else f.infCode - 1

/-- Round the nonzero number (−1)^neg × m × 2^e into a binary format, with its flags (R218, R225, R227).  Tininess is
detected after rounding. -/
def roundBin (f : Fmt) (rm : BitVec 2) (neg : Bool) (m : Nat) (e : Int) : Nat × Flags :=
  let s := if neg then f.signBit else 0
  let q := e + (bitLen m : Int) - 1 - (f.fb : Int)
  let q' := max q f.qmin
  let (n, inexact) := roundMag rm neg m e q'
  let code := (q' - f.qmin).toNat * 2 ^ f.fb + n
  let (nu, _) := roundMag rm neg m e q
  let tiny := decide (q < f.qmin) && decide (nu * 2 ^ (q - (f.qmin + f.fb)).toNat < 2 ^ ((f.qmin + f.fb) - q).toNat)
  if f.infCode ≤ code then (s + overflowCode f rm neg, OF ||| NX)
  else (s + code, flagIf inexact NX ||| flagIf (tiny && inexact) UF)

/-- Round a number, zero included: `zneg` is the sign of an exact zero. -/
def roundDy (f : Fmt) (rm : BitVec 2) (zneg : Bool) (x : Dy) : Nat × Flags :=
  if x.m = 0 then (if zneg then f.signBit else 0, 0)
  else roundBin f rm (decide (x.m < 0)) x.m.natAbs x.e

/-- The code of an infinity. -/
def infOf (f : Fmt) (neg : Bool) : Nat := if neg then f.signBit + f.infCode else f.infCode

/-- Round a number to an integer by a mode (R227): the integer, and whether it is inexact. -/
def roundInt (rm : BitVec 2) (neg : Bool) (m : Nat) (e : Int) : Int × Bool :=
  let (n, ix) := roundMag rm neg m e 0
  (if neg then -(n : Int) else (n : Int), ix)

/-- Encode into an integer type of width w (R227). -/
def encodeInt (w : Nat) (sgn : Bool) (rm : BitVec 2) (v : Val) : Nat × Flags :=
  let hi : Int := if sgn then ((2 ^ (w - 1) : Nat) : Int) - 1 else ((2 ^ w : Nat) : Int) - 1
  let lo : Int := if sgn then -((2 ^ (w - 1) : Nat) : Int) else 0
  match v with
  | .nan _ => (0, NV)
  | .inf n => (wrap w (if n then lo else hi), NV ||| SAT)
  | .fin n m e =>
    let (x, ix) := roundInt rm n m e
    if x < lo then (wrap w lo, SAT ||| NX)
    else if hi < x then (wrap w hi, SAT ||| NX)
    else (wrap w x, flagIf ix NX)

/-- Encode into o8 or o4 of width w with zero point `zp` (R227). -/
def encodeOff (w zp : Nat) (rm : BitVec 2) (v : Val) : Nat × Flags :=
  let hi : Int := ((2 ^ w : Nat) : Int) - 1
  match v with
  | .nan _ => (zp % 2 ^ w, NV)
  | .inf n => (if n then 0 else hi.toNat, NV ||| SAT)
  | .fin n m e =>
    let (x, ix) := roundInt rm n m e
    let y := x + (zp : Int)
    if y < 0 then (0, SAT ||| NX)
    else if hi < y then (hi.toNat, SAT ||| NX)
    else (y.toNat, flagIf ix NX)

/-- The greatest t8 body whose magnitude is at most `n` × 2^−19. -/
def t8floor (n : Nat) : Nat :=
  (List.range 128).foldl (fun acc b => if t8mag b ≤ n then b else acc) 0

/-- Encode into t8 (R219, R227). -/
def encodeT8 (rm : BitVec 2) (v : Val) : Nat × Flags :=
  match v with
  | .nan s => (0x80, flagIf s NV)
  | .inf n => (if n then 0xFF else 0x7F, SAT)
  | .fin n m e =>
    -- the magnitude in units of 2^−20, its last bit sticky, so that halves compare exactly
    let sh := e + 20
    let (u, st) : Nat × Bool :=
      if 0 ≤ sh then (m * 2 ^ sh.toNat, false) else (m >>> (-sh).toNat, m % 2 ^ (-sh).toNat != 0)
    let b := t8floor (u / 2)
    let exact := 2 * t8mag b == u && !st
    if m = 0 then (0, 0)
    else if b = 127 then (if n then 0xFF else 0x7F, if exact then 0 else SAT ||| NX)
    else if exact then ((if n then 0x80 else 0) + b, 0)
    else
      let h := t8mag b + t8mag (b + 1)
      let c : Ordering := if u < h then .lt else if h < u then .gt else if st then .gt else .eq
      let b' := if roundsUp rm n (b % 2 == 1) c then b + 1 else b
      (if b' = 0 then 0 else (if n then 0x80 else 0) + b', NX)

/-- Encode a value into a binary format (R227). -/
def encodeBin (f : Fmt) (rm : BitVec 2) (v : Val) : Nat × Flags :=
  match v with
  | .nan s => (f.canon, flagIf s NV)
  | .inf n => (infOf f n, 0)
  | .fin n m e => if m = 0 then (if n then f.signBit else 0, 0) else roundBin f rm n m e

/-- Encode a value into any element type (R227). -/
def encode (et : BitVec 4) (rm : BitVec 2) (zp : Nat) (v : Val) : Nat × Flags :=
  match et.toNat with
  | 8 => encodeBin f16 rm v
  | 9 => encodeBin bf16 rm v
  | 10 => encodeBin f32 rm v
  | 11 => encodeT8 rm v
  | 12 => encodeOff 8 zp rm v
  | 13 => encodeOff 4 zp rm v
  | _ => encodeInt (etWidth et) (etSigned et) rm v

/-- The canonical NaN of a float or t8 type (R217). -/
def canonOf (et : BitVec 4) : Nat := if et = 11 then 0x80 else (fmtOf et).canon

/-- The sign of an exact zero sum (R291): + when every term is +0, − when every term is −0, and otherwise − only
under RD. -/
def zeroSign (rm : BitVec 2) (terms : List Val) : Bool :=
  if terms.all (fun v => v.isZero && !v.neg) then false
  else if terms.all (fun v => v.isZero && v.neg) then true
  else rm == 3

/-- An exact sum, rounded once into a format: NaN, infinities of both signs, infinities and the zero sign by R291.
`quiet` says what a NaN term gives. -/
def sumTerms (f : Fmt) (rm : BitVec 2) (terms : List Val) : Nat × Flags :=
  let snan := flagIf (terms.any Val.isSnan) NV
  if terms.any Val.isNan then (f.canon, snan)
  else
    let ip := terms.any (fun v => v.isInf && !v.neg)
    let im := terms.any (fun v => v.isInf && v.neg)
    if ip && im then (f.canon, NV)
    else if ip then (infOf f false, 0)
    else if im then (infOf f true, 0)
    else roundDy f rm (zeroSign rm terms) (terms.foldl (fun a v => Dy.add a v.dy) { m := 0, e := 0 })

/-- Floating-point addition (R283). -/
def addF (f : Fmt) (rm : BitVec 2) (a b : Nat) : Nat × Flags :=
  sumTerms f rm [decodeBin f a, decodeBin f b]

/-- The negation of a value. -/
def Val.flip : Val → Val
  | .nan s => .nan s
  | .inf n => .inf (!n)
  | .fin n m e => .fin (!n) m e

/-- Floating-point subtraction (R283). -/
def subF (f : Fmt) (rm : BitVec 2) (a b : Nat) : Nat × Flags :=
  sumTerms f rm [decodeBin f a, (decodeBin f b).flip]

/-- The exact product of two values; 0 × ∞ is a NaN (marked by the Bool, which is also set for that NaN only). -/
def mulVal (a b : Val) : Val × Bool :=
  if a.isNan || b.isNan then (.nan (a.isSnan || b.isSnan), false)
  else if a.isInf || b.isInf then
    if a.isZero || b.isZero then (.nan false, true) else (.inf (a.neg != b.neg), false)
  else
    match a, b with
    | .fin n m e, .fin n' m' e' => (.fin (n != n') (m * m') (e + e'), false)
    | _, _ => (.nan false, false)

/-- Floating-point multiplication (R283). -/
def mulF (f : Fmt) (rm : BitVec 2) (a b : Nat) : Nat × Flags :=
  let (p, inv) := mulVal (decodeBin f a) (decodeBin f b)
  let (c, fl) := encodeBin f rm p
  (c, fl ||| flagIf inv NV)

/-- Fused multiply-add with one rounding (R283).  0 × ∞ + c is NaN with NV for every c. -/
def fmaF (f : Fmt) (rm : BitVec 2) (a b c : Nat) : Nat × Flags :=
  let va := decodeBin f a
  let vb := decodeBin f b
  let vc := decodeBin f c
  let (p, inv) := mulVal va vb
  let sn := va.isSnan || vb.isSnan || vc.isSnan
  if inv then (f.canon, NV)
  else
    let (r, fl) := sumTerms f rm [p, vc]
    (r, fl ||| flagIf sn NV)

/-- Floating-point division (R283). -/
def divF (f : Fmt) (rm : BitVec 2) (a b : Nat) : Nat × Flags :=
  let va := decodeBin f a
  let vb := decodeBin f b
  let neg := va.neg != vb.neg
  let s := if neg then f.signBit else 0
  if va.isNan || vb.isNan then (f.canon, flagIf (va.isSnan || vb.isSnan) NV)
  else match va, vb with
    | .inf _, .inf _ => (f.canon, NV)
    | .inf _, _ => (infOf f neg, 0)
    | _, .inf _ => (s, 0)
    | .fin _ m e, .fin _ m' e' =>
      if m' = 0 then (if m = 0 then (f.canon, NV) else (infOf f neg, DZ))
      else if m = 0 then (s, 0)
      else
        -- the quotient with 64 further bits, its last bit sticky
        let k := 64 + bitLen m'
        let n := m * 2 ^ k
        roundBin f rm neg (2 * (n / m') + (if n % m' = 0 then 0 else 1)) (e - e' - (k : Int) - 1)
    | _, _ => (f.canon, 0)

/-- The integer square root of n by bits, from bit `i` downward. -/
def isqrtFrom (n : Nat) : Nat → Nat → Nat
  | 0, r => r
  | i + 1, r =>
    let t := r + 2 ^ i
    if t * t ≤ n then isqrtFrom n i t else isqrtFrom n i r

/-- The integer square root. -/
def isqrt (n : Nat) : Nat := isqrtFrom n (bitLen n / 2 + 1) 0

/-- Floating-point square root (R283). -/
def sqrtF (f : Fmt) (rm : BitVec 2) (a : Nat) : Nat × Flags :=
  match decodeBin f a with
  | .nan s => (f.canon, flagIf s NV)
  | .inf n => if n then (f.canon, NV) else (f.infCode, 0)
  | .fin n m e =>
    if m = 0 then (if n then f.signBit else 0, 0)
    else if n then (f.canon, NV)
    else
      let m2 := if e % 2 = 0 then m else 2 * m
      let e2 := if e % 2 = 0 then e else e - 1
      let r := isqrt (m2 * 2 ^ 128)
      roundBin f rm false (2 * r + (if r * r = m2 * 2 ^ 128 then 0 else 1)) (e2 / 2 - 65)

/-- The order of the codes of a float or t8 type that are not NaN: −0 below +0 (R284, R291). -/
def orderKey (w code : Nat) : Int :=
  if bit code (w - 1) then -((code % 2 ^ (w - 1) : Nat) : Int) - 1 else ((code % 2 ^ (w - 1) : Nat) : Int)

/-- VMIN.F and VMAX.F (R284). -/
def minMaxF (f : Fmt) (isMax : Bool) (a b : Nat) : Nat × Flags :=
  let va := decodeBin f a
  let vb := decodeBin f b
  if va.isNan || vb.isNan then (f.canon, flagIf (va.isSnan || vb.isSnan) NV)
  else
    let lt := decide (orderKey f.width a < orderKey f.width b)
    (if isMax then (if lt then b else a) else (if lt then a else b), 0)

/-- VABS.F and VNEG.F (R284). -/
def signF (f : Fmt) (isNeg : Bool) (a : Nat) : Nat × Flags :=
  let va := decodeBin f a
  if va.isNan then (f.canon, flagIf va.isSnan NV)
  else
    let mag := a % f.signBit
    (if isNeg then (if bit a (f.eb + f.fb) then mag else f.signBit + mag) else mag, 0)

/-- The relations of VCMP (R286). -/
inductive Rel where
  | eq | ne | lt | le | un
  deriving DecidableEq, Repr

/-- One lane of VCMP (R286), for ET 0x0 to 0xA. -/
def cmpLane (r : Rel) (et : BitVec 4) (a b : Nat) : Bool × Flags :=
  if etInt et then
    let w := etWidth et
    let x : Int := if etSigned et then signed w a else ((a % 2 ^ w : Nat) : Int)
    let y : Int := if etSigned et then signed w b else ((b % 2 ^ w : Nat) : Int)
    (match r with
      | .eq => decide (x = y) | .ne => decide (x ≠ y) | .lt => decide (x < y) | .le => decide (x ≤ y)
      | .un => false, 0)
  else
    let f := fmtOf et
    let va := decodeBin f a
    let vb := decodeBin f b
    let un := va.isNan || vb.isNan
    let sn := va.isSnan || vb.isSnan
    let ka : Int := if va.isZero then 0 else orderKey f.width a
    let kb : Int := if vb.isZero then 0 else orderKey f.width b
    match r with
    | .eq => (!un && decide (ka = kb), flagIf sn NV)
    | .ne => (un || decide (ka ≠ kb), flagIf sn NV)
    | .lt => (!un && decide (ka < kb), flagIf un NV)
    | .le => (!un && decide (ka ≤ kb), flagIf un NV)
    | .un => (un, flagIf sn NV)

/-- The choosing reductions (R291): what they choose. -/
inductive Pick where
  | min | max | amax
  deriving DecidableEq, Repr

/-- The identity of a choosing reduction (R292). -/
def pickIdentity (p : Pick) (et : BitVec 4) : Nat :=
  let w := etWidth et
  match p with
  | .min => if et = 11 then 0x7F else if !etInt et then (fmtOf et).infCode
            else if etSigned et then 2 ^ (w - 1) - 1 else 2 ^ w - 1
  | .max => if et = 11 then 0xFF else if !etInt et then infOf (fmtOf et) true
            else if etSigned et then 2 ^ (w - 1) else 0
  | .amax => 0

/-- The value by which a choosing reduction orders a lane's code. -/
def pickKey (p : Pick) (et : BitVec 4) (code : Nat) : Int :=
  let w := etWidth et
  match p with
  | .amax =>
    if etInt et then (if etSigned et then ((signed w code).natAbs : Int) else ((code % 2 ^ w : Nat) : Int))
    else ((code % 2 ^ (w - 1) : Nat) : Int)
  | _ =>
    if etInt et then (if etSigned et then signed w code else ((code % 2 ^ w : Nat) : Int))
    else orderKey w code

/-- Choose between two codes. -/
def pickTwo (p : Pick) (et : BitVec 4) (a b : Nat) : Nat :=
  match p with
  | .min => if pickKey p et b < pickKey p et a then b else a
  | _ => if pickKey p et a < pickKey p et b then b else a

/-- Is a code of this type a NaN? -/
def isNanCode (et : BitVec 4) (code : Nat) : Bool := !etInt et && (decode et 0 code).isNan

/-- Is a code of this type a signalling NaN? -/
def isSnanCode (et : BitVec 4) (code : Nat) : Bool := !etInt et && (decode et 0 code).isSnan

/-- The chosen lane as a 64-bit result (R291). -/
def pickResult (p : Pick) (et : BitVec 4) (code : Nat) : Word :=
  let w := etWidth et
  match p with
  | .amax =>
    if etInt et then BitVec.ofInt 64 (pickKey .amax et code) else BitVec.ofNat 64 (code % 2 ^ (w - 1))
  | _ => if etSigned et then BitVec.ofInt 64 (signed w code) else BitVec.ofNat 64 (code % 2 ^ w)

/-- VRED.MIN, MAX, AMAX and, with `ign`, MINN, MAXN, AMAXN (R291, R292). -/
def redPick (p : Pick) (ign : Bool) (et : BitVec 4) (s : List Nat) : Word × Flags :=
  let sn := flagIf (s.any (isSnanCode et)) NV
  let nan := BitVec.ofNat 64 (canonOf et)
  match s with
  | [] => (pickResult p et (pickIdentity p et), 0)
  | _ =>
    if !ign && s.any (isNanCode et) then (nan, sn ||| NANW)
    else
      match s.filter (fun c => !isNanCode et c) with
      | [] => (nan, sn ||| NANW)
      | x :: xs => (pickResult p et (xs.foldl (pickTwo p et) x), sn)

/-- VRED.ADDI (R291). -/
def redAddI (et : BitVec 4) (s : List Nat) : Word :=
  s.foldl (fun acc c =>
    acc + BitVec.ofInt 64 (if etSigned et then signed (etWidth et) c else ((c % 2 ^ etWidth et : Nat) : Int))) 0

/-- VRED.ADDF (R291, R292): the exact sum, rounded once into f32; any NaN lane gives the canonical NaN. -/
def redAddF (et : BitVec 4) (rm : BitVec 2) (s : List Nat) : Word × Flags :=
  match s with
  | [] => (0, 0)
  | _ =>
    let (c, fl) := sumTerms f32 rm (s.map (decode et 0))
    (BitVec.ofNat 64 c, fl)

/-- Multiply an exact value by 2^k. -/
def Val.scale (v : Val) (k : Int) : Val :=
  match v with
  | .fin n m e => .fin n m (e + k)
  | v => v

/-- One lane of VSCALE (R232). -/
def scaleLane (et : BitVec 4) (rm : BitVec 2) (nanscale : Bool) (k : Int) (code : Nat) : Nat × Flags :=
  let f := fmtOf et
  let v := decodeBin f code
  if nanscale then (f.canon, NV)
  else encodeBin f rm (v.scale k)

/-- One accumulator of a floating-point k-step (R307): the accumulator's f32 code, the scale exponent, the decoded
pairs of the span, and whether a scale is the NaN scale. -/
def kstepF (rm : BitVec 2) (nanscale : Bool) (sc : Int) (acc : Nat) (pairs : List (Val × Val)) : Nat × Flags :=
  let va := decodeBin f32 acc
  let prods := pairs.map fun p => mulVal p.1 p.2
  let terms := va :: prods.map fun p => p.1.scale sc
  if nanscale || va.isNan || prods.any (fun p => p.1.isNan) then (0x7FC00000, NV)
  else
    let (c, fl) := sumTerms f32 rm terms
    (c, fl)

/-- One accumulator of an integer k-step (R307): the new i32 code, and whether it wrapped. -/
def kstepI (acc : Nat) (pairs : List (Int × Int)) : Nat × Bool :=
  let x := signed 32 acc + pairs.foldl (fun a p => a + p.1 * p.2) 0
  (wrap 32 x, decide (x < -((2 ^ 31 : Nat) : Int)) || decide (((2 ^ 31 : Nat) : Int) - 1 < x))

/-- One element of MXST (R315): the accumulator decoded, scaled, and encoded once. -/
def mxstElem (et : BitVec 4) (rm : BitVec 2) (zp : Nat) (nan : Bool) (k : Int) (v : Val) : Nat × Flags :=
  if nan then encode et rm zp (.nan false) else encode et rm zp (v.scale k)

end Sys2Proof.Flt
end

