-- ==== Sys2Proof/Syntax/Fields.lean ====
section
/-! DEFINITION. The fields of the instruction formats A, I, L, M, B, C, E and P (R172 to R178, R186),
each as the bits the manual gives it. -/

namespace Sys2Proof

/-- Format A (R173): register and vector operations, LEN 0b01. -/
structure AOps where
  dst : Spec
  sa : Spec
  sb : Spec
  pred : BitVec 3
  sc : Spec
  et : BitVec 4
  ka : BitVec 6
  kb : BitVec 6
  pn : Bool
  deriving DecidableEq, Repr

/-- Format I (R174): format A with SB 0x00 and a 32-bit immediate, LEN 0b10. -/
structure IOps where
  dst : Spec
  sa : Spec
  pred : BitVec 3
  sc : Spec
  et : BitVec 4
  ka : BitVec 6
  kb : BitVec 6
  pn : Bool
  imm : BitVec 32
  deriving DecidableEq, Repr

/-- Format L (R174): format A with SB 0x00 and a 64-bit immediate, LEN 0b11. -/
structure LOps where
  dst : Spec
  sa : Spec
  pred : BitVec 3
  sc : Spec
  et : BitVec 4
  ka : BitVec 6
  kb : BitVec 6
  pn : Bool
  imm : BitVec 64
  deriving DecidableEq, Repr

/-- The three lengths of format M (R175), by their LEN codes 0b01, 0b10 and 0b11. -/
abbrev MLen := BitVec 2

/-- Format M (R175): loads, stores, atomics, reductions and memory-naming synchronisation.
`flag`, `fl` and `offhi` stand only in the 96-bit form, `disp` only in the 128-bit form; in the other
forms they are zero. -/
structure MOps where
  len : MLen
  dst : Spec
  sa : Spec
  sb : Spec
  pred : BitVec 3
  strm : BitVec 4
  scope : BitVec 2
  ord : BitVec 3
  batch : BitVec 2
  bnd : Bool
  grp : Bool
  off : BitVec 13
  flag : Spec
  fl : Bool
  offhi : BitVec 23
  disp : BitVec 64
  deriving DecidableEq, Repr

/-- Format B (R176): branches. -/
structure BOps where
  dst : Spec
  sa : Spec
  sb : Spec
  pred : BitVec 3
  off : BitVec 24
  pn : Bool
  deriving DecidableEq, Repr

/-- Format C (R177): control and system forms. -/
structure COps where
  dst : Spec
  sa : Spec
  sb : Spec
  pred : BitVec 3
  imm : BitVec 16
  pn : Bool
  deriving DecidableEq, Repr

/-- Format E (R178): engine, message and task commands. -/
structure EOps where
  dst : Spec
  sa : Spec
  sb : Spec
  pred : BitVec 3
  sc : Spec
  et : BitVec 4
  vq : BitVec 2
  ke : BitVec 10
  pn : Bool
  deriving DecidableEq, Repr

/-- Format P (R186): the REP prefix. -/
structure POps where
  count : BitVec 8
  sd : BitVec 4
  ssa : BitVec 4
  ssb : BitVec 4
  ssc : BitVec 4
  soff : BitVec 16
  deriving DecidableEq, Repr

end Sys2Proof
end

