-- ==== Sys2Proof/Syntax/Events.lean ====
section
/-! DEFINITION. What the device's own steps carry: the table of operations lists, beside the 296 instructions,
the steps of the home slices, engines, fabric, scheduler, control complex and board.  These are the names and
records those steps are about. -/

namespace Sys2Proof

/-- A physical seat (R3, R4): its core number and its seat number 0 to 3. -/
structure SeatId where
  core : Nat
  seat : Nat
  deriving DecidableEq, Repr

/-- A context that touches a line (R70, R71): its device, context number and seat. -/
structure Party where
  dev : Nat
  ctx : Nat
  seat : SeatId
  deriving DecidableEq, Repr

/-- Which of a core's or cluster's two engines (R323): copy or collective. -/
inductive Eng where
  | copy
  | coll
  deriving DecidableEq, Repr

/-- Who made a request (R35): a seat, an engine's virtual queue, a fabric port on behalf of another device,
a scale-out port's DMA engine, or a runtime port (R2). -/
inductive Origin where
  | seat (id : SeatId) (ctx : Nat) (pc : BitVec 32)
  | engine (e : Eng) (id : SeatId) (ctx : Nat) (vq num : Nat) (pc : BitVec 32)
  | fabric (dev : Nat) (ctx : Nat)
  | scaleOut (port : Nat)
  | port (k : Nat)
  deriving DecidableEq, Repr

/-- The operations of the atomics and reductions (R263, R266). -/
inductive AtomOp where
  | add | and | or | xor | minS | minU | maxS | maxU | xchg
  | cas (expect : Word)
  | fadd (rm : BitVec 2)
  deriving DecidableEq, Repr

/-- What a memory request does.  A store carries its enabled bytes, each at its device offset, and its flag's
device offset (R94); `sync` says that a detected or synchronising access made it (R68). -/
inductive MemOp where
  | load
  | store (bytes : List (Nat × Byte)) (flag : Option Nat)
  | atomic (op : AtomOp) (w : Nat) (b : Word) (reply : Bool)
  | note (all : Bool)
  | swset (target : BitVec 32)
  deriving DecidableEq, Repr

/-- A request at a coherence point (R56): `off` is a device offset of this device. -/
structure MemReq where
  origin : Origin
  tenant : Nat
  off : Nat
  len : Nat
  op : MemOp
  deriving DecidableEq, Repr

/-- A stream source (R88). -/
structure StreamSrc where
  dev : Nat
  ctx : Nat
  strm : Nat
  deriving DecidableEq, Repr

/-- A companion of a bundle (R107): a device and one of its home slices. -/
structure Comp where
  dev : Nat
  slice : Nat
  deriving DecidableEq, Repr

/-- A stamp (R111): a time in nanoseconds and a device number, compared in that order. -/
structure Stamp where
  t : Nat
  d : Nat
  deriving DecidableEq, Repr

/-- A bundled store's bytes for the lines of one home slice (R110). -/
structure Prepare where
  ident : Word
  comps : List Comp
  bytes : List (Nat × Byte)
  tenant : Nat
  ctx : Nat
  deriving DecidableEq, Repr

/-- A store that another device's stream carries here (R89, R96). -/
structure StreamStore where
  src : StreamSrc
  seq : Nat
  tenant : Nat
  handle : BitVec 32
  flagHandle : BitVec 32
  off : Nat
  len : Nat
  bytes : List (Nat × Byte)
  flag : Option Nat
  batch : Nat
  bundle : Option (Word × List Comp)
  deriving DecidableEq, Repr

/-- What a group load asks with (R117): its snapshot time, the open bundle of its context, whose version it reads (R65), and its tenant,
under whose world it is answered (R393). -/
structure Snapshot where
  t : Nat
  own : Option Word
  tenant : Nat
  deriving DecidableEq, Repr

/-- What a remote device answers to a load or atomic (R14, R32, R264): bytes with the conflicts of their lines and the time of the
lines' reading there (R70, R71), or a group load's bytes with its cause of loss and the devices consulted (R118, R120). -/
inductive Reply where
  | data (bytes : List Byte) (flags : BitVec 7) (conflicts : List (Nat × Party × Bool)) (at' : Nat)
  | group (bytes : List Byte) (lost : Option Nat) (devs : List Nat)
  | refused (reason : Nat)
  | lost
  deriving DecidableEq, Repr

/-- A companion's answer to FINAL (R112). -/
inductive FinalAns where
  | ok (m : Nat)
  | no (reason : Nat)
  deriving DecidableEq, Repr

/-- A bundle's fate as a fate reply gives it (R118). -/
inductive Fate where
  | undecided
  | committed (c : Stamp)
  | aborted
  deriving DecidableEq, Repr

/-- What a slice says of a bundle's fate (R118, R121): the snapshot time that it was asked for, the slice that replies, and the fate. -/
structure FateAnswer where
  t : Nat
  replier : Comp
  fate : Fate
  deriving DecidableEq, Repr

/-- What a device sends in answer to a request, or as a message of the bundle protocol (R90, R97, R112, R118, R403): the response set of a
link carries it. -/
inductive Response where
  | ack (ctx strm seq : Nat) (refused : Option Nat)
  | reply (ctx : Nat) (cmd : Option (Nat × Nat)) (r : Reply)
  | closeReply (ctx tag refused : Nat) (reasons : BitVec 8)
  | windowGrant (ctx strm : Nat)
  | prepare (p : Prepare)
  | prepareAck (ctx : Nat) (ident : Word) (slice : Nat) (refused : Option Nat)
  | final (slice : Nat) (ident : Word) (comps : List Comp)
  | finalReply (ctx slice : Nat) (a : FinalAns)
  | commit (slice : Nat) (ident : Word) (s : Stamp)
  | abort (slice : Nat) (ident : Word)
  | outcomeAck (ident : Word) (slice : Nat)
  | question (ident : Word) (t slice : Nat) (asker : Comp)
  | fate (slice : Nat) (ident : Word) (a : FateAnswer)
  deriving DecidableEq, Repr

/-- What a packet from another device asks for (R32): among the rest, the judging of a read-cache hit (R70), an implicit split
(R73), a reorder window asked for, given back, or freed by a kill (R90, R92), a store that is tried no more (R32), the batch counts of a
context that has ended (R96), a readmission (R406), and the answers of another device.  A load names the open bundle of its context (R258). -/
inductive PktBody where
  | store (st : StreamStore)
  | load (p : Party) (handle : BitVec 32) (parts : List (Nat × Nat)) (sync : Bool) (own : Option Word)
  | engineLoad (ctx vq num : Nat) (handle : BitVec 32) (parts : List (Nat × Nat))
  | regionEnd (ctx : Nat)
  | groupLoad (ctx : Nat) (handle : BitVec 32) (parts : List (Nat × Nat)) (t : Snapshot)
  | atomic (ctx : Nat) (handle : BitVec 32) (off : Nat) (op : AtomOp) (w : Nat) (b : Word) (reply : Bool)
  | note (ctx : Nat) (handle : BitVec 32) (off : Nat) (all : Bool)
  | waitv (part rec : Nat) (handle : BitVec 32) (off : Nat) (val : Word)
  | wake (part rec : Nat) (cause : Nat)
  | close (ctx tag : Nat)
  | hit (p : Party) (handle : BitVec 32) (line filled : Nat) (parts : List (Nat × Nat))
  | split (ctx : Nat)
  | windowAsk (ctx strm next : Nat)
  | windowBack (ctx strm : Nat)
  | windowsFree (ctx : Nat)
  | batchesEnd (ctx : Nat)
  | readmit
  | response (r : Response)
  | abandon (st : StreamStore)
  | message (net : Bool) (core part ctx seq : Nat) (data : BitVec 512)
  deriving DecidableEq, Repr

/-- A packet on the fabric (R402, R403): the time of its first sending, its hop channel, its tenant field, its sender's launch entry where
a context or its engines sent it (R373), its class (R388), whether its tag verifies and the key generation that sealed it (R393). -/
structure Packet where
  src : Nat
  dst : Nat
  time : Nat
  hop : Nat
  tenant : Nat
  lslot : Option Nat
  cls : Nat
  tagOk : Bool
  keyGen : Nat
  body : PktBody
  deriving DecidableEq, Repr

/-- What a runtime port issues for its control core (R2): an access of this device by its bytes, an instruction's form with the values of its
scalar registers and of v0, which for an engine command begins with the command block, or a service of the runtime. -/
inductive PortReq where
  | form (bits : BitVec 128) (regs : List (Nat × Word)) (vec : Vec)
  | load (ga : Word) (len : Nat)
  | store (ga : Word) (bytes : List Byte)
  | atomic (ga : Word) (op : AtomOp) (w : Nat) (b : Word)
  | note (ga : Word) (all : Bool)
  | launch (part : Nat) (index : Nat)
  | dect (ga : Word) (n : BitVec 16)
  | copy (dst src : Word) (len : Nat)
  | send (net : Bool) (dest : Word) (data : BitVec 512)
  | savedReg (ctx : Nat) (reg : Nat) (val : Word)
  | savedImage (ctx : Nat) (image igen : Nat)
  | mxcap (ctx : Nat) (val : Word)
  | hostBuffer (granule : Nat) (on : Bool)
  deriving DecidableEq, Repr

/-- One contribution to a collective (R334, R335). -/
structure Contribution where
  tenant : Nat
  group : Nat
  seq : Nat
  index : Nat
  nm1 : Nat
  rootDev : Nat
  form : Nat
  et : BitVec 4
  len : Nat
  nanign : Bool
  rm : BitVec 2
  data : List Byte
  dev : Nat
  ctx : Nat
  vq : Nat
  num : Nat
  timeout : Nat
  keyGen : Nat
  deriving DecidableEq, Repr

/-- The sections that the device reads of a portable object, and .seal (R196); any other is dropped. -/
inductive SecName where
  | text | rodata | data | lmem | actors | channels | regions | tensors | traps | seal | other
  deriving DecidableEq, Repr

/-- A section of a file (R196): its name, its header's type, flags and entry size, and its contents. -/
structure PSection where
  name : SecName
  typ : Nat
  flags : Nat
  entsize : Nat
  data : List Byte
  deriving DecidableEq, Repr

/-- A symbol (R201): the type of its st_info, its st_shndx, and its value. -/
structure PSymbol where
  typ : Nat
  shndx : Nat
  value : Nat
  deriving DecidableEq, Repr

/-- A Rela entry (R202): the header index of the section it applies to, its type, the offset in that section, its symbol's index and
its addend. -/
structure PReloc where
  sec : Nat
  typ : Nat
  place : Nat
  sym : Nat
  addend : Int
  deriving DecidableEq, Repr

/-- A portable object or a sealed image as a file (R195, R196, R201 to R203): the header values that R195 fixes, the sections, numbered
from 1, the symbols, the relocations, the entry tables that .entry marks as (offset in .rodata, labels), and the core and rights of
each .cap. -/
structure PFile where
  eclass : Nat
  edata : Nat
  osabi : Nat
  etype : Nat
  machine : Nat
  eentry : Nat
  eflags : BitVec 32
  sections : List PSection
  symbols : List PSymbol
  relocs : List PReloc
  tables : List (Nat × Nat)
  caps : List (Nat × Nat)
  deriving DecidableEq, Repr

/-- What the runtime binds a reference to when it loads an image (R205, R208): the handle, and the base, which during a move is the new
one (R214). -/
structure PBind where
  ref : Nat
  handle : BitVec 32
  base : Word
  foldAsked : Bool
  deriving DecidableEq, Repr

/-- What the runtime gives the translator: an object, or none to translate the kept object of the image again (R214), the image id, the
tenant, the bindings, and the NONCE of the capability that it grants for each .cap (R299). -/
structure PObject where
  file : Option PFile
  image : Nat
  tenant : Nat
  binds : List PBind
  nonces : List Nat
  deriving DecidableEq, Repr

/-- The verbs of the scale-out ports (R407): an RDMA READ or WRITE, a SEND, and a buffer posted for the next SEND that comes. -/
inductive Verb where
  | rdma | send | receive
  deriving DecidableEq, Repr

/-- A work request of a scale-out port's DMA engine (R407), on a queue pair of a partition. -/
structure WorkReq where
  port : Nat
  pair : Nat
  verb : Verb
  part : Nat
  handle : BitVec 32
  off : Nat
  write : Option (List Byte)
  len : Nat
  deriving DecidableEq, Repr

/-- A host DMA access to a granule (R389). -/
structure HostAccess where
  off : Nat
  write : Option (List Byte)
  len : Nat
  deriving DecidableEq, Repr

/-- The firmware measurements of an attestation report (R395). -/
structure Measures where
  fw : BitVec 512
  dtn : BitVec 512
  tr : BitVec 512
  tver : BitVec 32
  deriving DecidableEq, Repr

/-- Where an uncorrectable error stands (R359, code 17): its SUB, whether it is a MAC block's tag that fails (R391), and the GA, LA or row. -/
structure EccErr where
  core : Nat
  sub : Nat
  tag : Bool
  val : Word
  ctx : Option Nat
  blocked : List Nat
  deriving DecidableEq, Repr

end Sys2Proof
end

