-- ==== Sys2Proof/Syntax.lean ====
section
/-! DEFINITION. The instructions and steps of the Plovash 7: one constructor per row of the opcode table.
First the 117 steps of the device's parts that are not instructions, then the 296 instructions
of R191, each group in the table's order. -/

namespace Sys2Proof

/-- One constructor per row of spec/opcode_table.json. -/
inductive Instr where
  /-- PAD_SKIP (R170): A PAD word moves the seat to the next fetch-block boundary. -/
  | padSkip
  /-- RUNTIME_PORT_ACCESS (R2): A runtime port issues a tenant-0 access or command on behalf of a control core. -/
  | runtimePortAccess (k : Nat) (r : PortReq)
  /-- CONTROL_BLOCK_WRITE (R13): A write to a control block register without a row of its own, with clamps and W1C applied. -/
  | controlBlockWrite (off : Nat) (mask val : Word)
  /-- REGION_UPDATE (R22): Writing RUPCMD.BUSY publishes a descriptor and broadcasts its invalidation. -/
  | regionUpdate (index : Nat)
  /-- REGION_UPDATE_COMPLETE (R23): Once invalidations, performs, engine holds and stops are done, BUSY clears. -/
  | regionUpdateComplete
  /-- REGION_INVALIDATION (R26): An invalidation reaches a core, which drops or marks its cached descriptor. -/
  | regionInvalidation (core index gen : Nat)
  /-- DESCRIPTOR_FETCH_RETURN (R27): A region-cache fetch returns; it is used, refetched, or fails REFETCH. -/
  | descriptorFetchReturn (ctx : Nat)
  /-- OWNER_MAP_UPDATE (R36): Writing OMUPCMD.BUSY starts dropping cached owner entries for a granule. -/
  | ownerMapUpdate (granule : Nat)
  /-- OWNER_MAP_UPDATE_COMPLETE (R36): Every slice has dropped the entry; in confidential mode UNW is set over the granule. -/
  | ownerMapUpdateComplete
  /-- OWNER_ENTRY_FETCH_RETURN (R33): An owner-map entry fetched on a miss returns to the home slice. -/
  | ownerEntryFetchReturn (slice granule : Nat)
  /-- HOME_SLICE_REQUEST (R56): A memory request reaches its line's home slice, is judged, performed and recorded. -/
  | homeSliceRequest (r : MemReq)
  /-- WINDOW_REQUEST (R387): A request through a core's window reaches the owning core's banks or its swap image. -/
  | windowRequest (r : MemReq)
  /-- LOAD_REPLY (R64): A load or atomic reply returns its value to the seat. -/
  | loadReply (ctx dev : Nat) (cmd : Option (Nat × Nat)) (r : Reply)
  /-- SPLIT_REQUEST (R73): A full coherence point asks the oldest record's context to split. -/
  | splitRequest (ctx : Nat)
  /-- REORDER_WINDOW_GRANT (R90): A destination grants a reorder window to a stream source. -/
  | reorderWindowGrant (ctx strm dev : Nat)
  /-- STREAM_STORE_ARRIVAL (R89): A streamed store arrives and performs in sequence order with any stores it releases. -/
  | streamStoreArrival (st : StreamStore)
  /-- STORE_ACK (R90): A store's acknowledgement reaches the issuing context. -/
  | storeAck (ctx strm dev seq : Nat) (refused : Option Nat)
  /-- FABRIC_REQUEST_ARRIVAL (R32): The destination fabric port authenticates and region-checks a remote request. -/
  | fabricRequestArrival (p : Packet)
  /-- FABRIC_FORWARD (R404): A packet is routed onward by the route table or discarded as ROUTEERR. -/
  | fabricForward (p : Packet)
  /-- REMOTE_MOVING_RETRY (R32): Every 1 µs the source port retries a request refused MOVING. -/
  | remoteMovingRetry (k : Nat)
  /-- BATCH_CLOSE_ARRIVAL (R97): A CLOSE reaches a peer, which replies once the batch's stores have performed. -/
  | batchCloseArrival (dev ctx tag : Nat)
  /-- BATCH_CLOSE_REPLY (R97): A peer's close reply arrives; the last one completes the batch status. -/
  | batchCloseReply (ctx tag dev refused : Nat) (reasons : BitVec 8)
  /-- LINK_TIMEOUT (R102): An owed reply overdue by TIMEOUT marks the peer lost and ends dependent waits. -/
  | linkTimeout (dev : Nat)
  /-- BUNDLE_PREPARE (R110): A bundled store prepares a pending version at its home slice. -/
  | bundlePrepare (p : Prepare)
  /-- PREPARE_ACK (R123): A prepare acknowledgement or refusal reaches the issuer. -/
  | prepareAck (ctx : Nat) (ident : Word) (comp : Comp) (refused : Option Nat)
  /-- BUNDLE_FINAL (R112): A companion receives FINAL and replies OK(m) or NO(reason). -/
  | bundleFinal (slice : Nat) (ident : Word) (comps : List Comp)
  /-- FINAL_REPLY (R112): A companion's FINAL reply reaches the issuer. -/
  | finalReply (ctx dev slice : Nat) (ans : FinalAns)
  /-- BUNDLE_DECIDE (R112): The decider records COMMITTED with stamp C, the commit point. -/
  | bundleDecide (ident : Word) (m : Nat)
  /-- BUNDLE_COMMIT (R352): A companion installs the bundle's versions, or acknowledges an earlier install. -/
  | bundleCommit (slice : Nat) (ident : Word) (c : Stamp)
  /-- COMMIT_ACK (R112): A companion's commit acknowledgement reaches the issuer. -/
  | commitAck (ident : Word) (dev slice : Nat)
  /-- BUNDLE_ABORT (R352): A companion discards the bundle's pending versions. -/
  | bundleAbort (slice : Nat) (ident : Word)
  /-- FATE_QUESTION (R118): A companion or the decider answers or forwards a fate question. -/
  | fateQuestion (ident : Word) (t : Nat) (slice : Nat) (asker : Comp)
  /-- FATE_REPLY (R118): A fate reply arrives; the slice installs, aborts or passes over the version. -/
  | fateReply (slice : Nat) (ident : Word) (answer : FateAnswer)
  /-- GROUP_LOAD_SERVE (R117): A home slice serves a group load at the snapshot stamp. -/
  | groupLoadServe (dev ctx : Nat) (h : BitVec 32) (parts : List (Nat × Nat)) (t : Snapshot)
  /-- LANDING (R51): Landed bytes raise a sync word's COUNT and GEN and release waiting seats. -/
  | landing (core la n : Nat)
  /-- DECT_APPLY (R140): A decrement applies at the record's home slice and may make it READY. -/
  | dectApply (part rec c n : Nat)
  /-- DISPATCH_PACKET (R157): A dispatch packet is offered at a core, taken, or queued at the dispatch point. -/
  | dispatchPacket (part rec : Nat)
  /-- PACKET_RETURN (R158): A packet that a core could not take returns to the head of its queue. -/
  | packetReturn (part rec cluster : Nat)
  /-- FREE_NOTE (R158): A free note makes a dispatch point send its first fitting queued task. -/
  | freeNote (core cluster : Nat)
  /-- CHAIN_CLAIM (R157): A dispatch point claims k seats of a snake run for a chain. -/
  | chainClaim (part rec : Nat)
  /-- DISPLACEMENT (R161): A class-0 task waiting 10 µs displaces the least urgent youngest firing. -/
  | displacement (part rec : Nat)
  /-- FIRING_START (R143): A core starts a firing: acquire, CSRs, argument registers and templates. -/
  | firingStart (part rec : Nat) (seats : List SeatId)
  /-- LAUNCH_SCAN (R164): Two passes check and launch every record of a placed launch. -/
  | launchScan (slot : Nat)
  /-- LAUNCH_COMPLETE (R165): When all records are done, DONEGA is raised and notified and the entry freed. -/
  | launchComplete (slot : Nat)
  /-- HOST_LAUNCH_MESSAGE (R165): A host launch message is issued by the system image, or refused by Dentan. -/
  | hostLaunchMessage (part index : Nat)
  /-- HOST_SERVICE_MESSAGE (R408): A host message arrives in a function's message window. -/
  | hostServiceMessage (fn : Nat) (data : List Byte)
  /-- WAIT_ENQUEUE (R148): The word's home slice tests a WAITV condition and parks or readies the record. -/
  | waitEnqueue (part rec off : Nat) (val : Word)
  /-- NOTE_WAKE (R150): A NOTE at the home slice readies the waiters whose condition holds. -/
  | noteWake (off : Nat) (all : Bool)
  /-- OVERFLOW_RECHECK (R150): At least every 10 µs the slice rechecks its overflow list. -/
  | overflowRecheck (slice : Nat)
  /-- CHAIN_STALL_TIMEOUT (R152): A pv or nx stall of 65,536 cycles raises a fatal chain fault. -/
  | chainStallTimeout (id : SeatId)
  /-- IMAGE_GEN_REWRITE (R213): Writing IMGCMD.BUSY starts rewriting IGEN in live records. -/
  | imageGenRewrite
  /-- IMAGE_GEN_REWRITE_COMPLETE (R213): Every home slice has rewritten its records, and BUSY clears. -/
  | imageGenRewriteComplete
  /-- OBJECT_TRANSLATE (R205): The Oluzer translator admits or rejects a portable object and seals the image. -/
  | objectTranslate (o : PObject)
  /-- COPY_ACCEPT (R327): An engine accepts or refuses a command after checking each side's span. -/
  | copyAccept (e : Eng) (ctx vq num : Nat)
  /-- COMMAND_START (R324): An engine starts a command by weighted round robin over its queues. -/
  | commandStart (e : Eng) (place : Nat)
  /-- COMMAND_COMPLETE (R331): A command completes, writes its status record and advances DONE. -/
  | commandComplete (e : Eng) (ctx vq num : Nat)
  /-- COPY_QUIESCE_DONE (R364): The quiesce ends and the seat enters its yield handler or a forced save. -/
  | copyQuiesceDone (id : SeatId)
  /-- COLL_CONTRIBUTION (R335): A contribution reaches a router and combines in a reduction slot. -/
  | collContribution (c : Contribution)
  /-- COLL_SLOT_DEADLINE (R335): A slot's deadline passes and the instance completes PARTIAL or NOSLOT. -/
  | collSlotDeadline (tenant group seq : Nat)
  /-- COLL_RESULT (R335): The root's result reaches a contributor and its command completes. -/
  | collResult (ctx vq num status arrived : Nat) (flags : BitVec 7) (missing : List Nat) (data : List Byte)
  /-- MESSAGE_LAND (R341): A message lands in a mailbox slot and decrements the named counter. -/
  | messageLand (net : Bool) (core : Nat)
  /-- MXCMD_ARRIVAL (R318): A remote matrix command is accepted into the owner's queue or refused. -/
  | mxcmdArrival (core : Nat)
  /-- MXCMD_REPLY (R318): The MXCMD status reply reaches the sender's sD. -/
  | mxcmdReply (ctx num status cause : Nat)
  /-- SEQUENCER_COMMAND (R300): The sequencer executes the next queued matrix command. -/
  | sequencerCommand (core pick start : Nat)
  /-- KSTEP (R307): One k-step adds its exact scaled product sums into the accumulators. -/
  | kstep (core : Nat)
  /-- SLICE_BOUNDARY (R385): At a slice boundary, outgoing seats yield and incoming tasks become dispatchable. -/
  | sliceBoundary
  /-- SCRATCHPAD_SWAP (R385): Once seats are idle, the scratchpad is swapped out and the incoming image loaded. -/
  | scratchpadSwap (core : Nat)
  /-- YIELD_BUDGET_OVERRUN (R366): The yield handler overruns YBUDGET and a forced full save begins. -/
  | yieldBudgetOverrun (id : SeatId)
  /-- FORCED_SAVE_COMPLETE (R366): The forced full save is written and the record becomes YIELDED. -/
  | forcedSaveComplete (id : SeatId)
  /-- CONTEXT_RESUME (R370): A yielded context resumes: state restored, copies settled, RESUME handler entered. -/
  | contextResume (ctxs : List Nat) (seats : List SeatId)
  /-- IMPRECISE_FAULT_DELIVERY (R358): An imprecise fault stops its context within 32 instructions. -/
  | impreciseFaultDelivery (ctx : Nat)
  /-- KILL (R374): Writing KILLCMD.BUSY floods the mesh and purges every context in scope. -/
  | kill
  /-- KILL_DISCARD_WINDOW_END (R374): A router's 4,096-cycle window of discarding in-scope packets ends. -/
  | killDiscardWindowEnd (core : Nat)
  /-- KILL_CONFIRM (R373): The purge is confirmed, KILLSTAT is set and BUSY clears. -/
  | killConfirm
  /-- PARTITION_FORM (R381): A PARTCMD FORM checks the rectangle and makes the partition live. -/
  | partitionForm
  /-- PARTITION_RELEASE (R381): A PARTCMD RELEASE kills, scrubs and frees a partition. -/
  | partitionRelease
  /-- PARTITION_RESLOT (R381): A PARTCMD RESLOT sets new slots for the next boundary. -/
  | partitionReslot
  /-- PARTCMD_COMPLETE (R381): A partition operation completes with its status and BUSY clears. -/
  | partcmdComplete
  /-- SLICECTL_WRITE (R384): A new slice length and rotation is scheduled for a later boundary. -/
  | slicectlWrite (val : Word)
  /-- MODE_RESET (R390): Writing MODECTL.RESET kills, scrubs, rekeys and reboots the device. -/
  | modeReset
  /-- MODE_RESET_BOOT_DONE (R390): Dentan's boot completes after a mode reset. -/
  | modeResetBootDone
  /-- KEY_ROTATION (R394): Writing KEYCMD.BUSY starts a three-phase key rotation of a world. -/
  | keyRotation
  /-- KEY_ROTATION_COMPLETE (R394): The re-seal of phase 3 finishes and BUSY clears. -/
  | keyRotationComplete
  /-- ATTESTATION_REQUEST (R395): The root of trust produces a signed attestation report. -/
  | attestationRequest (part : Nat) (nonce : BitVec 256)
  /-- FIRMWARE_ACTIVATION_COMPLETE (R396): A firmware activation publishes its new measurements at once. -/
  | firmwareActivationComplete (m : Measures)
  /-- LINK_UP (R405): A Brotaig link finishes training and learns its peer. -/
  | linkUp (port peer : Nat)
  /-- LINK_DOWN (R404): A link goes down; if every route is lost, the peer is marked lost at once. -/
  | linkDown (port : Nat)
  /-- FLIT_RETRY (R402): A flit failing its CRC is retried on the same link. -/
  | flitRetry (port : Nat)
  /-- PEER_READMIT (R406): PEERCMD READMIT clears a lost mark and resets stream sequences. -/
  | peerReadmit (answers : Bool)
  /-- PEER_MARKLOST (R406): PEERCMD MARKLOST marks a peer lost at once. -/
  | peerMarklost
  /-- PEER_RETRAIN (R406): PEERCMD RETRAIN retrains the links to a peer. -/
  | peerRetrain
  /-- PEERCMD_COMPLETE (R406): A peer command completes with its status and BUSY clears. -/
  | peercmdComplete
  /-- SCALEOUT_WORK_REQUEST (R407): A scale-out DMA work request is checked by handle and executed. -/
  | scaleoutWorkRequest (w : WorkReq)
  /-- SCALEOUT_PACKET (R407): A RoCEv2 packet arrives at a scale-out port. -/
  | scaleoutPacket (tenant keyGen : Nat) (tagOk : Bool) (w : WorkReq)
  /-- HOST_LINK_RESET (R408): A hot reset or link-down resets only the host interface. -/
  | hostLinkReset
  /-- VF_RESET (R408): A function level reset drops one window's pending messages. -/
  | vfReset (fn : Nat)
  /-- HOST_DMA (R389): Host DMA reaches only runtime granules marked as host buffers. -/
  | hostDma (a : HostAccess)
  /-- POWER_STEP (R409): PSTEP pins sampled on PSTROBE set a power level. -/
  | powerStep (pins : BitVec 3)
  /-- I3C_POWER_LEVEL (R409): An I3C command 0x50 sets a power level. -/
  | i3cPowerLevel (data : Byte)
  /-- POWER_CAP_WRITE (R411): Dentan's write of PWRCAP sets a power level. -/
  | powerCapWrite (val : Word)
  /-- POWER_SAMPLE (R410): Every 10 µs the device samples power and advances or releases a stage. -/
  | powerSample (watts : Nat)
  /-- POWER_FAIL (R412): PFAIL stops work, force-saves every seat and drains state to flash. -/
  | powerFail
  /-- FLASH_DRAIN_DONE (R412): The power-fail image is written and FLASHDONE is signalled. -/
  | flashDrainDone
  /-- POWER_FAIL_RESTORE (R414): Dentan checks the image and restores accepted contexts as YIELDED. -/
  | powerFailRestore (sigOk : Bool) (accept : List Nat)
  /-- ROW_FLUSH (R415): Writing ROWFLUSH.BUSY copies yielded rows to their save areas. -/
  | rowFlush
  /-- ROW_FLUSH_COMPLETE (R415): Every row copy is written and BUSY clears. -/
  | rowFlushComplete
  /-- UNCORRECTABLE_ERROR (R416): An uncorrectable error faults its context and removes the core. -/
  | uncorrectableError (e : EccErr)
  /-- CORRECTED_ERROR (R416): A corrected error is counted against ERRTHR. -/
  | correctedError (core : Nat)
  /-- DEVICE_RESET (R18): A device reset scrubs state, runs self-test and boots. -/
  | deviceReset (failed : List Nat)
  /-- ECALL_ANSWER (R348): The system image's answer is written to the ECALL's destination. -/
  | ecallAnswer (ctx : Nat) (val : Word)
  /-- WAITT_EXPIRY (R349): A WAITT stall releases when its time or 1 ms is reached. -/
  | waittExpiry (id : SeatId)
  /-- UNASSIGNED_OP_VALUE (R192): The seat meets a word that is no form: a reserved or unassigned OP value, or LEN 0b00 that is not PAD, and takes a precise decode fault. -/
  | unassignedOpValue (item : Nat) (bits : Word)
  /-- CLUSTER_UNIT_ATOMIC (R81): An atomic or reduction of scope clu or sys reaches the cluster unit or fabric port that executes it; that unit takes the line from its home slice as sole owner and combines the operation. -/
  | clusterUnitAtomic (scope : BitVec 2) (r : MemReq)
  /-- LINK_TRAINING_FAILURE (R405): A Brotaig link fails a training attempt; after 3 failures in a row it stays down until Dentan retrains it. -/
  | linkTrainingFailure (port : Nat)
  /-- LINK_DOWN_REPLREQ_TIMEOUT (R417): A link that has stayed down for more than 1 s after three retrains sets REPLREQ. -/
  | linkDownReplreqTimeout (port : Nat)
  /-- FIRMWARE_ACTIVATION_START (R396): A firmware activation without a reset begins, and later attestation reports carry STALE. -/
  | firmwareActivationStart
  /-- IEEE_1588_TIME_SYNC (R385): The device adjusts its synchronised time to keep within 1 µs of its domain's IEEE 1588 grandmaster. -/
  | ieee1588TimeSync (t : Nat)
  /-- ADD (R235): Writes (SA + SB) mod 2^64 to DST in format A. -/
  | add (o : AOps)
  /-- ADD_IMM (R235): Format I ADD: adds the sign-extended IMM32 to SA. -/
  | addImm (o : IOps)
  /-- SUB (R235): Writes (SA - SB) mod 2^64 to DST in format A. -/
  | sub (o : AOps)
  /-- SUB_IMM (R235): Format I SUB with the sign-extended IMM32. -/
  | subImm (o : IOps)
  /-- MUL (R235): Writes the low 64 bits of SA times SB in format A. -/
  | mul (o : AOps)
  /-- MUL_IMM (R235): Format I MUL with the sign-extended IMM32. -/
  | mulImm (o : IOps)
  /-- MULH_S (R235): Writes the high 64 bits of the signed 128-bit product. -/
  | mulhS (o : AOps)
  /-- MULH_U (R235): Writes the high 64 bits of the unsigned 128-bit product. -/
  | mulhU (o : AOps)
  /-- DIV_S (R236): Signed division rounded toward zero that never traps. -/
  | divS (o : AOps)
  /-- DIV_U (R236): Unsigned division that never traps; division by 0 gives all ones. -/
  | divU (o : AOps)
  /-- REM_S (R236): Signed remainder, taking the sign of the dividend. -/
  | remS (o : AOps)
  /-- REM_U (R236): Unsigned remainder; division by 0 gives the dividend. -/
  | remU (o : AOps)
  /-- AND (R235): Bitwise AND in format A. -/
  | and (o : AOps)
  /-- AND_IMM (R235): Format I bitwise AND with IMM32. -/
  | andImm (o : IOps)
  /-- OR (R235): Bitwise OR in format A. -/
  | or (o : AOps)
  /-- OR_IMM (R235): Format I bitwise OR with IMM32. -/
  | orImm (o : IOps)
  /-- XOR (R235): Bitwise XOR in format A. -/
  | xor (o : AOps)
  /-- XOR_IMM (R235): Format I bitwise XOR with IMM32. -/
  | xorImm (o : IOps)
  /-- SHL (R235): Shifts SA left by SB mod 64. -/
  | shl (o : AOps)
  /-- SHR_L (R235): Logical right shift by SB mod 64. -/
  | shrL (o : AOps)
  /-- SHR_A (R235): Arithmetic right shift by SB mod 64. -/
  | shrA (o : AOps)
  /-- ROT (R235): Rotates SA left by SB mod 64. -/
  | rot (o : AOps)
  /-- MIN_S (R235): Writes the signed lesser of SA and SB. -/
  | minS (o : AOps)
  /-- MIN_U (R235): Writes the unsigned lesser of SA and SB. -/
  | minU (o : AOps)
  /-- MAX_S (R235): Writes the signed greater of SA and SB. -/
  | maxS (o : AOps)
  /-- MAX_U (R235): Writes the unsigned greater of SA and SB. -/
  | maxU (o : AOps)
  /-- CLAMP_S (R237): Writes min(max(a, b), c) under signed comparison. -/
  | clampS (o : AOps)
  /-- CLAMP_U (R237): Writes min(max(a, b), c) under unsigned comparison. -/
  | clampU (o : AOps)
  /-- ABS (R237): Writes the absolute value of SA as i64. -/
  | abs (o : AOps)
  /-- CLZ (R237): Counts the leading zero bits of SA. -/
  | clz (o : AOps)
  /-- POPC (R237): Counts the one bits of SA. -/
  | popc (o : AOps)
  /-- SEXT (R235): Sign-extends SA from bit n. -/
  | sext (o : AOps)
  /-- EXT_S (R237): Extracts a signed bit field of width KB. -/
  | extS (o : AOps)
  /-- EXT_U (R237): Extracts an unsigned bit field of width KB. -/
  | extU (o : AOps)
  /-- INS (R237): Inserts a bit field of SB into SA at position SC. -/
  | ins (o : AOps)
  /-- MAD (R237): Writes (a × b + c) mod 2^64. -/
  | mad (o : AOps)
  /-- SEL (R237): Selects SA or SB by bit 0 of the mask in SC. -/
  | sel (o : AOps)
  /-- CMP_EQ (R238): Sets every bit of the mask when a = b, and clears every bit otherwise. -/
  | cmpEq (o : AOps)
  /-- CMP_NE (R238): Sets every bit of the mask when a ≠ b, and clears every bit otherwise. -/
  | cmpNe (o : AOps)
  /-- CMP_LT (R238): Sets every bit of the mask on a signed less-than, and clears every bit otherwise. -/
  | cmpLt (o : AOps)
  /-- CMP_GE (R238): Sets every bit of the mask on a signed greater-or-equal, and clears every bit otherwise. -/
  | cmpGe (o : AOps)
  /-- CMP_LTU (R238): Sets every bit of the mask on an unsigned less-than, and clears every bit otherwise. -/
  | cmpLtu (o : AOps)
  /-- CMP_GEU (R238): Sets every bit of the mask on an unsigned greater-or-equal, and clears every bit otherwise. -/
  | cmpGeu (o : AOps)
  /-- MLOG (R239): Combines two masks bit by bit through a 4-bit truth table. -/
  | mlog (o : AOps)
  /-- MOV (R240): Copies SA to DST. -/
  | mov (o : AOps)
  /-- MOVI_W (R240): Writes the sign-extended IMM32 to DST. -/
  | moviW (o : IOps)
  /-- MOVI_D (R240): Writes IMM64 to DST. -/
  | moviD (o : LOps)
  /-- GA_MK (R241): Builds a global address from a device number and an offset. -/
  | gaMk (o : AOps)
  /-- GA_DEV (R241): Extracts the device number from a GA, resolving the alias. -/
  | gaDev (o : AOps)
  /-- CHKR_R (R243): Region-checks the covered instruction's access for read; a failure is a precise region fault. -/
  | chkrR (o : AOps)
  /-- CHKR_W (R243): Region-checks the covered access for write, and also for read before a value-returning atomic. -/
  | chkrW (o : AOps)
  /-- CHKR_X (R243): Region-checks the covered access for execute. -/
  | chkrX (o : AOps)
  /-- BR (R245): Branches to PC + 4 × OFF. -/
  | br (o : BOps)
  /-- BRI (R245): Branches to the .text offset held in SA. -/
  | bri (o : BOps)
  /-- CALL (R245): Branches by offset and writes the link. -/
  | call (o : BOps)
  /-- CALLI (R245): Branches to SA and writes the link. -/
  | calli (o : BOps)
  /-- RET (R245): Returns to the offset held in SA. -/
  | ret (o : BOps)
  /-- LOOP (R245): Decrements the counter and branches when the new value is not zero. -/
  | loop (o : BOps)
  /-- END (R247): Closes the region, ends the firing and moves the record to DONE. -/
  | endF (o : COps)
  /-- END_RE (R247): Ends the firing and re-arms the record's counters. -/
  | endRe (o : COps)
  /-- REP (R187): Repeats the next instruction with stepped fields, recording progress in REPST. -/
  | rep (o : POps)
  /-- NOP (R249): Does nothing for one issue slot. -/
  | nop (o : COps)
  /-- LD_B (R258): Loads a byte, zero-extended. -/
  | ldB (o : MOps)
  /-- LD_H (R258): Loads a half-word, zero-extended. -/
  | ldH (o : MOps)
  /-- LD_W (R258): Loads a word, zero-extended. -/
  | ldW (o : MOps)
  /-- LD_D (R258): Loads 8 bytes. -/
  | ldD (o : MOps)
  /-- LD_BS (R258): Loads a byte, sign-extended. -/
  | ldBs (o : MOps)
  /-- LD_HS (R258): Loads a half-word, sign-extended. -/
  | ldHs (o : MOps)
  /-- LD_WS (R258): Loads a word, sign-extended. -/
  | ldWs (o : MOps)
  /-- ST_B (R259): Stores a byte under its stream, batch, flag, bundle and order. -/
  | stB (o : MOps)
  /-- ST_H (R259): Stores a half-word. -/
  | stH (o : MOps)
  /-- ST_W (R259): Stores a word. -/
  | stW (o : MOps)
  /-- ST_D (R259): Stores 8 bytes. -/
  | stD (o : MOps)
  /-- VLD_L (R260): Loads 32 contiguous 4-byte lanes. -/
  | vldL (o : MOps)
  /-- VLD_R (R260): Loads a row of a skew tile. -/
  | vldR (o : MOps)
  /-- VLD_C (R260): Loads a column of a skew tile. -/
  | vldC (o : MOps)
  /-- VLDS (R260): Loads 32 lanes with a scalar stride. -/
  | vlds (o : MOps)
  /-- VLDX (R260): Loads 32 lanes from a vector of indices. -/
  | vldx (o : MOps)
  /-- VST_L (R260): Stores 32 contiguous 4-byte lanes. -/
  | vstL (o : MOps)
  /-- VST_R (R260): Stores a row of a skew tile. -/
  | vstR (o : MOps)
  /-- VST_C (R260): Stores a column of a skew tile. -/
  | vstC (o : MOps)
  /-- VSTS (R260): Stores 32 lanes with a scalar stride. -/
  | vsts (o : MOps)
  /-- VSTX (R260): Stores 32 lanes to a vector of indices. -/
  | vstx (o : MOps)
  /-- AADD_W (R264): Atomic 4-byte add that returns the old value. -/
  | aaddW (o : MOps)
  /-- AADD_D (R264): Atomic 8-byte add that returns the old value. -/
  | aaddD (o : MOps)
  /-- AAND_W (R264): Atomic 4-byte AND. -/
  | aandW (o : MOps)
  /-- AAND_D (R264): Atomic 8-byte AND. -/
  | aandD (o : MOps)
  /-- AOR_W (R264): Atomic 4-byte OR. -/
  | aorW (o : MOps)
  /-- AOR_D (R264): Atomic 8-byte OR. -/
  | aorD (o : MOps)
  /-- AXOR_W (R264): Atomic 4-byte XOR. -/
  | axorW (o : MOps)
  /-- AXOR_D (R264): Atomic 8-byte XOR. -/
  | axorD (o : MOps)
  /-- AMINS_W (R264): Atomic 4-byte signed minimum. -/
  | aminsW (o : MOps)
  /-- AMINS_D (R264): Atomic 8-byte signed minimum. -/
  | aminsD (o : MOps)
  /-- AMINU_W (R264): Atomic 4-byte unsigned minimum. -/
  | aminuW (o : MOps)
  /-- AMINU_D (R264): Atomic 8-byte unsigned minimum. -/
  | aminuD (o : MOps)
  /-- AMAXS_W (R264): Atomic 4-byte signed maximum. -/
  | amaxsW (o : MOps)
  /-- AMAXS_D (R264): Atomic 8-byte signed maximum. -/
  | amaxsD (o : MOps)
  /-- AMAXU_W (R264): Atomic 4-byte unsigned maximum. -/
  | amaxuW (o : MOps)
  /-- AMAXU_D (R264): Atomic 8-byte unsigned maximum. -/
  | amaxuD (o : MOps)
  /-- AXCHG_W (R264): Atomic 4-byte exchange. -/
  | axchgW (o : MOps)
  /-- AXCHG_D (R264): Atomic 8-byte exchange. -/
  | axchgD (o : MOps)
  /-- ACAS_W (R263): Atomic 4-byte compare-and-swap against DST. -/
  | acasW (o : MOps)
  /-- ACAS_D (R263): Atomic 8-byte compare-and-swap against DST. -/
  | acasD (o : MOps)
  /-- AFADD_W (R265): Atomic binary32 add that returns the old value and its flags. -/
  | afaddW (o : MOps)
  /-- RADD_W (R266): 4-byte add reduction that returns nothing. -/
  | raddW (o : MOps)
  /-- RADD_D (R266): 8-byte add reduction that returns nothing. -/
  | raddD (o : MOps)
  /-- RFADD_W (R266): binary32 add reduction whose flags are discarded. -/
  | rfaddW (o : MOps)
  /-- RMAXS_W (R266): 4-byte signed maximum reduction. -/
  | rmaxsW (o : MOps)
  /-- RMAXS_D (R266): 8-byte signed maximum reduction. -/
  | rmaxsD (o : MOps)
  /-- RMAXU_W (R266): 4-byte unsigned maximum reduction. -/
  | rmaxuW (o : MOps)
  /-- RMAXU_D (R266): 8-byte unsigned maximum reduction. -/
  | rmaxuD (o : MOps)
  /-- FENCE (R268): Writes a fence token for a class mask at once. -/
  | fence (o : COps)
  /-- FWAIT (R269): Waits on a token's accesses, acquires, closes the region and writes a status word. -/
  | fwait (o : COps)
  /-- BATCHC (R97): Closes a batch tag and sends CLOSE to every touched peer. -/
  | batchc (o : MOps)
  /-- BOPEN (R105): Opens a bundle and writes its identity, creating the decider's record. -/
  | bopen (o : COps)
  /-- BCLOSE (R112): Runs the bundle's commit protocol and writes the outcome. -/
  | bclose (o : COps)
  /-- RGOPEN (R117): Opens a read group with a snapshot stamp; an acquire. -/
  | rgopen (o : COps)
  /-- RGCLOSE (R119): Closes the read group and writes CONSISTENT, LOST or NONE. -/
  | rgclose (o : COps)
  /-- WAITV (R148): Ends the firing and records a continuation on an HBM word. -/
  | waitv (o : MOps)
  /-- NOTE_ONE (R273): Wakes the first waiter on the word whose condition holds. -/
  | noteOne (o : MOps)
  /-- NOTE_ALL (R273): Wakes every waiter on the word whose condition holds. -/
  | noteAll (o : MOps)
  /-- SWSET (R274): Arms a sync word: TARGET set and COUNT zeroed. -/
  | swset (o : MOps)
  /-- SWWAIT (R275): Waits for a sync-word generation, then acquires. -/
  | swwait (o : MOps)
  /-- TLWAIT (R276): Waits for a queue's DONE to reach n, then acquires. -/
  | tlwait (o : COps)
  /-- TLREAD (R277): Reads ISSUED or DONE of a queue. -/
  | tlread (o : COps)
  /-- VADD_I (R282): Wrapping lane-wise integer add. -/
  | vaddI (o : AOps)
  /-- VADD_I_Z (R282): VADD.I that zeroes inactive lanes. -/
  | vaddIZ (o : AOps)
  /-- VADD_IS (R282): Signed saturating lane-wise add. -/
  | vaddIs (o : AOps)
  /-- VADD_IS_Z (R282): VADD.IS that zeroes inactive lanes. -/
  | vaddIsZ (o : AOps)
  /-- VADD_NS (R282): Unsigned saturating lane-wise add. -/
  | vaddNs (o : AOps)
  /-- VADD_NS_Z (R282): VADD.NS that zeroes inactive lanes. -/
  | vaddNsZ (o : AOps)
  /-- VADD_F (R283): Lane-wise floating-point add. -/
  | vaddF (o : AOps)
  /-- VADD_F_Z (R283): VADD.F that zeroes inactive lanes. -/
  | vaddFZ (o : AOps)
  /-- VSUB_I (R282): Wrapping lane-wise integer subtract. -/
  | vsubI (o : AOps)
  /-- VSUB_I_Z (R282): VSUB.I that zeroes inactive lanes. -/
  | vsubIZ (o : AOps)
  /-- VSUB_IS (R282): Signed saturating subtract. -/
  | vsubIs (o : AOps)
  /-- VSUB_IS_Z (R282): VSUB.IS that zeroes inactive lanes. -/
  | vsubIsZ (o : AOps)
  /-- VSUB_NS (R282): Unsigned saturating subtract. -/
  | vsubNs (o : AOps)
  /-- VSUB_NS_Z (R282): VSUB.NS that zeroes inactive lanes. -/
  | vsubNsZ (o : AOps)
  /-- VSUB_F (R283): Lane-wise floating-point subtract. -/
  | vsubF (o : AOps)
  /-- VSUB_F_Z (R283): VSUB.F that zeroes inactive lanes. -/
  | vsubFZ (o : AOps)
  /-- VMUL_I (R282): Low w bits of the lane product. -/
  | vmulI (o : AOps)
  /-- VMUL_I_Z (R282): VMUL.I that zeroes inactive lanes. -/
  | vmulIZ (o : AOps)
  /-- VMUL_IH (R282): High w bits of the signed lane product. -/
  | vmulIh (o : AOps)
  /-- VMUL_IH_Z (R282): VMUL.IH that zeroes inactive lanes. -/
  | vmulIhZ (o : AOps)
  /-- VMUL_NH (R282): High w bits of the unsigned lane product. -/
  | vmulNh (o : AOps)
  /-- VMUL_NH_Z (R282): VMUL.NH that zeroes inactive lanes. -/
  | vmulNhZ (o : AOps)
  /-- VMUL_F (R283): Lane-wise floating-point multiply. -/
  | vmulF (o : AOps)
  /-- VMUL_F_Z (R283): VMUL.F that zeroes inactive lanes. -/
  | vmulFZ (o : AOps)
  /-- VFMA_I (R282): Wrapping integer a × b + c per lane. -/
  | vfmaI (o : AOps)
  /-- VFMA_I_Z (R282): VFMA.I that zeroes inactive lanes. -/
  | vfmaIZ (o : AOps)
  /-- VFMA_F (R283): Fused multiply-add with one rounding. -/
  | vfmaF (o : AOps)
  /-- VFMA_F_Z (R283): VFMA.F that zeroes inactive lanes. -/
  | vfmaFZ (o : AOps)
  /-- VDIV_F (R283): Lane-wise floating-point divide. -/
  | vdivF (o : AOps)
  /-- VDIV_F_Z (R283): VDIV.F that zeroes inactive lanes. -/
  | vdivFZ (o : AOps)
  /-- VSQRT_F (R283): Lane-wise square root. -/
  | vsqrtF (o : AOps)
  /-- VSQRT_F_Z (R283): VSQRT.F that zeroes inactive lanes. -/
  | vsqrtFZ (o : AOps)
  /-- VMIN_I (R282): Signed lane minimum. -/
  | vminI (o : AOps)
  /-- VMIN_I_Z (R282): VMIN.I that zeroes inactive lanes. -/
  | vminIZ (o : AOps)
  /-- VMIN_N (R282): Unsigned lane minimum. -/
  | vminN (o : AOps)
  /-- VMIN_N_Z (R282): VMIN.N that zeroes inactive lanes. -/
  | vminNZ (o : AOps)
  /-- VMIN_F (R284): Float lane minimum, with a NaN giving the canonical NaN. -/
  | vminF (o : AOps)
  /-- VMIN_F_Z (R284): VMIN.F that zeroes inactive lanes. -/
  | vminFZ (o : AOps)
  /-- VMAX_I (R282): Signed lane maximum. -/
  | vmaxI (o : AOps)
  /-- VMAX_I_Z (R282): VMAX.I that zeroes inactive lanes. -/
  | vmaxIZ (o : AOps)
  /-- VMAX_N (R282): Unsigned lane maximum. -/
  | vmaxN (o : AOps)
  /-- VMAX_N_Z (R282): VMAX.N that zeroes inactive lanes. -/
  | vmaxNZ (o : AOps)
  /-- VMAX_F (R284): Float lane maximum. -/
  | vmaxF (o : AOps)
  /-- VMAX_F_Z (R284): VMAX.F that zeroes inactive lanes. -/
  | vmaxFZ (o : AOps)
  /-- VABS_I (R282): Integer lane absolute value. -/
  | vabsI (o : AOps)
  /-- VABS_I_Z (R282): VABS.I that zeroes inactive lanes. -/
  | vabsIZ (o : AOps)
  /-- VABS_F (R284): Clears the sign bit of each float lane. -/
  | vabsF (o : AOps)
  /-- VABS_F_Z (R284): VABS.F that zeroes inactive lanes. -/
  | vabsFZ (o : AOps)
  /-- VNEG_I (R282): Integer lane negation. -/
  | vnegI (o : AOps)
  /-- VNEG_I_Z (R282): VNEG.I that zeroes inactive lanes. -/
  | vnegIZ (o : AOps)
  /-- VNEG_F (R284): Inverts the sign bit of each float lane. -/
  | vnegF (o : AOps)
  /-- VNEG_F_Z (R284): VNEG.F that zeroes inactive lanes. -/
  | vnegFZ (o : AOps)
  /-- VAND (R285): Lane-wise bitwise AND. -/
  | vand (o : AOps)
  /-- VOR (R285): Lane-wise bitwise OR. -/
  | vor (o : AOps)
  /-- VXOR (R285): Lane-wise bitwise XOR. -/
  | vxor (o : AOps)
  /-- VSHL (R285): Lane-wise left shift. -/
  | vshl (o : AOps)
  /-- VSHR_L (R285): Lane-wise logical right shift. -/
  | vshrL (o : AOps)
  /-- VSHR_A (R285): Lane-wise arithmetic right shift. -/
  | vshrA (o : AOps)
  /-- VCMP_EQ (R286): Sets a mask bit for each lane that is equal. -/
  | vcmpEq (o : AOps)
  /-- VCMP_NE (R286): Sets a mask bit for each lane that is not equal. -/
  | vcmpNe (o : AOps)
  /-- VCMP_LT (R286): Sets a mask bit for each lane that is less. -/
  | vcmpLt (o : AOps)
  /-- VCMP_LE (R286): Sets a mask bit for each lane that is less or equal. -/
  | vcmpLe (o : AOps)
  /-- VCMP_UN (R286): Sets a mask bit for each lane that is unordered. -/
  | vcmpUn (o : AOps)
  /-- VSEL (R287): Selects lanes of A or B by a mask. -/
  | vsel (o : AOps)
  /-- VPERM_X (R288): Permutes lanes by a vector of indices. -/
  | vpermX (o : AOps)
  /-- VPERM_R (R288): Rotates the lanes by a scalar. -/
  | vpermR (o : AOps)
  /-- VPERM_Q (R288): Interleaves or de-interleaves the lanes of two vectors. -/
  | vpermQ (o : AOps)
  /-- VBCAST_S (R289): Broadcasts a scalar to every active lane. -/
  | vbcastS (o : AOps)
  /-- VBCAST_L (R289): Broadcasts one lane of A. -/
  | vbcastL (o : AOps)
  /-- VINS (R289): Inserts a scalar into one lane. -/
  | vins (o : AOps)
  /-- VEXT (R289): Extracts one lane to a scalar. -/
  | vext (o : AOps)
  /-- VRED_ADDI (R291): Integer sum of the active lanes. -/
  | vredAddi (o : AOps)
  /-- VRED_ADDF (R291): Exact float sum of the active lanes, rounded once. -/
  | vredAddf (o : AOps)
  /-- VRED_MIN (R291): Minimum of the active lanes, in which a NaN wins. -/
  | vredMin (o : AOps)
  /-- VRED_MAX (R291): Maximum of the active lanes, in which a NaN wins. -/
  | vredMax (o : AOps)
  /-- VRED_MINN (R291): Minimum of the active lanes, ignoring NaN lanes. -/
  | vredMinn (o : AOps)
  /-- VRED_MAXN (R291): Maximum of the active lanes, ignoring NaN lanes. -/
  | vredMaxn (o : AOps)
  /-- VRED_AMAX (R291): Greatest magnitude of the active lanes, in which a NaN wins. -/
  | vredAmax (o : AOps)
  /-- VRED_AMAXN (R291): Greatest magnitude of the active lanes, ignoring NaN lanes. -/
  | vredAmaxn (o : AOps)
  /-- VCVT_I8 (R230): Converts lanes to i8. -/
  | vcvtI8 (o : AOps)
  /-- VCVT_N8 (R230): Converts lanes to n8. -/
  | vcvtN8 (o : AOps)
  /-- VCVT_I16 (R230): Converts lanes to i16. -/
  | vcvtI16 (o : AOps)
  /-- VCVT_N16 (R230): Converts lanes to n16. -/
  | vcvtN16 (o : AOps)
  /-- VCVT_I32 (R230): Converts lanes to i32. -/
  | vcvtI32 (o : AOps)
  /-- VCVT_N32 (R230): Converts lanes to n32. -/
  | vcvtN32 (o : AOps)
  /-- VCVT_F16 (R230): Converts lanes to f16. -/
  | vcvtF16 (o : AOps)
  /-- VCVT_BF16 (R230): Converts lanes to bf16. -/
  | vcvtBf16 (o : AOps)
  /-- VCVT_F32 (R230): Converts lanes to f32. -/
  | vcvtF32 (o : AOps)
  /-- VCVT_T8 (R230): Converts lanes to t8. -/
  | vcvtT8 (o : AOps)
  /-- VCVT_O8 (R230): Converts lanes to o8 with a zero point. -/
  | vcvtO8 (o : AOps)
  /-- VCVT_O4 (R230): Converts lanes to o4 with a zero point. -/
  | vcvtO4 (o : AOps)
  /-- VSCALE (R232): Multiplies lanes by one block scale or by the product of two. -/
  | vscale (o : AOps)
  /-- VMOV (R287): Copies the active lanes of A. -/
  | vmov (o : AOps)
  /-- MXBEGIN (R310): Opens a matrix chain and captures FMODE.RM. -/
  | mxbegin (o : AOps)
  /-- MXEND (R310): Closes the open matrix chain. -/
  | mxend (o : AOps)
  /-- MXZERO (R311): Queues a zeroing of every accumulator. -/
  | mxzero (o : AOps)
  /-- MXLDW_D (R312): Tests and queues a load of dense weights. -/
  | mxldwD (o : AOps)
  /-- MXLDW_S (R312): Tests and queues a load of 2:4-compressed weights. -/
  | mxldwS (o : AOps)
  /-- MXLDW_T (R312): Tests and queues a load of transposed weights. -/
  | mxldwT (o : AOps)
  /-- MXMAC_T8 (R313): Tests and queues a t8 × t8 multiply-accumulate into f32. -/
  | mxmacT8 (o : AOps)
  /-- MXMAC_I8 (R313): Queues an i8 × i8 multiply-accumulate into i32. -/
  | mxmacI8 (o : AOps)
  /-- MXMAC_O8 (R313): Queues an o8 × o8 multiply-accumulate into i32. -/
  | mxmacO8 (o : AOps)
  /-- MXMAC_I8O8 (R313): Queues an i8 × o8 multiply-accumulate. -/
  | mxmacI8o8 (o : AOps)
  /-- MXMAC_O8I8 (R313): Queues an o8 × i8 multiply-accumulate. -/
  | mxmacO8i8 (o : AOps)
  /-- MXMAC_O4 (R313): Queues an o4 × o4 multiply-accumulate. -/
  | mxmacO4 (o : AOps)
  /-- MXMAC_O4O8 (R313): Queues an o4 × o8 multiply-accumulate. -/
  | mxmacO4o8 (o : AOps)
  /-- MXMAC_O8O4 (R313): Queues an o8 × o4 multiply-accumulate. -/
  | mxmacO8o4 (o : AOps)
  /-- MXMAC_F16 (R313): Queues an f16 multiply-accumulate into f32. -/
  | mxmacF16 (o : AOps)
  /-- MXMAC_BF16 (R313): Queues a bf16 multiply-accumulate into f32. -/
  | mxmacBf16 (o : AOps)
  /-- MXRD_F (R314): Waits for the queue, then reads an f32 accumulator row. -/
  | mxrdF (o : AOps)
  /-- MXRD_I (R314): Waits for the queue, then reads an i32 accumulator row. -/
  | mxrdI (o : AOps)
  /-- MXRD_SC (R314): Reads an accumulator row with its scale applied, as f32. -/
  | mxrdSc (o : AOps)
  /-- MXWR_F (R314): Queues the writing of an f32 row into the accumulators. -/
  | mxwrF (o : AOps)
  /-- MXWR_I (R314): Queues the writing of an i32 row into the accumulators. -/
  | mxwrI (o : AOps)
  /-- MXST_F32 (R315): Queues a store of accumulator rows as f32. -/
  | mxstF32 (o : AOps)
  /-- MXST_BF16 (R315): Queues a store of accumulator rows as bf16. -/
  | mxstBf16 (o : AOps)
  /-- MXST_F16 (R315): Queues a store of accumulator rows as f16. -/
  | mxstF16 (o : AOps)
  /-- MXST_T8 (R315): Queues a store of accumulator rows as t8. -/
  | mxstT8 (o : AOps)
  /-- MXST_I32 (R315): Queues a store of accumulator rows as i32. -/
  | mxstI32 (o : AOps)
  /-- MXST_I8 (R315): Queues a store of accumulator rows as i8. -/
  | mxstI8 (o : AOps)
  /-- MXST_O8 (R315): Queues a store of accumulator rows as o8. -/
  | mxstO8 (o : AOps)
  /-- MXST_O4 (R315): Queues a store of accumulator rows as o4. -/
  | mxstO4 (o : AOps)
  /-- MXWAIT (R316): Waits for the queued matrix commands and returns MXSTAT. -/
  | mxwait (o : AOps)
  /-- MXCMD (R318): Sends a capability-checked matrix command to another core. -/
  | mxcmd (o : AOps)
  /-- MXSAVE (R317): Queues the writing of the accumulator image to scratchpad. -/
  | mxsave (o : AOps)
  /-- MXLOAD (R317): Queues the loading of the accumulator image from scratchpad. -/
  | mxload (o : AOps)
  /-- COPY_G (R329): Queues a linear byte copy. -/
  | copyG (o : EOps)
  /-- COPY_T (R330): Queues a copy of the rank's tensor slice. -/
  | copyT (o : EOps)
  /-- COPY_C (R329): Queues a copy that converts its elements. -/
  | copyC (o : EOps)
  /-- COPY_S (R329): Queues a strided row copy. -/
  | copyS (o : EOps)
  /-- COPYX (R329): Queues an indexed row copy. -/
  | copyx (o : EOps)
  /-- FILL_W (R329): Queues a fill of 4-byte words. -/
  | fillW (o : EOps)
  /-- FILL_D (R329): Queues a fill of 8-byte words. -/
  | fillD (o : EOps)
  /-- COLL_SUM (R334): Issues a sum all-reduce instance. -/
  | collSum (o : EOps)
  /-- COLL_MAX (R334): Issues a max all-reduce instance. -/
  | collMax (o : EOps)
  /-- COLL_AMAX (R334): Issues an absolute-max all-reduce instance. -/
  | collAmax (o : EOps)
  /-- COLL_MIN (R334): Issues a min all-reduce instance. -/
  | collMin (o : EOps)
  /-- CBCAST (R334): Issues a broadcast from contributor 0. -/
  | cbcast (o : EOps)
  /-- CGATH (R334): Issues a gather to contributor 0. -/
  | cgath (o : EOps)
  /-- CSCAT_SUM (R334): Issues a sum reduce-scatter. -/
  | cscatSum (o : EOps)
  /-- CSCAT_MAX (R334): Issues a max reduce-scatter. -/
  | cscatMax (o : EOps)
  /-- CSCAT_AMAX (R334): Issues an absolute-max reduce-scatter. -/
  | cscatAmax (o : EOps)
  /-- CSCAT_MIN (R334): Issues a min reduce-scatter. -/
  | cscatMin (o : EOps)
  /-- CGRP_A (R333): Fills a collective group binding. -/
  | cgrpA (o : EOps)
  /-- CGRP_F (R333): Clears a collective group binding. -/
  | cgrpF (o : EOps)
  /-- SEND_RQ (R340): Queues a 64-byte message on the request network. -/
  | sendRq (o : EOps)
  /-- SEND_RP (R340): Queues a 64-byte message on the reply network. -/
  | sendRp (o : EOps)
  /-- RECV_RQ (R342): Takes the head slot of the request mailbox without waiting. -/
  | recvRq (o : EOps)
  /-- RECV_RP (R342): Takes the head slot of the reply mailbox without waiting. -/
  | recvRp (o : EOps)
  /-- MBSET_RQ (R338): Sets or disables the core's request mailbox. -/
  | mbsetRq (o : EOps)
  /-- MBSET_RP (R338): Sets or disables the core's reply mailbox. -/
  | mbsetRp (o : EOps)
  /-- DECT (R343): Decrements a task record counter atomically. -/
  | dect (o : MOps)
  /-- LAUNCH (R344): Places a launch record in the pending-launch store and writes its status. -/
  | launch (o : EOps)
  /-- CHWIN (R345): Writes the window GA of a channel port. -/
  | chwin (o : EOps)
  /-- CHSTAT (R345): Writes a channel's occupancy and capacity. -/
  | chstat (o : EOps)
  /-- QSET (R325): Sets a virtual queue's weight. -/
  | qset (o : EOps)
  /-- QSTAT (R325): Reads a queue's status, optionally clearing ABANDONED. -/
  | qstat (o : EOps)
  /-- TASKRD (R346): Reads half of a task record at its home slice. -/
  | taskrd (o : EOps)
  /-- CSRR (R347): Reads a CSR. -/
  | csrr (o : COps)
  /-- CSRW (R347): Writes the RW fields of a CSR and clears its W1C bits. -/
  | csrw (o : COps)
  /-- CSRB_S (R347): Sets CSR bits and returns the old value. -/
  | csrbS (o : COps)
  /-- CSRB_C (R347): Clears CSR bits and returns the old value. -/
  | csrbC (o : COps)
  /-- TRAP (R356): Enters the software trap handler with TVAL n. -/
  | trap (o : COps)
  /-- TRET (R356): Returns from a trap handler, optionally skipping the trapping instruction. -/
  | tret (o : COps)
  /-- YRET (R365): Ends the yield handler; the context becomes YIELDED. -/
  | yret (o : COps)
  /-- YIELD (R366): Forces a full save of the context. -/
  | yield (o : COps)
  /-- TIME_S (R349): Reads the synchronised device time. -/
  | timeS (o : COps)
  /-- TIME_C (R349): Reads the context's cycle count. -/
  | timeC (o : COps)
  /-- ECALL (R348): Sends a service request to the system image and stalls for the answer. -/
  | ecall (o : COps)
  /-- BRK (R356): Enters the breakpoint trap handler. -/
  | brk (o : COps)
  /-- WAITT (R349): Stalls until a time, or for at most 1 ms. -/
  | waitt (o : COps)
  deriving DecidableEq, Repr

end Sys2Proof
end

