-- ==== Sys2Proof/Machine/Forms.lean ====
section
/-! DEFINITION. The format and opcode of every instruction: the opcode map of R191, as one function from the
instructions to their format's fields. -/

namespace Sys2Proof

/-- An instruction's opcode value with the fields of its format (R172 to R178, R186), PAD, or a step of the device that
has no encoding. -/
inductive Form where
  | a (op : BitVec 9) (o : AOps)
  | i (op : BitVec 9) (o : IOps)
  | l (op : BitVec 9) (o : LOps)
  | m (op : BitVec 9) (o : MOps)
  | b (op : BitVec 9) (o : BOps)
  | c (op : BitVec 9) (o : COps)
  | e (op : BitVec 9) (o : EOps)
  | p (op : BitVec 9) (o : POps)
  | pad
  | event
  deriving DecidableEq, Repr

/-- The opcode map (R191): the format and OP value of each instruction. -/
def Instr.form : Instr → Form
  | .add o => .a 0x000 o
  | .addImm o => .i 0x001 o
  | .sub o => .a 0x002 o
  | .subImm o => .i 0x003 o
  | .mul o => .a 0x004 o
  | .mulImm o => .i 0x005 o
  | .mulhS o => .a 0x006 o
  | .mulhU o => .a 0x007 o
  | .divS o => .a 0x008 o
  | .divU o => .a 0x009 o
  | .remS o => .a 0x00A o
  | .remU o => .a 0x00B o
  | .and o => .a 0x00C o
  | .andImm o => .i 0x00D o
  | .or o => .a 0x00E o
  | .orImm o => .i 0x00F o
  | .xor o => .a 0x010 o
  | .xorImm o => .i 0x011 o
  | .shl o => .a 0x012 o
  | .shrL o => .a 0x013 o
  | .shrA o => .a 0x014 o
  | .rot o => .a 0x015 o
  | .minS o => .a 0x016 o
  | .minU o => .a 0x017 o
  | .maxS o => .a 0x018 o
  | .maxU o => .a 0x019 o
  | .clampS o => .a 0x01A o
  | .clampU o => .a 0x01B o
  | .abs o => .a 0x01C o
  | .clz o => .a 0x01D o
  | .popc o => .a 0x01E o
  | .sext o => .a 0x01F o
  | .extS o => .a 0x020 o
  | .extU o => .a 0x021 o
  | .ins o => .a 0x022 o
  | .mad o => .a 0x023 o
  | .sel o => .a 0x024 o
  | .cmpEq o => .a 0x025 o
  | .cmpNe o => .a 0x026 o
  | .cmpLt o => .a 0x027 o
  | .cmpGe o => .a 0x028 o
  | .cmpLtu o => .a 0x029 o
  | .cmpGeu o => .a 0x02A o
  | .mlog o => .a 0x02B o
  | .mov o => .a 0x02C o
  | .moviW o => .i 0x02D o
  | .moviD o => .l 0x02E o
  | .gaMk o => .a 0x02F o
  | .gaDev o => .a 0x030 o
  | .chkrR o => .a 0x031 o
  | .chkrW o => .a 0x032 o
  | .chkrX o => .a 0x033 o
  | .br o => .b 0x034 o
  | .bri o => .b 0x035 o
  | .call o => .b 0x036 o
  | .calli o => .b 0x037 o
  | .ret o => .b 0x038 o
  | .loop o => .b 0x039 o
  | .endF o => .c 0x03A o
  | .endRe o => .c 0x03B o
  | .rep o => .p 0x03C o
  | .nop o => .c 0x03D o
  | .ldB o => .m 0x040 o
  | .ldH o => .m 0x041 o
  | .ldW o => .m 0x042 o
  | .ldD o => .m 0x043 o
  | .ldBs o => .m 0x044 o
  | .ldHs o => .m 0x045 o
  | .ldWs o => .m 0x046 o
  | .stB o => .m 0x047 o
  | .stH o => .m 0x048 o
  | .stW o => .m 0x049 o
  | .stD o => .m 0x04A o
  | .vldL o => .m 0x04B o
  | .vldR o => .m 0x04C o
  | .vldC o => .m 0x04D o
  | .vlds o => .m 0x04E o
  | .vldx o => .m 0x04F o
  | .vstL o => .m 0x050 o
  | .vstR o => .m 0x051 o
  | .vstC o => .m 0x052 o
  | .vsts o => .m 0x053 o
  | .vstx o => .m 0x054 o
  | .aaddW o => .m 0x055 o
  | .aaddD o => .m 0x056 o
  | .aandW o => .m 0x057 o
  | .aandD o => .m 0x058 o
  | .aorW o => .m 0x059 o
  | .aorD o => .m 0x05A o
  | .axorW o => .m 0x05B o
  | .axorD o => .m 0x05C o
  | .aminsW o => .m 0x05D o
  | .aminsD o => .m 0x05E o
  | .aminuW o => .m 0x05F o
  | .aminuD o => .m 0x060 o
  | .amaxsW o => .m 0x061 o
  | .amaxsD o => .m 0x062 o
  | .amaxuW o => .m 0x063 o
  | .amaxuD o => .m 0x064 o
  | .axchgW o => .m 0x065 o
  | .axchgD o => .m 0x066 o
  | .acasW o => .m 0x067 o
  | .acasD o => .m 0x068 o
  | .afaddW o => .m 0x069 o
  | .raddW o => .m 0x06A o
  | .raddD o => .m 0x06B o
  | .rfaddW o => .m 0x06C o
  | .rmaxsW o => .m 0x06D o
  | .rmaxsD o => .m 0x06E o
  | .rmaxuW o => .m 0x06F o
  | .rmaxuD o => .m 0x070 o
  | .fence o => .c 0x071 o
  | .fwait o => .c 0x072 o
  | .batchc o => .m 0x073 o
  | .bopen o => .c 0x074 o
  | .bclose o => .c 0x075 o
  | .rgopen o => .c 0x076 o
  | .rgclose o => .c 0x077 o
  | .waitv o => .m 0x078 o
  | .noteOne o => .m 0x079 o
  | .noteAll o => .m 0x07A o
  | .swset o => .m 0x07B o
  | .swwait o => .m 0x07C o
  | .tlwait o => .c 0x07D o
  | .tlread o => .c 0x07E o
  | .vaddI o => .a 0x0A0 o
  | .vaddIZ o => .a 0x0A1 o
  | .vaddIs o => .a 0x0A2 o
  | .vaddIsZ o => .a 0x0A3 o
  | .vaddNs o => .a 0x0A4 o
  | .vaddNsZ o => .a 0x0A5 o
  | .vaddF o => .a 0x0A6 o
  | .vaddFZ o => .a 0x0A7 o
  | .vsubI o => .a 0x0A8 o
  | .vsubIZ o => .a 0x0A9 o
  | .vsubIs o => .a 0x0AA o
  | .vsubIsZ o => .a 0x0AB o
  | .vsubNs o => .a 0x0AC o
  | .vsubNsZ o => .a 0x0AD o
  | .vsubF o => .a 0x0AE o
  | .vsubFZ o => .a 0x0AF o
  | .vmulI o => .a 0x0B0 o
  | .vmulIZ o => .a 0x0B1 o
  | .vmulIh o => .a 0x0B2 o
  | .vmulIhZ o => .a 0x0B3 o
  | .vmulNh o => .a 0x0B4 o
  | .vmulNhZ o => .a 0x0B5 o
  | .vmulF o => .a 0x0B6 o
  | .vmulFZ o => .a 0x0B7 o
  | .vfmaI o => .a 0x0B8 o
  | .vfmaIZ o => .a 0x0B9 o
  | .vfmaF o => .a 0x0BA o
  | .vfmaFZ o => .a 0x0BB o
  | .vdivF o => .a 0x0BC o
  | .vdivFZ o => .a 0x0BD o
  | .vsqrtF o => .a 0x0BE o
  | .vsqrtFZ o => .a 0x0BF o
  | .vminI o => .a 0x0C0 o
  | .vminIZ o => .a 0x0C1 o
  | .vminN o => .a 0x0C2 o
  | .vminNZ o => .a 0x0C3 o
  | .vminF o => .a 0x0C4 o
  | .vminFZ o => .a 0x0C5 o
  | .vmaxI o => .a 0x0C6 o
  | .vmaxIZ o => .a 0x0C7 o
  | .vmaxN o => .a 0x0C8 o
  | .vmaxNZ o => .a 0x0C9 o
  | .vmaxF o => .a 0x0CA o
  | .vmaxFZ o => .a 0x0CB o
  | .vabsI o => .a 0x0CC o
  | .vabsIZ o => .a 0x0CD o
  | .vabsF o => .a 0x0CE o
  | .vabsFZ o => .a 0x0CF o
  | .vnegI o => .a 0x0D0 o
  | .vnegIZ o => .a 0x0D1 o
  | .vnegF o => .a 0x0D2 o
  | .vnegFZ o => .a 0x0D3 o
  | .vand o => .a 0x0D4 o
  | .vor o => .a 0x0D5 o
  | .vxor o => .a 0x0D6 o
  | .vshl o => .a 0x0D7 o
  | .vshrL o => .a 0x0D8 o
  | .vshrA o => .a 0x0D9 o
  | .vcmpEq o => .a 0x0DA o
  | .vcmpNe o => .a 0x0DB o
  | .vcmpLt o => .a 0x0DC o
  | .vcmpLe o => .a 0x0DD o
  | .vcmpUn o => .a 0x0DE o
  | .vsel o => .a 0x0DF o
  | .vpermX o => .a 0x0E0 o
  | .vpermR o => .a 0x0E1 o
  | .vpermQ o => .a 0x0E2 o
  | .vbcastS o => .a 0x0E3 o
  | .vbcastL o => .a 0x0E4 o
  | .vins o => .a 0x0E5 o
  | .vext o => .a 0x0E6 o
  | .vredAddi o => .a 0x0E7 o
  | .vredAddf o => .a 0x0E8 o
  | .vredMin o => .a 0x0E9 o
  | .vredMax o => .a 0x0EA o
  | .vredMinn o => .a 0x0EB o
  | .vredMaxn o => .a 0x0EC o
  | .vredAmax o => .a 0x0ED o
  | .vredAmaxn o => .a 0x0EE o
  | .vcvtI8 o => .a 0x0EF o
  | .vcvtN8 o => .a 0x0F0 o
  | .vcvtI16 o => .a 0x0F1 o
  | .vcvtN16 o => .a 0x0F2 o
  | .vcvtI32 o => .a 0x0F3 o
  | .vcvtN32 o => .a 0x0F4 o
  | .vcvtF16 o => .a 0x0F5 o
  | .vcvtBf16 o => .a 0x0F6 o
  | .vcvtF32 o => .a 0x0F7 o
  | .vcvtT8 o => .a 0x0F8 o
  | .vcvtO8 o => .a 0x0F9 o
  | .vcvtO4 o => .a 0x0FA o
  | .vscale o => .a 0x0FB o
  | .vmov o => .a 0x0FC o
  | .mxbegin o => .a 0x100 o
  | .mxend o => .a 0x101 o
  | .mxzero o => .a 0x102 o
  | .mxldwD o => .a 0x103 o
  | .mxldwS o => .a 0x104 o
  | .mxldwT o => .a 0x105 o
  | .mxmacT8 o => .a 0x106 o
  | .mxmacI8 o => .a 0x107 o
  | .mxmacO8 o => .a 0x108 o
  | .mxmacI8o8 o => .a 0x109 o
  | .mxmacO8i8 o => .a 0x10A o
  | .mxmacO4 o => .a 0x10B o
  | .mxmacO4o8 o => .a 0x10C o
  | .mxmacO8o4 o => .a 0x10D o
  | .mxmacF16 o => .a 0x10E o
  | .mxmacBf16 o => .a 0x10F o
  | .mxrdF o => .a 0x110 o
  | .mxrdI o => .a 0x111 o
  | .mxrdSc o => .a 0x112 o
  | .mxwrF o => .a 0x113 o
  | .mxwrI o => .a 0x114 o
  | .mxstF32 o => .a 0x115 o
  | .mxstBf16 o => .a 0x116 o
  | .mxstF16 o => .a 0x117 o
  | .mxstT8 o => .a 0x118 o
  | .mxstI32 o => .a 0x119 o
  | .mxstI8 o => .a 0x11A o
  | .mxstO8 o => .a 0x11B o
  | .mxstO4 o => .a 0x11C o
  | .mxwait o => .a 0x11D o
  | .mxcmd o => .a 0x11E o
  | .mxsave o => .a 0x11F o
  | .mxload o => .a 0x120 o
  | .copyG o => .e 0x140 o
  | .copyT o => .e 0x141 o
  | .copyC o => .e 0x142 o
  | .copyS o => .e 0x143 o
  | .copyx o => .e 0x144 o
  | .fillW o => .e 0x145 o
  | .fillD o => .e 0x146 o
  | .collSum o => .e 0x147 o
  | .collMax o => .e 0x148 o
  | .collAmax o => .e 0x149 o
  | .collMin o => .e 0x14A o
  | .cbcast o => .e 0x14B o
  | .cgath o => .e 0x14C o
  | .cscatSum o => .e 0x14D o
  | .cscatMax o => .e 0x14E o
  | .cscatAmax o => .e 0x14F o
  | .cscatMin o => .e 0x150 o
  | .cgrpA o => .e 0x151 o
  | .cgrpF o => .e 0x152 o
  | .sendRq o => .e 0x153 o
  | .sendRp o => .e 0x154 o
  | .recvRq o => .e 0x155 o
  | .recvRp o => .e 0x156 o
  | .mbsetRq o => .e 0x157 o
  | .mbsetRp o => .e 0x158 o
  | .dect o => .m 0x159 o
  | .launch o => .e 0x15A o
  | .chwin o => .e 0x15B o
  | .chstat o => .e 0x15C o
  | .qset o => .e 0x15D o
  | .qstat o => .e 0x15E o
  | .taskrd o => .e 0x15F o
  | .csrr o => .c 0x180 o
  | .csrw o => .c 0x181 o
  | .csrbS o => .c 0x182 o
  | .csrbC o => .c 0x183 o
  | .trap o => .c 0x184 o
  | .tret o => .c 0x185 o
  | .yret o => .c 0x186 o
  | .yield o => .c 0x187 o
  | .timeS o => .c 0x188 o
  | .timeC o => .c 0x189 o
  | .ecall o => .c 0x18A o
  | .brk o => .c 0x18B o
  | .waitt o => .c 0x18C o
  | .padSkip => .pad
  | .runtimePortAccess .. => .event
  | .controlBlockWrite .. => .event
  | .regionUpdate .. => .event
  | .regionUpdateComplete .. => .event
  | .regionInvalidation .. => .event
  | .descriptorFetchReturn .. => .event
  | .ownerMapUpdate .. => .event
  | .ownerMapUpdateComplete .. => .event
  | .ownerEntryFetchReturn .. => .event
  | .homeSliceRequest .. => .event
  | .windowRequest .. => .event
  | .loadReply .. => .event
  | .splitRequest .. => .event
  | .reorderWindowGrant .. => .event
  | .streamStoreArrival .. => .event
  | .storeAck .. => .event
  | .fabricRequestArrival .. => .event
  | .fabricForward .. => .event
  | .remoteMovingRetry .. => .event
  | .batchCloseArrival .. => .event
  | .batchCloseReply .. => .event
  | .linkTimeout .. => .event
  | .bundlePrepare .. => .event
  | .prepareAck .. => .event
  | .bundleFinal .. => .event
  | .finalReply .. => .event
  | .bundleDecide .. => .event
  | .bundleCommit .. => .event
  | .commitAck .. => .event
  | .bundleAbort .. => .event
  | .fateQuestion .. => .event
  | .fateReply .. => .event
  | .groupLoadServe .. => .event
  | .landing .. => .event
  | .dectApply .. => .event
  | .dispatchPacket .. => .event
  | .packetReturn .. => .event
  | .freeNote .. => .event
  | .chainClaim .. => .event
  | .displacement .. => .event
  | .firingStart .. => .event
  | .launchScan .. => .event
  | .launchComplete .. => .event
  | .hostLaunchMessage .. => .event
  | .hostServiceMessage .. => .event
  | .waitEnqueue .. => .event
  | .noteWake .. => .event
  | .overflowRecheck .. => .event
  | .chainStallTimeout .. => .event
  | .imageGenRewrite .. => .event
  | .imageGenRewriteComplete .. => .event
  | .objectTranslate .. => .event
  | .copyAccept .. => .event
  | .commandStart .. => .event
  | .commandComplete .. => .event
  | .copyQuiesceDone .. => .event
  | .collContribution .. => .event
  | .collSlotDeadline .. => .event
  | .collResult .. => .event
  | .messageLand .. => .event
  | .mxcmdArrival .. => .event
  | .mxcmdReply .. => .event
  | .sequencerCommand .. => .event
  | .kstep .. => .event
  | .sliceBoundary .. => .event
  | .scratchpadSwap .. => .event
  | .yieldBudgetOverrun .. => .event
  | .forcedSaveComplete .. => .event
  | .contextResume .. => .event
  | .impreciseFaultDelivery .. => .event
  | .kill .. => .event
  | .killDiscardWindowEnd .. => .event
  | .killConfirm .. => .event
  | .partitionForm .. => .event
  | .partitionRelease .. => .event
  | .partitionReslot .. => .event
  | .partcmdComplete .. => .event
  | .slicectlWrite .. => .event
  | .modeReset .. => .event
  | .modeResetBootDone .. => .event
  | .keyRotation .. => .event
  | .keyRotationComplete .. => .event
  | .attestationRequest .. => .event
  | .firmwareActivationComplete .. => .event
  | .linkUp .. => .event
  | .linkDown .. => .event
  | .flitRetry .. => .event
  | .peerReadmit .. => .event
  | .peerMarklost .. => .event
  | .peerRetrain .. => .event
  | .peercmdComplete .. => .event
  | .scaleoutWorkRequest .. => .event
  | .scaleoutPacket .. => .event
  | .hostLinkReset .. => .event
  | .vfReset .. => .event
  | .hostDma .. => .event
  | .powerStep .. => .event
  | .i3cPowerLevel .. => .event
  | .powerCapWrite .. => .event
  | .powerSample .. => .event
  | .powerFail .. => .event
  | .flashDrainDone .. => .event
  | .powerFailRestore .. => .event
  | .rowFlush .. => .event
  | .rowFlushComplete .. => .event
  | .uncorrectableError .. => .event
  | .correctedError .. => .event
  | .deviceReset .. => .event
  | .ecallAnswer .. => .event
  | .waittExpiry .. => .event
  | .unassignedOpValue .. => .event
  | .clusterUnitAtomic .. => .event
  | .linkTrainingFailure .. => .event
  | .linkDownReplreqTimeout .. => .event
  | .firmwareActivationStart .. => .event
  | .ieee1588TimeSync .. => .event


/-- OP values of format A, part 0 (R191). -/
noncomputable def formatA0 : List (Nat × (AOps → Instr)) := [
  (0x000, .add),
  (0x002, .sub),
  (0x004, .mul),
  (0x006, .mulhS),
  (0x007, .mulhU),
  (0x008, .divS),
  (0x009, .divU),
  (0x00A, .remS),
  (0x00B, .remU),
  (0x00C, .and),
  (0x00E, .or),
  (0x010, .xor),
  (0x012, .shl),
  (0x013, .shrL),
  (0x014, .shrA),
  (0x015, .rot),
  (0x016, .minS),
  (0x017, .minU),
  (0x018, .maxS),
  (0x019, .maxU),
  (0x01A, .clampS),
  (0x01B, .clampU),
  (0x01C, .abs),
  (0x01D, .clz),
  (0x01E, .popc),
  (0x01F, .sext),
  (0x020, .extS),
  (0x021, .extU),
  (0x022, .ins),
  (0x023, .mad),
  (0x024, .sel),
  (0x025, .cmpEq),
  (0x026, .cmpNe),
  (0x027, .cmpLt),
  (0x028, .cmpGe),
  (0x029, .cmpLtu),
  (0x02A, .cmpGeu),
  (0x02B, .mlog),
  (0x02C, .mov),
  (0x02F, .gaMk)]

/-- OP values of format A, part 1 (R191). -/
noncomputable def formatA1 : List (Nat × (AOps → Instr)) := [
  (0x030, .gaDev),
  (0x031, .chkrR),
  (0x032, .chkrW),
  (0x033, .chkrX),
  (0x0A0, .vaddI),
  (0x0A1, .vaddIZ),
  (0x0A2, .vaddIs),
  (0x0A3, .vaddIsZ),
  (0x0A4, .vaddNs),
  (0x0A5, .vaddNsZ),
  (0x0A6, .vaddF),
  (0x0A7, .vaddFZ),
  (0x0A8, .vsubI),
  (0x0A9, .vsubIZ),
  (0x0AA, .vsubIs),
  (0x0AB, .vsubIsZ),
  (0x0AC, .vsubNs),
  (0x0AD, .vsubNsZ),
  (0x0AE, .vsubF),
  (0x0AF, .vsubFZ),
  (0x0B0, .vmulI),
  (0x0B1, .vmulIZ),
  (0x0B2, .vmulIh),
  (0x0B3, .vmulIhZ),
  (0x0B4, .vmulNh),
  (0x0B5, .vmulNhZ),
  (0x0B6, .vmulF),
  (0x0B7, .vmulFZ),
  (0x0B8, .vfmaI),
  (0x0B9, .vfmaIZ),
  (0x0BA, .vfmaF),
  (0x0BB, .vfmaFZ),
  (0x0BC, .vdivF),
  (0x0BD, .vdivFZ),
  (0x0BE, .vsqrtF),
  (0x0BF, .vsqrtFZ),
  (0x0C0, .vminI),
  (0x0C1, .vminIZ),
  (0x0C2, .vminN),
  (0x0C3, .vminNZ)]

/-- OP values of format A, part 2 (R191). -/
noncomputable def formatA2 : List (Nat × (AOps → Instr)) := [
  (0x0C4, .vminF),
  (0x0C5, .vminFZ),
  (0x0C6, .vmaxI),
  (0x0C7, .vmaxIZ),
  (0x0C8, .vmaxN),
  (0x0C9, .vmaxNZ),
  (0x0CA, .vmaxF),
  (0x0CB, .vmaxFZ),
  (0x0CC, .vabsI),
  (0x0CD, .vabsIZ),
  (0x0CE, .vabsF),
  (0x0CF, .vabsFZ),
  (0x0D0, .vnegI),
  (0x0D1, .vnegIZ),
  (0x0D2, .vnegF),
  (0x0D3, .vnegFZ),
  (0x0D4, .vand),
  (0x0D5, .vor),
  (0x0D6, .vxor),
  (0x0D7, .vshl),
  (0x0D8, .vshrL),
  (0x0D9, .vshrA),
  (0x0DA, .vcmpEq),
  (0x0DB, .vcmpNe),
  (0x0DC, .vcmpLt),
  (0x0DD, .vcmpLe),
  (0x0DE, .vcmpUn),
  (0x0DF, .vsel),
  (0x0E0, .vpermX),
  (0x0E1, .vpermR),
  (0x0E2, .vpermQ),
  (0x0E3, .vbcastS),
  (0x0E4, .vbcastL),
  (0x0E5, .vins),
  (0x0E6, .vext),
  (0x0E7, .vredAddi),
  (0x0E8, .vredAddf),
  (0x0E9, .vredMin),
  (0x0EA, .vredMax),
  (0x0EB, .vredMinn)]

/-- OP values of format A, part 3 (R191). -/
noncomputable def formatA3 : List (Nat × (AOps → Instr)) := [
  (0x0EC, .vredMaxn),
  (0x0ED, .vredAmax),
  (0x0EE, .vredAmaxn),
  (0x0EF, .vcvtI8),
  (0x0F0, .vcvtN8),
  (0x0F1, .vcvtI16),
  (0x0F2, .vcvtN16),
  (0x0F3, .vcvtI32),
  (0x0F4, .vcvtN32),
  (0x0F5, .vcvtF16),
  (0x0F6, .vcvtBf16),
  (0x0F7, .vcvtF32),
  (0x0F8, .vcvtT8),
  (0x0F9, .vcvtO8),
  (0x0FA, .vcvtO4),
  (0x0FB, .vscale),
  (0x0FC, .vmov),
  (0x100, .mxbegin),
  (0x101, .mxend),
  (0x102, .mxzero),
  (0x103, .mxldwD),
  (0x104, .mxldwS),
  (0x105, .mxldwT),
  (0x106, .mxmacT8),
  (0x107, .mxmacI8),
  (0x108, .mxmacO8),
  (0x109, .mxmacI8o8),
  (0x10A, .mxmacO8i8),
  (0x10B, .mxmacO4),
  (0x10C, .mxmacO4o8),
  (0x10D, .mxmacO8o4),
  (0x10E, .mxmacF16),
  (0x10F, .mxmacBf16),
  (0x110, .mxrdF),
  (0x111, .mxrdI),
  (0x112, .mxrdSc),
  (0x113, .mxwrF),
  (0x114, .mxwrI),
  (0x115, .mxstF32),
  (0x116, .mxstBf16)]

/-- OP values of format A, part 4 (R191). -/
noncomputable def formatA4 : List (Nat × (AOps → Instr)) := [
  (0x117, .mxstF16),
  (0x118, .mxstT8),
  (0x119, .mxstI32),
  (0x11A, .mxstI8),
  (0x11B, .mxstO8),
  (0x11C, .mxstO4),
  (0x11D, .mxwait),
  (0x11E, .mxcmd),
  (0x11F, .mxsave),
  (0x120, .mxload)]

/-- The OP values of format A with the instructions they name (R191). -/
noncomputable def formatA : List (Nat × (AOps → Instr)) :=
  formatA0 ++ formatA1 ++ formatA2 ++ formatA3 ++ formatA4

/-- The OP values of format I with the instructions they name (R191). -/
noncomputable def formatI : List (Nat × (IOps → Instr)) := [
  (0x001, .addImm),
  (0x003, .subImm),
  (0x005, .mulImm),
  (0x00D, .andImm),
  (0x00F, .orImm),
  (0x011, .xorImm),
  (0x02D, .moviW)]

/-- The OP values of format L with the instructions they name (R191). -/
noncomputable def formatL : List (Nat × (LOps → Instr)) := [
  (0x02E, .moviD)]

/-- OP values of format M, part 0 (R191). -/
noncomputable def formatM0 : List (Nat × (MOps → Instr)) := [
  (0x040, .ldB),
  (0x041, .ldH),
  (0x042, .ldW),
  (0x043, .ldD),
  (0x044, .ldBs),
  (0x045, .ldHs),
  (0x046, .ldWs),
  (0x047, .stB),
  (0x048, .stH),
  (0x049, .stW),
  (0x04A, .stD),
  (0x04B, .vldL),
  (0x04C, .vldR),
  (0x04D, .vldC),
  (0x04E, .vlds),
  (0x04F, .vldx),
  (0x050, .vstL),
  (0x051, .vstR),
  (0x052, .vstC),
  (0x053, .vsts),
  (0x054, .vstx),
  (0x055, .aaddW),
  (0x056, .aaddD),
  (0x057, .aandW),
  (0x058, .aandD),
  (0x059, .aorW),
  (0x05A, .aorD),
  (0x05B, .axorW),
  (0x05C, .axorD),
  (0x05D, .aminsW),
  (0x05E, .aminsD),
  (0x05F, .aminuW),
  (0x060, .aminuD),
  (0x061, .amaxsW),
  (0x062, .amaxsD),
  (0x063, .amaxuW),
  (0x064, .amaxuD),
  (0x065, .axchgW),
  (0x066, .axchgD),
  (0x067, .acasW)]

/-- OP values of format M, part 1 (R191). -/
noncomputable def formatM1 : List (Nat × (MOps → Instr)) := [
  (0x068, .acasD),
  (0x069, .afaddW),
  (0x06A, .raddW),
  (0x06B, .raddD),
  (0x06C, .rfaddW),
  (0x06D, .rmaxsW),
  (0x06E, .rmaxsD),
  (0x06F, .rmaxuW),
  (0x070, .rmaxuD),
  (0x073, .batchc),
  (0x078, .waitv),
  (0x079, .noteOne),
  (0x07A, .noteAll),
  (0x07B, .swset),
  (0x07C, .swwait),
  (0x159, .dect)]

/-- The OP values of format M with the instructions they name (R191). -/
noncomputable def formatM : List (Nat × (MOps → Instr)) :=
  formatM0 ++ formatM1

/-- The OP values of format B with the instructions they name (R191). -/
noncomputable def formatB : List (Nat × (BOps → Instr)) := [
  (0x034, .br),
  (0x035, .bri),
  (0x036, .call),
  (0x037, .calli),
  (0x038, .ret),
  (0x039, .loop)]

/-- The OP values of format C with the instructions they name (R191). -/
noncomputable def formatC : List (Nat × (COps → Instr)) := [
  (0x03A, .endF),
  (0x03B, .endRe),
  (0x03D, .nop),
  (0x071, .fence),
  (0x072, .fwait),
  (0x074, .bopen),
  (0x075, .bclose),
  (0x076, .rgopen),
  (0x077, .rgclose),
  (0x07D, .tlwait),
  (0x07E, .tlread),
  (0x180, .csrr),
  (0x181, .csrw),
  (0x182, .csrbS),
  (0x183, .csrbC),
  (0x184, .trap),
  (0x185, .tret),
  (0x186, .yret),
  (0x187, .yield),
  (0x188, .timeS),
  (0x189, .timeC),
  (0x18A, .ecall),
  (0x18B, .brk),
  (0x18C, .waitt)]

/-- The OP values of format E with the instructions they name (R191). -/
noncomputable def formatE : List (Nat × (EOps → Instr)) := [
  (0x140, .copyG),
  (0x141, .copyT),
  (0x142, .copyC),
  (0x143, .copyS),
  (0x144, .copyx),
  (0x145, .fillW),
  (0x146, .fillD),
  (0x147, .collSum),
  (0x148, .collMax),
  (0x149, .collAmax),
  (0x14A, .collMin),
  (0x14B, .cbcast),
  (0x14C, .cgath),
  (0x14D, .cscatSum),
  (0x14E, .cscatMax),
  (0x14F, .cscatAmax),
  (0x150, .cscatMin),
  (0x151, .cgrpA),
  (0x152, .cgrpF),
  (0x153, .sendRq),
  (0x154, .sendRp),
  (0x155, .recvRq),
  (0x156, .recvRp),
  (0x157, .mbsetRq),
  (0x158, .mbsetRp),
  (0x15A, .launch),
  (0x15B, .chwin),
  (0x15C, .chstat),
  (0x15D, .qset),
  (0x15E, .qstat),
  (0x15F, .taskrd)]

/-- The OP values of format P with the instructions they name (R191). -/
noncomputable def formatP : List (Nat × (POps → Instr)) := [
  (0x03C, .rep)]

end Sys2Proof
end

