-- ==== Sys2Proof/Machine/Roles.lean ====
section
/-! DEFINITION. What each form puts in its fields: the operand roles and the accepted values of every field
(R171 items 4 to 7, R179, R181, R185, R233, R252, R267, R279, R281, R309, R322, R347). -/

namespace Sys2Proof

open Sys2Proof.Bits

/-- The roles an 8-bit specifier position can have (R179). -/
inductive Role where
  /-- No role: the field must be zero. -/
  | zero
  /-- A scalar destination: s, o or nx. -/
  | sDst
  /-- A vector destination: v, o or nx. -/
  | vDst
  /-- The destination of VINS, which is also read: v or o (R289). -/
  | vBoth
  /-- The destination of ACAS, which is also read: s or o (R263). -/
  | sBoth
  /-- A mask destination: m1 to m7. -/
  | mDst
  /-- A scalar source: s, o, y0 or pv. -/
  | sSrc
  /-- A scalar source, or an immediate. -/
  | sImm
  /-- A vector source: v, o, y1 or pv. -/
  | vSrc
  /-- A vector source, or a scalar or an immediate that is broadcast. -/
  | bcast
  /-- A mask source: m0 to m7. -/
  | mSrc
  /-- A register s0 to s63 (R242). -/
  | sOnly
  /-- A register s0 to s63, or an immediate (R242). -/
  | sOnlyImm
  /-- A register s1 to s63 (R93, R242). -/
  | sHandle
  /-- s0 alone (R260). -/
  | sZero
  deriving DecidableEq, Repr

/-- Does a specifier name s0 to s63? -/
def Spec.isS (sp : Spec) : Bool := sp.toNat < 0x40
/-- Does a specifier name v0 to v31? -/
def Spec.isV (sp : Spec) : Bool := 0x40 ≤ sp.toNat && sp.toNat < 0x60
/-- Does a specifier name o0 to o7? -/
def Spec.isO (sp : Spec) : Bool := 0x60 ≤ sp.toNat && sp.toNat < 0x68
/-- Is a specifier an immediate? -/
def Spec.isImm (sp : Spec) : Bool := 0x80 ≤ sp.toNat

/-- y0 (R182). -/
def specY0 : Spec := 0x68
/-- y1 (R182). -/
def specY1 : Spec := 0x69
/-- nx (R185). -/
def specNx : Spec := 0x6A
/-- pv (R185). -/
def specPv : Spec := 0x6B

/-- Is a specifier legal in a position of this role (R179)?
(DEDUCED, log entry 52.) -/
def Role.accepts (r : Role) (sp : Spec) : Bool :=
  match r with
  | .zero => sp == 0
  | .sDst => sp.isS || sp.isO || sp == specNx
  | .vDst => sp.isV || sp.isO || sp == specNx
  | .vBoth => sp.isV || sp.isO
  | .sBoth => sp.isS || sp.isO
  | .mDst => 1 ≤ sp.toNat && sp.toNat ≤ 7
  | .sSrc => sp.isS || sp.isO || sp == specY0 || sp == specPv
  | .sImm => sp.isS || sp.isO || sp == specY0 || sp == specPv || sp.isImm
  | .vSrc => sp.isV || sp.isO || sp == specY1 || sp == specPv
  | .bcast => sp.isV || sp.isO || sp == specY1 || sp == specPv || sp.isS || sp == specY0 || sp.isImm
  | .mSrc => sp.toNat ≤ 7
  | .sOnly => sp.isS
  | .sOnlyImm => sp.isS || sp.isImm
  | .sHandle => 1 ≤ sp.toNat && sp.toNat < 0x40
  | .sZero => sp == 0

/-- The item of R171 that an illegal specifier breaks: 5 for a field that must be zero, else 6. -/
def Role.item (r : Role) : Nat :=
  match r with
  | .zero => 5
  | _ => 6

/-- Does the role name a mask? -/
def Role.isMask (r : Role) : Bool :=
  match r with
  | .mDst => true
  | .mSrc => true
  | _ => false

/-- What a format A form accepts: its roles, its ET codes as a 16-bit set, and its greatest KA and KB. -/
structure ARole where
  dst : Role
  sa : Role
  sb : Role
  sc : Role
  ets : BitVec 16
  ka : Nat
  kb : Nat
  deriving DecidableEq, Repr

/-- ET 0x0 alone. -/
def etZero : BitVec 16 := 0x0001
/-- The i types (R281). -/
def etI : BitVec 16 := 0x0055
/-- The n types (R281). -/
def etN : BitVec 16 := 0x00AA
/-- f16, bf16 and f32 (R281). -/
def etF : BitVec 16 := 0x0700
/-- 0x0 to 0x7. -/
def etIN : BitVec 16 := 0x00FF
/-- 0x0 to 0xA. -/
def etAll : BitVec 16 := 0x07FF
/-- 0x8 to 0xB. -/
def etFT : BitVec 16 := 0x0F00
/-- 0x0 to 0xB. -/
def etRed : BitVec 16 := 0x0FFF
/-- 0x0 to 0xD. -/
def etConv : BitVec 16 := 0x3FFF

/-- Is a code in a set of codes? -/
def etIn (s : BitVec 16) (et : BitVec 4) : Bool := s.toNat.testBit et.toNat

/-- The roles of the format A forms at 0x000 to 0x033 (R233 to R242). -/
def aRoleScalar (op : Nat) : ARole :=
  let r (dst sa sb sc : Role) (ka kb : Nat) : ARole :=
    { dst := dst, sa := sa, sb := sb, sc := sc, ets := etZero, ka := ka, kb := kb }
  if op ≤ 0x019 || op = 0x01F || op = 0x02F then r .sDst .sSrc .sImm .zero 0 0
  else if op = 0x01A || op = 0x01B || op = 0x023 then r .sDst .sSrc .sImm .sSrc 0 0
  else if op = 0x01C || op = 0x01D || op = 0x01E || op = 0x02C || op = 0x030 then r .sDst .sSrc .zero .zero 0 0
  else if op = 0x020 || op = 0x021 then r .sDst .sSrc .sImm .zero 0 63
  else if op = 0x022 then r .sDst .sSrc .sImm .sSrc 0 63
  else if op = 0x024 then r .sDst .sSrc .sImm .mSrc 0 0
  else if op ≤ 0x02A then r .mDst .sSrc .sImm .zero 0 0
  else if op = 0x02B then r .mDst .zero .zero .mSrc 15 7
  else r .zero .sOnly .sOnlyImm .sHandle 63 63

/-- The base forms of 0x0A0 to 0x0D3, by (op − 0x0A0) / 2 (R281, R282, R283, R284). -/
def aRolePair (k : Nat) : ARole :=
  let r (sb sc : Role) (ets : BitVec 16) : ARole :=
    { dst := .vDst, sa := .vSrc, sb := sb, sc := sc, ets := ets, ka := 0, kb := 0 }
  match k with
  | 0 | 1 => r .bcast .zero etI
  | 2 => r .bcast .zero etN
  | 3 => r .bcast .zero etF
  | 4 | 5 => r .bcast .zero etI
  | 6 => r .bcast .zero etN
  | 7 => r .bcast .zero etF
  | 8 | 9 => r .bcast .zero etI
  | 10 => r .bcast .zero etN
  | 11 => r .bcast .zero etF
  | 12 => r .bcast .vSrc etI
  | 13 => r .bcast .vSrc etF
  | 14 => r .bcast .zero etF
  | 15 => r .zero .zero etF
  | 16 => r .bcast .zero etI
  | 17 => r .bcast .zero etN
  | 18 => r .bcast .zero etF
  | 19 => r .bcast .zero etI
  | 20 => r .bcast .zero etN
  | 21 => r .bcast .zero etF
  | 22 => r .zero .zero etI
  | 23 => r .zero .zero etF
  | 24 => r .zero .zero etI
  | _ => r .zero .zero etF

/-- The roles of the vector forms at 0x0A0 to 0x0FC (R228, R232, R279 to R290). -/
def aRoleVector (op : Nat) : ARole :=
  let r (dst sa sb sc : Role) (ets : BitVec 16) (ka kb : Nat) : ARole :=
    { dst := dst, sa := sa, sb := sb, sc := sc, ets := ets, ka := ka, kb := kb }
  if op < 0x0D4 then aRolePair ((op - 0x0A0) / 2)
  else if op ≤ 0x0D6 then r .vDst .vSrc .bcast .zero etAll 0 0
  else if op ≤ 0x0D9 then r .vDst .vSrc .bcast .zero etIN 0 0
  else if op ≤ 0x0DD then r .mDst .vSrc .bcast .zero etAll 0 0
  else if op = 0x0DE then r .mDst .vSrc .bcast .zero etF 0 0
  else if op = 0x0DF then r .vDst .vSrc .bcast .mSrc etAll 0 0
  else if op = 0x0E0 then r .vDst .vSrc .vSrc .zero etAll 0 0
  else if op = 0x0E1 then r .vDst .vSrc .sImm .zero etAll 0 0
  else if op = 0x0E2 then r .vDst .vSrc .vSrc .zero etAll 3 0
  else if op = 0x0E3 then r .vDst .sSrc .zero .zero etAll 0 0
  else if op = 0x0E4 then r .vDst .vSrc .sImm .zero etAll 0 0
  else if op = 0x0E5 then r .vBoth .sSrc .sImm .zero etAll 0 0
  else if op = 0x0E6 then r .sDst .vSrc .sImm .zero etAll 0 0
  else if op = 0x0E7 then r .sDst .vSrc .zero .zero etIN 0 0
  else if op = 0x0E8 then r .sDst .vSrc .zero .zero etFT 0 0
  else if op ≤ 0x0EE then r .sDst .vSrc .zero .zero etRed 0 0
  else if op ≤ 0x0FA then r .vDst .vSrc .sImm .zero etConv 63 1
  else if op = 0x0FB then r .vDst .vSrc .sImm .sSrc etF 1 0
  else r .vDst .vSrc .zero .zero etAll 0 0

/-- The roles of the matrix forms at 0x100 to 0x120 (R309 to R318). -/
def aRoleMatrix (op : Nat) : ARole :=
  let r (dst sa sb sc : Role) (ka kb : Nat) : ARole :=
    { dst := dst, sa := sa, sb := sb, sc := sc, ets := etZero, ka := ka, kb := kb }
  if op = 0x100 then r .zero .zero .zero .zero 1 0
  else if op ≤ 0x102 then r .zero .zero .zero .zero 0 0
  else if op ≤ 0x10F then r .zero .sSrc .zero .zero 0 0
  else if op ≤ 0x112 then r .vDst .zero .sImm .zero 0 0
  else if op ≤ 0x114 then r .zero .vSrc .sImm .zero 0 0
  else if op ≤ 0x11A then r .zero .sSrc .sImm .zero 63 63
  else if op ≤ 0x11C then r .zero .sSrc .sImm .sSrc 63 63
  else if op = 0x11D then r .sDst .zero .zero .zero 1 0
  else if op = 0x11E then r .sDst .sSrc .sSrc .sSrc 0 0
  else r .zero .sSrc .zero .zero 0 0

/-- The roles of every format A form. -/
def aRole (op : Nat) : ARole :=
  if op < 0x040 then aRoleScalar op else if op < 0x100 then aRoleVector op else aRoleMatrix op

/-- The target type of VCVT by its OP value (R228). -/
def vcvtTarget (op : Nat) : BitVec 4 :=
  if op < 0x0F5 then BitVec.ofNat 4 (op - 0x0EF) else BitVec.ofNat 4 (op - 0x0F5 + 8)

/-- Is a type o8 or o4? -/
def etOff (et : BitVec 4) : Bool := et == 12 || et == 13

/-- The decode tests of VCVT beyond the common ones (R229, R231). -/
def vcvtItems (op : Nat) (o : AOps) : List (Bool × Nat) :=
  let t := vcvtTarget op
  let ls := Flt.etLanes o.et
  let ld := Flt.etLanes t
  let parts := max ls ld / min ls ld
  [(o.et == t || (o.et == 12 && t == 13) || (o.et == 13 && t == 12), 6),
   (parts ≤ o.ka.toNat, 6),
   (o.kb == 1 && (8 ≤ o.et.toNat || 8 ≤ t.toNat), 6),
   (o.sb != 0 && !etOff o.et && !etOff t, 5)]

/-- What a format M form accepts (R252): its roles, its ORD codes as a set, and which qualifiers it takes. -/
structure MRole where
  dst : Role
  sa : Role
  sb : Role
  ords : BitVec 8
  strm : Bool
  batch : Bool
  bnd : Bool
  grp : Bool
  flag : Bool
  lens : BitVec 4
  deriving DecidableEq, Repr

/-- ORD plain alone (R75). -/
def ordP : BitVec 8 := 0x01
/-- ORD plain and acq. -/
def ordL : BitVec 8 := 0x03
/-- ORD plain, rel and relc. -/
def ordS : BitVec 8 := 0x15
/-- The five ORD codes. -/
def ordAll : BitVec 8 := 0x1F

/-- The table of R252, with DECT as R343 gives it.
(DEDUCED, log entry 52.) -/
def mRole (op : Nat) : MRole :=
  let ld (dst sb : Role) (grp : Bool) (lens : BitVec 4) (sa : Role) : MRole :=
    { dst := dst, sa := sa, sb := sb, ords := ordL, strm := false, batch := false, bnd := false, grp := grp,
      flag := false, lens := lens }
  let st (dst sb : Role) (lens : BitVec 4) (sa : Role) : MRole :=
    { dst := dst, sa := sa, sb := sb, ords := ordS, strm := true, batch := true, bnd := true, grp := false,
      flag := true, lens := lens }
  let at' (dst sb : Role) (ords : BitVec 8) : MRole :=
    { dst := dst, sa := .sSrc, sb := sb, ords := ords, strm := false, batch := false, bnd := false, grp := false,
      flag := false, lens := 0xE }
  if op ≤ 0x046 then ld .sDst .sImm true 0xE .sSrc
  else if op ≤ 0x04A then st .sSrc .sImm 0xE .sSrc
  else if op = 0x04B then ld .vDst .sImm true 0xE .sSrc
  else if op ≤ 0x04D then ld .vDst .sImm false 0x6 .sZero
  else if op = 0x04E then ld .vDst .sImm false 0xE .sSrc
  else if op = 0x04F then ld .vDst .vSrc false 0xE .sSrc
  else if op = 0x050 then st .vSrc .sImm 0xE .sSrc
  else if op ≤ 0x052 then st .vSrc .sImm 0x6 .sZero
  else if op = 0x053 then st .vSrc .sImm 0xE .sSrc
  else if op = 0x054 then st .vSrc .vSrc 0xE .sSrc
  else if op = 0x067 || op = 0x068 then at' .sBoth .sImm ordAll
  else if op ≤ 0x069 then at' .sDst .sImm ordAll
  else if op ≤ 0x070 then at' .zero .sImm ordAll
  else if op = 0x073 then
    { dst := .sDst, sa := .zero, sb := .zero, ords := ordP, strm := false, batch := true, bnd := false,
      grp := false, flag := false, lens := 0x2 }
  else if op = 0x079 || op = 0x07A then at' .zero .zero ordP
  else if op = 0x159 then at' .zero .sImm ordAll
  else at' .zero .sImm ordP

/-- The roles of a format B form (R245): DST, SA, and whether OFF has a role. -/
def bRole (op : Nat) : Role × Role × Bool :=
  match op with
  | 0x034 => (.zero, .zero, true)
  | 0x035 => (.zero, .sSrc, false)
  | 0x036 => (.sDst, .zero, true)
  | 0x037 => (.sDst, .sSrc, false)
  | 0x038 => (.zero, .sSrc, false)
  | _ => (.sDst, .sSrc, true)

/-- The roles of a format C form (R247, R249, R267, R347, R348, R349): DST, SA, and the greatest IMM16. -/
def cRole (op : Nat) : Role × Role × Nat :=
  match op with
  | 0x071 => (.sDst, .zero, 0x7F)
  | 0x072 => (.sDst, .sSrc, 0)
  | 0x074 => (.sDst, .zero, 0)
  | 0x075 => (.sDst, .zero, 0)
  | 0x076 => (.sDst, .zero, 0)
  | 0x077 => (.sDst, .zero, 0)
  | 0x07D => (.sDst, .sSrc, 0x7)
  | 0x07E => (.sDst, .zero, 0xF)
  | 0x180 => (.sDst, .zero, 0xFFF)
  | 0x181 => (.zero, .sSrc, 0xFFF)
  | 0x182 => (.sDst, .sSrc, 0xFFF)
  | 0x183 => (.sDst, .sSrc, 0xFFF)
  | 0x184 => (.zero, .zero, 0xFFFF)
  | 0x188 => (.sDst, .zero, 0)
  | 0x189 => (.sDst, .zero, 0)
  | 0x18A => (.sDst, .zero, 0xFFFF)
  | 0x18C => (.sDst, .sSrc, 0)
  | _ => (.zero, .zero, 0)

/-- What a format E form accepts (R322, R325, R328 to R346). -/
structure ERole where
  dst : Role
  sa : Role
  sb : Role
  sc : Role
  ets : BitVec 16
  vq : Bool
  ke : BitVec 10
  deriving DecidableEq, Repr

/-- The roles of the format E forms; `ke` has a one in every bit that has a role.  The collective forms take every
ET that is a type: R334 refuses those outside 0x4 to 0xA at acceptance.
(DEDUCED, log entry 53.)
(DEDUCED, log entry 54.) -/
def eRole (op : Nat) : ERole :=
  let r (dst sa sb sc : Role) (ets : BitVec 16) (vq : Bool) (ke : BitVec 10) : ERole :=
    { dst := dst, sa := sa, sb := sb, sc := sc, ets := ets, vq := vq, ke := ke }
  match op with
  | 0x140 => r .sDst .sSrc .zero .zero etConv true 0x007
  | 0x141 => r .sDst .sSrc .zero .zero etConv true 0x03B
  | 0x142 => r .sDst .sSrc .zero .zero etConv true 0x007
  | 0x143 => r .sDst .sSrc .zero .zero etConv true 0x007
  | 0x144 => r .sDst .sSrc .zero .sSrc etConv true 0x007
  | 0x145 => r .sDst .sSrc .sSrc .zero etZero true 0x007
  | 0x146 => r .sDst .sSrc .sSrc .zero etZero true 0x007
  | 0x149 => r .sDst .sSrc .zero .zero etConv true 0x007
  | 0x14F => r .sDst .sSrc .zero .zero etConv true 0x007
  | 0x151 => r .zero .sSrc .sSrc .zero etZero false 0x003
  | 0x152 => r .zero .zero .zero .zero etZero false 0x003
  | 0x153 => r .zero .vSrc .sSrc .zero etZero false 0
  | 0x154 => r .zero .vSrc .sSrc .zero etZero false 0
  | 0x155 => r .vDst .zero .zero .mDst etZero false 0
  | 0x156 => r .vDst .zero .zero .mDst etZero false 0
  | 0x157 => r .zero .sSrc .sSrc .zero etZero false 0x00F
  | 0x158 => r .zero .sSrc .sSrc .zero etZero false 0x00F
  | 0x15A => r .sDst .sSrc .zero .zero etZero false 0
  | 0x15B => r .sDst .zero .zero .zero etZero false 0x007
  | 0x15C => r .sDst .zero .zero .zero etZero false 0x007
  | 0x15D => r .zero .sSrc .zero .zero etZero true 0x001
  | 0x15E => r .sDst .zero .zero .zero etZero true 0x003
  | 0x15F => r .sDst .sSrc .zero .zero etZero false 0x001
  | _ => r .sDst .sSrc .zero .zero etConv true 0x003

/-- The specifier positions of an instruction with their roles, in the order DST, SA, SB, SC, FLAG. -/
def Form.positions : Form → List (Role × Spec)
  | .a op o =>
    let r := aRole op.toNat
    let sc := if op = 0x0FB && o.ka == 0 then Role.zero else r.sc
    [(r.dst, o.dst), (r.sa, o.sa), (r.sb, o.sb), (sc, o.sc)]
  | .i op o => [(.sDst, o.dst), (if op = 0x02D then .zero else .sSrc, o.sa), (.zero, o.sc)]
  | .l _ o => [(.sDst, o.dst), (.zero, o.sa), (.zero, o.sc)]
  | .m op o =>
    let r := mRole op.toNat
    [(r.dst, o.dst), (r.sa, o.sa), (r.sb, o.sb)] ++ (if o.fl then [(.sHandle, o.flag)] else [(.zero, o.flag)])
  | .b op o =>
    let r := bRole op.toNat
    [(r.1, o.dst), (r.2.1, o.sa), (.zero, o.sb)]
  | .c op o =>
    let r := cRole op.toNat
    [(r.1, o.dst), (r.2.1, o.sa), (.zero, o.sb)]
  | .e op o =>
    let r := eRole op.toNat
    [(r.dst, o.dst), (r.sa, o.sa), (r.sb, o.sb), (r.sc, o.sc)]
  | .p _ _ => []
  | .pad => []
  | .event => []

/-- The lowest item among those whose condition holds (R171). -/
def lowestItem (xs : List (Bool × Nat)) : Option Nat :=
  xs.foldl (fun acc x => if x.1 then some (match acc with
    | none => x.2
    | some k => min k x.2) else acc) none

/-- The specifier tests of R179 as items of R171. -/
def posItems (ps : List (Role × Spec)) : List (Bool × Nat) :=
  ps.map fun p => (!p.1.accepts p.2, p.1.item)

/-- The field tests of a form beyond its specifiers: every value that R171 items 4 to 6 refuse.
(DEDUCED, log entry 51.)
(DEDUCED, log entry 54.) -/
def Form.fieldItems : Form → List (Bool × Nat)
  | .a op o =>
    let r := aRole op.toNat
    [(!etIn r.ets o.et, 6), (decide (r.ka < o.ka.toNat), 5), (decide (r.kb < o.kb.toNat), 5),
     ((op = 0x031 || op = 0x032 || op = 0x033) && (o.pred != 0 || o.pn), 5),
     (decide (0x115 ≤ op.toNat) && decide (op.toNat ≤ 0x11C) && decide (64 < o.ka.toNat + o.kb.toNat + 1), 6)]
    ++ (if 0x0EF ≤ op.toNat && op.toNat ≤ 0x0FA then vcvtItems op.toNat o else [])
  | .i _ o => [(o.et != 0, 6), (o.ka != 0, 5), (o.kb != 0, 5)]
  | .l _ o => [(o.et != 0, 6), (o.ka != 0, 5), (o.kb != 0, 5)]
  | .m op o =>
    let r := mRole op.toNat
    let k := op.toNat
    [(!(r.lens.toNat.testBit o.len.toNat), 4),
     (!(r.ords.toNat.testBit o.ord.toNat), 6),
     (o.strm != 0 && !r.strm, 5), (o.batch != 0 && !r.batch, 5), (o.bnd && !r.bnd, 5), (o.grp && !r.grp, 5),
     (o.fl && !r.flag, 5), (o.bnd && (o.ord != 0 || o.fl), 5),
     (k == 0x073 && o.off != 0, 5),
     (o.len != 2 && (o.fl || o.flag != 0 || o.offhi != 0), 5), (o.len != 3 && o.disp != 0, 5)]
  | .b op o => [(!(bRole op.toNat).2.2 && o.off != 0, 5)]
  | .c op o =>
    [(decide ((cRole op.toNat).2.2 < o.imm.toNat), 5), (decide (op = 0x03D) && (o.pred != 0 || o.pn), 5)]
  | .e op o =>
    let r := eRole op.toNat
    [(!etIn r.ets o.et, 6), (o.vq != 0 && !r.vq, 5), (o.ke &&& ~~~r.ke != 0, 5),
     ((op = 0x140 || op = 0x143 || op = 0x144) && o.et != 0 && !(bit o.ke.toNat 2), 6),
     ((op = 0x157 || op = 0x158) && decide (10 < o.ke.toNat), 6)]
  | .p _ _ => []
  | .pad => []
  | .event => []

/-- The static decode fault of an instruction's fields: the lowest of R171 items 4, 5 and 6 that it breaks, or none.
(DEDUCED, log entry 51.) -/
def Form.staticItem (f : Form) : Option Nat := lowestItem (f.fieldItems ++ posItems f.positions)

/-- Does a register specifier lie within an allocation of S scalars and V vectors (R181), and does it name nx or pv
only inside a chain (R185)? -/
def specAllocated (s v : Nat) (chain : Bool) (sp : Spec) : Bool :=
  if sp.isS then sp.toNat ≤ s
  else if sp.isV then sp.toNat < 0x40 + v
  else if sp == specNx || sp == specPv then chain
  else true

/-- R171 item 7: a register outside the context's allocation, or nx or pv outside a chain. -/
def Form.allocated (s v : Nat) (chain : Bool) (f : Form) : Bool :=
  f.positions.all fun p => p.1.isMask || specAllocated s v chain p.2

/-- The instruction's length in bytes (R169, R172 to R178). -/
def Form.size : Form → Nat
  | .a _ _ => 8
  | .i _ _ => 12
  | .l _ _ => 16
  | .m _ o => if o.len = 2 then 12 else if o.len = 3 then 16 else 8
  | .b _ _ => 8
  | .c _ _ => 8
  | .e _ _ => 8
  | .p _ _ => 8
  | .pad => 4
  | .event => 0

/-- Is the instruction one that REP refuses as its target (R187)? -/
def Form.repRefused : Form → Bool
  | .b _ _ => true
  | .p _ _ => true
  | .pad => true
  | .event => true
  | .a op _ => op = 0x031 || op = 0x032 || op = 0x033
  | .m op _ => op = 0x078
  | .c op _ => op = 0x03A || op = 0x03B || op = 0x184 || op = 0x185 || op = 0x186 || op = 0x187 || op = 0x18A
      || op = 0x18B
  | _ => false

end Sys2Proof
end

