-- ==== Sys2Proof/WellFormed.lean ====
section
/-! DEFINITION. Which instructions are well formed: every field holds a value that the instruction's form accepts
(R171 items 4, 5 and 6).  A device step without an encoding is always well formed. -/

namespace Sys2Proof

/-- An instruction whose fields all hold accepted values. -/
def Instr.wellFormed (i : Instr) : Bool := i.form.staticItem == none

end Sys2Proof
end

