-- ==== Sys2Proof/Decode.lean ====
section
/-! DEFINITION. The decoder: total on any bytes, refusing by the item of R171 that the bits break; and after it the
encoder, written from the same formats (R169 to R178, R186, R191, R192). -/

namespace Sys2Proof

open Sys2Proof.Bits

/-- What the bits at an address are: a form, or a decode fault of R171 by its item. -/
inductive Decoded where
  | ok (f : Form)
  | bad (item : Nat)
  deriving DecidableEq, Repr

/-- The formats (R172 to R178, R186). -/
inductive Format where
  | a | i | l | m | b | c | e | p
  deriving DecidableEq, Repr

/-- The opcode map by ranges (R191): the format of an OP value, or none where the value is unassigned (R192). -/
def formatOfOp (op : Nat) : Option Format :=
  if op ≤ 0x005 then some (if op % 2 = 0 then .a else .i)
  else if op ≤ 0x00B then some .a
  else if op ≤ 0x011 then some (if op % 2 = 0 then .a else .i)
  else if op ≤ 0x02C then some .a
  else if op = 0x02D then some .i
  else if op = 0x02E then some .l
  else if op ≤ 0x033 then some .a
  else if op ≤ 0x039 then some .b
  else if op = 0x03C then some .p
  else if op ≤ 0x03D then some .c
  else if op < 0x040 then none
  else if op ≤ 0x070 then some .m
  else if op = 0x071 || op = 0x072 then some .c
  else if op = 0x073 then some .m
  else if op ≤ 0x077 then some .c
  else if op ≤ 0x07C then some .m
  else if op ≤ 0x07E then some .c
  else if op < 0x0A0 then none
  else if op ≤ 0x0FC then some .a
  else if op < 0x100 then none
  else if op ≤ 0x120 then some .a
  else if op < 0x140 then none
  else if op = 0x159 then some .m
  else if op ≤ 0x15F then some .e
  else if op < 0x180 then none
  else if op ≤ 0x18C then some .c
  else none

/-- The LEN a format accepts; format M's is left to its forms (R252). -/
def Format.lenOk (f : Format) (len : BitVec 2) : Bool :=
  match f with
  | .m => true
  | .i => len == 2
  | .l => len == 3
  | _ => len == 1

/-- The bits of word 0 that a format gives no field (R173 to R178, R186). -/
def Format.mustBeZero (f : Format) : BitVec 64 :=
  match f with
  | .m => 0
  | .c => 0xBFC0000000000000
  | .p => 0xFFC0003800000000
  | _ => 0x8000000000000000

/-- The fields of an instruction word by its format (R172 to R178, R186). -/
def fieldsOf (f : Format) (op : BitVec 9) (w : BitVec 128) : Form :=
  let len : BitVec 2 := w.extractLsb' 0 2
  let dst : Spec := w.extractLsb' 11 8
  let sa : Spec := w.extractLsb' 19 8
  let sb : Spec := w.extractLsb' 27 8
  let pred : BitVec 3 := w.extractLsb' 35 3
  let pn : Bool := w.getLsbD 62
  match f with
  | .a => .a op
      { dst := dst, sa := sa, sb := sb, pred := pred, sc := w.extractLsb' 38 8, et := w.extractLsb' 46 4,
        ka := w.extractLsb' 50 6, kb := w.extractLsb' 56 6, pn := pn }
  | .i => .i op
      { dst := dst, sa := sa, pred := pred, sc := w.extractLsb' 38 8, et := w.extractLsb' 46 4,
        ka := w.extractLsb' 50 6, kb := w.extractLsb' 56 6, pn := pn, imm := w.extractLsb' 64 32 }
  | .l => .l op
      { dst := dst, sa := sa, pred := pred, sc := w.extractLsb' 38 8, et := w.extractLsb' 46 4,
        ka := w.extractLsb' 50 6, kb := w.extractLsb' 56 6, pn := pn, imm := w.extractLsb' 64 64 }
  | .m => .m op
      { len := len, dst := dst, sa := sa, sb := sb, pred := pred, strm := w.extractLsb' 38 4,
        scope := w.extractLsb' 42 2, ord := w.extractLsb' 44 3, batch := w.extractLsb' 47 2, bnd := w.getLsbD 49,
        grp := w.getLsbD 50, off := w.extractLsb' 51 13,
        flag := if len = 2 then w.extractLsb' 64 8 else 0,
        fl := if len = 2 then w.getLsbD 72 else false,
        offhi := if len = 2 then w.extractLsb' 73 23 else 0,
        disp := if len = 3 then w.extractLsb' 64 64 else 0 }
  | .b => .b op { dst := dst, sa := sa, sb := sb, pred := pred, off := w.extractLsb' 38 24, pn := pn }
  | .c => .c op { dst := dst, sa := sa, sb := sb, pred := pred, imm := w.extractLsb' 38 16, pn := pn }
  | .e => .e op
      { dst := dst, sa := sa, sb := sb, pred := pred, sc := w.extractLsb' 38 8, et := w.extractLsb' 46 4,
        vq := w.extractLsb' 50 2, ke := w.extractLsb' 52 10, pn := pn }
  | .p => .p op
      { count := dst, sd := w.extractLsb' 19 4, ssa := w.extractLsb' 23 4, ssb := w.extractLsb' 27 4,
        ssc := w.extractLsb' 31 4, soff := w.extractLsb' 38 16 }

/-- The bits of an instruction that its fields do not cover: nonzero must-be-zero bits, and in formats I and L a
nonzero SB (R174). -/
def strayBits (f : Format) (w : BitVec 128) : Bool :=
  (w.extractLsb' 0 64 &&& f.mustBeZero) != 0
  || ((f == .i || f == .l) && w.extractLsb' 27 8 != (0 : BitVec 8))

/-- Decode the 128 bits that start at an instruction's address; bits past the instruction's length play no part.
A word of 32 zero bits is PAD (R170). -/
def decodeBits (w : BitVec 128) : Decoded :=
  if w.extractLsb' 0 32 = (0 : BitVec 32) then .ok .pad
  else
    let len : BitVec 2 := w.extractLsb' 0 2
    let op : BitVec 9 := w.extractLsb' 2 9
    if len = 0 then .bad 1
    else match formatOfOp op.toNat with
      | none => .bad 3
      | some f =>
        if !f.lenOk len then .bad 4
        else
          let fm := fieldsOf f op w
          match lowestItem ((strayBits f w, 5) :: fm.fieldItems ++ posItems fm.positions) with
          | some k => .bad k
          | none => .ok fm

/-- The bytes of an instruction as one number, first byte lowest (R6, R169); missing bytes are zero. -/
def bitsOfBytes (bs : List Byte) : BitVec 128 := BitVec.ofNat 128 (valOf (bs.take 16))

/-- Decode a byte list, first byte at the lowest address. -/
def decodeBytes (bs : List Byte) : Decoded := decodeBits (bitsOfBytes bs)

/-- The length in bytes that LEN gives (R169); 4 for PAD and for LEN 0b00. -/
def lengthOfLen (len : BitVec 2) : Nat := if len = 0 then 4 else 4 * len.toNat + 4

/-- Decode at an offset of .text: an instruction that crosses a 32-byte fetch block is item 2 of R171. -/
def decodeAt (pc : Nat) (w : BitVec 128) : Decoded :=
  let len : BitVec 2 := w.extractLsb' 0 2
  if len ≠ 0 ∧ 32 < pc % 32 + lengthOfLen len then .bad 2 else decodeBits w

/-- The instruction of a form: the opcode map of R191 read from value to instruction. -/
noncomputable def Form.instr : Form → Option Instr
  | .a op o => (look formatA op.toNat).map (· o)
  | .i op o => (look formatI op.toNat).map (· o)
  | .l op o => (look formatL op.toNat).map (· o)
  | .m op o => (look formatM op.toNat).map (· o)
  | .b op o => (look formatB op.toNat).map (· o)
  | .c op o => (look formatC op.toNat).map (· o)
  | .e op o => (look formatE op.toNat).map (· o)
  | .p op o => (look formatP op.toNat).map (· o)
  | .pad => some .padSkip
  | .event => none

/-- The instruction that 128 bits hold, or none where the decoder refuses them. -/
noncomputable def decode (w : BitVec 128) : Option Instr :=
  match decodeBits w with
  | .ok f => f.instr
  | .bad _ => none

/-- The instruction that the decoder reads from `nbits` bits numbered as the opcode table numbers them; the words of
this hardware are little-endian (R169), so a number's low byte is the first byte. -/
noncomputable def decodeTableWord (nbits w : Nat) : Option Instr :=
  decode (BitVec.ofNat 128 (w % 2 ^ nbits))

/-- One bit for a Bool. -/
def b1 (b : Bool) : BitVec 1 := if b then 1 else 0

/-- The 128 bits of a form, those past its length zero: the encoding tables of R172 to R178 and R186. -/
def Form.bits : Form → BitVec 128
  | .a op o =>
    (0 : BitVec 64) ++ ((0 : BitVec 1) ++ b1 o.pn ++ o.kb ++ o.ka ++ o.et ++ o.sc ++ o.pred ++ o.sb ++ o.sa ++ o.dst
      ++ op ++ (1 : BitVec 2) : BitVec 64)
  | .i op o =>
    (0 : BitVec 32) ++ o.imm ++ ((0 : BitVec 1) ++ b1 o.pn ++ o.kb ++ o.ka ++ o.et ++ o.sc ++ o.pred ++ (0 : BitVec 8)
      ++ o.sa ++ o.dst ++ op ++ (2 : BitVec 2) : BitVec 64)
  | .l op o =>
    o.imm ++ ((0 : BitVec 1) ++ b1 o.pn ++ o.kb ++ o.ka ++ o.et ++ o.sc ++ o.pred ++ (0 : BitVec 8)
      ++ o.sa ++ o.dst ++ op ++ (3 : BitVec 2) : BitVec 64)
  | .m op o =>
    let hi : BitVec 64 :=
      if o.len = 2 then (0 : BitVec 32) ++ (o.offhi ++ b1 o.fl ++ o.flag : BitVec 32)
      else if o.len = 3 then o.disp else 0
    hi ++ (o.off ++ b1 o.grp ++ b1 o.bnd ++ o.batch ++ o.ord ++ o.scope ++ o.strm ++ o.pred ++ o.sb ++ o.sa ++ o.dst
      ++ op ++ o.len : BitVec 64)
  | .b op o =>
    (0 : BitVec 64) ++ ((0 : BitVec 1) ++ b1 o.pn ++ o.off ++ o.pred ++ o.sb ++ o.sa ++ o.dst ++ op
      ++ (1 : BitVec 2) : BitVec 64)
  | .c op o =>
    (0 : BitVec 64) ++ ((0 : BitVec 1) ++ b1 o.pn ++ (0 : BitVec 8) ++ o.imm ++ o.pred ++ o.sb ++ o.sa ++ o.dst ++ op
      ++ (1 : BitVec 2) : BitVec 64)
  | .e op o =>
    (0 : BitVec 64) ++ ((0 : BitVec 1) ++ b1 o.pn ++ o.ke ++ o.vq ++ o.et ++ o.sc ++ o.pred ++ o.sb ++ o.sa ++ o.dst
      ++ op ++ (1 : BitVec 2) : BitVec 64)
  | .p op o =>
    (0 : BitVec 64) ++ ((0 : BitVec 10) ++ o.soff ++ (0 : BitVec 3) ++ o.ssc ++ o.ssb ++ o.ssa ++ o.sd ++ o.count ++ op
      ++ (1 : BitVec 2) : BitVec 64)
  | .pad => 0
  | .event => 0

/-- The bits of an instruction (R169, R172 to R178, R186). -/
def encodeBits (i : Instr) : BitVec 128 := i.form.bits

/-- The words of an instruction, first word first (R169); a device step has none. -/
def encode (i : Instr) : List (BitVec 32) :=
  (List.range (i.form.size / 4)).map fun k => (encodeBits i).extractLsb' (32 * k) 32

/-- The bytes of an instruction as they stand in .text (R6, R169). -/
def encodeToBytes (i : Instr) : List Byte := bytesOf i.form.size (encodeBits i).toNat

/-- The instruction with every step of a REP applied (R187): repetition `j` of the target. -/
def Form.stepped (p : POps) (j : Nat) (f : Form) : Form :=
  let st (sp : Spec) (s : BitVec 4) : Spec :=
    if sp.isImm then 0x80 ||| ((sp + BitVec.ofInt 8 (j * s.toInt)) &&& 0x7F) else sp + BitVec.ofInt 8 (j * s.toInt)
  match f with
  | .a op o => .a op { o with dst := st o.dst p.sd, sa := st o.sa p.ssa, sb := st o.sb p.ssb, sc := st o.sc p.ssc }
  | .i op o => .i op { o with dst := st o.dst p.sd, sa := st o.sa p.ssa, sc := st o.sc p.ssc }
  | .l op o => .l op { o with dst := st o.dst p.sd, sa := st o.sa p.ssa, sc := st o.sc p.ssc }
  | .m op o =>
    let d := (j : Int) * p.soff.toInt
    let o' := { o with dst := st o.dst p.sd, sa := st o.sa p.ssa, sb := st o.sb p.ssb }
    if o.len = 3 then .m op { o' with disp := o.disp + BitVec.ofInt 64 d }
    else if o.len = 2 then
      let off := (o.offhi ++ o.off : BitVec 36) + BitVec.ofInt 36 d
      .m op { o' with off := off.extractLsb' 0 13, offhi := off.extractLsb' 13 23 }
    else .m op { o' with off := o.off + BitVec.ofInt 13 d }
  | .b op o => .b op o
  | .c op o => .c op { o with dst := st o.dst p.sd, sa := st o.sa p.ssa, sb := st o.sb p.ssb }
  | .e op o => .e op { o with dst := st o.dst p.sd, sa := st o.sa p.ssa, sb := st o.sb p.ssb, sc := st o.sc p.ssc }
  | .p op o => .p op o
  | .pad => .pad
  | .event => .event

/-- A stepped specifier's class bounds (R187): the range its value must stay in, or none where no step is allowed. -/
def stepRange (isMask isSB : Bool) (sp : Spec) : Option (Int × Int × Int) :=
  if isMask then some (sp.toNat, 0, 7)
  else if isSB && sp.isImm then some ((immVal sp).toInt, -64, 63)
  else if sp.isS then some (sp.toNat, 0, 0x3F)
  else if sp.isV then some (sp.toNat, 0x40, 0x5F)
  else if sp.isO then some (sp.toNat, 0x60, 0x67)
  else none

/-- Does a specifier stay in its class over `n` repetitions with this step (R187)? -/
def stepStays (isMask isSB : Bool) (sp : Spec) (n : Nat) (s : BitVec 4) : Bool :=
  s == 0 || match stepRange isMask isSB sp with
    | none => false
    | some (v, lo, hi) =>
      let last := v + ((n : Int) - 1) * s.toInt
      decide (lo ≤ last) && decide (last ≤ hi)

/-- Does the stepped offset stay within the signed width of its M form (R187)?  In M128 it always does. -/
def offsetStays (n : Nat) (soff : BitVec 16) (f : Form) : Bool :=
  match f with
  | .m _ o =>
    let d := ((n : Int) - 1) * soff.toInt
    if o.len = 3 then true
    else if o.len = 2 then
      let v := (o.offhi ++ o.off : BitVec 36).toInt + d
      decide (-(2 ^ 35 : Int) ≤ v) && decide (v < (2 ^ 35 : Int))
    else
      let v := o.off.toInt + d
      decide (-(2 ^ 12 : Int) ≤ v) && decide (v < (2 ^ 12 : Int))
  | _ => soff == 0

/-- The check of R187 on a REP and its target: the target's kind, the stepped specifiers and offset, and every
repetition's own fields. -/
def repOk (p : POps) (t : Form) : Bool :=
  let n := p.count.toNat + 1
  let pos := t.positions
  let step (k : Nat) (isSB : Bool) (s : BitVec 4) : Bool :=
    match pos[k]? with
    | none => true
    | some (r, sp) => stepStays r.isMask isSB sp n s
  let steps :=
    match t with
    | .i _ _ => step 0 false p.sd && step 1 false p.ssa && step 2 false p.ssc && (n == 1 || p.ssb == 0)
    | .l _ _ => step 0 false p.sd && step 1 false p.ssa && step 2 false p.ssc && (n == 1 || p.ssb == 0)
    | .a _ _ => step 0 false p.sd && step 1 false p.ssa && step 2 true p.ssb && step 3 false p.ssc
    | .e _ _ => step 0 false p.sd && step 1 false p.ssa && step 2 true p.ssb && step 3 false p.ssc
    | _ => step 0 false p.sd && step 1 false p.ssa && step 2 true p.ssb
  !t.repRefused && steps && offsetStays n p.soff t
    && (List.range n).all fun j => (t.stepped p j).staticItem == none

end Sys2Proof
end

