-- ==== Sys2Proof/Config.lean ====
section
/-! DEFINITION. What one implementation fixes, and the values the manual leaves open.  The capacities are those of R3;
the opaque constants have no body, so nothing can be proved of their values. -/

namespace Sys2Proof.Config

/-- Cores on the grid (R3, R4). -/
def cores : Nat := 1536
/-- Columns of the grid (R4). -/
def columns : Nat := 48
/-- Rows of the grid (R4). -/
def rows : Nat := 32
/-- HBM bytes (R10). -/
def hbmSize : Nat := 0x8000000000
/-- First device offset of the scratchpad windows (R10). -/
def windowBase : Nat := 0x100000000000
/-- Distance between two windows (R10). -/
def windowStride : Nat := 0x40000
/-- Bytes of a scratchpad (R3, R10). -/
def padSize : Nat := 0x20000
/-- First device offset of the device control block (R10). -/
def controlBase : Nat := 0x180000000000
/-- Bytes of the device control block (R10). -/
def controlSize : Nat := 0x1000000
/-- The alias for this device (R7). -/
def aliasDev : Nat := 0xFFF
/-- Region-cache descriptors per core (R26). -/
def regionCacheSize : Nat := 16
/-- Lines one open region records at most (R73). -/
def regionLines : Nat := 512
/-- Version entries of a tarn (R58). -/
def tarnEntries : Nat := 4096
/-- Bundle records of a home slice (R106). -/
def bundleRecords : Nat := 512
/-- Reorder windows of a destination (R90).
(DESIGN CHOICE, log entry 60.) -/
def reorderWindows : Nat := 1024
/-- Unacknowledged stores of one pair (R90). -/
def unackedMax : Nat := 64
/-- Words of a wait table (R150). -/
def waitWords : Nat := 1024
/-- Pending-launch entries (R163).
(DESIGN CHOICE, log entry 60.) -/
def launchEntries : Nat := 4096
/-- Reduction slots of a router (R335). -/
def reductionSlots : Nat := 256
/-- Granules of register rows in a core (R154). -/
def granules : Nat := 128
/-- Bytes of a context buffer (R367). -/
def contextBuffer : Nat := 0x28000
/-- Retired instructions after which an imprecise fault stops its context (R358). -/
def maxSkid : Nat := 32
/-- Cycles a chain stall may last (R152). -/
def chainStall : Nat := 65536

/-- The device's identity signature over a byte list (R395, R413): ML-DSA-65, left uninterpreted.
(DESIGN CHOICE, log entry 14.) -/
opaque sign : List Byte → Nat

/-- SHAKE256 of a byte list, 512 bits (R209, R395): left uninterpreted.
(DESIGN CHOICE, log entry 14.) -/
opaque shake : List Byte → BitVec 512

/-- Fresh key material of the root of trust (R390): nothing says what it is. -/
opaque freshKey : Nat → BitVec 256

/-- The accumulator type that an MXLOAD image with ATYPE 3 gives: the manual says that 3 is never written.
(DESIGN CHOICE, log entry 13.) -/
opaque imageType : Word → BitVec 64

/-- A free word for a value that the manual leaves open, by a counter that State holds.
(DESIGN CHOICE, log entry 12.) -/
opaque freeValue : Nat → BitVec 64

end Sys2Proof.Config
end

