-- ==== Sys2Proof/Machine/State.lean ====
section
/-! DEFINITION. Everything the spec gives the machine, as plain data: the contexts with their registers and CSRs, the
cores, the home slices, the scheduler, the fabric, the control complex and memory, and the machine right after reset. -/

namespace Sys2Proof.Machine

open Sys2Proof.Bits

/-! ## Memory -/

/-- HBM and scratchpads as one sparse list of bytes by device offset (R10), addresses strictly rising. -/
abbrev Memory := List Host.Cell

/-- What an unlisted byte reads as: zero, which every reset's scrub leaves (R18, R48, R381, R391).
(DEDUCED, log entry 10.) -/
def Memory.unlisted : Byte := 0

/-- Strictly rising addresses above `lo`, and no entry equal to the unlisted byte. -/
def Memory.risingFrom : Nat → Memory → Bool
  | _, [] => true
  | lo, (a, b) :: m => decide (lo ≤ a) && b != Memory.unlisted && Memory.risingFrom (a + 1) m

/-- The one canonical form of a memory.
(DEDUCED, log entry 10.) -/
def Memory.wf (m : Memory) : Bool := Memory.risingFrom 0 m

/-! ## Registers of a context -/

/-- The register hierarchy of a context (R179 to R184).  s0 and m0 have no storage of their own: reads of them never
reach index 0. -/
structure Regs where
  /-- s1 to s63, by number (R181). -/
  s : Vector Word 64
  /-- v0 to v31 (R181). -/
  v : Vector Vec 32
  /-- The operand file o0 to o7 (R183). -/
  o : Vector Vec 8
  /-- m1 to m7, by number (R184). -/
  m : Vector Mask 8
  /-- The last scalar result (R182). -/
  y0 : Word
  /-- The last vector result (R182). -/
  y1 : Vec
  deriving DecidableEq, Repr

/-- The CSRs of a context (R188); MXSTAT lies in the matrix state, MBRQ and MBRP in the core. -/
structure Csrs where
  /-- 0x000 (R189). -/
  tenantid : Word
  /-- 0x001 (R147). -/
  firinfo : Word
  /-- 0x002 (R147). -/
  rank : Word
  /-- 0x003 (R189). -/
  chainpos : Word
  /-- 0x004 (R189). -/
  fmode : Word
  /-- 0x005 (R189). -/
  fstat : Word
  /-- 0x006 (R189). -/
  ybudget : Word
  /-- 0x007 (R189). -/
  energy : Word
  /-- 0x008 (R103). -/
  linkstat : Word
  /-- 0x009 (R104). -/
  lostla : Word
  /-- 0x00A (R189). -/
  repst : Word
  /-- 0x011 (R299). -/
  mxcap : Word
  /-- 0x020 (R357). -/
  tcause : Word
  /-- 0x021 (R357). -/
  tpc : Word
  /-- 0x022 (R357). -/
  tval : Word
  /-- 0x023 (R357). -/
  tinfo : Word
  /-- The values of MBRQ and MBRP seen at the last save (R188). -/
  mbSeen : Word × Word
  deriving DecidableEq, Repr

/-! ## Engines -/

/-- How far an engine command has come (R323, R327, R31, R332): `held` before its start, `paused` after it. -/
inductive CmdPhase where
  | issued | accepted | active | held | paused
  deriving DecidableEq, Repr

/-- What a landing of a command carries (R222, R328, R330): elements, the header's bytes 0 to 7, the final header bytes,
o4 elements that a tensor copy packs into a byte or takes out of one, or a skew word of converted elements: `skip` elements of the
source bytes come before its own, and it is the `half`-th word of its element. -/
inductive LandKind where
  | elems | header | final | pack | low | high
  | word (skip half : Nat)
  deriving DecidableEq, Repr

/-- One landing of a command that is still to be made (R328): its source runs, relative to the source GA, or its source
bytes themselves, and its destination, relative to the destination GA, with its length. -/
structure Land where
  src : List (Int × Nat)
  lit : List Byte
  dst : Int
  len : Nat
  kind : LandKind
  deriving DecidableEq, Repr

/-- A copy or collective command in a virtual queue (R323 to R336), with what it captured at issue and, once it is
accepted, each side's GA, handle and region base, and the landings that it still makes. -/
structure Cmd where
  num : Nat
  op : BitVec 9
  block : BitVec 512
  et : BitVec 4
  ke : BitVec 10
  pattern : Word
  indexLa : Nat
  rank : Nat
  rm : BitVec 2
  pc : BitVec 32
  /-- The group word, the timeout in µs and the instance of a collective (R333, R334). -/
  bind : Word
  timeout : Nat
  inst : Nat
  phase : CmdPhase
  src : Nat
  dst : Nat
  srcHdl : BitVec 32
  dstHdl : BitVec 32
  srcBase : Nat
  dstBase : Nat
  lands : List Land
  /-- The runs of the destination, relative to its GA, as the acceptance gave them (R332). -/
  dests : List (Int × Nat)
  /-- Source bytes are asked of another device (R32), or a collective's result is awaited; or such bytes have come (R31, R332). -/
  asked : Bool
  fetched : Bool
  /-- Landings on their way to HBM or to another device. -/
  acks : Nat
  /-- Bytes landed (R331). -/
  done : Nat
  status : Nat
  flags : BitVec 7
  /-- Contributions combined, and the indices missing (R331, R335). -/
  arrived : Nat
  missing : List Nat
  /-- A refusal that ends the command once its lines have landed (R31): its reason and handle. -/
  stop : Option (Nat × BitVec 32)
  /-- The instructions that its context had retired when it issued (R358). -/
  born : Nat
  /-- The sendings of its requests to other devices that are not answered, oldest first: the device and the time (R102). -/
  times : List (Nat × Nat)
  deriving DecidableEq, Repr

/-- A virtual queue (R60, R323 to R325). -/
structure VQ where
  issued : Nat
  done : Nat
  /-- Commands above `done` that have completed (R60). -/
  ahead : List Nat
  weight : Nat
  credit : Nat
  abandoned : Bool
  cmds : List Cmd
  deriving DecidableEq, Repr

/-- A group binding (R333): the group word, the timeout in µs, and the instance counter. -/
structure GBind where
  word : Word
  timeout : Nat
  seq : Nat
  deriving DecidableEq, Repr

/-! ## The matrix unit -/

/-- A queued matrix command (R300), with what it captured at issue: the header fields, the weights it reads, the
rounding mode, the accumulator type and scale, and its progress (R308, R319). -/
structure MxCmd where
  op : BitVec 9
  la : Nat
  hdr : BitVec 128
  wla : Nat
  whdr : BitVec 128
  wsparse : Bool
  rm : BitVec 2
  row : Nat
  vec : Vec
  zp : Nat
  eo : Nat
  row0 : Nat
  nrow : Nat
  atype : Nat
  asc : Int
  chain : Bool
  seq : Bool
  start : Option Nat
  step : Nat
  /-- An MXWAIT or MXRD that has issued waits for the command (R314, R316). -/
  awaited : Bool
  /-- The offset of its instruction, with the instructions retired before it (R358). -/
  pc : BitVec 32
  born : Nat
  deriving DecidableEq, Repr

/-- A context's matrix state (R295): the accumulators as a sparse table by 32 × row + column, MXSTAT, the weight
descriptor and the queue, oldest first. -/
structure Matrix where
  acc : List (Nat × Nat)
  stat : Word
  wla : Nat
  whdr : BitVec 128
  queue : List MxCmd
  deriving DecidableEq, Repr

/-! ## Ordering state -/

/-- What an unfinished access of a seat is, for the fence classes and the waits (R82, R90, R264). -/
inductive OutKind where
  | store | atomic | reduction | dect | hit
  deriving DecidableEq, Repr

/-- An access of the context to another device, or a DECT of this one, that has not performed (R64, R90, R343), with the offsets of its bytes there, its flag's
among them, the handles that it was checked under (R23), whether later accesses wait for it as for an acquire (R76), the offset of
its instruction with the instructions retired before it (R358, R360), and the time of its sending (R102); for a read-cache hit, or a
load of an abandoned yield handler, the verdict that has not come (R67, R70). -/
structure Out where
  dev : Nat
  strm : Nat
  seq : Nat
  batch : Nat
  bundled : Bool
  kind : OutKind
  /-- The access is synchronising (R66, R79). -/
  sync : Bool
  acq : Bool
  bytes : List Nat
  hdls : List (BitVec 32)
  pc : BitVec 32
  born : Nat
  sent : Nat
  deriving DecidableEq, Repr

/-- The sequence state of one (stream, destination) pair (R90), with the time of the last asking for a window (R102). -/
structure StreamSeq where
  strm : Nat
  dev : Nat
  next : Nat
  window : Bool
  /-- A window has been asked for. -/
  asked : Bool
  since : Nat
  deriving DecidableEq, Repr

/-- A result of BATCHC or MXCMD that has not come (R97, R182, R270, R318): its number, its destination, and whether that register
and y0 still take it, for a later result stands. -/
structure Late where
  num : Nat
  dst : Spec
  writes : Bool
  y0 : Bool
  deriving DecidableEq, Repr

/-- A batch close in progress (R97): the number of its result, its tag, the peers still owed, the totals, and the time of its
sending (R102). -/
structure Close where
  num : Nat
  tag : Nat
  peers : Nat
  waiting : List Nat
  reasons : BitVec 8
  errpeers : Nat
  lost : List Nat
  refused : Nat
  since : Nat
  deriving DecidableEq, Repr

/-- A tracked fence token (R83): its slot and serial, and the accesses it still waits for. -/
structure Token where
  slot : Nat
  serial : Nat
  waits : List Out
  lost : List Nat
  deriving DecidableEq, Repr

/-- Where a BCLOSE stands (R112); `issued` waits for the accesses before it. -/
inductive CloseStage where
  | opened | issued | final | deciding | committing | aborting | settled
  deriving DecidableEq, Repr

/-- The open bundle state (R107): beside the rest, the lines of other devices that it has stored to, by GA (R54, R258), and the
time at which the answers in `waiting` were asked for (R102). -/
structure Bundle where
  ident : Word
  comps : List Comp
  lines : Nat
  doomed : Option (Nat × Option Comp)
  stage : CloseStage
  waiting : List Comp
  mmax : Nat
  stamp : Option Stamp
  latelost : Bool
  lost : List Comp
  outcome : Option Word
  away : List Nat
  since : Nat
  deriving DecidableEq, Repr

/-- The open read group (R120). -/
structure Group where
  t : Nat
  lost : Option (Nat × Nat)
  devs : List Nat
  deriving DecidableEq, Repr

/-- A conflict found in the open region (R71): the line's GA, whether this access is a store, the other party and whether
its access is one. -/
structure Conflict where
  line : Nat
  mine : Bool
  party : Party
  other : Bool
  deriving DecidableEq, Repr

/-- A reply that the instruction at an offset waits for (R14, R120, R258, R264): the device that owes it, whether it is a
group load's, its first offset, what has come, the lines that the load took from the read cache when it issued (R53), the handle that it
was checked under (R23), the lines that it records there, by GA (R67), and the time of its sending (R102). -/
structure Await where
  pc : BitVec 32
  dev : Nat
  group : Bool
  key : Nat
  reply : Option Reply
  kept : List (Nat × List Byte)
  hdl : BitVec 32
  gas : List Nat
  since : Nat
  deriving DecidableEq, Repr

/-- The ordering state of a context. -/
structure Order where
  outs : List Out
  streams : List StreamSeq
  touched : List (List Nat)
  /-- Peers of a batch that were lost and have been readmitted before its close (R102, R406): batch and device. -/
  gone : List (Nat × Nat)
  closes : List Close
  tokens : List Token
  fences : Nat
  bundle : Option Bundle
  group : Option Group
  /-- Lines of the open sync region, by GA (R73). -/
  lines : List Nat
  /-- The first conflict of the region, and how many more (R71). -/
  conflict : Option Conflict
  more : Nat
  awaits : List Await
  /-- Results of BATCHC and MXCMD that have not come, and the number of the next (R97, R318). -/
  late : List Late
  lateNum : Nat
  /-- Bits of the failed-peer bitmap and LINKSTAT changes held while the context has no seat (R104). -/
  heldLost : List (Nat × List Nat)
  deriving DecidableEq, Repr

/-! ## Contexts -/

/-- A local stall (R364): what the instruction at the program counter waits for. -/
inductive Stall where
  /-- A descriptor fetch of a CHKR (R27). -/
  | descriptor (index : Nat)
  /-- A reply from another device (R14). -/
  | reply
  /-- A register that an unfinished BATCHC or MXCMD writes (R97, R318). -/
  | owed
  /-- Earlier accesses that have not performed (R77, R78, R83, R145). -/
  | perform
  /-- A full queue or table (R90, R106, R294, R323). -/
  | full
  /-- The oldest tracked fence token, or the oldest batch close, by its number (R83, R97). -/
  | oldest (n : Nat)
  /-- A timeline counter (R61). -/
  | timeline
  /-- A sync word's generation (R275). -/
  | syncWord (la : Nat) (gen : BitVec 32)
  /-- Matrix commands (R314, R316). -/
  | matrix
  /-- The clock (R349). -/
  | time (until' : Nat)
  /-- pv empty or nx full (R152), with the pv entries that the instruction takes. -/
  | chain (nx : Bool) (takes : Nat)
  /-- A BCLOSE in progress (R112). -/
  | bundle
  /-- An ECALL answer (R348). -/
  | ecall
  /-- Row and state writes of a YRET (R365). -/
  | saving
  deriving DecidableEq, Repr

/-- A fault on its way to its context (R358, R359). -/
structure Flt where
  code : Nat
  sub : Nat
  val : Word
  aux1 : Nat
  aux2 : Nat
  pc : BitVec 32
  detail : Nat
  deriving DecidableEq, Repr

/-- Where a context stands between seat and save area (R155, R364 to R366): `leaving` finishes an instruction that awaits a
reply. -/
inductive Phase where
  | running | leaving | quiesce | handler | saving | yielded
  deriving DecidableEq, Repr

/-- Which memory image a context runs (R209): its .text and its tables. -/
structure Code where
  image : Nat
  igen : Nat
  tver : Nat
  /-- HBM device offset and length of .text (R169). -/
  base : Nat
  len : Nat
  /-- Trap table (R200, R354). -/
  traps : List (Nat × Nat)
  /-- Handles that the seal binds (R209, R30). -/
  binds : List (BitVec 32)
  deriving DecidableEq, Repr

/-- A message in the network (R340, R341, R373, R382, R388): its network, its destination core and word, its sender's partition, tenant,
launch entry, class, device, context and offset with the instructions retired before it, a number that its sender knows it by, and its
data. -/
structure Msg where
  net : Bool
  core : Nat
  word : Word
  part : Nat
  tenant : Nat
  lslot : Option Nat
  cls : Nat
  dev : Nat
  ctx : Nat
  pc : BitVec 32
  born : Nat
  seq : Nat
  data : BitVec 512
  deriving DecidableEq, Repr

/-- A context (R142 to R149, R367): its record, its registers and CSRs, and all state that R368 saves. -/
structure Ctx where
  num : Nat
  part : Nat
  record : Nat
  lslot : Nat
  cls : Nat
  sRegs : Nat
  vRegs : Nat
  footprint : List (Nat × Nat)
  code : Code
  regs : Regs
  csrs : Csrs
  pc : BitVec 32
  /-- The offset of the instruction that retired last, which a fetch fault names as the branch (R169, R246). -/
  lastPc : BitVec 32
  /-- The addresses of the CHKRs whose cover is in force, a flag's first (R243), whether an interruption took the cover
  away (R244), and the addresses kept for the interrupted instruction of a trap handler and of a yield handler. -/
  chkr : List (BitVec 32)
  coverLost : Bool
  trapChkr : List (BitVec 32)
  yieldChkr : List (BitVec 32)
  /-- The handle that the cover gives, and the flag's handle (R32). -/
  handle : BitVec 32
  flagHandle : BitVec 32
  stall : Option Stall
  /-- The chain stall that has not ended (R152), a yield not ending it: the offset, whether on nx, and the cycle it began. -/
  chainStall : Option (BitVec 32 × Bool × Nat)
  phase : Phase
  /-- The interrupted program counter and REPST of a yield (R364). -/
  ipc : BitVec 32
  irepst : Word
  /-- Cycle at which the yield budget ends (R364). -/
  budgetEnd : Nat
  /-- Instructions retired (R358). -/
  retires : Nat
  /-- An imprecise fault on its way, and `retires` as its cause left it (R358); others that came after it (R360). -/
  fault : Option Flt
  faultAt : Nat
  moreFaults : List (Flt × Nat)
  queues : List VQ
  gbinds : List (Option GBind)
  /-- Send queues of the request and the reply network, oldest first (R340). -/
  sendq : List (List Msg)
  /-- Entries of the context's pv channel, oldest first (R152). -/
  pv : List Vec
  /-- The contexts of the chain, position 0 first; empty for a single firing (R151). -/
  chain : List Nat
  mx : Matrix
  order : Order
  /-- Core cycles run on a seat (R349). -/
  cycles : Nat
  /-- Cycles of 1.75 GHz run on a seat (R418). -/
  held : Nat
  /-- The core and seat the context last held (R370). -/
  seatAt : SeatId
  forced : Bool
  /-- Another firing was given a footprint that overlaps a destination of an unfinished copy (R332). -/
  clobbered : Bool
  evt : Bool
  /-- ECALLs sent and not retired, by their offset, with the answer that has come (R348). -/
  ecalls : List (BitVec 32 × Option Word)
  /-- Port slots of the argument block: descriptor GAs and rates, inputs first (R144). -/
  ports : List (Word × Nat)
  nin : Nat
  /-- The time at which the firing started (R161). -/
  born : Nat
  /-- The firing has ended, and the record has not: the context is kept for its next firing, or until its chain ends (R153, R367). -/
  dormant : Bool
  /-- The rows of a YIELDED context stand in the granules of the core that it left (R369). -/
  rows : Bool
  deriving DecidableEq, Repr

/-! ## Cores -/

/-- A region descriptor as a core or port holds it (R18). -/
abbrev Desc := BitVec 256

/-- A descriptor fetch in flight (R27): its context and index, the bytes on the way, the newest invalidation met, and
the refetches made. -/
structure Fetch where
  ctx : Nat
  index : Nat
  desc : Desc
  inval : Option Nat
  tries : Nat
  deriving DecidableEq, Repr

/-- A line on its way to a read cache (R53): the context that asked for it, its device and its device offset. -/
structure Arriving where
  ctx : Nat
  dev : Nat
  line : Nat
  deriving DecidableEq, Repr

/-- A line of a read cache (R53, R70): its device and device offset, its bytes, and the time of its fill, as its device counts
records and writes. -/
structure CacheLine where
  dev : Nat
  line : Nat
  bytes : List Byte
  filled : Nat
  deriving DecidableEq, Repr

/-- A mailbox (R338, R339): base LA (0 when disabled), log2 of the slots, HEAD, TAIL, the counter it decrements, and the context that set it,
until that context ends. -/
structure Mailbox where
  base : Nat
  lsl : Nat
  head : Nat
  tail : Nat
  record : Nat
  ctr : Nat
  part : Nat
  owner : Option Nat
  deriving DecidableEq, Repr

/-- A remote matrix command that has arrived at a core (R318), with the number of the result that its sender awaits, and its sender's
partition, tenant and launch entry (R373, R382). -/
structure MxArrival where
  ctx : Nat
  num : Nat
  part : Nat
  tenant : Nat
  lslot : Nat
  cap : Word
  word : Word
  arg : Nat
  deriving DecidableEq, Repr

/-- A seat's state beside its context (R155): idle, or claimed for the chain of a record. -/
inductive SeatState where
  | idle
  | claimed (part record : Nat)
  deriving DecidableEq, Repr

/-- A core's own state. -/
structure Core where
  /-- The region cache, most recently used first (R26). -/
  rcache : List (Nat × Desc)
  fetches : List Fetch
  /-- The read cache, most recently used first (R53), and the lines of other devices that plain loads have asked for, with no
  invalidation since (R54). -/
  lines : List CacheLine
  arriving : List Arriving
  mbrq : Mailbox
  mbrp : Mailbox
  /-- The owner of the matrix unit (R295), and the weight buffer with its header register (R294). -/
  mxOwner : Option Nat
  weights : List Byte
  whdr : BitVec 128
  arrivals : List MxArrival
  /-- The launch entry whose tensor shape records the launch area holds (R47). -/
  launch : Option Nat
  /-- The partition whose scratchpad is resident (R385). -/
  resident : Option Nat
  /-- Claimed seats (R155). -/
  claims : List (Nat × SeatState)
  /-- SEQ of the next bundle of each seat (R105). -/
  bundleSeq : List Nat
  /-- Times of the corrected errors within the last second (R416). -/
  cerr : List Nat
  /-- Mailboxes of the partitions that are swapped out (R371, R385), by partition. -/
  boxes : List (Nat × Mailbox × Mailbox)
  /-- The queue that the copy engine visited last (R324). -/
  lastQueue : Nat
  deriving DecidableEq, Repr

/-! ## Home slices -/

/-- The bundle side of a line (R58, R111): the current version's stamp, the prior version with its stamp, and the
pending version with its bundle, prepare time, companion list, issuing context and whether FINAL was received (R121).
A line with no entry is untagged. -/
structure Version where
  stamp : Stamp
  prior : Option (List Byte × Stamp)
  pending : Option (List Byte)
  ident : Word
  ptime : Nat
  comps : List Comp
  dev : Nat
  ctx : Nat
  finalSeen : Bool
  deriving DecidableEq, Repr

/-- A bundle record at its decider (R106, R112, R118), with the time at which its outcome was told (R102). -/
structure BRec where
  ident : Word
  state : Fate
  qfloor : Nat
  reason : Nat
  waiting : List Comp
  since : Nat
  deriving DecidableEq, Repr

/-- A race record (R70): the context that wrote the line, and the open regions that read it, with their seats; `born` orders the
records by age (R73). -/
structure Race where
  born : Nat
  writer : Option Party
  readers : List Party
  deriving DecidableEq, Repr

/-- A PARKED record on a word's wait list (R150): its device, partition and pool index, the value awaited, and whether it
stands on the overflow list. -/
structure Waiter where
  dev : Nat
  off : Nat
  part : Nat
  record : Nat
  val : Word
  overflow : Bool
  deriving DecidableEq, Repr

/-- An owner entry that a home slice holds (R33, R36), or a fetch of it. -/
structure OwnerEntry where
  slice : Nat
  granule : Nat
  entry : BitVec 16
  deriving DecidableEq, Repr

/-- A unit that executes an atomic elsewhere than at its home slice (R80, R81): a cluster's, or this device's fabric port. -/
inductive AtomUnit where
  | cluster (n : Nat)
  | port
  deriving DecidableEq, Repr

/-- A fate question of a group load (R118): the slice that asks, the bundle, the snapshot time, whether the answer UNDECIDED has
come, the companion asked, and the time of asking. -/
structure Question where
  slice : Nat
  ident : Word
  t : Nat
  told : Bool
  asked : Comp
  since : Nat
  deriving DecidableEq, Repr

/-- A bundle of a lost issuer that a slice resolves (R121): the companions still to answer, and the time of asking. -/
structure Orphan where
  slice : Nat
  ident : Word
  rest : List Comp
  since : Nat
  deriving DecidableEq, Repr

/-- A group load that waits for a fate (R118, R120): its device and context, its handle (R23), its parts, its snapshot time, and
the devices consulted for it. -/
structure Serving where
  dev : Nat
  ctx : Nat
  hdl : BitVec 32
  parts : List (Nat × Nat)
  t : Snapshot
  devs : List Nat
  deriving DecidableEq, Repr

/-- The home slices' state. -/
structure Slices where
  versions : List (Nat × Version)
  floors : List (Nat × Nat)
  horizon : List (Nat × Stamp)
  /-- Bundles refused or doomed at a slice, with the reason that FINAL reports (R112, R116). -/
  dooms : List (Nat × Word × Nat)
  records : List BRec
  races : List (Nat × Race)
  /-- Writes by detected and synchronising accesses, each with its time, for the judging of read-cache hits (R70), and the next
  time. -/
  writes : List (Nat × Nat × Party)
  serial : Nat
  /-- Records that a coherence point holds (R73).  The model's own: the spec gives no number. -/
  recordRoom : Nat
  /-- Lines that a unit holds as sole owner (R81). -/
  holders : List (Nat × AtomUnit)
  waiters : List Waiter
  owners : List OwnerEntry
  /-- Fate questions of group loads (R118). -/
  questions : List Question
  /-- Bundles whose outcome a slice knows, having installed or aborted them (R118, R352). -/
  fates : List (Nat × Word × Fate)
  /-- Bundles of a lost issuer that a slice resolves (R121). -/
  orphans : List Orphan
  /-- Group loads that wait for a fate (R118, R120). -/
  serving : List Serving
  deriving DecidableEq, Repr

/-! ## Scheduler -/

/-- A pending-launch entry (R163 to R165). -/
structure Launch where
  slot : Nat
  part : Nat
  record : BitVec 512
  tsrs : List (BitVec 512)
  scanned : Bool
  remaining : Nat
  faulted : Bool
  deriving DecidableEq, Repr

/-- A queued dispatch packet (R157 to R159). -/
structure QTask where
  part : Nat
  record : Nat
  cls : Nat
  weight : Nat
  stage : Bool
  deriving DecidableEq, Repr

/-- A dispatch point (R159): its queue in order of readiness, its class-0 count and its place in the repeating order. -/
structure DispatchPoint where
  queue : List QTask
  zeros : Nat
  place : Nat
  credits : List (Nat × Nat)
  deriving DecidableEq, Repr

/-- An actor of a listed image (R136, R199). -/
structure Actor where
  entry : Nat
  s : Nat
  v : Nat
  cls : Nat
  radius : Nat
  home : Nat
  nin : Nat
  nout : Nat
  rates : List Nat
  footprint : List (Nat × Nat)
  /-- TMPL: the offset of the block-template list in the constant region, divided by 16 (R197, R199). -/
  tmpl : Nat
  deriving DecidableEq, Repr

/-- A sealed image (R209, R210): what hardware reads of it beside the image table, and what the translator keeps.
(DEDUCED, log entry 38.) -/
structure Image where
  id : Nat
  code : Code
  actors : List Actor
  /-- HBM device offset at which the constant region was placed. -/
  constBase : Nat
  /-- TENANT and HASH of the seal header (R209). -/
  tenant : Nat
  hash : BitVec 512
  /-- The portable object that it was made from (R210, R214). -/
  object : PFile
  /-- The capabilities that the runtime grants for the object's .cap declarations (R299): the core and the word. -/
  grants : List (Nat × Word)
  deriving DecidableEq, Repr

/-- How a firing ended (R142, R148): END, END.RE, or WAITV with its word's GA, the value awaited, the
offset after it, and the handle that covers it (R32). -/
inductive Ending where
  | done
  | rearm
  | wait (ga val : Nat) (resume : Nat) (handle : BitVec 32)
  deriving DecidableEq, Repr

/-- A chain that runs (R153): its record, the members that have not ended, and what position 0's ending decides. -/
structure ChainRun where
  part : Nat
  record : Nat
  alive : List Nat
  ending : Option Ending
  deriving DecidableEq, Repr

/-- A WAITV's or NOTE's access that has yet to perform (R23): a step owed here, or a packet on its way to another device, a WAITV's of a
partition's record or a NOTE's of a context on a word, with its offset and the instructions retired before it (R358). -/
inductive Checked where
  | here (i : Instr)
  | wait (dev part record : Nat)
  | note (dev ctx off : Nat) (pc : BitVec 32) (born : Nat)
  deriving DecidableEq, Repr

/-- The scheduler's state. -/
structure Sched where
  launches : List Launch
  points : List (Nat × DispatchPoint)
  images : List Image
  /-- Live records (R139): partition and pool index. -/
  live : List (Nat × Nat)
  /-- Records whose state is READY, with the time they became so (R161). -/
  ready : List (Nat × Nat × Nat)
  /-- Chains that run (R153). -/
  chains : List ChainRun
  /-- Decrements ignored under R140, by partition. -/
  ignored : List (Nat × Nat)
  /-- Records enqueued on words of other devices (R135): device, partition, record. -/
  abroad : List (Nat × Nat × Nat)
  /-- Dispatch packets on their walk (R157): partition, record, and the cores still to come after the one that takes it. -/
  walks : List (Nat × Nat × List Nat)
  /-- Accesses of WAITV and NOTE that have yet to perform (R23): the handle each was checked under, and the step owed for it here, or the
  device that it is on its way to with the number it is acknowledged by. -/
  checked : List (BitVec 32 × Checked)
  /-- Class-0 tasks that have displaced a firing (R161): partition, record, and the context that yields. -/
  displacing : List (Nat × Nat × Nat)
  deriving DecidableEq, Repr

/-! ## Fabric -/

/-- A reorder window (R90): its source, the next sequence number, the stores that wait, and how many grants of it have not been
given back. -/
structure RWindow where
  src : StreamSrc
  next : Nat
  held : List StreamStore
  grants : Nat
  deriving DecidableEq, Repr

/-- Refusal counts this device keeps for a peer's batch tag (R96). -/
structure BatchCount where
  dev : Nat
  ctx : Nat
  tag : Nat
  refused : Nat
  reasons : BitVec 8
  deriving DecidableEq, Repr

/-- A reduction slot (R335). -/
structure RSlot where
  tenant : Nat
  group : Nat
  seq : Nat
  parts : List Contribution
  deadline : Nat
  mismatch : Bool
  deriving DecidableEq, Repr

/-- What the device sends to its environment: the fabric, the host, the system images and the board. -/
inductive Sent where
  | packet (p : Packet)
  | forwarded (port : Nat) (p : Packet)
  | closeReply (dev ctx tag refused : Nat) (reasons : BitVec 8)
  | ack (src : StreamSrc) (seq : Nat) (refused : Option Nat)
  | reply (dev ctx : Nat) (cmd : Option (Nat × Nat)) (r : Reply)
  | final (c : Comp) (ident : Word) (comps : List Comp)
  | finalReply (dev : Nat) (ident : Word) (slice : Nat) (a : FinalAns)
  | commit (c : Comp) (ident : Word) (s : Stamp)
  | abort (c : Comp) (ident : Word)
  | outcomeAck (dev : Nat) (ident : Word) (slice : Nat)
  | prepareAck (dev ctx : Nat) (ident : Word) (slice : Nat) (refused : Option Nat)
  | question (c : Comp) (ident : Word) (t : Nat) (asker : Comp)
  | fate (c : Comp) (ident : Word) (t : Nat) (replier : Comp) (f : Fate)
  | windowGrant (src : StreamSrc)
  | contribution (dev : Nat) (c : Contribution)
  | result (dev ctx vq num status arrived : Nat) (flags : BitVec 7) (missing : List Nat) (data : List Byte)
  | ecall (part ctx service : Nat) (args : List Word)
  | launchStatus (part : Nat) (status : Word)
  | hostReply (fn : Nat) (refused : Bool)
  | mxcmd (core : Nat) (a : MxArrival)
  | scaleOut (w : WorkReq) (error : Bool)
  | attestation (part : Nat) (report : List Byte) (signature : Nat)
  | portReply (k : Nat) (val : Word) (data : List Byte)
  | rejected (image reason offset : Nat)
  | sealed (image : Nat) (file : PFile)
  | hostData (data : List Byte)
  /-- An answer or a result as it leaves a port in confidential mode: its world and the generation of the key that seals it (R393). -/
  | sealedUnder (world gen : Nat) (x : Sent)
  | flashDone
  | replReq
  deriving DecidableEq, Repr

/-- A request that a source port tries again under reason MOVING (R32). -/
structure Retry where
  packet : Packet
  since : Nat
  deriving DecidableEq, Repr

/-- The fabric's state (R402 to R406). -/
structure Fabric where
  windows : List RWindow
  /-- Stream sources that wait for a window here, with their next numbers, oldest first (R90). -/
  asks : List (StreamSrc × Nat)
  /-- Stores refused MOVING here that their source still tries again (R32): source, number and batch. -/
  moved : List (StreamSrc × Nat × Nat)
  batches : List BatchCount
  /-- CLOSEs that wait for stores in windows (R97): device, context and tag. -/
  closes : List (Nat × Nat × Nat)
  retries : List Retry
  msgs : List Msg
  /-- Messages in partitions' spill areas, oldest first (R341, R386). -/
  spilled : List (Nat × Msg)
  slots : List RSlot
  /-- Contributions that found no free slot, with their own deadlines (R335). -/
  queued : List (Contribution × Nat)
  /-- The queue that each cluster's collective engine visited last (R324). -/
  lastQueue : List (Nat × Nat)
  /-- Training failures in a row by port (R405). -/
  failures : List (Nat × Nat)
  /-- Retrains asked of a port that is down, with the time since which it is down or was retrained for the third time (R417). -/
  retrains : List (Nat × Nat × Nat)
  /-- Class-0 packets in a row that each port has sent while a packet of another class waited (R388). -/
  zeros : List (Nat × Nat)
  deriving DecidableEq, Repr

/-! ## Control complex -/

/-- A world's keys (R393, R394): tenant, current generation, and the rotation phase: 1 while the next generation can be received and the
current one still seals, 2 while blocks of the previous one are sealed again. -/
structure WorldKey where
  tenant : Nat
  gen : Nat
  phase : Nat
  deriving DecidableEq, Repr

/-- Power state (R409 to R411): the two sources outside the control block, the stage, the time of the last change of the level,
whether stages are being released after a fall, the time since which the average is low, and that of the last sample. -/
structure Power where
  pins : Nat
  i3c : Nat
  stage : Nat
  since : Nat
  falling : Bool
  lowSince : Option Nat
  sampled : Nat
  deriving DecidableEq, Repr

/-- The power-fail image (R413): the contexts that held a seat, with their registers and accumulators, the scratchpads of the
cores with their resident partitions, the weight buffers by core, the tarns, and the confidential-mode setting. -/
structure FlashImage where
  ctxs : List Ctx
  pads : Memory
  resident : List (Nat × Nat)
  boxes : List (Nat × Mailbox × Mailbox)
  weights : List (Nat × List Byte)
  tarns : List (Nat × Version)
  conf : Bool
  deriving DecidableEq, Repr

/-- A kill whose discard windows are open (R374): the tenant, the launch entry for scope 1, the routers that still discard, the
partition whose RELEASE it serves, the time and the mesh cycle of its start, and what it has ended and discarded. -/
structure Purge where
  tenant : Nat
  slot : Option Nat
  cores : List Nat
  release : Option Nat
  start : Nat
  clock : Nat
  contexts : Nat
  packets : Nat
  deriving DecidableEq, Repr

/-- The control complex's state. -/
structure Control where
  /-- Forms of the runtime ports that have not completed (R2). -/
  ports : List (Nat × PortReq)
  keys : List WorldKey
  keySerial : Nat
  measures : Measures
  activating : Bool
  power : Power
  /-- PFAIL is asserted (R412), and the drain to flash is done. -/
  pfail : Bool
  drained : Bool
  flash : Option FlashImage
  /-- A mode reset is under way (R390). -/
  resetting : Bool
  purges : List Purge
  /-- Cores whose corrected errors have reached ERRTHR (R416). -/
  removing : List Nat
  /-- A region update, owner-map update, image rewrite, key rotation, peer or partition command in progress. -/
  started : List (Nat × Word)
  /-- A SLICECTL value with the time of its write, until the boundary at which it takes effect, and the LEN and RLENM1 in
  force (R384). -/
  sliceNext : List (Word × Nat)
  sliceNow : Word
  /-- The number of the current slice (R384). -/
  slice : Nat
  /-- SLOTS in force by partition, and those a RESLOT brings at the next boundary (R381). -/
  slots : List (Nat × Nat)
  slotsNext : List (Nat × Nat)
  /-- Messages that wait in a function's window (R408), by function: 0 to 63 virtual, 64 the physical one. -/
  hostMsgs : List (Nat × List Byte)
  /-- Granules that Dentan has marked as host buffers (R389). -/
  hostBuffers : List Nat
  /-- Buffers posted on the queue pairs of the scale-out ports for the SENDs to come, oldest first (R407). -/
  receives : List WorkReq
  /-- Seal words that are written (UNW 0), by MAC block (R391): write count and key generation. -/
  seals : List (Nat × Nat × Nat)
  /-- Hardware errors logged against engines: who made each request that the owner map refused (R35). -/
  hwErrors : List Origin
  /-- The rectangles that the routers' membership bitmaps hold, by partition, as FORM set them (R381): the corners as bits [21:0] of the table
  entry give them. -/
  members : List (Nat × Word)
  /-- TENANT and KIND of each granule as its last completed owner-map update left them, where not zero (R36, R392). -/
  owned : List (Nat × Nat)
  deriving DecidableEq, Repr

/-- Which step comes next: the choices that the manual leaves to timing and to the device's environment.
(DESIGN CHOICE, log entry 1.) -/
inductive Agenda where
  /-- The seat that runs its next instruction. -/
  | seat (id : SeatId)
  /-- A step of another part of the device, or a message from outside. -/
  | event (i : Instr)
  /-- The k-th step that the device itself owes. -/
  | deliver (k : Nat)
  /-- Time passes: nanoseconds and core cycles. -/
  | elapse (ns cycles : Nat)
  deriving DecidableEq, Repr

/-- The machine. -/
structure State where
  /-- The seat in focus, and its context, if it has one. -/
  cur : SeatId
  cx : Option Ctx
  /-- The contexts of the other seats. -/
  seats : List (SeatId × Ctx)
  /-- YIELDED contexts (R365, R366). -/
  saved : List Ctx
  /-- Contexts that have ended while commands, stores or a commit of theirs go on (R115, R248, R362). -/
  ended : List Ctx
  /-- HBM and scratchpads (R10). -/
  mem : Memory
  /-- The device control block, by offset, as 64-bit words that differ from their reset values (R13, R21 …). -/
  dcb : List (Nat × Word)
  cores : List (Nat × Core)
  slices : Slices
  sched : Sched
  fabric : Fabric
  control : Control
  /-- This device's number (R7, R9). -/
  devNum : Nat
  /-- Synchronised device time in nanoseconds (R111, R349, R385). -/
  time : Nat
  /-- Mesh cycles. -/
  clock : Nat
  /-- The model's own: the next index of a free value. -/
  fresh : Nat
  /-- The model's own: steps the device owes, oldest first. -/
  pend : List Instr
  /-- The model's own: the choices of timing and of the environment. -/
  agenda : List Agenda
  /-- What has been sent out of the device, newest first. -/
  sent : List Sent
  deriving DecidableEq, Repr

/-- Why the machine stops with a fault.  Every fault that the spec describes is a next state of this model, in which
the context ended and its report was written; one stop remains. -/
inductive Fault where
  /-- A device that is mode-resetting or powered down answers nothing and runs nothing (R390, R412): raised by the
  step of a machine whose board has lost power and whose flash drain is done.  Safe: the hardware does not go on. -/
  | poweredDown
  deriving DecidableEq, Repr

/-- Why the machine refuses a step. -/
inductive Refusal where
  /-- No meaning is written for the instruction: raised only by an arm of the dispatch.  Safe: nothing is claimed of it. -/
  | notModelled (mnemonic : String)
  deriving DecidableEq, Repr

/-! ## Reset -/

/-- Registers that all read zero (R143, R183).
(DESIGN CHOICE, log entry 9.) -/
def Regs.zero : Regs :=
  { s := Vector.replicate 64 0, v := Vector.replicate 32 0, o := Vector.replicate 8 0, m := Vector.replicate 8 0,
    y0 := 0, y1 := 0 }

/-- The CSRs when a context is created (R189, R357): CHAINPOS.LEN 1, YBUDGET 8,192, everything else zero.
(DESIGN CHOICE, log entry 9.) -/
def Csrs.fresh : Csrs :=
  { tenantid := 0, firinfo := 0, rank := 0, chainpos := 0x10, fmode := 0, fstat := 0, ybudget := 8192, energy := 0,
    linkstat := 0, lostla := 0, repst := 0, mxcap := 0, tcause := 0, tpc := 0, tval := 0, tinfo := 0, mbSeen := (0, 0) }

/-- A virtual queue when its context is created (R60, R324). -/
def VQ.fresh : VQ :=
  { issued := 0, done := 0, ahead := [], weight := 1, credit := 0, abandoned := false, cmds := [] }

/-- A fresh matrix state (R295). -/
def Matrix.fresh : Matrix := { acc := [], stat := 0, wla := 0, whdr := 0, queue := [] }

/-- The ordering state of a new context. -/
def Order.fresh : Order :=
  { outs := [], streams := [], touched := [[], [], [], []], gone := [], closes := [], tokens := [], fences := 0, bundle := none,
    group := none, lines := [], conflict := none, more := 0, awaits := [], late := [], lateNum := 0, heldLost := [] }

/-- No code. -/
def Code.none : Code := { image := 0, igen := 0, tver := 0, base := 0, len := 0, traps := [], binds := [] }

/-- A new context (R143, R367) of this number on a seat. -/
def Ctx.fresh (num : Nat) (at' : SeatId) : Ctx :=
  { num := num, part := 0, record := 0, lslot := 0, cls := 0, sRegs := 8, vRegs := 0, footprint := [], code := Code.none,
    regs := Regs.zero, csrs := Csrs.fresh, pc := 0, lastPc := 0, chkr := [], coverLost := false,
    trapChkr := [], yieldChkr := [], handle := 0, flagHandle := 0, stall := none, chainStall := none,
    phase := .running, ipc := 0, irepst := 0, budgetEnd := 0, retires := 0, fault := none, faultAt := 0, moreFaults := [],
    queues := List.replicate 8 VQ.fresh, gbinds := [none, none, none, none], sendq := [[], []], pv := [], chain := [],
    mx := Matrix.fresh, order := Order.fresh, cycles := 0, held := 0, seatAt := at', forced := false, clobbered := false, evt := false, ecalls := [], ports := [],
    nin := 0, born := 0, dormant := false, rows := false }

/-- A disabled mailbox (R338, R339). -/
def Mailbox.off : Mailbox := { base := 0, lsl := 0, head := 0, tail := 0, record := 0, ctr := 0, part := 0, owner := none }

/-- A core after reset. -/
def Core.fresh : Core :=
  { rcache := [], fetches := [], lines := [], arriving := [], mbrq := Mailbox.off, mbrp := Mailbox.off, mxOwner := none, weights := [],
    whdr := 0, arrivals := [], launch := none, resident := none, claims := [],
    bundleSeq := [1, 1, 1, 1], cerr := [], boxes := [], lastQueue := 0 }

/-- The home slices after reset: no version, floor and horizon zero (R111). -/
def Slices.fresh : Slices :=
  { versions := [], floors := [], horizon := [], dooms := [], records := [], races := [], writes := [], serial := 0,
    recordRoom := 4096, holders := [], waiters := [], owners := [],
    questions := [], fates := [], orphans := [], serving := [] }

/-- A dispatch point after reset. -/
def DispatchPoint.fresh : DispatchPoint := { queue := [], zeros := 0, place := 0, credits := [] }

/-- The scheduler after reset. -/
def Sched.fresh : Sched :=
  { launches := [], points := [], images := [], live := [], ready := [], chains := [], ignored := [], abroad := [],
    walks := [], checked := [], displacing := [] }

/-- The fabric after reset. -/
def Fabric.fresh : Fabric :=
  { windows := [], asks := [], moved := [], batches := [], closes := [], retries := [], msgs := [], spilled := [], slots := [], queued := [], lastQueue := [], failures := [],
    retrains := [], zeros := [] }

/-- No measurement. -/
def Measures.zero : Measures := { fw := 0, dtn := 0, tr := 0, tver := 0 }

/-- The control complex after reset. -/
def Control.fresh : Control :=
  { ports := [], keys := [], keySerial := 0, measures := Measures.zero, activating := false,
    power := { pins := 0, i3c := 0, stage := 0, since := 0, falling := false, lowSince := none, sampled := 0 }, pfail := false,
    drained := false, flash := none, resetting := false, purges := [], removing := [], started := [], sliceNext := [], sliceNow := 1000, slice := 0,
    slots := [], slotsNext := [], hostMsgs := [], hostBuffers := [],
    seals := [], hwErrors := [], receives := [], members := [], owned := [] }

/-- The machine right after reset: no context on any seat, memory with nothing listed (the scrub leaves zeros), every
control block register at its reset value (none differs), every core as new.
(DESIGN CHOICE, log entry 11.) -/
def State.reset : State :=
  { cur := { core := 0, seat := 0 }, cx := none, seats := [], saved := [], ended := [], mem := [], dcb := [], cores := [],
    slices := Slices.fresh, sched := Sched.fresh, fabric := Fabric.fresh, control := Control.fresh, devNum := 0,
    time := 0, clock := 0, fresh := 0, pend := [], agenda := [], sent := [] }

end Sys2Proof.Machine
end

