-- ==== Sys2Proof/Machine/Mem.lean ====
section
/-! DEFINITION. Memory by device offset, the address map (R10), and the device control block as 64-bit registers. -/

namespace Sys2Proof.Machine

open Sys2Proof.Bits

/-! ## Bytes -/

/-- One byte (R6): an unlisted address reads as `Memory.unlisted`. -/
def Memory.get : Memory → Nat → Byte
  | [], _ => Memory.unlisted
  | (k, b) :: m, a => if k = a then b else Memory.get m a

/-- A byte put in its place among rising addresses. -/
def Memory.place : Memory → Nat → Byte → Memory
  | [], a, b => [(a, b)]
  | (k, c) :: m, a, b => if a < k then (a, b) :: (k, c) :: m else if a = k then (a, b) :: m else (k, c) :: Memory.place m a b

/-- Write one byte, keeping the canonical form: writing what an unlisted address reads as removes the entry. -/
def Memory.set (m : Memory) (a : Nat) (b : Byte) : Memory :=
  if b = Memory.unlisted then m.filter fun c => c.1 != a else Memory.place m a b

/-- `n` bytes from an address. -/
def Memory.read (m : Memory) (a : Nat) : Nat → List Byte
  | 0 => []
  | n + 1 => Memory.get m a :: Memory.read m (a + 1) n

/-- Write a byte list from an address upward. -/
def Memory.write : Memory → Nat → List Byte → Memory
  | m, _, [] => m
  | m, a, b :: bs => Memory.write (Memory.set m a b) (a + 1) bs

/-- Write bytes each at its own address, in list order. -/
def Memory.writeEach : Memory → List (Nat × Byte) → Memory
  | m, [] => m
  | m, (a, b) :: bs => Memory.writeEach (Memory.set m a b) bs

/-- The number that `n` bytes hold, least significant first (R6). -/
def Memory.readNat (m : Memory) (a n : Nat) : Nat := valOf (Memory.read m a n)

/-- Write a number as `n` bytes. -/
def Memory.writeNat (m : Memory) (a n v : Nat) : Memory := Memory.write m a (bytesOf n v)

/-- Zero the `n` bytes from an address (R48, R381). -/
def Memory.zero (m : Memory) (a n : Nat) : Memory := m.filter fun c => c.1 < a || a + n ≤ c.1

/-- The entries within a range, moved by a distance upward. -/
def Memory.copyRange (m : Memory) (src n dst : Nat) : Memory :=
  let part := (m.filter fun c => src ≤ c.1 && c.1 < src + n).map fun c => (c.1 - src + dst, c.2)
  Memory.writeEach (Memory.zero m dst n) part

/-- Number of bytes of HBM below the seal words in confidential mode (R391). -/
def sealedTop : Nat := 0x7800000000

/-! ## The device control block -/

/-- The reset value of a control block register by its offset (R21, R59, R101, R361, R380, R384, R394, R411, R417). -/
def dcbReset (off : Nat) : Word :=
  if off = 0x028 then 50
  else if off = 0x068 then 1000
  else if off = 0x0A8 then 64
  else if 0x10000 ≤ off && off < 0x10400 then 0x10001000
  else 0

/-- Is a register placed at this 8-byte offset of the block (R13)? -/
def dcbPlaced (off : Nat) : Bool :=
  off % 8 == 0 &&
  (off ≤ 0x0B0 || (0x10000 ≤ off && off < 0x10400) || (0x20000 ≤ off && off < 0x20400)
    || (0x30000 ≤ off && off < 0x31000) || (0x40000 ≤ off && off < 0x44000) || (0x44000 ≤ off && off < 0x440C0)
    || (0x48000 ≤ off && off < 0x480C0) || (0x50000 ≤ off && off < 0x50200))

/-- A control block register.
(DESIGN CHOICE, log entry 11.) -/
def State.dcbGet (s : State) (off : Nat) : Word := (look s.dcb off).getD (dcbReset off)

/-- Set a control block register; registers at their reset value are not listed. -/
def State.dcbSet (s : State) (off : Nat) (v : Word) : State :=
  { s with dcb := if v = dcbReset off then drop s.dcb off else put s.dcb off v }

/-- A field of a control block register. -/
def State.dcbField (s : State) (off lo len : Nat) : Nat := field (s.dcbGet off).toNat lo len

/-- Set a field of a control block register. -/
def State.dcbSetField (s : State) (off lo len v : Nat) : State :=
  s.dcbSet off (BitVec.ofNat 64 (setField (s.dcbGet off).toNat lo len v))

/-- Offset of RTBASE (R21). -/
def rtbase : Nat := 0x000
/-- Offset of RTCOUNT (R21). -/
def rtcount : Nat := 0x008
/-- Offset of RUPCMD (R21). -/
def rupcmd : Nat := 0x010
/-- Offset of OMBASE (R21). -/
def ombase : Nat := 0x018
/-- Offset of OMUPCMD (R21). -/
def omupcmd : Nat := 0x020
/-- Offset of LINKCTL (R101). -/
def linkctl : Nat := 0x028
/-- Offset of ITBASE (R211). -/
def itbase : Nat := 0x030
/-- Offset of IMGCMD (R213). -/
def imgcmd : Nat := 0x038
/-- Offset of CTXBASE (R367). -/
def ctxbase : Nat := 0x040
/-- Offset of CTXCOUNT (R367). -/
def ctxcount : Nat := 0x048
/-- Offset of KILLCMD (R373). -/
def killcmd : Nat := 0x050
/-- Offset of KILLSTAT (R373). -/
def killstat : Nat := 0x058
/-- Offset of PARTCMD (R381). -/
def partcmd : Nat := 0x060
/-- Offset of SLICECTL (R384). -/
def slicectl : Nat := 0x068
/-- Offset of MODECTL (R390). -/
def modectl : Nat := 0x070
/-- Offset of KEYCMD (R394). -/
def keycmd : Nat := 0x078
/-- Offset of INTSTAT (R391). -/
def intstat : Nat := 0x080
/-- Offset of PEERCMD (R406). -/
def peercmd : Nat := 0x088
/-- Offset of PWRCTL (R411). -/
def pwrctl : Nat := 0x090
/-- Offset of PWRSTAT (R411). -/
def pwrstat : Nat := 0x098
/-- Offset of DEVSTAT (R417). -/
def devstat : Nat := 0x0A0
/-- Offset of ERRTHR (R417). -/
def errthr : Nat := 0x0A8
/-- Offset of ROWFLUSH (R415). -/
def rowflush : Nat := 0x0B0
/-- Offset of a TARNSTAT register (R59). -/
def tarnstat (h : Nat) : Nat := 0x10000 + 8 * h
/-- Offset of word `w` of a FLTRING entry (R361). -/
def fltring (p w : Nat) : Nat := 0x20000 + 16 * p + 8 * w
/-- Offset of word `w` of a partition table entry (R380). -/
def parttab (p w : Nat) : Nat := 0x30000 + 64 * p + 8 * w
/-- Offset of a route table entry (R404). -/
def routeReg (d : Nat) : Nat := 0x40000 + 8 * d
/-- Offset of a LINKST register (R405). -/
def linkst (p : Nat) : Nat := 0x44000 + 8 * p
/-- Offset of word `w` of the out-of-service map (R416). -/
def oosmap (w : Nat) : Nat := 0x48000 + 8 * w
/-- Offset of a PENERGY register (R419). -/
def penergy (p : Nat) : Nat := 0x50000 + 8 * p

/-- Is confidential mode in force (R390)? -/
def State.confidential (s : State) : Bool := bit (s.dcbGet modectl).toNat 0

/-- Is a core in service (R5, R416)? -/
def State.inService (s : State) (core : Nat) : Bool :=
  decide (core < Config.cores) && !bit (s.dcbGet (oosmap (core / 64))).toNat (core % 64)

/-! ## The address map -/

/-- The mapped ranges of R10. -/
inductive Place where
  | hbm
  | window (core : Nat)
  | control
  | hole
  deriving DecidableEq, Repr

/-- First device offset of a core's window (R10). -/
def windowOf (core : Nat) : Nat := Config.windowBase + core * Config.windowStride

/-- The end of HBM as software sees it: confidential mode keeps the seal words out (R391). -/
def State.hbmEnd (s : State) : Nat := if s.confidential then sealedTop else Config.hbmSize

/-- The range a device offset of this device lies in (R10, R11, R391). -/
def State.placeOf (s : State) (off : Nat) : Place :=
  if off < s.hbmEnd then .hbm
  else if Config.windowBase ≤ off && off < windowOf Config.cores then
    let core := (off - Config.windowBase) / Config.windowStride
    if (off - Config.windowBase) % Config.windowStride < Config.padSize && s.inService core then .window core else .hole
  else if Config.controlBase ≤ off && off < Config.controlBase + Config.controlSize then .control
  else .hole

/-- The range an offset of another device lies in: that device's cores in service and mode are not known here. -/
def placeOther (off : Nat) : Place :=
  if off < Config.hbmSize then .hbm
  else if Config.windowBase ≤ off && off < windowOf Config.cores then
    if (off - Config.windowBase) % Config.windowStride < Config.padSize
    then .window ((off - Config.windowBase) / Config.windowStride) else .hole
  else if Config.controlBase ≤ off && off < Config.controlBase + Config.controlSize then .control
  else .hole

/-- The range of a (device, offset) pair. -/
def State.place (s : State) (dev off : Nat) : Place := if dev = s.devNum then s.placeOf off else placeOther off

/-- One past the last offset of the mapped range that an offset lies in. -/
def State.rangeEnd (s : State) (dev off : Nat) : Nat :=
  match s.place dev off with
  | .hbm => if dev = s.devNum then s.hbmEnd else Config.hbmSize
  | .window core => windowOf core + Config.padSize
  | .control => Config.controlBase + Config.controlSize
  | .hole => off

/-- The home slice of an HBM line (R55). -/
def homeSlice (off : Nat) : Nat :=
  ((field off 9 7) ^^^ (field off 16 7) ^^^ (field off 23 7) ^^^ (field off 30 7) ^^^ (field off 37 2)) % 128

/-- Device offset of a scratchpad byte. -/
def padOff (core la : Nat) : Nat := windowOf core + la

/-- The coordinates of a core (R4). -/
def coreX (core : Nat) : Nat := core % Config.columns
/-- The row of a core (R4). -/
def coreY (core : Nat) : Nat := core / Config.columns
/-- The cluster of a core (R4, R158). -/
def clusterOf (core : Nat) : Nat := coreY core / 4 * 12 + coreX core / 4

end Sys2Proof.Machine
end

