-- ==== Sys2Proof/Machine/Operands.lean ====
section
/-! DEFINITION. Contexts and cores as data to look up and update, and every operand form: the reading of sources, the
predicate, and the writing of scalar, vector and mask results (R179 to R185, R234). -/

namespace Sys2Proof

/-- PRED and PN of a form; format M and REP have no PN, and PAD and REP no predicate (R172, R175, R250). -/
def Form.pred : Form → BitVec 3 × Bool
  | .a _ o => (o.pred, o.pn)
  | .i _ o => (o.pred, o.pn)
  | .l _ o => (o.pred, o.pn)
  | .m _ o => (o.pred, false)
  | .b _ o => (o.pred, o.pn)
  | .c _ o => (o.pred, o.pn)
  | .e _ o => (o.pred, o.pn)
  | .p _ _ => (0, false)
  | .pad => (0, false)
  | .event => (0, false)

/-- Does lane predication apply to the form (R184)? -/
def Form.lanePredicated : Form → Bool
  | .a op _ => decide (0x0A0 ≤ op.toNat) && decide (op.toNat ≤ 0x0FC) && op != 0x0E5 && op != 0x0E6
  | .m op _ => decide (0x04B ≤ op.toNat) && decide (op.toNat ≤ 0x054)
  | _ => false

end Sys2Proof

namespace Sys2Proof.Machine

open Sys2Proof.Bits

/-! ## Contexts and cores -/

/-- Put a context into the focus. -/
def State.setCx (s : State) (c : Ctx) : State := { s with cx := some c }

/-- Change the context in the focus. -/
def State.mapCx (s : State) (f : Ctx → Ctx) : State := { s with cx := s.cx.map f }

/-- The context of a number, wherever it stands: in the focus, on another seat, or YIELDED. -/
def State.findCtx (s : State) (n : Nat) : Option Ctx :=
  match s.cx with
  | some c => if c.num = n then some c else
      ((s.seats.map (·.2)) ++ s.saved).find? fun d => d.num == n
  | none => ((s.seats.map (·.2)) ++ s.saved).find? fun d => d.num == n

/-- The context of a number, or what goes on of one that has ended (R248). -/
def State.findAny (s : State) (n : Nat) : Option Ctx :=
  match s.findCtx n with
  | some c => some c
  | none => s.ended.find? fun c => c.num == n

/-- Change the context of a number, wherever it stands. -/
def State.updCtx (s : State) (n : Nat) (f : Ctx → Ctx) : State :=
  let g := fun c : Ctx => if c.num = n then f c else c
  { s with cx := s.cx.map g, seats := s.seats.map fun p => (p.1, g p.2), saved := s.saved.map g,
           ended := s.ended.map g }

/-- Remove the context of a number from seats and save areas. -/
def State.dropCtx (s : State) (n : Nat) : State :=
  { s with
    cx := match s.cx with
      | some c => if c.num = n then none else some c
      | none => none,
    seats := s.seats.filter fun p => p.2.num != n, saved := s.saved.filter fun c => c.num != n }

/-- Every context that holds a seat, with its seat. -/
def State.running (s : State) : List (SeatId × Ctx) :=
  (match s.cx with
    | some c => [(s.cur, c)]
    | none => []) ++ s.seats

/-- Every context of the device. -/
def State.allCtx (s : State) : List Ctx := s.running.map (·.2) ++ s.saved

/-- Does a context of this number hold a seat? -/
def State.hasSeat (s : State) (n : Nat) : Bool := s.running.any fun p => p.2.num == n

/-- Bring a seat into focus: the context there, if any, changes places with the one in focus. -/
def State.focus (s : State) (id : SeatId) : State :=
  if id = s.cur then s
  else
    let others := match s.cx with
      | some c => (s.cur, c) :: s.seats
      | none => s.seats
    { s with cur := id, cx := (others.find? fun p => p.1 == id).map (·.2), seats := others.filter fun p => p.1 != id }

/-- A core's state. -/
def State.core (s : State) (k : Nat) : Core := (look s.cores k).getD Core.fresh

/-- Change a core's state. -/
def State.mapCore (s : State) (k : Nat) (f : Core → Core) : State := { s with cores := put s.cores k (f (s.core k)) }

/-- Every core with a state of its own changed. -/
def State.mapCores (s : State) (f : Core → Core) : State := { s with cores := s.cores.map fun p => (p.1, f p.2) }

/-- Owe a step, after those already owed. -/
def State.owe (s : State) (i : Instr) : State := { s with pend := s.pend ++ [i] }

/-- Send something out of the device. -/
def State.send (s : State) (x : Sent) : State := { s with sent := x :: s.sent }

/-- The number of a runtime port's context (R2): above every context number of R367. -/
def portCtx (k : Nat) : Nat := 0x100000 + k

/-- Is a context a runtime port's? -/
def isPort (n : Nat) : Bool := decide (portCtx 0 ≤ n)

/-- Where a port's context stands while a form of it runs: at no core of the grid. -/
def portSeat (k : Nat) : SeatId := { core := Config.cores + k, seat := 0 }

/-- The tenant number of a context (R16). -/
def Ctx.tenant (c : Ctx) : Nat := field c.csrs.tenantid.toNat 0 12

/-- Chain length of a context (R189). -/
def Ctx.chainLen (c : Ctx) : Nat := field c.csrs.chainpos.toNat 4 5

/-- Chain position of a context (R189). -/
def Ctx.chainAt (c : Ctx) : Nat := field c.csrs.chainpos.toNat 0 4

/-- FMODE.RM (R189). -/
def Ctx.rm (c : Ctx) : BitVec 2 := c.csrs.fmode.extractLsb' 0 2

/-- REPST.ACTIVE (R189). -/
def Ctx.repActive (c : Ctx) : Bool := bit c.csrs.repst.toNat 18
/-- REPST.DONE (R189). -/
def Ctx.repDone (c : Ctx) : Nat := field c.csrs.repst.toNat 0 9
/-- REPST.TOTAL (R189). -/
def Ctx.repTotal (c : Ctx) : Nat := field c.csrs.repst.toNat 9 9

/-- A REPST word (R189). -/
def repstOf (done total : Nat) (active : Bool) : Word :=
  BitVec.ofNat 64 (done % 512 + 512 * (total % 512) + 2 ^ 18 * ofBool active)

/-- Change a context's registers. -/
def Ctx.mapRegs (c : Ctx) (f : Regs → Regs) : Ctx := { c with regs := f c.regs }
/-- Change a context's CSRs. -/
def Ctx.mapCsrs (c : Ctx) (f : Csrs → Csrs) : Ctx := { c with csrs := f c.csrs }
/-- Change a context's ordering state. -/
def Ctx.mapOrder (c : Ctx) (f : Order → Order) : Ctx := { c with order := f c.order }
/-- Change a context's matrix state. -/
def Ctx.mapMx (c : Ctx) (f : Matrix → Matrix) : Ctx := { c with mx := f c.mx }

/-- OR flags into FSTAT (R189, R218). -/
def Ctx.raise (c : Ctx) (fl : BitVec 7) : Ctx :=
  c.mapCsrs fun r => { r with fstat := r.fstat ||| fl.setWidth 64 }

/-! ## Sources -/

/-- s0 to s63: s0 reads zero (R179). -/
def Regs.getS (r : Regs) (n : Nat) : Word := if n = 0 then 0 else (r.s[n]?).getD 0

/-- v0 to v31. -/
def Regs.getV (r : Regs) (n : Nat) : Vec := (r.v[n]?).getD 0

/-- o0 to o7 (R183). -/
def Regs.getO (r : Regs) (n : Nat) : Vec := (r.o[n]?).getD 0

/-- m0 to m7: m0 reads all ones (R184). -/
def Regs.getM (r : Regs) (n : Nat) : Mask := if n = 0 then BitVec.allOnes 128 else (r.m[n]?).getD 0

/-- How many of the positions before one name pv: the entry that a pv in that position takes (R185). -/
def pvBefore (before : List Spec) : Nat := (before.filter fun sp => sp == specPv).length

/-- A pv entry by its order (R152). -/
def Ctx.pvAt (c : Ctx) (k : Nat) : Vec := (c.pv[k]?).getD 0

/-- A scalar source (R179, R183, R234); `before` are the source positions ahead of it. -/
def Ctx.srcS (c : Ctx) (before : List Spec) (sp : Spec) : Word :=
  if sp.isS then c.regs.getS sp.toNat
  else if sp.isImm then immVal sp
  else if sp.isO then (c.regs.getO (sp.toNat - 0x60)).setWidth 64
  else if sp == specY0 then c.regs.y0
  else if sp == specPv then (c.pvAt (pvBefore before)).setWidth 64
  else 0

/-- A vector source (R179, R183). -/
def Ctx.srcV (c : Ctx) (before : List Spec) (sp : Spec) : Vec :=
  if sp.isV then c.regs.getV (sp.toNat - 0x40)
  else if sp.isO then c.regs.getO (sp.toNat - 0x60)
  else if sp == specY1 then c.regs.y1
  else if sp == specPv then c.pvAt (pvBefore before)
  else 0

/-- Is a vector form's SB a vector, rather than a value to broadcast (R179, R279)? -/
def specIsVector (sp : Spec) : Bool := sp.isV || sp.isO || sp == specY1 || sp == specPv

/-- A lane of a vector form's SB: a vector's lane, or the broadcast value truncated to the lane width (R279). -/
def Ctx.srcLane (c : Ctx) (before : List Spec) (sp : Spec) (w i : Nat) : Nat :=
  if specIsVector sp then lane w (c.srcV before sp) i else (c.srcS before sp).toNat % 2 ^ w

/-- SA of an instruction as a scalar. -/
def Ctx.valA (c : Ctx) (sa : Spec) : Word := c.srcS [] sa
/-- SB of an instruction as a scalar. -/
def Ctx.valB (c : Ctx) (sa sb : Spec) : Word := c.srcS [sa] sb
/-- SC of an instruction as a scalar. -/
def Ctx.valC (c : Ctx) (sa sb sc : Spec) : Word := c.srcS [sa, sb] sc

/-- The predicate mask (R184): the mask that PRED names, inverted when PN is 1. -/
def Ctx.predicate (c : Ctx) (pred : BitVec 3) (pn : Bool) : Mask :=
  if pn then ~~~ (c.regs.getM pred.toNat) else c.regs.getM pred.toNat

/-- Bit 0 of the predicate (R184). -/
def Ctx.predTrue (c : Ctx) (pred : BitVec 3) (pn : Bool) : Bool := maskBit (c.predicate pred pn) 0

/-! ## Destinations -/

/-- Write one of s1 to s63; a write of s0 is discarded (R179). -/
def Regs.setS (r : Regs) (n : Nat) (w : Word) : Regs := if n = 0 then r else { r with s := r.s.setIfInBounds n w }

/-- Write one of v0 to v31. -/
def Regs.setV (r : Regs) (n : Nat) (w : Vec) : Regs := { r with v := r.v.setIfInBounds n w }

/-- Write one of o0 to o7 (R183). -/
def Regs.setO (r : Regs) (n : Nat) (w : Vec) : Regs := { r with o := r.o.setIfInBounds n w }

/-- Write one of m1 to m7; m0 is never a destination (R179). -/
def Regs.setM (r : Regs) (n : Nat) (w : Mask) : Regs := if n = 0 then r else { r with m := r.m.setIfInBounds n w }

/-- A scalar destination's register, y0 left alone (R179, R183); nx has no register. -/
def Regs.putS (r : Regs) (sp : Spec) (w : Word) : Regs :=
  if sp.isS then r.setS sp.toNat w
  else if sp.isO then r.setO (sp.toNat - 0x60) (w.setWidth 1024)
  else r

/-- A vector destination's register, y1 left alone (R179, R183); nx has no register. -/
def Regs.putV (r : Regs) (sp : Spec) (w : Vec) : Regs :=
  if sp.isV then r.setV (sp.toNat - 0x40) w
  else if sp.isO then r.setO (sp.toNat - 0x60) w
  else r

/-- The value that a vector destination holds before the instruction: an nx entry's inactive lanes hold zero (R280). -/
def Ctx.oldV (c : Ctx) (sp : Spec) : Vec :=
  if sp.isV then c.regs.getV (sp.toNat - 0x40)
  else if sp.isO then c.regs.getO (sp.toNat - 0x60)
  else 0

/-- The context that a chain member's nx leads to (R152). -/
def Ctx.nextMember (c : Ctx) : Option Nat := c.chain[(c.chainAt + 1) % max c.chain.length 1]?

/-- Fill an entry of the successor's pv channel (R152): that of a member whose firing has ended fills too. -/
def State.pushNx (s : State) (w : Vec) : State :=
  match s.cx with
  | none => s
  | some c =>
    match c.nextMember with
    | none => s
    | some n => s.updCtx n fun d => { d with pv := d.pv ++ [w] }

/-- The registers, y0 among them, that still await a result of BATCHC or MXCMD (R97, R318). -/
def Order.owed (o : Order) : List Spec :=
  o.late.flatMap fun r => (if r.writes then [r.dst] else []) ++ if r.y0 then [specY0] else []

/-- A register that is written is no longer owed by an unfinished BATCHC or MXCMD: the later value stands (R270). -/
def Order.settle (o : Order) (sp : Spec) : Order :=
  { o with late := o.late.map fun r => if r.dst = sp then { r with writes := false } else r }

/-- y0 is no longer owed: a later scalar result stands (R182). -/
def Order.settleY0 (o : Order) : Order := { o with late := o.late.map fun r => { r with y0 := false } }

/-- A result for DST that comes later (R97, R318): s0 takes none, y0 takes it. -/
def Order.await (o : Order) (dst : Spec) : Order :=
  let q := (o.settle dst).settleY0
  { q with late := q.late ++ [{ num := o.lateNum, dst := dst, writes := dst != 0, y0 := true }], lateNum := o.lateNum + 1 }

/-- Write a scalar result to DST and to y0 (R182, R183, R185). -/
def State.putScalar (s : State) (sp : Spec) (w : Word) : State :=
  let s1 := s.mapCx fun c =>
    { c with regs := { c.regs.putS sp w with y0 := w }, order := (c.order.settle sp).settleY0 }
  if sp == specNx then s1.pushNx (w.setWidth 1024) else s1

/-- Write a vector result to DST and to y1 (R182, R183, R185). -/
def State.putVector (s : State) (sp : Spec) (w : Vec) : State :=
  let s1 := s.mapCx fun c =>
    { c with regs := { c.regs.putV sp w with y1 := w }, order := c.order.settle sp }
  if sp == specNx then s1.pushNx w else s1

/-- Write a mask result (R179, R184); neither y0 nor y1 changes (R182). -/
def State.putMask (s : State) (n : Nat) (w : Mask) : State := s.mapCx fun c => { c with regs := c.regs.setM n w }

/-- Merge lanes into a destination's old value (R280): active lanes take `f i`, inactive ones zero or their old value. -/
def mergeLanes (w n : Nat) (p : Mask) (z : Bool) (old : Vec) (f : Nat → Nat) : Vec :=
  ofLanes w ((List.range n).map fun i => if maskBit p i then f i else if z then 0 else lane w old i)

end Sys2Proof.Machine
end

