-- ==== Sys2Proof/Machine/Records.lean ====
section
/-! DEFINITION. Partitions, task records, the image table and context buffers as the device's registers and HBM hold
them (R138 to R142, R211, R367, R380). -/

namespace Sys2Proof

/-- Does one stamp come after another (R110)? -/
def Stamp.lt (a b : Stamp) : Bool := decide (a.t < b.t) || (a.t == b.t && decide (a.d < b.d))

/-- The greater of two stamps. -/
def Stamp.max (a b : Stamp) : Stamp := if a.lt b then b else a

end Sys2Proof

namespace Sys2Proof.Machine

open Sys2Proof.Bits

/-! ## Partitions (R380) -/

/-- Tenant of a partition. -/
def State.partTenant (s : State) (p : Nat) : Nat := s.dcbField (parttab p 0) 22 12
/-- State of a partition: 0 free, 1 forming, 2 live, 3 releasing. -/
def State.partState (s : State) (p : Nat) : Nat := s.dcbField (parttab p 0) 34 2
/-- SLOTS of a partition. -/
def State.partSlots (s : State) (p : Nat) : Nat := s.dcbField (parttab p 0) 36 8
/-- LQUOTA of a partition. -/
def State.lquota (s : State) (p : Nat) : Nat := s.dcbField (parttab p 1) 0 13
/-- POOLBASE of a partition. -/
def State.poolBase (s : State) (p : Nat) : Nat := s.dcbField (parttab p 2) 0 45
/-- POOLCNT of a partition. -/
def State.poolCnt (s : State) (p : Nat) : Nat := s.dcbField (parttab p 3) 0 21
/-- SPILLBASE of a partition. -/
def State.spillBase (s : State) (p : Nat) : Nat := s.dcbField (parttab p 4) 0 45
/-- LSPILL of a partition. -/
def State.lspill (s : State) (p : Nat) : Nat := s.dcbField (parttab p 4) 45 5
/-- SWAPBASE of a partition. -/
def State.swapBase (s : State) (p : Nat) : Nat := s.dcbField (parttab p 5) 0 45
/-- The corners of a partition's rectangle: as FORM set them in the routers, else as its table entry has them (R380, R381). -/
def State.corners (s : State) (p : Nat) : Nat := ((look s.control.members p).getD (s.dcbGet (parttab p 0))).toNat
/-- X0 of a partition. -/
def State.partX0 (s : State) (p : Nat) : Nat := field (s.corners p) 0 6
/-- X1 of a partition. -/
def State.partX1 (s : State) (p : Nat) : Nat := field (s.corners p) 6 6
/-- Y0 of a partition. -/
def State.partY0 (s : State) (p : Nat) : Nat := field (s.corners p) 12 5
/-- Y1 of a partition. -/
def State.partY1 (s : State) (p : Nat) : Nat := field (s.corners p) 17 5

/-- Does a partition's rectangle hold a core? -/
def State.inRect (s : State) (p core : Nat) : Bool :=
  decide (s.partX0 p ≤ coreX core) && decide (coreX core ≤ s.partX1 p) && decide (s.partY0 p ≤ coreY core)
    && decide (coreY core ≤ s.partY1 p) && decide (core < Config.cores)

/-- Is a partition live? -/
def State.partLive (s : State) (p : Nat) : Bool := s.partState p == 2

/-- Does the router of a core forward the packets of a partition (R381, R383): is the partition's bit set in its membership bitmap? -/
def State.inMesh (s : State) (p core : Nat) : Bool := decide (2 ≤ s.partState p) && s.inRect p core

/-- The numbers of all partitions. -/
def allParts : List Nat := List.range 64

/-- The numbers of all cores. -/
def allCores : List Nat := List.range Config.cores

/-- The partition of a tenant on this device: at most one holds it (R380). -/
def State.partOfTenant (s : State) (t : Nat) : Option Nat :=
  if t = 0 then none else allParts.find? fun p => s.partTenant p == t && s.partLive p

/-- The cores of a partition, lower numbers first. -/
def State.partCores (s : State) (p : Nat) : List Nat := allCores.filter fun k => s.inRect p k

/-- The slice number of a synchronised time under the LEN in force (R384). -/
def State.sliceOf (s : State) (t : Nat) : Nat := t / (1000 * (field s.control.sliceNow.toNat 0 24))

/-- RLEN in force (R384). -/
def State.rlen (s : State) : Nat := field s.control.sliceNow.toNat 24 3 + 1

/-- SLOTS in force for a partition (R381). -/
def State.slotsOf (s : State) (p : Nat) : Nat := (look s.control.slots p).getD 0

/-- Is a partition scheduled in the current slice (R384)? -/
def State.scheduled (s : State) (p : Nat) : Bool :=
  s.partLive p && bit (s.slotsOf p) (s.control.slice % s.rlen)

/-- Does the device answer nothing: in a mode reset, from the write that starts it, or since a power failure (R390, R412)? -/
def State.deaf (s : State) : Bool := s.control.resetting || s.control.pfail || bit (s.dcbGet modectl).toNat 63

/-- The swap image of a core for a partition: the device offset of its first byte (R380). -/
def State.swapImage (s : State) (p core : Nat) : Nat :=
  s.swapBase p + 0x20000 * ((coreY core - s.partY0 p) * (s.partX1 p - s.partX0 p + 1) + (coreX core - s.partX0 p))

/-! ## Versions of a line (R58, R111) -/

/-- A slice's discard horizon (R111): zero at reset. -/
def State.horizon (s : State) (slice : Nat) : Stamp := (look s.slices.horizon slice).getD { t := 0, d := 0 }

/-- A slice's snapshot floor (R117). -/
def State.floor (s : State) (slice : Nat) : Nat := (look s.slices.floors slice).getD 0

/-- The version entry of a line; none when it is untagged. -/
def State.version (s : State) (line : Nat) : Option Version := look s.slices.versions line

/-- The stamp of the current version, taken as the horizon when the line is untagged (R111). -/
def State.currentStamp (s : State) (line : Nat) : Stamp :=
  match s.version line with
  | some v => v.stamp
  | none => s.horizon (homeSlice line)

/-- Entries of a slice's tarn in use (R58). -/
def State.tarnUsed (s : State) (slice : Nat) : Nat :=
  (s.slices.versions.filter fun p => homeSlice p.1 == slice).foldl
    (fun n p => n + ofBool p.2.prior.isSome + ofBool p.2.pending.isSome) 0

/-- TARNSTAT after a change of a tarn (R59): FREE as it is, LOW at the lowest FREE. -/
def State.tarnNote (s : State) (slice : Nat) : State :=
  let free := Config.tarnEntries - s.tarnUsed slice
  let w := (s.dcbGet (tarnstat slice)).toNat
  s.dcbSet (tarnstat slice)
    (BitVec.ofNat 64 (setField (setField w 0 13 free) 16 13 (min free (field w 16 13))))

/-- Replace a line's version entry; an entry that holds neither a prior nor a pending version leaves the line untagged,
and the slice's horizon covers its stamp when its prior version went (R111). -/
def State.setVersion (s : State) (line : Nat) (v : Version) : State :=
  let h := homeSlice line
  if v.prior.isNone && v.pending.isNone then
    let s1 := { s with slices := { s.slices with
        versions := drop s.slices.versions line,
        horizon := put s.slices.horizon h (Stamp.max (s.horizon h) v.stamp) } }
    s1.tarnNote h
  else
    let s1 := { s with slices := { s.slices with versions := put s.slices.versions line v } }
    s1.tarnNote h

/-- A bundle marked refused or doomed at a slice, first reason kept (R112, R116). -/
def State.doom (s : State) (slice : Nat) (ident : Word) (reason : Nat) : State :=
  if s.slices.dooms.any fun d => d.1 == slice && d.2.1 == ident then s
  else { s with slices := { s.slices with dooms := s.slices.dooms ++ [(slice, ident, reason)] } }

/-- A line's pending version discarded (R111, R116). -/
def State.discardPending (s : State) (line : Nat) : State :=
  match s.version line with
  | none => s
  | some v => s.setVersion line { v with pending := none }

/-- A non-bundled write of a line (R116): a pending version goes, and its bundle is doomed with CONFLICT. -/
def State.nonBundled (s : State) (line : Nat) : State :=
  match s.version line with
  | none => s
  | some v => if v.pending.isSome then (s.discardPending line).doom (homeSlice line) v.ident 1 else s

/-! ## Task records (R138) -/

/-- Device offset of a record. -/
def State.recAddr (s : State) (p idx : Nat) : Nat := s.poolBase p + 64 * idx

/-- Does an index name a record slot of the pool (R138)? -/
def State.inPool (s : State) (p idx : Nat) : Bool := decide (0 < idx) && decide (idx < s.poolCnt p)

/-- A record's 512 bits. -/
def State.recBits (s : State) (p idx : Nat) : Nat := s.mem.readNat (s.recAddr p idx) 64

/-- A field of a record. -/
def State.recGet (s : State) (p idx lo len : Nat) : Nat := field (s.recBits p idx) lo len

/-- Set a field of a record: a scheduler action, not a store, but a write to the record's line as any other (R116). -/
def State.recPut (s : State) (p idx lo len v : Nat) : State :=
  let s1 := s.nonBundled (s.recAddr p idx / 64 * 64)
  { s1 with mem := s1.mem.writeNat (s.recAddr p idx) 64 (setField (s.recBits p idx) lo len v) }

/-- The states of a record (R142), by their codes. -/
inductive RecState where
  | idle | waiting | ready | running | yielded | parked | held | done | faulted
  deriving DecidableEq, Repr

/-- The code of a record state (R142). -/
def RecState.code : RecState → Nat
  | .idle => 0 | .waiting => 1 | .ready => 2 | .running => 3 | .yielded => 4 | .parked => 5 | .held => 6 | .done => 7
  | .faulted => 8

/-- STATE of a record. -/
def State.recState (s : State) (p idx : Nat) : Nat := s.recGet p idx 56 4

/-- Write STATE of a record; DONE and FAULTED end its life (R139). -/
def State.setRecState (s : State) (p idx : Nat) (st : RecState) : State :=
  let ended := st == .done || st == .faulted
  let s1 := s.recPut p idx 56 4 st.code
  { s1 with sched := { s1.sched with
      live := if ended then s1.sched.live.filter (· != (p, idx)) else s1.sched.live,
      chains := if ended then s1.sched.chains.filter fun r => !(r.part == p && r.record == idx) else s1.sched.chains,
      ready := s1.sched.ready.filter fun r => (r.1, r.2.1) != (p, idx) } }

/-- Is a record live (R139)? -/
def State.recLive (s : State) (p idx : Nat) : Bool := s.sched.live.contains (p, idx)

/-- A counter of a record (R138, R140). -/
def State.recCnt (s : State) (p idx c : Nat) : Int := signed 16 (s.recGet p idx (64 + 16 * c) 16)

/-- Set a counter. -/
def State.setRecCnt (s : State) (p idx c : Nat) (v : Int) : State := s.recPut p idx (64 + 16 * c) 16 (wrap 16 v)

/-- An initial value of a record (R138). -/
def State.recInit (s : State) (p idx c : Nat) : Int := signed 16 (s.recGet p idx (128 + 16 * c) 16)

/-- IMAGE of a record. -/
def State.recImage (s : State) (p idx : Nat) : Nat := s.recGet p idx 16 16
/-- IGEN of a record. -/
def State.recIgen (s : State) (p idx : Nat) : Nat := s.recGet p idx 32 12
/-- CLASS of a record. -/
def State.recClass (s : State) (p idx : Nat) : Nat := s.recGet p idx 274 2
/-- HOME of a record. -/
def State.recHome (s : State) (p idx : Nat) : Nat := s.recGet p idx 256 11
/-- RADIUS of a record. -/
def State.recRadius (s : State) (p idx : Nat) : Nat := s.recGet p idx 267 7
/-- Chain length of a record: 1 for a single firing (R138). -/
def State.recChain (s : State) (p idx : Nat) : Nat := max 1 (s.recGet p idx 276 5)

/-- The live record that a device offset's line belongs to, if any (R139). -/
def State.liveAt (s : State) (off : Nat) : Option (Nat × Nat) :=
  s.sched.live.find? fun r => s.recAddr r.1 r.2 / 64 == off / 64

/-! ## The image table (R211) -/

/-- An entry's 128 bits. -/
def State.imageEntry (s : State) (id : Nat) : Nat := s.mem.readNat (s.dcbField itbase 0 45 + 16 * id) 16
/-- LISTGEN. -/
def State.listGen (s : State) (id : Nat) : Nat := field (s.imageEntry id) 0 12
/-- STATE: 0 free, 1 listed, 2 revoked, 3 reserved. -/
def State.listState (s : State) (id : Nat) : Nat := field (s.imageEntry id) 12 2
/-- NACTORS. -/
def State.nactors (s : State) (id : Nat) : Nat := field (s.imageEntry id) 14 16

/-- CODE: the handle of the code region. -/
def State.codeHandle (s : State) (id : Nat) : BitVec 32 := BitVec.ofNat 32 (field (s.imageEntry id) 32 32)
/-- CONST: the handle of the constant region. -/
def State.constHandle (s : State) (id : Nat) : BitVec 32 := BitVec.ofNat 32 (field (s.imageEntry id) 64 32)

/-- The sealed image of an id and generation.
(DEDUCED, log entry 38.) -/
def State.image (s : State) (id gen : Nat) : Option Image :=
  s.sched.images.find? fun i => i.id == id && i.code.igen == gen

/-- The actor a record names in its image. -/
def State.recActor (s : State) (p idx : Nat) : Option Actor :=
  match s.image (s.recImage p idx) (s.recIgen p idx) with
  | some i => i.actors[s.recGet p idx 0 16]?
  | none => none

/-! ## Context buffers (R367) -/

/-- Device offset of a context's buffer. -/
def State.bufferOf (s : State) (ctx : Nat) : Nat := s.dcbField ctxbase 0 45 + Config.contextBuffer * ctx

/-- Does anything of an ended context go on (R90, R115, R165, R248)? -/
def Ctx.goesOn (c : Ctx) : Bool :=
  c.queues.any (fun q => !q.cmds.isEmpty) || !c.order.outs.isEmpty || c.order.bundle.isSome || c.order.streams.any fun q => q.asked && !q.window

/-- Does an ended context stay with the device: for its record's next firing, or for what goes on of it (R115, R367)? -/
def Ctx.stays (c : Ctx) : Bool := c.dormant || c.goesOn

/-- The context that a record keeps for a chain position between its firings (R367).
(DEDUCED, log entry 95.) -/
def State.keptCtx (s : State) (p idx pos : Nat) : Option Ctx :=
  s.ended.find? fun c => c.dormant && c.part == p && c.record == idx && c.chainAt == pos

/-- The lowest free context number below COUNT (R367).
(DEDUCED, log entry 18.) -/
def State.freeCtx (s : State) : Option Nat :=
  let used := (s.allCtx ++ s.ended).map (·.num)
  (List.range (min (s.dcbField ctxcount 0 17) (used.length + 1))).find? fun n => !used.contains n

/-! ## Peers (R102, R404) -/

/-- Is a device marked lost (R102, R404)? -/
def State.lost (s : State) (dev : Nat) : Bool := decide (dev < 2048) && bit (s.dcbGet (routeReg dev)).toNat 15

/-- Is a port's link up (R405)? -/
def State.portUp (s : State) (p : Nat) : Bool := decide (p < 24) && bit (s.dcbGet (linkst p)).toNat 0

/-- The valid ports of a route whose links are up, PORTA first (R404). -/
def State.routePorts (s : State) (dev : Nat) : List Nat :=
  let e := (s.dcbGet (routeReg dev)).toNat
  (if bit e 10 && s.portUp (field e 0 5) then [field e 0 5] else [])
    ++ (if bit e 11 && s.portUp (field e 5 5) then [field e 5 5] else [])

/-- Does the device hold a route to another (R8, R404)?  Its own number is always routed. -/
def State.routed (s : State) (dev : Nat) : Bool :=
  dev == s.devNum || (decide (dev < 2048) && field (s.dcbGet (routeReg dev)).toNat 12 3 != 0
    && !(s.routePorts dev).isEmpty)

/-- The number of links to a device (R118, R404): zero for this device alone; one with no route is farther than any. -/
def State.hopsTo (s : State) (dev : Nat) : Nat :=
  let h := s.dcbField (routeReg dev) 12 3
  if dev = s.devNum then 0 else if h = 0 then 8 else h

end Sys2Proof.Machine
end

