-- ==== Sys2Proof/Machine/Registers.lean ====
section
/-! DEFINITION. Reads and writes of the device control block (R13): which bits of each register are written, which are
cleared by ones, the clamps, and the operations that a BUSY bit starts. -/

namespace Sys2Proof.Machine

open Sys2Proof.Bits

/-- A word with ones in bits [hi : lo]. -/
def onesAt (lo hi : Nat) : Nat := 2 ^ (hi + 1) - 2 ^ lo

/-- The RW bits of a control block register by its offset.
(DESIGN CHOICE, log entry 65.) -/
def controlRw (off : Nat) : Nat :=
  if off = rtbase then onesAt 5 44
  else if off = rtcount then onesAt 0 20
  else if off = rupcmd then onesAt 0 19 + 2 ^ 63
  else if off = ombase then onesAt 9 44
  else if off = omupcmd then onesAt 0 17 + 2 ^ 63
  else if off = linkctl then onesAt 0 13
  else if off = itbase then onesAt 4 44
  else if off = imgcmd then onesAt 0 39 + 2 ^ 63
  else if off = ctxbase then onesAt 15 44
  else if off = ctxcount then onesAt 0 16
  else if off = killcmd then onesAt 0 24 + 2 ^ 63
  else if off = partcmd then onesAt 0 7 + 2 ^ 63
  else if off = slicectl then onesAt 0 26
  else if off = modectl then 2 + 2 ^ 63
  else if off = keycmd then onesAt 0 11 + 2 ^ 63
  else if off = intstat then onesAt 0 47
  else if off = peercmd then onesAt 0 13 + 2 ^ 63
  else if off = pwrctl then onesAt 0 2
  else if off = errthr then onesAt 0 15
  else if off = rowflush then 2 ^ 63
  else if 0x10000 ≤ off ∧ off < 0x10400 then onesAt 16 28 + onesAt 32 63
  else if 0x20000 ≤ off ∧ off < 0x20400 then (if off % 16 = 0 then onesAt 6 49 else onesAt 0 15 + onesAt 32 47)
  else if 0x30000 ≤ off ∧ off < 0x31000 then
    (match off % 64 / 8 with
      | 0 => onesAt 0 33 + onesAt 36 43
      | 1 => onesAt 0 12
      | 2 => onesAt 6 44
      | 3 => onesAt 0 20
      | 4 => onesAt 6 49
      | 5 => onesAt 17 44
      | 6 => onesAt 0 15
      | _ => 0)
  else if 0x40000 ≤ off ∧ off < 0x44000 then onesAt 0 14
  else if 0x50000 ≤ off ∧ off < 0x50200 then onesAt 0 63
  else 0

/-- The W1C fields of a register, as (lowest bit, length) pairs: a one in any bit clears the field. -/
def controlW1c (off : Nat) : List (Nat × Nat) :=
  if off = pwrstat then [(22, 1)]
  else if off = devstat then [(17, 16)]
  else if 0x44000 ≤ off ∧ off < 0x440C0 then [(16, 16), (32, 16)]
  else []

/-- The clamps that the manual puts on a written value (R101, R361, R384). -/
def controlClamp (off v : Nat) : Nat :=
  if off = linkctl then setField v 0 14 (min 10000 (max 10 (field v 0 14)))
  else if off = slicectl then setField v 0 24 (min 100000 (max 100 (field v 0 24)))
  else if 0x20000 ≤ off ∧ off < 0x20400 ∧ off % 16 = 0 then setField v 45 5 (min 15 (field v 45 5))
  else v

/-- Does bit 63 of a register start an operation that hardware ends (R21, R213, R373, R381, R394, R406, R415)? -/
def hasBusy (off : Nat) : Bool :=
  off == rupcmd || off == omupcmd || off == imgcmd || off == killcmd || off == partcmd || off == keycmd || off == peercmd
    || off == rowflush

/-- The step that a BUSY bit starts; a READMIT waits for the peer's answer, and OP 3 does nothing (R381, R406). -/
def startOf (off v : Nat) : Option Instr :=
  if off = rupcmd then some (.regionUpdate (field v 0 20))
  else if off = omupcmd then some (.ownerMapUpdate (field v 0 18))
  else if off = imgcmd then some .imageGenRewrite
  else if off = killcmd then some .kill
  else if off = partcmd then
    (match field v 6 2 with
      | 0 => some .partitionForm
      | 1 => some .partitionRelease
      | 2 => some .partitionReslot
      | _ => none)
  else if off = keycmd then some .keyRotation
  else if off = peercmd then
    (match field v 12 2 with
      | 1 => some .peerMarklost
      | 2 => some .peerRetrain
      | _ => none)
  else if off = rowflush then some .rowFlush
  else none

/-- Is the operation code of a command register one that it ignores (R381, R406)?  With the device's own number it ends with SELF (R406). -/
def ignoredOp (off v : Nat) : Bool :=
  (off == partcmd && field v 6 2 == 3) || (off == peercmd && field v 12 2 == 3)

/-- The word that a write leaves: RW bits under the byte mask, clamps, then W1C fields. -/
def controlMerge (off old mask val : Nat) : Nat :=
  let rw := controlRw off &&& mask
  let v := controlClamp off ((old &&& ((2 ^ 64 - 1) ^^^ rw)) ||| (val &&& rw))
  (controlW1c off).foldl (fun v f => if field (val &&& mask) f.1 f.2 ≠ 0 then setField v f.1 f.2 0 else v) v

/-- The current key generation of a world (R393, R394). -/
def State.worldGen (s : State) (tenant : Nat) : Nat :=
  match s.control.keys.find? fun k => k.tenant == tenant with
  | some k => k.gen
  | none => 0

/-- A packet of the device itself to another: tenant field 0, world 0 (R32, R393). -/
def State.packet0 (s : State) (dev : Nat) (body : PktBody) : State :=
  s.send (.packet { src := s.devNum, dst := dev, time := s.time, hop := 0, tenant := 0, lslot := none, cls := 0, tagOk := true,
                    keyGen := s.worldGen 0, body := body })

/-- What leaves a fabric or scale-out port as an answer (R393): in confidential mode, sealed under the current generation of a world's key. -/
def State.sealFor (s : State) (world : Nat) (x : Sent) : Sent :=
  if s.confidential then .sealedUnder world (s.worldGen world) x else x

/-- An answer sent out of the device for a world (R393). -/
def State.answer (s : State) (world : Nat) (x : Sent) : State := s.send (s.sealFor world x)

/-- Is the next generation of a world installed, and not yet in use (R394, phase 1)? -/
def State.nextInstalled (s : State) (tenant : Nat) : Bool := s.control.keys.any fun k => k.tenant == tenant && k.phase == 1

/-- Is a key generation, modulo 256, the current or the previous one of a world (R393), or the next one, which phase 1 of its rotation has
installed (R394)? -/
def State.opensGen (s : State) (tenant gen : Nat) : Bool :=
  gen == s.worldGen tenant || gen == (s.worldGen tenant + 255) % 256
    || (s.nextInstalled tenant && gen == (s.worldGen tenant + 1) % 256)

/-- A write to the 8-byte register at an offset of the block, under a byte mask (R13).  Offsets without a register
ignore it; a busy command register ignores it; SLICECTL and PWRCTL take it in a step of their own. -/
def State.controlWrite (s : State) (off : Nat) (mask val : Word) : State :=
  let old := (s.dcbGet off).toNat
  let v := controlMerge off old mask.toNat val.toNat
  if !dcbPlaced off then s
  else if hasBusy off ∧ bit old 63 then s
  else if off = slicectl then s.owe (.slicectlWrite (BitVec.ofNat 64 v))
  else if off = pwrctl then s.owe (.powerCapWrite (BitVec.ofNat 64 v))
  else if off = modectl then
    let s1 := s.dcbSet off (BitVec.ofNat 64 v)
    if bit v 63 ∧ !bit old 63 then s1.owe .modeReset else s1
  else if hasBusy off ∧ bit v 63 then
    if ignoredOp off v then
      let w := setField v 63 1 0
      s.dcbSet off (BitVec.ofNat 64 (if off = peercmd ∧ field v 0 12 = s.devNum then setField w 14 2 3 else w))
    else
      let s1 := s.dcbSet off (BitVec.ofNat 64 v)
      match startOf off v with
      | some i => s1.owe i
      | none => s1
  else if off = keycmd then s.dcbSet off (BitVec.ofNat 64 (setField v 12 8 (s.worldGen (field v 0 12))))
  else s.dcbSet off (BitVec.ofNat 64 v)

/-- Is a device offset in the control block? -/
def inControl (off : Nat) : Bool :=
  decide (Config.controlBase ≤ off) && decide (off < Config.controlBase + Config.controlSize)

/-- A byte at a device offset: a register's byte in the control block, zero where no register is placed (R13). -/
def State.byteAt (s : State) (off : Nat) : Byte :=
  if inControl off then
    let r := (off - Config.controlBase) / 8 * 8
    if dcbPlaced r then BitVec.ofNat 8 ((s.dcbGet r).toNat >>> (8 * (off % 8))) else 0
  else s.mem.get off

/-- Bytes written to the control block, register by register. -/
def State.controlBytes (s : State) (bytes : List (Nat × Byte)) : State :=
  ((bytes.map fun b => (b.1 - Config.controlBase) / 8 * 8).eraseDups).foldl (fun s r =>
    let mine := bytes.filter fun b => (b.1 - Config.controlBase) / 8 * 8 == r
    let mask := mine.foldl (fun m b => setField m (8 * (b.1 % 8)) 8 0xFF) 0
    let val := mine.foldl (fun m b => setField m (8 * (b.1 % 8)) 8 b.2.toNat) 0
    s.controlWrite r (BitVec.ofNat 64 mask) (BitVec.ofNat 64 val)) s

end Sys2Proof.Machine
end

