-- ==== Sys2Proof/Machine/Save.lean ====
section
/-! DEFINITION. The registers of a context in its save area: the rows, the control block, the CSRs and the entries, written when a context
leaves its seat and put in place when it resumes (R97, R154, R214, R244, R318, R367 to R370, R414, R415). -/

namespace Sys2Proof.Machine

open Sys2Proof.Bits

/-! ## Rows (R154, R368, R369) -/

/-- Granules of 16 rows that a firing needs (R154). -/
def granulesOf (s v : Nat) : Nat := (s + 16 * v + 16 + 15) / 16

/-- The rows of a context, 8 bytes each, in the order of R154: s1 to sS, v0 to v(V-1), and 16 rows with the masks, that of m0 zero.
(DESIGN CHOICE, log entry 19.) -/
def Ctx.rowBytes (c : Ctx) : List Byte :=
  ((List.range c.sRegs).flatMap fun i => bytesOf 8 (c.regs.getS (i + 1)).toNat)
    ++ ((List.range c.vRegs).flatMap fun i => bytesOf 128 (c.regs.getV i).toNat)
    ++ bytesOf 16 0 ++ (List.range 7).flatMap fun i => bytesOf 16 (c.regs.getM (i + 1)).toNat

/-- Registers taken from rows that stand at an HBM offset. -/
def State.rowRegs (s : State) (c : Ctx) (at' : Nat) : Regs :=
  let v := at' + 8 * c.sRegs
  let m := v + 128 * c.vRegs
  let g1 := (List.range c.sRegs).foldl (fun (g : Regs) i => g.setS (i + 1) (BitVec.ofNat 64 (s.mem.readNat (at' + 8 * i) 8))) c.regs
  let g2 := (List.range c.vRegs).foldl (fun (g : Regs) i => g.setV i (BitVec.ofNat 1024 (s.mem.readNat (v + 128 * i) 128))) g1
  (List.range 7).foldl (fun (g : Regs) i => g.setM (i + 1) (BitVec.ofNat 128 (s.mem.readNat (m + 16 * (i + 1)) 16))) g2

/-- Has a context a buffer (R367)? -/
def State.buffered (s : State) (c : Ctx) : Bool := decide (c.num < s.dcbField ctxcount 0 17)

/-- The rows of a context written to its save area (R366, R369, R415). -/
def State.saveRows (s : State) (c : Ctx) : State :=
  if s.buffered c then { s with mem := s.mem.write (s.bufferOf c.num + 0x4800) c.rowBytes } else s

/-! ## The control block, the CSRs and the entries (R368) -/

/-- The word that marks a save area as one that its context's record may resume from, whoever wrote it (R414): the partition beside it.
(DESIGN CHOICE, log entry 19.) -/
def saveMark (part : Nat) : Nat := part + 2 ^ 63

/-- The words of bytes 0x0000 to 0x00FF: the program counter, REPST, INYIELD, the CHKR addresses with their number, the seat, the record,
the granule count, EVT and FORCED, the number of pv entries, the mark, and the place in .text that R246 names.
(DESIGN CHOICE, log entry 19.) -/
def Ctx.controlWords (c : Ctx) : List Nat :=
  [c.pc.toNat, c.csrs.repst.toNat, ofBool (bit c.csrs.tcause.toNat 18),
   ((c.chkr[0]?).getD 0).toNat + 2 ^ 32 * ((c.chkr[1]?).getD 0).toNat, c.chkr.length,
   c.seatAt.core + 2 ^ 11 * c.seatAt.seat, c.record, granulesOf c.sRegs c.vRegs, ofBool c.evt + 2 * ofBool c.forced, c.pv.length,
   saveMark c.part, c.lastPc.toNat, ((c.trapChkr[0]?).getD 0).toNat + 2 ^ 32 * ((c.trapChkr[1]?).getD 0).toNat, c.trapChkr.length]

/-- The CSRs that a resumption puts in place, by their places in the order of R188.  ENERGY goes on in the context (R418), and MXSTAT, MBRQ
and MBRP are kept where R295 and R338 keep them. -/
def Ctx.setCsrs (c : Ctx) (w : Nat → Word) : Ctx :=
  c.mapCsrs fun r => { r with
    tenantid := w 0, firinfo := w 1, rank := w 2, chainpos := w 3, fmode := w 4, fstat := w 5, ybudget := w 6, linkstat := w 8,
    lostla := w 9, repst := w 10, mxcap := w 12, tcause := w 13, tpc := w 14, tval := w 15, tinfo := w 16 }

/-- Some CHKR addresses of a save area. -/
def chkrList (w n : Nat) : List (BitVec 32) := ([BitVec.ofNat 32 w, BitVec.ofNat 32 (w / 2 ^ 32)]).take n

/-- A context with what its save area holds put in place (R214, R370): the rows, unless they stand in its granules still, and the program
counter, the CHKR addresses, the CSRs, and the y and o entries.  The rest of R368 is taken from the context as the device keeps it.
(DESIGN CHOICE, log entry 19.) -/
def State.putInPlace (s : State) (c : Ctx) : Ctx :=
  if !s.buffered c then c
  else
    let base := s.bufferOf c.num
    let word (off : Nat) : Nat := s.mem.readNat (base + off) 8
    let g1 := if c.rows then c.regs else s.rowRegs c (base + 0x4800)
    let g2 : Regs := { g1 with y0 := BitVec.ofNat 64 (word 0x200), y1 := BitVec.ofNat 1024 (s.mem.readNat (base + 0x280) 128) }
    let g3 := (List.range 8).foldl (fun (g : Regs) i => g.setO i (BitVec.ofNat 1024 (s.mem.readNat (base + 0x300 + 128 * i) 128))) g2
    { c.setCsrs (fun i => BitVec.ofNat 64 (word (0x100 + 8 * i))) with
      regs := g3, pc := BitVec.ofNat 32 (word 0), chkr := chkrList (word 0x18) (word 0x20), lastPc := BitVec.ofNat 32 (word 0x58),
      trapChkr := chkrList (word 0x60) (word 0x68) }

/-- The registers of a saved context in its save area, after a change. -/
def State.saveEntries (s : State) (c : Ctx) : State :=
  if s.buffered c then
    let base := s.bufferOf c.num
    let m := s.mem.write (base + 0x200) (bytesOf 8 c.regs.y0.toNat)
    let m1 := m.write (base + 0x300) ((List.range 8).flatMap fun k => bytesOf 128 (c.regs.getO k).toNat)
    let s1 : State := { s with mem := m1 }
    if c.rows then s1 else s1.saveRows c
  else s

/-! ## Results that come late (R97, R318) -/

/-- Registers that take a result, y0 among them, as far as a later one does not stand (R182, R270). -/
def Ctx.takeLate (c : Ctx) (r : Late) (w : Word) : Ctx :=
  let g := if r.writes then c.regs.putS r.dst w else c.regs
  { c with regs := if r.y0 then { g with y0 := w } else g,
           order := { c.order with late := c.order.late.filter fun x => x.num != r.num } }

/-- A result that has come for a context, in focus or not (R97, R182, R185, R270, R318): that of a saved context is in its save area when it
resumes. -/
def State.putLate (s : State) (n num : Nat) (w : Word) : State :=
  match s.findCtx n with
  | none => s
  | some c => match c.order.late.find? fun r => r.num == num with
    | none => s
    | some r =>
      let s1 := if s.saved.any fun d => d.num == n then
          let d := (s.putInPlace c).takeLate r w
          (s.updCtx n fun _ => d).saveEntries d
        else s.updCtx n fun c => c.takeLate r w
      match c.nextMember with
      | some m => if r.writes && r.dst == specNx then s1.updCtx m fun d => { d with pv := d.pv ++ [w.setWidth 1024] } else s1
      | none => s1

end Sys2Proof.Machine
end

