-- ==== Sys2Proof/Machine/Lines.lean ====
section
/-! DEFINITION. A line at its coherence point: the owner map, race records, bundle versions, sync words, and the
performing of loads, stores and atomics (R33 to R36, R49 to R59, R64 to R72, R94, R111, R116, R139, R263, R387). -/

namespace Sys2Proof

open Sys2Proof.Bits

/-- What an atomic computes (R263, R265): the new value, whether it writes, and the flags. -/
def AtomOp.apply (op : AtomOp) (w old b : Nat) : Nat × Bool × BitVec 7 :=
  let m := 2 ^ (8 * w)
  let sg := signed (8 * w)
  match op with
  | .add => ((old + b) % m, true, 0)
  | .and => (old &&& b, true, 0)
  | .or => (old ||| b, true, 0)
  | .xor => (old ^^^ b, true, 0)
  | .minS => (if sg old ≤ sg b then old else b, true, 0)
  | .minU => (min old b, true, 0)
  | .maxS => (if sg b ≤ sg old then old else b, true, 0)
  | .maxU => (max old b, true, 0)
  | .xchg => (b, true, 0)
  | .cas d => if old = d.toNat % m then (b, true, 0) else (old, false, 0)
  | .fadd rm => let r := Flt.addF Flt.f32 rm old b; (r.1, true, r.2)

end Sys2Proof

namespace Sys2Proof.Machine

open Sys2Proof.Bits

/-! ## The owner map (R33 to R36) -/

/-- The owner entry of a granule as HBM holds it (R33). -/
def State.ownerWord (s : State) (granule : Nat) : Nat := s.mem.readNat (s.dcbField ombase 0 45 + 2 * granule) 2

/-- The entry that a home slice applies: the one it holds cached, else the one it fetches (R36). -/
def State.ownerAt (s : State) (slice granule : Nat) : Nat :=
  match s.slices.owners.find? fun o => o.slice == slice && o.granule == granule with
  | some o => o.entry.toNat
  | none => s.ownerWord granule

/-- A home slice with the entry of a granule cached; it caches 256, and the least recently used one makes room (R33).
(DESIGN CHOICE, log entry 87.) -/
def State.cacheOwner (s : State) (slice granule : Nat) : State :=
  let e : OwnerEntry := { slice := slice, granule := granule, entry := BitVec.ofNat 16 (s.ownerAt slice granule) }
  let mine := (s.slices.owners.filter fun o => o.slice == slice && o.granule != granule).take 255
  { s with slices := { s.slices with owners := e :: mine ++ s.slices.owners.filter fun o => o.slice != slice } }

/-- Does an owner entry accept a tenant field (R34)? -/
def ownerAccepts (entry tenant : Nat) : Bool :=
  tenant == 0 || field entry 12 2 == 2 || (field entry 12 2 == 1 && field entry 0 12 == tenant)

/-! ## Where bytes are -/

/-- Why a coherence point refuses a request (R34, R72, R139). -/
inductive Deny where
  | breach (entry : Nat)
  | record
  deriving DecidableEq, Repr

/-- The device offset at which a window byte is held for a tenant (R387): the banks, or the swap image; none is a
breach.
(DEDUCED, log entry 83.) -/
def State.windowByte (s : State) (tenant core off : Nat) : Option Nat :=
  if tenant = 0 then (s.core core).resident.map fun _ => off
  else match s.partOfTenant tenant with
    | none => none
    | some p =>
      if !s.inRect p core then none
      else if (s.core core).resident = some p then some off
      else some (s.swapImage p core + (off - windowOf core))

/-- The device offset at which a byte of this device is held for a tenant, or the breach that refuses it.
(DEDUCED, log entry 83.) -/
def State.heldAt (s : State) (tenant off : Nat) : Nat ⊕ Deny :=
  match s.placeOf off with
  | .hbm =>
    let e := s.ownerAt (homeSlice off) (off / 0x200000)
    if ownerAccepts e tenant then .inl off else .inr (.breach e)
  | .window core => match s.windowByte tenant core off with
    | some x => .inl x
    | none => .inr (.breach 0)
  | .control => if tenant = 0 then .inl off else .inr (.breach 0)
  | .hole => .inr (.breach 0)

/-- Every byte's place for a tenant, in order, or the first refusal. -/
def State.heldAll (s : State) (tenant : Nat) : List Nat → List Nat ⊕ Deny
  | [] => .inl []
  | off :: offs =>
    match s.heldAt tenant off with
    | .inr d => .inr d
    | .inl x => match s.heldAll tenant offs with
      | .inr d => .inr d
      | .inl xs => .inl (x :: xs)

/-- The 64-byte lines that some bytes touch, each once. -/
def linesOf (offs : List Nat) : List Nat := (offs.map fun o => o / 64 * 64).eraseDups

/-- Home slices that a request reaches keep the entries they judged it by (R33), and recall its lines from the units that hold
them (R81). -/
def State.cacheOwners (s : State) (offs : List Nat) : State :=
  let s1 : State := { s with slices := { s.slices with
    holders := s.slices.holders.filter fun h => !(linesOf offs).contains h.1 } }
  ((offs.filter fun o => decide (o < s.hbmEnd)).map fun o => (homeSlice o, o / 0x200000)).eraseDups.foldl
    (fun s p => s.cacheOwner p.1 p.2) s1

/-- The unit that a scope names for a line of this device's HBM (R80): none is the home slice. -/
def unitOf (core : Nat) (scope : BitVec 2) : Option AtomUnit :=
  if scope = 1 then some (.cluster (clusterOf core)) else if scope = 3 then some .port else none

/-- A line taken from its home slice as sole owner (R81). -/
def State.takeLine (s : State) (u : Option AtomUnit) (off : Nat) : State :=
  match u with
  | none => s
  | some u => if off < s.hbmEnd then
      { s with slices := { s.slices with holders := put s.slices.holders (off / 64 * 64) u } }
    else s

/-- The core whose banks hold a device offset. -/
def bankCore (off : Nat) : Option Nat :=
  if Config.windowBase ≤ off ∧ off < windowOf Config.cores then some ((off - Config.windowBase) / Config.windowStride)
  else none

/-- Does a place lie in a launch area (R46)?
(DEDUCED, log entry 84.) -/
def launchArea (off : Nat) : Bool :=
  match bankCore off with
  | some core => decide (off - windowOf core < 0x100)
  | none => false

/-- The first of some bytes that a tenant's request is refused for, a store's own launch area among them (R34, R35, R46). -/
def State.firstDenied (s : State) (tenant : Nat) (write : Bool) (offs : List Nat) : Nat :=
  (offs.find? fun o => (write && launchArea o) || match s.heldAt tenant o with
    | .inr _ => true
    | .inl _ => false).getD (offs.headD 0)

/-- Every written byte's place for a tenant: a launch area takes no store, atomic or landing (R46).
(DEDUCED, log entry 84.) -/
def State.heldWrite (s : State) (tenant : Nat) (offs : List Nat) : List Nat ⊕ Deny :=
  if offs.any launchArea then .inr (.breach 0) else s.heldAll tenant offs

/-! ## Race records (R69 to R72) -/

/-- The key of the record of a line of this device (R69, R387): a block of a scratchpad window is told apart by the partition whose
scratchpad the tenant reaches there, resident or not, above the 45 bits of its offset.
(DEDUCED, log entry 88.) -/
def State.raceLine (s : State) (tenant line : Nat) : Nat :=
  match bankCore line with
  | none => line
  | some core => match if tenant = 0 then (s.core core).resident else s.partOfTenant tenant with
    | some p => line + 2 ^ 45 * (p + 1)
    | none => line

/-- The keys of the lines of this device that some bytes lie on, control block apart (R13, R68). -/
def State.raceLines (s : State) (tenant : Nat) (offs : List Nat) : List Nat :=
  (linesOf (offs.filter fun o => !inControl o)).map fun l => s.raceLine tenant l

/-- The GA of a line of a device by its key.
(DEDUCED, log entry 88.) -/
def raceGa (dev key : Nat) : Nat := 2 ^ 45 * dev + key % 2 ^ 45

/-- A conflict as a coherence point finds it: the other context, and whether its access is a store. -/
abbrev Verdict := Option (Party × Bool)

/-- Are two parties one context? -/
def sameCtx (a b : Party) : Bool := a.dev == b.dev && a.ctx == b.ctx

/-- The verdict on an access of a context to a line (R69, R70).
(DESIGN CHOICE, log entry 66.) -/
def State.verdict (s : State) (line : Nat) (p : Party) (store : Bool) : Verdict :=
  match look s.slices.races line with
  | none => none
  | some r =>
    let reader : Verdict := if store then (r.readers.find? fun x => !sameCtx x p).map fun x => (x, false) else none
    match r.writer with
    | some w => if sameCtx w p then reader else some (w, true)
    | none => reader

/-- The coherence point of a device offset (R56): a home slice, or the banks of a core. -/
def coherencePoint (off : Nat) : Nat :=
  match bankCore off with
  | some core => 200 + core
  | none => homeSlice off

/-- A party that holds a record. -/
def Race.party (r : Race) : Option Party := match r.writer with
  | some p => some p
  | none => r.readers.head?

/-- The oldest of some records. -/
def oldestRace (rs : List (Nat × Race)) : Option Race :=
  rs.foldl (fun (best : Option Race) r => match best with
    | none => some r.2
    | some b => if r.2.born < b.born then some r.2 else some b) none

/-- Where new records of some lines find their coherence point's record store full (R73): the party that holds its oldest record.
(DESIGN CHOICE, log entry 79.) -/
def State.crowded (s : State) (lines : List Nat) : Option Party :=
  let new := lines.filter fun l => (look s.slices.races l).isNone
  new.findSome? fun l =>
    let same (k : Nat) : Bool := coherencePoint (k % 2 ^ 45) == coherencePoint (l % 2 ^ 45)
    let here := s.slices.races.filter fun r => same r.1
    if here.length + (new.filter same).length ≤ s.slices.recordRoom then none
    else (oldestRace here).bind Race.party

/-- A full coherence point asks the context of its oldest record to split its region (R73), once.
(DESIGN CHOICE, log entry 79.) -/
def State.askSplit (s : State) (p : Party) : State :=
  if p.dev = s.devNum then
    if s.pend.contains (.splitRequest p.ctx) then s else s.owe (.splitRequest p.ctx)
  else s.packet0 p.dev (.split p.ctx)

/-- A detected access recorded (R70): a region is counted once as a reader of a line. -/
def State.recordRace (s : State) (line : Nat) (p : Party) (store : Bool) : State :=
  let r := (look s.slices.races line).getD { born := s.slices.serial, writer := none, readers := [] }
  let r1 : Race :=
    if store then { r with writer := some p }
    else if r.readers.any fun x => sameCtx x p then r else { r with readers := r.readers ++ [p] }
  { s with slices := { s.slices with races := put s.slices.races line r1, serial := s.slices.serial + 1 } }

/-- A race record without the parties that `gone` names. -/
def Race.without (r : Race) (gone : Party → Bool) : Race :=
  { r with writer := r.writer.filter fun w => !gone w, readers := r.readers.filter fun x => !gone x }

/-- Every record of some parties cleared (R67, R86). -/
def State.clearParties (s : State) (gone : Party → Bool) : State :=
  { s with slices := { s.slices with races :=
      (s.slices.races.map fun p => (p.1, p.2.without gone)).filter fun p => p.2.writer.isSome || !p.2.readers.isEmpty } }

/-- Every record of a context of this device cleared (R67, R86). -/
def State.clearRaces (s : State) (ctx : Nat) : State := s.clearParties fun p => p.dev == s.devNum && p.ctx == ctx

/-- A write that later read-cache hits are judged against (R70).
(DEDUCED, log entry 80.) -/
def State.noteWrite (s : State) (line : Nat) (p : Party) : State :=
  { s with slices := { s.slices with writes := s.slices.writes ++ [(s.slices.serial, line, p)], serial := s.slices.serial + 1 } }

/-- The verdict on a read-cache hit of a line filled at a time (R70): a write by another context that performed after the fill.
(DEDUCED, log entry 80.) -/
def State.lateWrite (s : State) (line filled : Nat) (p : Party) : Verdict :=
  (s.slices.writes.find? fun w => decide (filled ≤ w.1) && w.2.1 == line && !sameCtx w.2.2 p).map fun w => (w.2.2, true)

/-- The writes of parties that are killed or lost count no more (R86). -/
def State.forgetWrites (s : State) (gone : Party → Bool) : State :=
  { s with slices := { s.slices with writes := s.slices.writes.filter fun w => !gone w.2.2 } }

/-! ## The reading context's own bundle -/

/-- The open bundle of a context, which an outcome ends (R107, R258). -/
def Ctx.openBundle (c : Ctx) : Option Word := (c.order.bundle.filter fun b => b.outcome.isNone).map (·.ident)

/-- The pending version of a line that the open bundle of the reading context made, if it holds one (R117, R258). -/
def State.ownPending (s : State) (line : Nat) (own : Option Word) : Option (List Byte) :=
  match s.version line with
  | none => none
  | some v => if own = some v.ident then v.pending else none

/-! ## Reading and writing at a coherence point -/

/-- Bytes as the context whose open bundle is `own` reads them: from its own pending version where it has one (R65, R258), else
the current version (R57). -/
def State.readBytes (s : State) (own : Option Word) (offs : List Nat) : List Byte :=
  offs.map fun o => match s.ownPending (o / 64 * 64) own with
    | some bs => (bs[o % 64]?).getD 0
    | none => s.byteAt o

/-- Bytes written as a non-bundled write (R116); those of the control block are register writes (R13). -/
def State.writeBytes (s : State) (bytes : List (Nat × Byte)) : State :=
  let mem := bytes.filter fun b => !inControl b.1
  let s1 := (linesOf (mem.map (·.1))).foldl (fun s l => s.nonBundled l) s
  let s2 := { s1 with mem := s1.mem.writeEach mem }
  s2.controlBytes (bytes.filter fun b => inControl b.1)

/-- A number written as `n` bytes by hardware on its own behalf: a non-bundled write as any other (R116). -/
def State.writeWord (s : State) (off n v : Nat) : State := s.writeBytes (((List.range n).map (off + ·)).zip (bytesOf n v))

/-- A landing of `n` bytes on the sync word at a device offset (R51): COUNT, then GEN for each whole TARGET, and the
WAIT bits of the seats it releases cleared.  A landing of zero bytes changes nothing. -/
def State.landSync (s : State) (off n : Nat) : State :=
  if n = 0 then s
  else
    let w := s.mem.readNat off 16
    let target := field w 0 32
    let count := (field w 32 32 + n) % 2 ^ 32
    let steps := if target = 0 then 0 else count / target
    let gen := (field w 64 32 + steps) % 2 ^ 32
    let rest := if target = 0 then count else count % target
    let w1 := setField (setField w 32 32 rest) 64 32 gen
    let released (id : SeatId) : Bool := s.running.any fun p =>
      p.1 == id && match p.2.stall with
        | some (.syncWord la g) => padOff id.core la == off && decide ((gen + 2 ^ 32 - g.toNat) % 2 ^ 32 < 2 ^ 31)
        | _ => false
    let w2 := match bankCore off with
      | none => w1
      | some core => [0, 1, 2, 3].foldl
          (fun w k => if released { core := core, seat := k } then setField w (96 + k) 1 0 else w) w1
    { s with mem := s.mem.writeNat off 16 w2 }

/-- An atomic on `w` bytes at a device offset (R263, R264): the old value, with the flags of the computation. -/
def State.atomicAt (s : State) (op : AtomOp) (off w b : Nat) : State × Nat × BitVec 7 :=
  let old := valOf (s.readBytes none ((List.range w).map (off + ·)))
  let r := op.apply w old b
  (if r.2.1 then s.writeBytes (((List.range w).map (off + ·)).zip (bytesOf w r.1)) else s, old, r.2.2)

/-- The flag of a flagged store (R94): an 8-byte word in HBM is incremented, a sync word receives the landing. -/
def State.flagAt (s : State) (sync : Bool) (off n : Nat) : State :=
  if sync then s.landSync off n else (s.atomicAt .add off 8 1).1

/-- Does a write touch a live task record (R139)? -/
def State.touchesRecord (s : State) (offs : List Nat) : Bool := (linesOf offs).any fun l => (s.liveAt l).isSome

end Sys2Proof.Machine
end

