-- ==== Sys2Proof/Machine/Ops.lean ====
section
/-! DEFINITION. The operations that every instruction shares: retiring, energy, stalling, the sync region's end, faults
and their reports, the settling of a context, trap entry and return, and the forced full save (R67, R187, R354 to R366,
R418, R419). -/

namespace Sys2Proof

/-- Energy of a retired form in pJ (R418).  k-steps, engine traffic and port traffic are charged where the work is
done, so the forms that only start them are charged nothing here.
(DEDUCED, log entry 56.) -/
def Form.energy : Form → Nat
  | .a op _ =>
    if op.toNat < 0x040 then 5
    else if op.toNat < 0x100 then 120
    else if 0x106 ≤ op.toNat ∧ op.toNat ≤ 0x10F then 0
    else 200
  | .i _ _ => 5
  | .l _ _ => 5
  | .m op _ =>
    if 0x04B ≤ op.toNat ∧ op.toNat ≤ 0x054 then 160
    else if op = 0x159 then 400
    else 20
  | .b _ _ => 5
  | .c op _ => if 0x071 ≤ op.toNat ∧ op.toNat ≤ 0x07E then 20 else 5
  | .e op _ =>
    if op.toNat ≤ 0x150 then 0
    else if op = 0x151 ∨ op = 0x152 ∨ op = 0x15D ∨ op = 0x15E then 5
    else 400
  | .p _ _ => 5
  | .pad => 0
  | .event => 0

/-- Does the cover of a CHKR pass over the form (R170, R243)? -/
def Form.keepsCover : Form → Bool
  | .pad => true
  | .p _ _ => true
  | _ => false

end Sys2Proof

namespace Sys2Proof.Machine

open Sys2Proof.Bits

/-! ## Energy (R189, R418, R419) -/

/-- Greatest PJ. -/
def maxPj : Nat := 2 ^ 48 - 1

/-- Charge a context (R418): PJ saturates and sets SAT, after which nothing changes.
(DEDUCED, log entry 56.) -/
def Ctx.charge (c : Ctx) (pj : Nat) : Ctx :=
  let e := c.csrs.energy.toNat
  if bit e 63 then c
  else
    let n := field e 0 48 + pj
    let v := if maxPj < n then 2 ^ 63 + maxPj else n
    c.mapCsrs fun r => { r with energy := BitVec.ofNat 64 v }

/-- Charge the context of a number, wherever it stands. -/
def State.chargeCtx (s : State) (n pj : Nat) : State := s.updCtx n fun c => c.charge pj

/-- PENERGY takes a context's PJ when it ends (R419); a port's context is of no partition. -/
def State.addPenergy (s : State) (c : Ctx) : State :=
  if isPort c.num then s else
  let e := c.csrs.energy.toNat
  let pj := if bit e 63 then maxPj else field e 0 48
  s.dcbSet (penergy c.part) (BitVec.ofNat 64 (min (2 ^ 64 - 1) ((s.dcbGet (penergy c.part)).toNat + pj)))

/-! ## Retiring and stalling -/

/-- A retired instruction's effect on the program counter, REPST and the rest of the seat (R187, R244, R358, R418). -/
def Ctx.retired (c : Ctx) (f : Form) : Ctx :=
  let c1 := { c.charge f.energy with lastPc := c.pc, stall := none, chainStall := c.chainStall.filter fun x => x.1 != c.pc, retires := c.retires + 1 }
  let c2 := if f.keepsCover then c1 else { c1 with chkr := [], coverLost := false, handle := 0, flagHandle := 0 }
  if c.repActive then
    let d := c.repDone + 1
    if c.repTotal ≤ d then
      { c2.mapCsrs (fun r => { r with repst := repstOf d c.repTotal false }) with
        pc := c.pc + 8 + BitVec.ofNat 32 f.size }
    else
      { c1.mapCsrs (fun r => { r with repst := repstOf d c.repTotal true }) with pc := c.pc }
  else { c2 with pc := c.pc + BitVec.ofNat 32 f.size }

/-- Instructions retired after the cause of the imprecise fault on its way (R358, R360). -/
def Ctx.skid (c : Ctx) : Nat := c.retires - c.faultAt

/-- Retire the instruction of the seat in focus.
(DEDUCED, log entry 58.) -/
def State.retire (s : State) (f : Form) : State := s.mapCx fun c => c.retired f

/-- Retire a form that moves the program counter itself (R245). -/
def State.retireTo (s : State) (f : Form) (pc : BitVec 32) : State :=
  s.mapCx fun c => { c.retired f with pc := pc }

/-- Stall the seat in focus: the instruction stays and runs again (R364). -/
def State.stallOn (s : State) (k : Stall) : State := s.mapCx fun c => { c with stall := some k }

/-- Stall on pv or nx (R152): an instruction's stall keeps the cycle at which it began, a yield between included. -/
def State.stallChain (s : State) (nx : Bool) (takes : Nat) : State :=
  s.mapCx fun c =>
    let began := match c.chainStall with
      | some (pc, n, t) => if pc = c.pc ∧ n = nx then t else c.cycles
      | none => c.cycles
    { c with stall := some (.chain nx takes), chainStall := some (c.pc, nx, began) }

/-- Has a chain stall lasted 65,536 cycles of the seat's running time (R152)? -/
def Ctx.chainOverdue (c : Ctx) : Bool := match c.chainStall with
  | some (pc, _, t) => pc == c.pc && decide (t + Config.chainStall ≤ c.cycles)
  | none => false

/-- The 16 bytes that start at an offset of a context's .text, zero past its end (R169).
(DEDUCED, log entry 58.) -/
def State.codeBits (s : State) (c : Ctx) (pc : Nat) : BitVec 128 :=
  bitsOfBytes (s.mem.read (c.code.base + pc) (min 16 (c.code.len - pc)))

/-- The offset of the instruction at or after an offset, past a PAD word (R170). -/
def State.skipPad (s : State) (c : Ctx) (pc : Nat) : Nat :=
  if (s.codeBits c pc).extractLsb' 0 32 = (0 : BitVec 32) then (pc / 32 + 1) * 32 else pc

/-! ## Fault reports (R359 to R361) -/

/-- What a report says beside the fault (R360). -/
structure Reporter where
  part : Nat
  tenant : Nat
  seat : SeatId
  lslot : Nat
  ctx : Nat
  record : Nat
  pc : Nat
  image : Nat
  igen : Nat
  tver : Nat
  deriving DecidableEq, Repr

/-- The reporter of a context. -/
def Ctx.reporter (c : Ctx) : Reporter :=
  { part := c.part, tenant := c.tenant, seat := c.seatAt, lslot := c.lslot, ctx := c.num, record := c.record,
    pc := c.pc.toNat, image := c.code.image, igen := c.code.igen, tver := c.code.tver }

/-- The 512 bits of a report (R360). -/
def reportBits (r : Reporter) (f : Flt) (precise replay : Bool) (skid : Nat) : Nat :=
  field f.code 0 8 + 2 ^ 8 * field f.sub 0 8 + 2 ^ 16 * ofBool precise + 2 ^ 17 * ofBool replay + 2 ^ 18 * field skid 0 6
  + 2 ^ 24 * field r.tenant 0 12 + 2 ^ 36 * field r.seat.core 0 11 + 2 ^ 47 * field r.seat.seat 0 2
  + 2 ^ 49 * field r.lslot 0 12 + 2 ^ 64 * field r.ctx 0 32 + 2 ^ 96 * field r.record 0 32 + 2 ^ 128 * field r.pc 0 32
  + 2 ^ 160 * field r.image 0 16 + 2 ^ 176 * field r.igen 0 12 + 2 ^ 192 * f.val.toNat + 2 ^ 256 * field f.aux1 0 32
  + 2 ^ 288 * field f.aux2 0 32 + 2 ^ 320 * field r.tver 0 32 + 2 ^ 352 * f.pc.toNat + 2 ^ 384 * field f.detail 0 32

/-- Write a report into a partition's ring (R361): TAIL rises after it, or DROPS when the ring is full or BASE is 0. -/
def State.report (s : State) (r : Reporter) (f : Flt) (precise replay : Bool) (skid : Nat) : State :=
  let base := s.dcbField (fltring r.part 0) 0 45
  let size := 2 ^ s.dcbField (fltring r.part 0) 45 5
  let head := s.dcbField (fltring r.part 1) 0 16
  let tail := s.dcbField (fltring r.part 1) 16 16
  if base = 0 ∨ (tail + 65536 - head) % 65536 = size then
    s.dcbSetField (fltring r.part 1) 32 16 (min 0xFFFF (s.dcbField (fltring r.part 1) 32 16 + 1))
  else
    let s1 := s.writeWord (base + 64 * (tail % size)) 64 (reportBits r f precise replay skid)
    s1.dcbSetField (fltring r.part 1) 16 16 (tail + 1)

/-! ## What the end of a context frees -/

/-- The devices that hold records of a context's open region, beside this one. -/
def State.farRecords (s : State) (c : Ctx) : List Nat :=
  ((c.order.lines.map fun l => l / 2 ^ 45).eraseDups).filter fun d => d != s.devNum

/-- A packet of a context to another device (R32, R393). -/
def State.packet (s : State) (c : Ctx) (dev : Nat) (body : PktBody) : State :=
  s.send (.packet { src := s.devNum, dst := dev, time := s.time, hop := 0, tenant := c.tenant, lslot := some c.lslot, cls := c.cls, tagOk := true, keyGen := s.worldGen c.tenant,
                    body := body })

/-- A launch entry counts a record that reached DONE or FAULTED (R165). -/
def State.countRecord (s : State) (slot : Nat) (faulted : Bool) : State :=
  let done := s.sched.launches.any fun l => l.slot == slot && l.remaining == 1
  let s1 := { s with sched := { s.sched with launches := s.sched.launches.map fun l =>
      if l.slot = slot then { l with remaining := l.remaining - 1, faulted := l.faulted || faulted } else l } }
  if done then s1.owe (.launchComplete slot) else s1

/-- A refusal that comes after a firing's end counts against its launch entry (R248). -/
def State.faultLaunch (s : State) (slot : Nat) : State :=
  { s with sched := { s.sched with launches := s.sched.launches.map fun l =>
      if l.slot = slot then { l with faulted := true } else l } }

/-- A context that leaves the device for good: its windows go back (R90, item 5), and the counts that peers keep of its batches are
forgotten there (R96). -/
def State.depart (s : State) (c : Ctx) : State :=
  let s1 := (c.order.streams.filter fun w => w.window && !s.lost w.dev).foldl (fun s w => s.packet c w.dev (.windowBack c.num w.strm)) s
  ((c.order.touched.flatten.eraseDups).filter fun d => d != s.devNum && !s.lost d).foldl (fun s d => s.packet c d (.batchesEnd c.num)) s1

/-- Ended contexts that do not stay leave the device, and a launch entry that waited for them completes (R165). -/
def State.cleanEnded (s : State) : State :=
  let gone := s.ended.filter fun c => !c.stays
  let s1 := gone.foldl (fun s c => s.depart c) { s with ended := s.ended.filter fun c => c.stays }
  ((gone.map (·.lslot)).eraseDups).foldl (fun s slot =>
    if s.sched.launches.any fun l => l.slot == slot && l.remaining == 0 then s.owe (.launchComplete slot) else s) s1

/-- The contexts kept for a record that is DONE or FAULTED: their energy is counted, and each ends (R367, R419). -/
def State.endKept (s : State) (p idx : Nat) : State :=
  let mine (c : Ctx) : Bool := c.dormant && c.part == p && c.record == idx
  let kept := s.ended.filter mine
  if kept.isEmpty then s
  else
    let s1 := kept.foldl (fun s c => s.addPenergy c) s
    ({ s1 with ended := s1.ended.map fun c => if mine c then { c with dormant := false, pv := [] } else c } : State).cleanEnded

/-- A live record that ends, DONE or FAULTED (R142, R165), and its contexts with it (R367). -/
def State.endRecord (s : State) (p idx : Nat) (st : RecState) : State :=
  if s.recLive p idx then
    let slot := s.recGet p idx 44 12
    ((s.setRecState p idx st).countRecord slot (st == .faulted)).endKept p idx
  else s

/-- Is no context on any seat of a core? -/
def State.coreIdle (s : State) (core : Nat) : Bool := !s.running.any fun p => p.1.core == core

/-- The partition that a core runs in the current slice (R384). -/
def State.scheduledAt (s : State) (core : Nat) : Option Nat := allParts.find? fun p => s.scheduled p && s.inRect p core

/-- REPLREQ set, and the board told (R5, R417). -/
def State.requestReplacement (s : State) : State := (s.dcbSetField devstat 0 1 1).send .replReq

/-- CORESOUT as it is (R417). -/
def State.countCores (s : State) : State := s.dcbSetField devstat 1 11 (allCores.filter fun c => !s.inService c).length

/-- A core removed from service (R5, R11, R416). -/
def State.removeCore (s : State) (core : Nat) : State :=
  let s1 := s.dcbSetField (oosmap (core / 64)) (core % 64) 1 1
  let s2 : State := { s1 with control := { s1.control with removing := s1.control.removing.filter (· != core) } }
  s2.countCores.requestReplacement

/-- A core that frees a seat, granules or footprint notes it to every cluster of its partition (R158); once its seats are idle, a
core that is to leave service leaves it (R416), and one whose slice has changed hands swaps its scratchpad (R385). -/
def State.noteFree (s : State) (core part : Nat) : State :=
  if s.coreIdle core ∧ s.control.removing.contains core then s.removeCore core
  else
    let s1 := if s.coreIdle core ∧ (s.scheduledAt core).isSome ∧ (s.core core).resident ≠ s.scheduledAt core
      then s.owe (.scratchpadSwap core) else s
    ((s.partCores part).map clusterOf).eraseDups.foldl (fun s u => s.owe (.freeNote core u)) s1

/-- A context's pending versions on this device's lines discarded, where its bundle had not reached the commit point
(R115). -/
def State.abortLocal (s : State) (ident : Word) : State :=
  (s.slices.versions.filter fun p => p.2.ident == ident && p.2.pending.isSome).foldl
    (fun s p => s.discardPending p.1) s

/-- The bundle record of an identity changed at its decider (R106). -/
def State.mapBrec (s : State) (ident : Word) (f : BRec → BRec) : State :=
  { s with slices := { s.slices with records := s.slices.records.map fun r => if r.ident = ident then f r else r } }

/-- Has a bundle's commit point passed (R112)? -/
def State.committed (s : State) (ident : Word) : Bool :=
  s.slices.records.any fun r => r.ident == ident && match r.state with
    | .committed _ => true
    | _ => false

/-- The slice of this device to which a companion's message goes, as a step owed; to another device it is sent, for world 0 (R397). -/
def State.tell (s : State) (c : Comp) (here : Instr) (away : Sent) : State :=
  if c.dev = s.devNum then s.owe here else s.answer 0 away

/-- Free the bundle records that no companion still has to acknowledge (R106). -/
def State.freeBrecs (s : State) : State :=
  { s with slices := { s.slices with records := s.slices.records.filter fun r =>
      match r.state with
      | .undecided => true
      | _ => !r.waiting.isEmpty } }

/-- Abort a bundle that has not committed (R112, R115): the decider records it, every companion that is not lost
is told. -/
def State.abortBundle (s : State) (b : Bundle) (reason : Nat) : State :=
  let live := b.comps.filter fun c => !s.lost c.dev
  let s1 := s.mapBrec b.ident fun r => { r with state := .aborted, reason := reason, waiting := live, since := s.time }
  (live.foldl (fun s c => s.tell c (.bundleAbort c.slice b.ident) (.abort c b.ident)) s1).freeBrecs

/-- The WAIT bit of a sync word whose waiting seat stops waiting (R50, R364). -/
def State.clearWait (s : State) (c : Ctx) : State :=
  match c.stall with
  | some (.syncWord la _) =>
    let off := padOff c.seatAt.core la
    { s with mem := s.mem.writeNat off 16 (setField (s.mem.readNat off 16) (96 + c.seatAt.seat) 1 0) }
  | _ => s

/-- Are lines of a command in flight (R31, R332, R362): landings sent, or lines asked of another device that have not landed? -/
def Cmd.inFlight (k : Cmd) : Bool := k.acks != 0 || ((k.asked || k.fetched) && !k.lands.isEmpty)

/-- A command that starts no read any more: its lines in flight still land (R31, R362). -/
def Cmd.drained (k : Cmd) : Cmd :=
  if (k.asked || k.fetched) && !k.lands.isEmpty then k else { k with lands := [], asked := false }

/-- A command that writes no status record. -/
def Cmd.noRecord (k : Cmd) : Cmd := { k with block := BitVec.ofNat 512 (setField k.block.toNat 288 17 0) }

/-- A copy command that starts no read any more and ends when its lines in flight have landed (R362): no status record is
written. -/
def Cmd.cut (k : Cmd) : Cmd := k.drained.noRecord

/-- A command that a fault ends: beside the landings already sent nothing of it lands (R35, R139). -/
def Cmd.halted (k : Cmd) : Cmd := { k.noRecord with lands := [], asked := false, fetched := false }

/-- The engine commands of an ended context that go on (R248, R362): all of them, or the collectives and the copies with
lines in flight. -/
def Ctx.goOn (c : Ctx) (all : Bool) : List VQ :=
  if all then c.queues
  else (c.queues.take 4).map (fun q => { q with cmds := (q.cmds.filter Cmd.inFlight).map Cmd.cut }) ++ c.queues.drop 4

/-- The group loads of a context of this device are served no more. -/
def State.forgetGroups (s : State) (ctx : Nat) : State :=
  { s with slices := { s.slices with serving := s.slices.serving.filter fun x => !(x.dev == s.devNum && x.ctx == ctx) } }

/-- A context whose firing has ended, without what ends with the firing (R67, R248, R362); `kept` for its record's next firing or its
chain's end. -/
def State.restOf (s : State) (c : Ctx) (all kept : Bool) : Ctx :=
  { c with
    queues := c.goOn all, dormant := kept,
    mx := Matrix.fresh, pv := if kept then c.pv else [], sendq := [[], []], fault := none, moreFaults := [], stall := none,
    order := { c.order with group := none, tokens := [], lines := [], conflict := none, awaits := [], late := [],
                            closes := [],
                            outs := c.order.outs.filter fun x => x.kind != .hit,
                            bundle := c.order.bundle.filter fun b => s.committed b.ident && b.outcome.isNone } }

/-- A mailbox that a context set, once its firing has ended (R338). -/
def Mailbox.left (m : Mailbox) (ctx : Nat) : Mailbox := { m with owner := m.owner.filter (· != ctx) }

/-- A context whose firing has ended: its records of races go, the matrix unit and the launch area are released where it
held them, its granules and footprint with it (R67, R320, R362).  What goes on of it is kept apart; unless its record keeps it, its energy is
counted (R419), and with nothing that goes on it leaves the device. -/
def State.release (s : State) (c : Ctx) (all kept : Bool) : State :=
  let rest := s.restOf c all kept
  let far := (s.farRecords c ++ c.order.awaits.map (·.dev)).eraseDups.filter fun d => d != s.devNum
  let s0 := far.foldl (fun s d => s.packet c d (.regionEnd c.num)) (s.clearWait c)
  let s1 := ((s0.dropCtx c.num).clearRaces c.num).forgetGroups c.num
  let s2 := s1.mapCores fun k => { k with
    mxOwner := if k.mxOwner = some c.num then none else k.mxOwner,
    fetches := k.fetches.filter fun f => f.ctx != c.num,
    arriving := k.arriving.filter fun x => x.ctx != c.num,
    arrivals := k.arrivals.filter fun a => a.ctx != c.num,
    mbrq := k.mbrq.left c.num,
    mbrp := k.mbrp.left c.num,
    boxes := k.boxes.map fun b => (b.1, b.2.1.left c.num, b.2.2.left c.num) }
  let s3 : State := if rest.stays then { s2 with ended := s2.ended ++ [rest] } else s2.depart c
  (if kept then s3 else s3.addPenergy c).noteFree c.seatAt.core c.part

/-- A context's open bundle settled as for a kill (R115, R362): one whose outcome is decided stands. -/
def State.settleBundle (s : State) (c : Ctx) : State :=
  match c.order.bundle with
  | none => s
  | some b => if s.committed b.ident || b.outcome.isSome then s else s.abortBundle b 0

/-- The members of a context's chain, itself alone for a single firing (R151, R362). -/
def State.members (s : State) (c : Ctx) : List Ctx :=
  if c.chain.isEmpty then [c] else c.chain.filterMap fun n => s.findCtx n

/-- Settle a context on a fatal fault (R362), with every member of its chain; the record becomes FAULTED. -/
def State.settle (s : State) (c : Ctx) : State :=
  let s1 := (s.members c).foldl (fun s d => (s.settleBundle d).release d false false) s
  s1.endRecord c.part c.record .faulted

/-- The imprecise faults on their way to a context, oldest first (R358), each with `retires` as its cause left it. -/
def Ctx.onTheWay (c : Ctx) : List (Flt × Nat) := (c.fault.map fun f => (f, c.faultAt)).toList ++ c.moreFaults

/-- The imprecise faults that a fatal fault of a context finds on their way, beside itself (R360): its own where it is precise, the later
ones where it is the first of them. -/
def Ctx.lateFaults (c : Ctx) (precise : Bool) : List (Flt × Nat) := if precise then c.onTheWay else c.moreFaults

/-- The reports of imprecise faults of a context that stops (R360). -/
def State.reportAll (s : State) (c : Ctx) (fs : List (Flt × Nat)) : State :=
  fs.foldl (fun s x => s.report c.reporter x.1 false false (min Config.maxSkid (c.retires - x.2))) s

/-- A fatal fault of a context (R362): the settlement, then its report, then those of the faults that were on their way to it and to the
other members of its chain (R360). -/
def State.fatal (s : State) (c : Ctx) (f : Flt) (precise : Bool) (skid : Nat) : State :=
  ((s.members c).filter fun d => d.num != c.num).foldl (fun s d => s.reportAll d d.onTheWay)
    (((s.settle c).report c.reporter f precise false skid).reportAll c (c.lateFaults precise))

/-! ## Raising faults -/

/-- A precise fault of the instruction in focus (R358, R362). -/
def State.fault (s : State) (code sub : Nat) (val : Word) (aux1 aux2 : Nat) : State :=
  match s.cx with
  | none => s
  | some c => s.fatal c { code := code, sub := sub, val := val, aux1 := aux1, aux2 := aux2, pc := c.pc, detail := 0 }
      true 0

/-- A decode fault (R171, R359): VAL holds the instruction's first 64 bits. -/
def State.decodeFault (s : State) (item : Nat) (bits : Word) : State := s.fault 8 item bits 0 0

/-- A precise access fault (R253, R359).
(DEDUCED, log entry 40.) -/
def State.accessFault (s : State) (sub : Nat) (addr : Word) (len : Nat) : State := s.fault 9 sub addr len 0

/-- A context fault (R359): VAL is the trap code. -/
def State.contextFault (s : State) (sub code : Nat) : State := s.fault 13 sub (BitVec.ofNat 64 code) 0 0

/-- An imprecise fault of a context (R358): the first one is kept, and its delivery is owed; a later one is reported with it (R360), and
one of a context that has ended is reported and counts against its launch entry (R248).  `after` is the number of instructions that the
context had retired when the cause had.
(DEDUCED, log entry 17.) -/
def State.imprecise (s : State) (ctx : Nat) (f : Flt) (after : Nat) : State :=
  match s.findCtx ctx with
  | none =>
    match s.ended.find? fun c => c.num == ctx with
    | some c => (s.faultLaunch c.lslot).reportAll c [(f, after)]
    | none => s
  | some c =>
    if c.fault.isSome then s.updCtx ctx fun c => { c with moreFaults := c.moreFaults ++ [(f, after)] }
    else (s.updCtx ctx fun c => { c with fault := some f, faultAt := after }).owe (.impreciseFaultDelivery ctx)

/-- The delivery of an imprecise fault (R358): SKID counts the instructions retired since its cause.
(DEDUCED, log entry 17.) -/
def State.deliverFault (s : State) (ctx : Nat) : State :=
  match s.findCtx ctx with
  | none => s
  | some c => match c.fault with
    | none => s
    | some f => s.fatal c f false (min Config.maxSkid c.skid)

/-- The memory-model exception of a context (R71, R72, R359). -/
def State.modelFault (s : State) (c : Ctx) (k : Conflict) (more : Nat) : State :=
  s.fatal c { code := 12, sub := 0, val := BitVec.ofNat 64 k.line,
              aux1 := ofBool k.mine + 2 * ofBool k.other + 4 * min 255 more + 2 ^ 10 * k.party.dev,
              aux2 := k.party.seat.core + 2 ^ 11 * k.party.seat.seat, pc := c.pc, detail := k.party.ctx } true 0

/-- The memory-model exception at a closing instruction (R71, R72). -/
def State.memoryModel (s : State) (k : Conflict) (more : Nat) : State :=
  match s.cx with
  | none => s
  | some c => s.modelFault c k more

/-! ## Sync regions (R67, R71, R73) -/

/-- The end of a context's sync region: the records go everywhere, and a new region begins (R67). -/
def State.clearRegionOf (s : State) (c : Ctx) : State :=
  let s1 := (s.farRecords c).foldl (fun s d => s.packet c d (.regionEnd c.num)) (s.clearRaces c.num)
  s1.updCtx c.num fun c => c.mapOrder fun o => { o with lines := [], conflict := none, more := 0 }

/-- The end of the sync region of the seat in focus (R67). -/
def State.clearRegion (s : State) : State :=
  match s.cx with
  | none => s
  | some c => s.clearRegionOf c

/-- An outstanding access that has performed or been refused: it leaves the order state and every token (R83, R90). -/
def Ctx.performed (c : Ctx) (strm dev seq : Nat) : Ctx :=
  let isIt (x : Out) : Bool := x.dev == dev && x.strm == strm && x.seq == seq
  c.mapOrder fun o =>
    { o with outs := dropFirst isIt o.outs,
             tokens := o.tokens.map fun t => { t with waits := dropFirst isIt t.waits } }

/-- Has an access of a context to this device still to perform (R318, R340, R343, R344)? -/
def State.ownOut (s : State) (c : Ctx) : Bool := c.order.outs.any fun x => x.dev == s.devNum

/-- Outstanding accesses that can still perform. -/
def State.unperformed (s : State) (outs : List Out) : List Out := outs.filter fun o => !s.lost o.dev

/-- Read-cache hits of a context whose verdicts have not come (R67, R70). -/
def State.hitsOut (s : State) (c : Ctx) : List Out := s.unperformed (c.order.outs.filter fun x => x.kind == .hit)

/-- Close the region of the seat in focus once every verdict has come, then go on; with a conflict of the region, or of the closing
instruction's own access, the memory-model exception is delivered instead, once every earlier access has performed: the first conflict
found, and the count of the rest (R67, R71, R72). -/
def State.closingWith (s : State) (own : List Conflict) (k : State → State) : State :=
  match s.cx with
  | none => s
  | some c =>
    let waits := !(s.unperformed (c.order.outs.filter fun x => x.kind != .hit)).isEmpty
    if !(s.hitsOut c).isEmpty then s.stallOn .perform
    else match c.order.conflict, own with
      | some x, xs => if waits then s.stallOn .perform else s.memoryModel x (c.order.more + xs.length)
      | none, x :: xs => if waits then s.stallOn .perform else s.memoryModel x xs.length
      | none, [] => k s.clearRegion

/-- Close the region of the seat in focus, then go on (R67, R71). -/
def State.closing (s : State) (k : State → State) : State := s.closingWith [] k

/-- Invalidate the whole read cache of a core, and what is on its way there (R54).
(DEDUCED, log entry 89.) -/
def State.flushReads (s : State) (core : Nat) : State :=
  if (s.core core).lines.isEmpty ∧ (s.core core).arriving.isEmpty then s
  else s.mapCore core fun k => { k with lines := [], arriving := [] }

/-- A store drops its lines of a device from a core's read cache, and from what is on its way there (R54).
(DEDUCED, log entry 89.) -/
def State.dropLines (s : State) (core dev : Nat) (lines : List Nat) : State :=
  if (s.core core).lines.isEmpty ∧ (s.core core).arriving.isEmpty then s
  else s.mapCore core fun k => { k with
    lines := k.lines.filter fun x => !(x.dev == dev && lines.contains x.line),
    arriving := k.arriving.filter fun x => !(x.dev == dev && lines.contains x.line) }

/-- An acquire of the seat in focus (R54, R76). -/
def State.acquire (s : State) : State := s.flushReads s.cur.core

/-! ## Lost peers (R78, R102 to R104) -/

/-- OR device bits into a failed-peer bitmap at an LA of a core (R104). -/
def State.orLostMap (s : State) (core la : Nat) (devs : List Nat) : State :=
  devs.foldl (fun s d =>
    let a := padOff core la + d / 8
    { s with mem := s.mem.set a ((s.mem.get a) ||| BitVec.ofNat 8 (2 ^ (d % 8))) }) s

/-- LINKSTAT after an operation that a lost peer ended (R103). -/
def linkstatAfter (w : Word) (op : Nat) (devs : List Nat) : Word :=
  let n := w.toNat
  let first := devs.foldl min (devs.headD 0)
  let n1 := if bit n 63 then n else setField n 0 12 first
  BitVec.ofNat 64 (setField (setField (setField n1 16 4 op) 32 16 (min 0xFFFF (field n 32 16 + 1))) 63 1 1)

/-- An operation of a context ended with PEER_LOST (R103, R104): the map, then LINKSTAT; both are held for a context that
has no seat. -/
def State.peerLost (s : State) (ctx op : Nat) (devs : List Nat) : State :=
  match s.running.find? fun p => p.2.num == ctx with
  | some p =>
    let la := field p.2.csrs.lostla.toNat 0 17
    let s1 := if la = 0 then s else s.orLostMap p.1.core la devs
    s1.updCtx ctx fun c => c.mapCsrs fun r => { r with linkstat := linkstatAfter r.linkstat op devs }
  | none => s.updCtx ctx fun c => c.mapOrder fun o => { o with heldLost := o.heldLost ++ [(op, devs)] }

/-- The lost devices among some outstanding accesses, lowest first. -/
def State.lostAmong (s : State) (outs : List Out) : List Nat :=
  sortNat ((outs.map (·.dev)).filter fun d => s.lost d).eraseDups

/-! ## Traps (R354 to R357) -/

/-- A field of TCAUSE. -/
def Ctx.tcauseBit (c : Ctx) (i : Nat) : Bool := bit c.csrs.tcause.toNat i

/-- TCAUSE.INTRAP. -/
def Ctx.inTrap (c : Ctx) : Bool := c.tcauseBit 17
/-- TCAUSE.INYIELD. -/
def Ctx.inYield (c : Ctx) : Bool := c.tcauseBit 18

/-- The handler that an image's trap table names for a code (R200, R354). -/
def Ctx.handler (c : Ctx) (code : Nat) : Option Nat := look c.code.traps code

/-- Set bits of TCAUSE. -/
def Ctx.setTcause (c : Ctx) (lo len v : Nat) : Ctx :=
  c.mapCsrs fun r => { r with tcause := BitVec.ofNat 64 (setField r.tcause.toNat lo len v) }

/-- A cover that an interruption takes away (R244). -/
def Ctx.loseCover (c : Ctx) : Ctx := if c.chkr.isEmpty then c else { c with coverLost := true, handle := 0, flagHandle := 0 }

/-- Abandon a yield handler (R366): the interrupted program counter and REPST come back. -/
def Ctx.leaveYield (c : Ctx) : Ctx :=
  if c.inYield then
    { (c.setTcause 18 1 0).mapCsrs (fun r => { r with repst := c.irepst }) with
      pc := c.ipc, chkr := c.yieldChkr, yieldChkr := [], coverLost := !c.yieldChkr.isEmpty, handle := 0, flagHandle := 0 }
  else c.loseCover

/-- The reply that the instruction at the program counter waits for. -/
def Ctx.await (c : Ctx) : Option Await := c.order.awaits.find? fun w => w.pc == c.pc

/-- The sequence number under which the verdict of an abandoned load is waited for. -/
def droppedSeq : Nat := 2 ^ 64

/-- An instruction of an abandoned yield handler waits for nothing any more (R366), and its reply gives it no value; the lines that it
records stay lines of the open region, which waits for their verdict (R67, R86). -/
def Ctx.dropAwait (c : Ctx) : Ctx :=
  c.mapOrder fun o =>
    let mine := o.awaits.filter fun w => w.pc == c.pc
    let gas := mine.flatMap (·.gas)
    { o with
      awaits := o.awaits.map fun w => if w.pc = c.pc then { w with pc := BitVec.allOnes 32 } else w,
      lines := o.lines ++ (gas.filter fun g => !o.lines.contains g).eraseDups,
      outs := o.outs ++ (mine.filter fun w => !w.gas.isEmpty && w.reply.isNone).map fun w =>
        { dev := w.dev, strm := 64, seq := droppedSeq, batch := 4, bundled := false, kind := .hit, sync := false, acq := false, bytes := [],
          hdls := [], pc := c.pc, born := c.retires, sent := w.since } }

/-- Must a context finish the instruction at its program counter before it can leave its seat (R364)?  A group load goes on
without it (R120), and a local stall is interrupted. -/
def Ctx.finishing (c : Ctx) : Bool := match c.await with
  | some w => !w.group
  | none => false

/-- The context on a seat. -/
def State.ctxAt (s : State) (id : SeatId) : Option Ctx := (s.running.find? fun p => p.1 == id).map (·.2)

/-- Change the context on a seat. -/
def State.mapSeat (s : State) (id : SeatId) (f : Ctx → Ctx) : State :=
  { s with
    cx := if s.cur = id then s.cx.map f else s.cx,
    seats := s.seats.map fun (p : SeatId × Ctx) => if p.1 = id then (p.1, f p.2) else p }

/-- The other members of a chain that still run are to leave with a member that leaves (R153). -/
def State.leaveOthers (s : State) (c : Ctx) : State :=
  (s.running.filter fun p => p.2.num != c.num && c.chain.contains p.2.num && p.2.phase == .running).foldl
    (fun s p => (s.mapSeat p.1 fun d => { d with phase := .leaving, forced := false }).owe (.copyQuiesceDone p.1)) s

/-- Start a forced full save of a seat (R366): the yield handler is abandoned, no copy starts a new read, and the save's
completion is owed.  An instruction that awaits a reply is finished first. -/
def State.forceSave (s : State) (id : SeatId) : State :=
  match s.ctxAt id with
  | none => s
  | some c =>
    let c1 := if c.inYield then c.dropAwait.leaveYield else c
    let s1 := if c.phase = .running then s.leaveOthers c else s
    if !c.inYield && c1.finishing then
      (s1.mapSeat id fun d => { d with phase := .leaving, forced := true })
    else
      ((s1.clearWait c).mapSeat id fun d =>
        { (if d.inYield then d.dropAwait.leaveYield else d.loseCover) with phase := .saving, forced := true, stall := none }).owe
        (.forcedSaveComplete id)

/-- Enter a handler of code 1 to 4 with the program counter already chosen (R355). -/
def Ctx.enterTrap (c : Ctx) (code handler : Nat) (tpc : BitVec 32) (val : Word) : Ctx :=
  let c0 := { c with trapChkr := if code = 3 then [] else c.chkr, chkr := [], coverLost := false, handle := 0, flagHandle := 0 }
  let rep := field c.csrs.repst.toNat 0 19
  { c0.mapCsrs (fun r =>
      { r with
        tcause := BitVec.ofNat 64 (setField (setField (setField (setField r.tcause.toNat 0 8 code) 8 8 0) 16 1 0) 17 1 1),
        tpc := BitVec.ofNat 64 tpc.toNat, tval := val,
        tinfo := BitVec.ofNat 64 (setField r.tinfo.toNat 0 19 rep),
        repst := BitVec.ofNat 64 (setField r.repst.toNat 18 1 0) }) with
    pc := BitVec.ofNat 32 handler, stall := none }

/-- TAKING A TRAP, the one operation of R355: a context fault inside a trap handler or with no handler, a forced full
save inside the yield handler, else the entry. -/
def State.trapEntry (s : State) (code : Nat) (val : Word) : State :=
  match s.cx with
  | none => s
  | some c =>
    if c.inTrap then s.contextFault 3 code
    else if c.inYield then s.forceSave s.cur
    else match c.handler code with
      | none => s.contextFault 4 code
      | some h => s.mapCx fun c => c.enterTrap code h (if code = 3 then c.pc + 8 else c.pc) val

/-- RETURNING FROM A TRAP (R356): an instruction that SKIP retires, or the last repetition of one, takes its cover with it (R244). -/
def State.trapReturn (s : State) : State :=
  match s.cx with
  | none => s
  | some c =>
    if !c.inTrap then s.contextFault 1 (field c.csrs.tcause.toNat 0 8)
    else
      let rep := field c.csrs.tinfo.toNat 0 19
      let code := field c.csrs.tcause.toNat 0 8
      let tpc := BitVec.ofNat 32 c.csrs.tpc.toNat
      let skip := c.tcauseBit 16 && (code == 2 || code == 4)
      let active := bit rep 18
      let rep' := if skip && active then setField rep 0 9 (field rep 0 9 + 1) else rep
      let gone := skip && (!active || decide (field rep 9 9 ≤ field rep' 0 9))
      let cover := if gone then [] else c.trapChkr
      let len := lengthOfLen ((s.codeBits c tpc.toNat).extractLsb' 0 2)
      let pc := if skip && !active then tpc + BitVec.ofNat 32 len else tpc
      s.mapCx fun c =>
        { (((c.charge 5).setTcause 17 1 0).setTcause 16 1 0).mapCsrs
            (fun r => { r with repst := BitVec.ofNat 64 (setField r.repst.toNat 0 19 rep') }) with
          pc := pc, lastPc := c.pc, chkr := cover, trapChkr := [], coverLost := !cover.isEmpty, handle := 0, flagHandle := 0,
          stall := none, retires := c.retires + 1 }

end Sys2Proof.Machine
end

