-- ==== Sys2Proof/Machine/Regions.lean ====
section
/-! DEFINITION. Region descriptors, the region check and the region cache (R15 to R27), and the check of CHKR with its
cover (R242 to R244). -/

namespace Sys2Proof

open Sys2Proof.Bits

/-- The offset that a format M form adds, with its DISP (R175). -/
def MOps.offset (o : MOps) : Word :=
  if o.len = 3 then sext 13 o.off + o.disp
  else if o.len = 2 then sext 36 (o.offhi ++ o.off : BitVec 36)
  else sext 13 o.off

end Sys2Proof

namespace Sys2Proof.Machine

open Sys2Proof.Bits

/-! ## Descriptors (R18 to R20) -/

/-- Fields of a descriptor (R18). -/
def dBase (d : Desc) : Nat := field d.toNat 0 64
/-- SIZE. -/
def dSize (d : Desc) : Nat := field d.toNat 64 45
/-- TENANT. -/
def dTenant (d : Desc) : Nat := field d.toNat 128 12
/-- STATE: 0 empty, 1 live, 2 moving, 3 revoked. -/
def dState (d : Desc) : Nat := field d.toNat 140 2
/-- GEN. -/
def dGen (d : Desc) : Nat := field d.toNat 148 12
/-- Device number of BASE. -/
def dDev (d : Desc) : Nat := field d.toNat 45 12
/-- Device offset of BASE. -/
def dOff (d : Desc) : Nat := field d.toNat 0 45

/-- INDEX of a handle (R20). -/
def hIndex (h : BitVec 32) : Nat := field h.toNat 0 20
/-- GEN of a handle (R20). -/
def hGen (h : BitVec 32) : Nat := field h.toNat 20 12

/-- The descriptor at an index (R20): one at or above RTCOUNT is taken as empty. -/
def State.descAt (s : State) (idx : Nat) : Desc :=
  if s.dcbField rtcount 0 21 ≤ idx then 0
  else BitVec.ofNat 256 (s.mem.readNat (s.dcbField rtbase 0 45 + 32 * idx) 32)

/-- Where the region of a handle of the image table begins, for the generation that its entry lists (R211); for another generation, where the
image was placed. -/
def State.regionNow (s : State) (i : Image) (h : BitVec 32) (placed : Nat) : Nat :=
  if s.listState i.id = 1 ∧ s.listGen i.id = i.code.igen ∧ hIndex h ≠ 0 then dOff (s.descAt (hIndex h)) else placed

/-- The code of an image, where CODE of its entry says that it lies (R169, R211). -/
def State.codeNow (s : State) (i : Image) : Code := { i.code with base := s.regionNow i (s.codeHandle i.id) i.code.base }

/-- Where the constant region of an image begins (R211). -/
def State.constNow (s : State) (i : Image) : Nat := s.regionNow i (s.constHandle i.id) i.constBase

/-- The capability that the runtime grants a context on a core (R299): that of a listed image of its tenant whose .cap names the core.
(DESIGN CHOICE, log entry 75.) -/
def State.grantAt (s : State) (tenant core : Nat) : Word :=
  ((s.sched.images.filter fun i => i.tenant == tenant && s.listState i.id == 1).findSome? fun i =>
    (i.grants.find? fun g => g.1 == core).map (·.2)).getD 0

/-- Is a descriptor malformed (R19)? -/
def State.malformed (s : State) (d : Desc) : Bool :=
  let n := d.toNat
  let size := dSize d
  let place := s.place (dDev d) (dOff d)
  dDev d == Config.aliasDev || field n 57 7 != 0 || field n 0 4 != 0
  || size % 16 != 0 || size < 16 || 2 ^ 44 < size
  || place == .control || place == .hole || decide (s.rangeEnd (dDev d) (dOff d) < dOff d + size)
  || (bit n 143 && bit n 144)
  || field n 109 19 != 0 || field n 145 3 != 0 || field n 160 32 != 0
  || (dGen d == 0 && dState d != 0)

/-- Access kinds of a region check (R24). -/
inductive Kind where
  | read | write | execute | readWrite
  deriving DecidableEq, Repr

/-- Does a descriptor permit a kind (R17, R24, R243)? -/
def dPermits (d : Desc) (k : Kind) : Bool :=
  match k with
  | .read => bit d.toNat 142
  | .write => bit d.toNat 143
  | .execute => bit d.toNat 144
  | .readWrite => bit d.toNat 142 && bit d.toNat 143

/-- The region check on a descriptor (R24): the reason of R25, or none where it passes.  `ga` carries no alias. -/
def State.regionTest (s : State) (tenant : Nat) (h : BitVec 32) (d : Desc) (ga len : Nat) (k : Kind) : Option Nat :=
  if hIndex h = 0 ∨ dState d = 0 ∨ s.malformed d then some 0
  else if hGen h ≠ dGen d then some 1
  else if dState d = 3 then some 2
  else if dState d = 2 then some 3
  else if tenant ≠ 0 ∧ tenant ≠ dTenant d then some 4
  else if !dPermits d k then some 5
  else if ga < dBase d ∨ dBase d + dSize d < ga + len then some 6
  else none

/-- The region check of an engine or a fabric port, which read the table itself (R31, R32). -/
def State.portCheck (s : State) (tenant : Nat) (h : BitVec 32) (ga len : Nat) (k : Kind) : Option Nat :=
  s.regionTest tenant h (s.descAt (hIndex h)) ga len k

/-- Replace the alias by this device's number (R9). -/
def State.resolve (s : State) (ga : Word) : Nat :=
  if field ga.toNat 45 12 = Config.aliasDev then setField ga.toNat 45 12 s.devNum else ga.toNat

/-! ## The region cache (R26, R27) -/

/-- A cached descriptor. -/
def State.cachedDesc (s : State) (core idx : Nat) : Option Desc := look (s.core core).rcache idx

/-- A descriptor put first in a core's cache, which holds 16 and drops the least recently used (R26). -/
def State.useDesc (s : State) (core idx : Nat) (d : Desc) : State :=
  s.mapCore core fun k =>
    { k with rcache := ((idx, d) :: k.rcache.filter fun p => p.1 != idx).take Config.regionCacheSize }

/-- The fetch in flight of a context for an index (R27). -/
def State.fetchOf (s : State) (core ctx idx : Nat) : Option Fetch :=
  (s.core core).fetches.find? fun f => f.ctx == ctx && f.index == idx

/-- Drop a fetch. -/
def State.dropFetch (s : State) (core ctx idx : Nat) : State :=
  s.mapCore core fun k => { k with fetches := k.fetches.filter fun f => !(f.ctx == ctx && f.index == idx) }

/-- Start a descriptor fetch: the bytes on the way are those that stand in HBM now (R27). -/
def State.startFetch (s : State) (core ctx idx tries : Nat) : State :=
  let s1 := (s.dropFetch core ctx idx).mapCore core fun k =>
    { k with fetches := k.fetches ++ [{ ctx := ctx, index := idx, desc := s.descAt idx, inval := none, tries := tries }] }
  s1.owe (.descriptorFetchReturn ctx)

/-- An overtaken fetch is made again at most twice; the third that is overtaken has failed, and counts as a fourth (R27). -/
def fetchFailed (f : Fetch) : Bool := decide (4 ≤ f.tries)

/-! ## Region faults (R25, R359, R363) -/

/-- A region fault of the context in focus (R25): MOVING and REFETCH are replayed (R363). -/
def State.regionFault (s : State) (reason : Nat) (ga : Word) (h : BitVec 32) (len : Nat) (cause : BitVec 32) : State :=
  match s.cx with
  | none => s
  | some c =>
    let f : Flt := { code := 10, sub := reason, val := ga, aux1 := h.toNat, aux2 := len, pc := cause, detail := 0 }
    if reason = 3 ∨ reason = 7 then (s.report c.reporter f true true 0).forceSave s.cur
    else s.fatal c f true 0

/-! ## CHKR (R242 to R244) -/

/-- What a CHKR at an offset covers (R243): the instruction, its repetitions and their steps. -/
structure Cover where
  target : Option Form
  reps : Nat
  ssa : Int
  ssb : Int
  soff : Int
  /-- The CHKR checks the flag of a flagged store: another CHKR that covers one follows it. -/
  flag : Bool
  deriving DecidableEq, Repr

/-- The form at an offset, if the bits decode (R169 to R171). -/
def State.formAt (s : State) (c : Ctx) (pc : Nat) : Option Form :=
  match decodeAt pc (s.codeBits c pc) with
  | .ok f => some f
  | .bad _ => none

/-- Is a form one of the three CHKRs? -/
def isChkr (f : Form) : Bool :=
  match f with
  | .a op _ => op == 0x031 || op == 0x032 || op == 0x033
  | _ => false

/-- Is a form a flagged store? -/
def isFlagged (f : Form) : Bool :=
  match f with
  | .m _ o => o.fl
  | _ => false

/-- The instruction that the CHKR at an offset covers, behind a REP or not. -/
def State.coveredBy (s : State) (c : Ctx) (pc : Nat) : Option Form :=
  let p1 := s.skipPad c (pc + 8)
  match s.formAt c p1 with
  | some (.p _ _) => s.formAt c (p1 + 8)
  | t => t

/-- The cover of the CHKR at an offset. -/
def State.coverOf (s : State) (c : Ctx) (pc : Nat) : Cover :=
  let p1 := s.skipPad c (pc + 8)
  match s.formAt c p1 with
  | some (.p _ p) =>
    { target := s.formAt c (p1 + 8), reps := p.count.toNat + 1, ssa := p.ssa.toInt, ssb := p.ssb.toInt,
      soff := p.soff.toInt, flag := false }
  | some f =>
    let isFlag := isChkr f && match s.coveredBy c p1 with
      | some g => isFlagged g
      | none => false
    { target := some f, reps := 1, ssa := 0, ssb := 0, soff := 0, flag := isFlag }
  | none => { target := none, reps := 1, ssa := 0, ssb := 0, soff := 0, flag := false }

/-- Is a form VLDS, VSTS, VLDX or VSTX, which are checked lane by lane (R243)?
(DEDUCED, log entry 40.)
(DEDUCED, log entry 41.) -/
def byLanes (f : Form) : Bool :=
  match f with
  | .m op _ => op == 0x04E || op == 0x04F || op == 0x053 || op == 0x054
  | _ => false

/-- Is a form an atomic that returns a value (R243, R263)? -/
def returnsOld (f : Form) : Bool :=
  match f with
  | .m op _ => decide (0x055 ≤ op.toNat) && decide (op.toNat ≤ 0x069)
  | _ => false

/-- The GA of lane `i` of a strided or indexed access (R260). -/
def Ctx.laneGa (c : Ctx) (op : BitVec 9) (o : MOps) (i : Nat) : Word :=
  let a := c.srcS [] o.sa + o.offset
  if op = 0x04E ∨ op = 0x053 then a + BitVec.ofNat 64 i * c.srcS [o.sa] o.sb
  else a + (BitVec.ofNat 32 (lane 32 (c.srcV [o.sa] o.sb) i)).signExtend 64

/-- A CHKR operand stepped (R187, R243): none where it leaves s0 to s63 or the immediate range. -/
def stepOperand (sp : Spec) (d : Int) : Option Spec :=
  if sp.isImm then
    let v := (immVal sp).toInt + d
    if -64 ≤ v ∧ v ≤ 63 then some (0x80 ||| (BitVec.ofInt 8 v &&& 0x7F)) else none
  else
    let v := (sp.toNat : Int) + d
    if 0 ≤ v ∧ v ≤ 63 then some (BitVec.ofInt 8 v) else none

/-- The GA and length of every check that repetition `j` needs, or none where an operand leaves its range (R243). -/
def Ctx.checksOf (c : Ctx) (o : AOps) (v : Cover) (j : Nat) : Option (List (Word × Nat)) :=
  let len := 64 * o.kb.toNat + o.ka.toNat
  match v.target with
  | some (.m op m) =>
    if byLanes (.m op m) then
      let m' := match (Form.m op m).stepped { count := 0, sd := 0, ssa := BitVec.ofInt 4 v.ssa, ssb := BitVec.ofInt 4 v.ssb,
                                              ssc := 0, soff := BitVec.ofInt 16 v.soff } j with
        | .m _ m' => m'
        | _ => m
      some ((List.range 32).map fun i => (c.laneGa op m' i, 4))
    else match stepOperand o.sa (j * v.ssa), stepOperand o.sb (j * v.ssb) with
      | some a, some b => some [(c.srcS [] a + c.srcS [a] b + m.offset + BitVec.ofInt 64 (j * v.soff), len)]
      | _, _ => none
  | _ => some [(c.srcS [] o.sa + c.srcS [o.sa] o.sb, len)]

/-- The registers that the check of a repetition reads (R243): those that CHKR names, stepped, and in place of the second for a form that is
checked by lanes its own. -/
def checkRegs (o : AOps) (v : Cover) (j : Nat) : List Spec :=
  let named := [stepOperand o.sa (j * v.ssa), stepOperand o.sb (j * v.ssb)].filterMap id ++ [o.sc]
  match v.target with
  | some (.m op m) =>
    if byLanes (.m op m) then
      match (Form.m op m).stepped { count := 0, sd := 0, ssa := BitVec.ofInt 4 v.ssa, ssb := BitVec.ofInt 4 v.ssb, ssc := 0,
                                    soff := BitVec.ofInt 16 v.soff } j with
      | .m _ m' => [m'.sa, m'.sb, o.sc]
      | _ => named
    else named
  | _ => named

/-- The first failing check of the repetitions from `j` on (R243): its reason, the GA as R243 forms it, and the length. -/
def State.firstFail (s : State) (c : Ctx) (o : AOps) (v : Cover) (k : Kind) (h : BitVec 32) (d : Desc) :
    Nat → Nat → Option (Nat × Word × Nat)
  | 0, _ => none
  | n + 1, j =>
    let len := 64 * o.kb.toNat + o.ka.toNat
    match c.checksOf o v j with
    | none => some (6, 0, len)
    | some cs =>
      match cs.findSome? fun x =>
          (s.regionTest c.tenant h d (s.resolve x.1) x.2 k).map fun r => (r, x.1, x.2) with
      | some e => some e
      | none => s.firstFail c o v k h d n (j + 1)

/-- The check of the CHKR at an offset for the repetitions from `j` on: a register that is still owed is waited for (R97, R318); the
descriptor from the cache, or a fetch and a stall (R27); a failure is the region fault (R243); on a pass, `k` continues.
(DEDUCED, log entry 39.) -/
def State.chkrCheck (s : State) (c : Ctx) (at' : BitVec 32) (o : AOps) (kind : Kind) (j : Nat) (k : State → State) :
    State :=
  let v := s.coverOf c at'.toNat
  let h : BitVec 32 := (c.srcS [o.sa, o.sb] o.sc).setWidth 32
  let idx := hIndex h
  let core := s.cur.core
  let kind' := if kind = .write ∧ (v.target.map returnsOld) = some true ∧ !v.flag then .readWrite else kind
  let judge (s : State) (d : Desc) : State :=
    let isM := match v.target with
      | some (.m _ _) => true
      | _ => false
    match s.firstFail c o v kind' h d (if isM then v.reps - j else 1) (if isM then j else 0) with
    | some (r, ga, len) => s.regionFault r ga h len at'
    | none => k s
  if ((List.range (v.reps - j)).flatMap fun i => checkRegs o v (j + i)).any fun sp => c.order.owed.contains sp then s.stallOn .owed
  else match s.fetchOf core c.num idx with
  | some f =>
    if fetchFailed f then
      (s.dropFetch core c.num idx).regionFault 7
        (match c.checksOf o v j with
          | some (x :: _) => x.1
          | _ => 0) h (64 * o.kb.toNat + o.ka.toNat) at'
    else s.stallOn (.descriptor idx)
  | none => match s.cachedDesc core idx with
    | some d => judge (s.useDesc core idx d) d
    | none => (s.startFetch core c.num idx 1).stallOn (.descriptor idx)

/-- The cover in force that a CHKR leaves so: that of the flag's CHKR directly before it (R243); any other has covered this CHKR and
nothing more. -/
def State.flagCover (s : State) (c : Ctx) : List (BitVec 32) := c.chkr.filter fun a => (s.coverOf c a.toNat).flag

/-- The cover that a passed CHKR gives (R244): its address and its handle, a flag's handle kept apart. -/
def Ctx.cover (c : Ctx) (at' : BitVec 32) (h : BitVec 32) (flag : Bool) (before : List (BitVec 32)) (fh : BitVec 32) :
    Ctx :=
  if flag then { c with chkr := [at'], coverLost := false, flagHandle := h, handle := 0 }
  else { c with chkr := before ++ [at'], coverLost := false, handle := h, flagHandle := fh }

/-- CHKR.R, CHKR.W and CHKR.X (R242, R243).
(DEDUCED, log entry 39.) -/
def State.chkr (s : State) (op : BitVec 9) (o : AOps) (kind : Kind) : State :=
  match s.cx with
  | none => s
  | some c =>
    let v := s.coverOf c c.pc.toNat
    let h : BitVec 32 := (c.srcS [o.sa, o.sb] o.sc).setWidth 32
    s.chkrCheck c c.pc o kind 0 fun s =>
      let before := s.flagCover c
      (s.retire (.a op o)).mapCx fun d => d.cover c.pc h v.flag before (if before.isEmpty then 0 else c.flagHandle)

/-- The kind of a CHKR by its OP value. -/
def chkrKind (op : BitVec 9) : Kind := if op = 0x031 then .read else if op = 0x032 then .write else .execute

/-- The checks of R244 made again after an interruption, oldest first, for the repetitions not yet issued; with the cover
back, `k` continues. -/
def State.recheck (s : State) (k : State → State) : State :=
  match s.cx with
  | none => s
  | some c =>
    if !c.coverLost then k s
    else
      let one (at' : BitVec 32) (k : State → State) (s : State) : State :=
        match s.formAt c at'.toNat with
        | some (.a op o) =>
          if isChkr (.a op o) then
            let v := s.coverOf c at'.toNat
            let h : BitVec 32 := (c.srcS [o.sa, o.sb] o.sc).setWidth 32
            s.chkrCheck c at' o (chkrKind op) (if c.repActive then c.repDone else 0) fun s =>
              k (s.mapCx fun d => if v.flag then { d with flagHandle := h } else { d with handle := h })
          else k s
        | _ => k s
      match c.chkr with
      | [a] => one a (fun s => k (s.mapCx fun d => { d with coverLost := false })) s
      | a :: b :: _ => one a (one b (fun s => k (s.mapCx fun d => { d with coverLost := false }))) s
      | [] => k (s.mapCx fun d => { d with coverLost := false })

end Sys2Proof.Machine
end

