-- ==== Sys2Proof/Machine/Issue.lean ====
section
/-! DEFINITION. What every instruction meets before its own effect: the decode tests that depend on the context, the
predicate, unfinished results, and the neighbour channels (R97, R152, R171, R184, R185, R188, R318). -/

namespace Sys2Proof

open Sys2Proof.Bits

/-- Does a role read its specifier? -/
def Role.reads (r : Role) : Bool :=
  match r with
  | .vBoth | .sBoth | .sSrc | .sImm | .vSrc | .bcast | .sOnly | .sOnlyImm | .sHandle => true
  | _ => false

/-- Does a role write its specifier? -/
def Role.writes (r : Role) : Bool :=
  match r with
  | .sDst | .vDst | .vBoth | .sBoth | .mDst => true
  | _ => false

/-- How many source positions name pv (R185). -/
def Form.pvCount (f : Form) : Nat := (f.positions.filter fun p => p.1.reads && p.2 == specPv).length

/-- How many destinations name nx (R185). -/
def Form.nxCount (f : Form) : Nat := (f.positions.filter fun p => p.1.writes && p.2 == specNx).length

/-- The registers that a form reads without naming them: WAITV s1 to s8 (R148), ECALL s1 to s4 (R348). -/
def Form.implied (f : Form) (sp : Spec) : Bool :=
  match f with
  | .m op _ => op == 0x078 && decide (1 ≤ sp.toNat) && decide (sp.toNat ≤ 8)
  | .c op _ => op == 0x18A && decide (1 ≤ sp.toNat) && decide (sp.toNat ≤ 4)
  | _ => false

/-- Does a form need the value that a register is still owed: does it read the register, or, with lanes that keep it, write it as a
vector (R97, R270, R280), or fill nx after it (R152)? -/
def Form.uses (f : Form) (sp : Spec) : Bool :=
  (f.positions.any fun p => (p.1.reads || p.1 == .vDst || (p.1.writes && sp == specNx)) && p.2 == sp) || f.implied sp

/-- The CSR numbers of R188. -/
def csrListed (n : Nat) : Bool := n ≤ 0x00A || n == 0x010 || n == 0x011 || (0x020 ≤ n && n ≤ 0x023) || n == 0x030 || n == 0x031

/-- Does a CSR have an RW or W1C field (R188)? -/
def csrWritable (n : Nat) : Bool :=
  n == 0x004 || n == 0x005 || n == 0x006 || n == 0x008 || n == 0x009 || n == 0x010 || n == 0x011 || n == 0x020

/-- Item 8 of R171: a CSR number that R188 does not list, a write to a CSR without writable fields, or a write of
YBUDGET or MXCAP by a context whose tenant is not 0. -/
def Form.csrRefused (f : Form) (tenant : Nat) : Bool :=
  match f with
  | .c op o =>
    let n := o.imm.toNat
    if op = 0x180 then !csrListed n
    else if op = 0x181 ∨ op = 0x182 ∨ op = 0x183 then
      !csrListed n || (op == 0x181 && !csrWritable n) || ((n == 0x006 || n == 0x011) && tenant != 0)
    else false
  | _ => false

end Sys2Proof

namespace Sys2Proof.Machine

open Sys2Proof.Bits

/-- The lowest item of R171 that an instruction meets in this context, or none. -/
def Ctx.decodeItem (c : Ctx) (f : Form) : Option Nat :=
  match f.staticItem with
  | some k => some k
  | none =>
    if !f.allocated c.sRegs c.vRegs (decide (1 < c.chainLen)) then some 7
    else if f.csrRefused c.tenant then some 8
    else none

/-- Is the predicate of an instruction false as a whole (R184)? -/
def Ctx.predFalse (c : Ctx) (f : Form) : Bool :=
  !f.lanePredicated && !c.predTrue f.pred.1 f.pred.2

/-- Is the successor's channel full (R152), its firing ended or not?  Entries that a stalled reader takes as they come do not count (R185). -/
def State.nxFull (s : State) (c : Ctx) : Bool :=
  match c.nextMember with
  | none => false
  | some n => match s.findAny n with
    | none => false
    | some d =>
      let taken := match d.stall with
        | some (.chain false k) => k
        | _ => 0
      decide (taken + 2 ≤ d.pv.length)

/-- Drop the pv entries that an instruction consumed (R185). -/
def Ctx.consume (c : Ctx) (f : Form) : Ctx := { c with pv := c.pv.drop f.pvCount }

/-- Retire an instruction that took effect: its pv entries are consumed. -/
def State.done (s : State) (f : Form) : State := (s.mapCx fun c => c.consume f).retire f

/-- Issue an instruction: decode tests first, then the predicate, then what it must wait for, then its effect. -/
def State.issue (s : State) (f : Form) (effect : Ctx → State → State) : State :=
  match s.cx with
  | none => s
  | some c =>
    match c.decodeItem f with
    | some k => s.decodeFault k (f.bits.setWidth 64)
    | none =>
      if c.predFalse f then s.retire f
      else if c.order.owed.any fun sp => f.uses sp then s.stallOn .owed
      else if c.pv.length < f.pvCount then s.stallChain false f.pvCount
      else if f.nxCount ≠ 0 ∧ s.nxFull c then s.stallChain true f.pvCount
      else effect c s

/-- The outcome of an instruction. -/
abbrev Result := Host.Outcome State Fault Refusal

/-- An instruction's meaning: a next state. -/
def State.run (s : State) (f : Form) (effect : Ctx → State → State) : Result := .next (s.issue f effect)

/-- An instruction whose effect is one scalar result. -/
def State.scalar (s : State) (f : Form) (dst : Spec) (v : Ctx → Word) : Result :=
  s.run f fun c s => (s.putScalar dst (v c)).done f

end Sys2Proof.Machine
end

