-- ==== Sys2Proof/Machine/Bundles.lean ====
section
/-! DEFINITION. Bundles and read groups: prepares, the close protocol's parts at companions and decider, fate questions,
group loads at a home slice, and the instructions that open and close them (R105 to R123, R271, R352, R353). -/

namespace Sys2Proof.Machine

open Sys2Proof.Bits

/-! ## At a home slice -/

/-- Issuing device of a bundle identity (R105). -/
def identDev (x : Word) : Nat := field x.toNat 0 12
/-- SEQ of a bundle identity (R105). -/
def identSeq (x : Word) : Nat := field x.toNat 32 24
/-- Decider slice of a bundle identity (R106). -/
def identDecider (x : Word) : Nat := identSeq x % 128

/-- The prior version of another line of the slice with the oldest commit stamp (R58). -/
def State.oldestPrior (s : State) (slice line : Nat) : Option Nat :=
  let cands := (s.slices.versions.filter fun p => homeSlice p.1 == slice && p.1 != line).filterMap fun p =>
    p.2.prior.map fun x => (p.1, x.2)
  (cands.foldl (fun (best : Option (Nat × Stamp)) p => match best with
    | none => some p
    | some b => if p.2.lt b.2 then some p else some b) none).map (·.1)

/-- The prior version of a line discarded to make room (R58, R111). -/
def State.discardPrior (s : State) (line : Nat) : State :=
  match s.version line with
  | none => s
  | some v =>
    let h := homeSlice line
    let hz := if v.pending.isNone then put s.slices.horizon h (Stamp.max (s.horizon h) v.stamp) else s.slices.horizon
    let s1 := { s with slices := { s.slices with horizon := hz } }
    let s2 := s1.setVersion line { v with prior := none }
    s2.dcbSetField (tarnstat h) 32 16 (min 0xFFFF (s2.dcbField (tarnstat h) 32 16 + 1))

/-- Room for one more entry in a slice's tarn (R58): none where a prepare must be refused. -/
def State.tarnRoom (s : State) (slice line : Nat) : Option State :=
  if s.tarnUsed slice < Config.tarnEntries then some s
  else (s.oldestPrior slice line).map fun l => s.discardPrior l

/-- Bytes merged into a line's 64. -/
def mergeLine (line : Nat) (old : List Byte) (bytes : List (Nat × Byte)) : List Byte :=
  bytes.foldl (fun bs b => setAt bs (b.1 - line) b.2) old

/-- The prepare of one line (R110): the reason of R114 where it is refused. -/
def State.prepareLine (s : State) (line : Nat) (ident : Word) (comps : List Comp) (dev ctx : Nat)
    (bytes : List (Nat × Byte)) : State × Option Nat :=
  let h := homeSlice line
  let fresh : State × Option Nat :=
    match s.tarnRoom h line with
    | none =>
      let s1 := s.dcbSetField (tarnstat h) 48 16 (min 0xFFFF (s.dcbField (tarnstat h) 48 16 + 1))
      (s1.doom h ident 2, some 2)
    | some s1 =>
      let stamp := s1.currentStamp line
      let prior := match s1.version line with
        | some v => v.prior
        | none => none
      let p := max s1.time (max (s1.floor h + 1) (stamp.t + 1))
      (s1.setVersion line
        { stamp := stamp, prior := prior, pending := some (mergeLine line (s1.mem.read line 64) bytes), ident := ident,
          ptime := p, comps := comps, dev := dev, ctx := ctx, finalSeen := false }, none)
  match s.version line with
  | none => fresh
  | some v => match v.pending with
    | none => fresh
    | some old =>
      if v.ident = ident then
        (s.setVersion line { v with pending := some (mergeLine line old bytes), comps := comps }, none)
      else (s.doom h ident 1, some 1)

/-- The prepares of a bundled store's lines here; the first refusal is answered. -/
def State.prepareAll (s : State) (ident : Word) (comps : List Comp) (dev ctx : Nat) (bytes : List (Nat × Byte)) :
    State × Option (Nat × Nat) :=
  (linesOf (bytes.map (·.1))).foldl (fun (acc : State × Option (Nat × Nat)) l =>
    let r := acc.1.prepareLine l ident comps dev ctx (bytes.filter fun b => b.1 / 64 * 64 == l)
    (r.1, match acc.2 with
      | some x => some x
      | none => r.2.map fun reason => (reason, homeSlice l))) (s, none)

/-- The lines of a slice that hold a bundle pending. -/
def State.pendingLines (s : State) (slice : Nat) (ident : Word) : List (Nat × Version) :=
  s.slices.versions.filter fun p => homeSlice p.1 == slice && p.2.ident == ident && p.2.pending.isSome

/-- A slice remembers a bundle's outcome (R118, R352). -/
def State.noteFate (s : State) (slice : Nat) (ident : Word) (f : Fate) : State :=
  { s with slices := { s.slices with
      fates := (slice, ident, f) :: s.slices.fates.filter fun x => !(x.1 == slice && x.2.1 == ident) } }

/-- What a slice knows of a bundle's outcome. -/
def State.knownFate (s : State) (slice : Nat) (ident : Word) : Option Fate :=
  (s.slices.fates.find? fun x => x.1 == slice && x.2.1 == ident).map fun x => x.2.2

/-- The lines that a context of this device has stored to go from the read cache of its core once they may be filled anew (R54, R65). -/
def State.dropOwn (s : State) (ctx dev : Nat) (lines : List Nat) : State :=
  match s.findAny ctx with
  | some c => s.dropLines c.seatAt.core dev lines
  | none => s

/-- A bundle's version of one line installed with stamp C (R111): the old prior goes, the old current becomes prior; the core of the
context that made it reads it anew (R54, R65). -/
def State.installLine (s : State) (line : Nat) (c : Stamp) : State :=
  match s.version line with
  | none => s
  | some v => match v.pending with
    | none => s
    | some bs =>
      let old := s.mem.read line 64
      let s1 := { s with mem := s.mem.write line bs }
      let s2 := if v.dev = s.devNum then s1.dropOwn v.ctx s.devNum [line] else s1
      s2.setVersion line { v with pending := none, prior := some (old, v.stamp), stamp := c }

/-- A bundle installed at a slice (R111, R352). -/
def State.installAt (s : State) (slice : Nat) (ident : Word) (c : Stamp) : State :=
  ((s.pendingLines slice ident).foldl (fun s p => s.installLine p.1 c) s).noteFate slice ident (.committed c)

/-- A bundle's pending versions discarded at a slice (R111, R352). -/
def State.abortAt (s : State) (slice : Nat) (ident : Word) : State :=
  let s1 := ((s.pendingLines slice ident).foldl (fun s p => s.discardPending p.1) s).noteFate slice ident .aborted
  { s1 with slices := { s1.slices with dooms := s1.slices.dooms.filter fun d => !(d.1 == slice && d.2.1 == ident) } }

/-- A companion's answer to FINAL (R112): the greatest of its floor and its prepare times, or the reason of a refused or
doomed line; the full companion list is kept (R121). -/
def State.finalAt (s : State) (slice : Nat) (ident : Word) (comps : List Comp) : State × FinalAns :=
  let mine := s.pendingLines slice ident
  let vs := s.slices.versions.map fun p =>
    if homeSlice p.1 = slice ∧ p.2.ident = ident ∧ p.2.pending.isSome then (p.1, { p.2 with comps := comps, finalSeen := true })
    else p
  let s1 := { s with slices := { s.slices with versions := vs } }
  match s.slices.dooms.find? fun d => d.1 == slice && d.2.1 == ident with
  | some d => (s1, .no d.2.2)
  | none => (s1, .ok (mine.foldl (fun m p => max m p.2.ptime) (s.floor slice)))

/-- The decider's answer to a fate question (R118): UNDECIDED raises the query floor.
(DESIGN CHOICE, log entry 68.) -/
def State.askDecider (s : State) (ident : Word) (t : Nat) : State × Fate :=
  match s.slices.records.find? fun r => r.ident == ident with
  | none => (s, match (s.slices.fates.find? fun x => x.2.1 == ident).map fun x => x.2.2 with
      | some f => f
      | none => .aborted)
  | some r => match r.state with
    | .undecided => (s.mapBrec ident fun r => { r with qfloor := max r.qfloor t }, .undecided)
    | f => (s, f)

/-- The commit point (R112): the record becomes COMMITTED with C above every time collected. -/
def State.commitPoint (s : State) (ident : Word) (m : Nat) : State × Option Stamp :=
  match s.slices.records.find? fun r => r.ident == ident with
  | none => (s, none)
  | some r =>
    let c : Stamp := { t := max s.time (max (m + 1) (r.qfloor + 1)), d := s.devNum }
    (s.mapBrec ident fun r => { r with state := .committed c }, some c)

/-! ## Group loads (R117, R118) -/

/-- What a home slice answers to a group load of one line: bytes with the cause of loss, or the bundle whose fate must be
asked first. -/
inductive GroupAns where
  | bytes (bs : List Byte) (lost : Option Nat)
  | ask (ident : Word) (comp : Comp)
  deriving DecidableEq, Repr

/-- The companion that a slice asks (R118): on this device first, then by fewest hops, first in the list.
(DESIGN CHOICE, log entry 67.) -/
def State.nearest (s : State) (comps : List Comp) : Option Comp :=
  ((comps.filter fun c => !s.lost c.dev).foldl (fun (best : Option Comp) c => match best with
    | none => some c
    | some b => if s.hopsTo c.dev < s.hopsTo b.dev then some c else some b) none)

/-- The service of a line that no undecided question stands in the way of (R117). -/
def State.serveVersion (s : State) (line t : Nat) : List Byte × Option Nat :=
  let cur := s.mem.read line 64
  match s.version line with
  | none => if (s.horizon (homeSlice line)).t ≤ t then (cur, none) else (cur, some 2)
  | some v =>
    if v.stamp.t ≤ t then (cur, none)
    else match v.prior with
      | some p => if p.2.t ≤ t then (p.1, none) else (p.1, some 1)
      | none => (cur, some 1)

/-- Has a slice been told UNDECIDED of a bundle for a snapshot (R118)? -/
def State.toldUndecided (s : State) (slice : Nat) (ident : Word) (t : Nat) : Bool :=
  s.slices.questions.any fun q => q.slice == slice && q.ident == ident && q.t == t && q.told

/-- A fate asked within this device: by a companion's knowledge or by the decider (R118, R353); none where the question
must leave the device.  A companion that neither holds the bundle pending nor knows its outcome passes the question on to the decider.
(DESIGN CHOICE, log entry 90.) -/
def State.fateHere (s : State) (slice : Nat) (v : Version) (t : Nat) : State × (Fate ⊕ Comp) :=
  let dev := identDev v.ident
  let decider (s : State) : State × (Fate ⊕ Comp) :=
    if dev = s.devNum then let r := s.askDecider v.ident t; (r.1, .inl r.2)
    else (s, .inr { dev := dev, slice := identDecider v.ident })
  match s.nearest v.comps with
  | none => decider s
  | some c =>
    if c.dev ≠ s.devNum then (s, .inr c)
    else if c.slice = slice then decider s
    else if (s.pendingLines c.slice v.ident).isEmpty then
      match s.knownFate c.slice v.ident with
      | some f => (s, .inl f)
      | none => decider s
    else decider s

/-- The group load of one line at its home slice (R117), which recalls the line from a unit that holds it (R81). -/
def State.groupLine (s : State) (line : Nat) (q : Snapshot) : State × GroupAns :=
  let h := homeSlice line
  let t := q.t
  let s0 := { s with slices := { s.slices with
    floors := put s.slices.floors h (max (s.floor h) t), holders := drop s.slices.holders line } }
  let serve (s : State) : State × GroupAns := let r := s.serveVersion line t; (s, .bytes r.1 r.2)
  match s0.version line with
  | none => serve s0
  | some v => match v.pending with
    | none => serve s0
    | some bs =>
      if q.own = some v.ident then (s0, .bytes bs none)
      else if t < v.ptime ∨ s0.toldUndecided h v.ident t then serve s0
      else match s0.fateHere h v t with
        | (s1, .inl (.committed c)) => serve (s1.installAt h v.ident c)
        | (s1, .inl .aborted) => serve (s1.abortAt h v.ident)
        | (s1, .inl .undecided) => serve s1
        | (s1, .inr c) => (s1, .ask v.ident c)

/-- A question sent out of the device once (R118). -/
def State.askAway (s : State) (slice : Nat) (ident : Word) (t : Nat) (c : Comp) : State :=
  if s.slices.questions.any fun q => q.slice == slice && q.ident == ident && q.t == t then s
  else
    let q : Question := { slice := slice, ident := ident, t := t, told := false, asked := c, since := s.time }
    let s1 := { s with slices := { s.slices with questions := s.slices.questions ++ [q] } }
    s1.answer 0 (.question c ident t { dev := s.devNum, slice := slice })

/-- The group loads of several lines, in order: the bytes of each and the first loss, or none while a question is out. -/
def State.groupLines (s : State) (q : Snapshot) : List Nat → State × Option (List (Nat × List Byte) × Option Nat) × List Nat
  | [] => (s, some ([], none), [])
  | l :: ls =>
    match s.groupLine l q with
    | (s1, .ask ident c) => (s1.askAway (homeSlice l) ident q.t c, none, [c.dev])
    | (s1, .bytes bs lost) =>
      match s1.groupLines q ls with
      | (s2, none, ds) => (s2, none, ds)
      | (s2, some (rest, lost2), ds) => (s2, some ((l, bs) :: rest, match lost with
          | some x => some x
          | none => lost2), ds)

/-- A group marked lost: the first cause stands (R119). -/
def Group.mark (g : Group) (cause : Option Nat) (dev : Nat) : Group :=
  match g.lost, cause with
  | none, some k => { g with lost := some (k, dev) }
  | _, _ => g

/-- A device that a group loaded from or consulted (R120). -/
def Group.consult (g : Group) (devs : List Nat) : Group := { g with devs := (g.devs ++ devs).eraseDups }

/-- Change the open group of the context in focus. -/
def State.mapGroup (s : State) (f : Group → Group) : State :=
  s.mapCx fun c => c.mapOrder fun o => { o with group := o.group.map f }

/-! ## BOPEN, BCLOSE, RGOPEN, RGCLOSE (R105, R112, R117, R119, R271) -/

/-- Records of a decider slice. -/
def State.deciderFull (s : State) (slice : Nat) : Bool :=
  decide (Config.bundleRecords ≤ (s.slices.records.filter fun r => identDecider r.ident == slice).length)

/-- SEQ of the next bundle of a seat (R105). -/
def State.nextSeq (s : State) (id : SeatId) : Nat := ((s.core id.core).bundleSeq[id.seat]?).getD 1

/-- A bundle identity (R105). -/
def identOf (dev : Nat) (id : SeatId) (seq : Nat) : Word :=
  BitVec.ofNat 64 (dev % 2 ^ 12 + 2 ^ 12 * (id.core % 2 ^ 11) + 2 ^ 23 * (id.seat % 4) + 2 ^ 32 * (seq % 2 ^ 24))

/-- BOPEN (R105, R106, R271). -/
def execBopen (o : COps) (s : State) : Result :=
  s.run (.c 0x074 o) fun c s =>
    match c.order.bundle with
    | some _ => (s.putScalar o.dst 0).done (.c 0x074 o)
    | none =>
      let seq := s.nextSeq s.cur
      let x := identOf s.devNum s.cur seq
      if s.deciderFull (identDecider x) then s.stallOn .full
      else
        let s1 := s.mapCore s.cur.core fun k =>
          { k with bundleSeq := setAt k.bundleSeq s.cur.seat (if seq = 2 ^ 24 - 1 then 1 else seq + 1) }
        let r : BRec := { ident := x, state := .undecided, qfloor := 0, reason := 0, waiting := [], since := 0 }
        let s2 := { s1 with slices := { s1.slices with records := s1.slices.records ++ [r] } }
        let b : Bundle :=
          { ident := x, comps := [], lines := 0, doomed := none, stage := .opened, waiting := [], mmax := 0, stamp := none,
            latelost := false, lost := [], outcome := none, away := [], since := 0 }
        ((s2.mapCx fun c => c.mapOrder fun r => { r with bundle := some b }).putScalar o.dst x).done (.c 0x074 o)

/-- The status word of BCLOSE (R113). -/
def bundleStatus (status reason : Nat) (late : Bool) (c : Comp) (lo : Nat) : Word :=
  BitVec.ofNat 64 (status + 2 ^ 4 * reason + 2 ^ 8 * ofBool late + 2 ^ 12 * (c.dev % 2 ^ 12) + 2 ^ 24 * (c.slice % 2 ^ 7)
    + 2 ^ 32 * (lo % 2 ^ 32))

/-- No companion. -/
def noComp : Comp := { dev := 0, slice := 0 }

/-- Change the open bundle of a context. -/
def State.mapBundle (s : State) (n : Nat) (f : Bundle → Bundle) : State :=
  s.updCtx n fun c => c.mapOrder fun o => { o with bundle := o.bundle.map f }

/-- Devices that a close found lost, noted as its outcome is (R104, R115, R122): held for a context that has no seat. -/
def State.closeLost (s : State) (n : Nat) (lost : List Comp) : State :=
  if lost.isEmpty then s else s.peerLost n 5 (lost.map (·.dev)).eraseDups

/-- A context's bundle aborted by its own close (R112, R122): the status is ready at once. -/
def State.abortClose (s : State) (n : Nat) (b : Bundle) (reason : Nat) (c : Comp) : State :=
  let lost := if reason = 4 then ((b.comps.filter fun x => s.lost x.dev) ++ (b.doomed.bind (·.2)).toList).eraseDups else b.lost
  ((s.abortBundle b reason).mapBundle n fun b =>
    { b with stage := .settled, outcome := some (bundleStatus 1 reason false c 0), lost := lost }).closeLost n lost

/-- The first companion whose device is lost, if any. -/
def State.lostComp (s : State) (cs : List Comp) : Option Comp := cs.find? fun c => s.lost c.dev

/-- The end of a commit: every companion has acknowledged or been lost (R112); the context's core reads the bundle's lines anew (R54,
R65). -/
def State.finishCommit (s : State) (n : Nat) (b : Bundle) : State :=
  let t := match b.stamp with
    | some c => c.t
    | none => 0
  let w (b : Bundle) : Word := bundleStatus 0 0 b.latelost
    (b.lost.headD noComp) t
  let s1 := b.away.foldl (fun s ga => s.dropOwn n (ga / 2 ^ 45) [ga % 2 ^ 45]) s
  (s1.mapBundle n fun b => { b with stage := .settled, outcome := some (w b) }).closeLost n b.lost

/-- A bundle's close started once everything before it has performed (R112): FINAL to every companion, or the abort of a
doomed bundle, or the commit of a bundle without companions. -/
def State.startClose (s : State) (n : Nat) (b : Bundle) : State :=
  match s.lostComp b.comps, b.doomed with
  | _, some (reason, c) => s.abortClose n b reason (c.getD noComp)
  | some c, none => s.abortClose n b 4 c
  | none, none =>
    if b.comps.isEmpty then
      match s.commitPoint b.ident 0 with
      | (s1, some c) =>
        let s2 := (s1.mapBundle n fun b => { b with stamp := some c }).finishCommit n { b with stamp := some c }
        s2.freeBrecs
      | (s1, none) => s1
    else
      let s1 := s.mapBundle n fun b => { b with stage := .final, waiting := b.comps, mmax := 0, since := s.time }
      b.comps.foldl (fun s c => s.tell c (.bundleFinal c.slice b.ident b.comps) (.final c b.ident b.comps)) s1

/-- The accesses that a close waits for before it starts (R112). -/
def State.closeWaits (s : State) (c : Ctx) (b : Bundle) : List Out :=
  s.unperformed (c.order.outs.filter fun o => o.kind != .hit
    && (o.bundled || (b.comps.any fun x => x.dev == o.dev) || o.dev == s.devNum))

/-- Closes that have issued go on without their seats (R115): those start whose earlier accesses have performed. -/
def State.runCloses (s : State) : State :=
  s.allCtx.foldl (fun s c => match c.order.bundle with
    | some b => if b.stage = .issued ∧ (s.closeWaits c b).isEmpty then s.startClose c.num b else s
    | none => s) s

/-- One turn of a close in progress for the context in focus: it starts, waits, or hands its outcome to `k` (R112). -/
def State.closeBundle (s : State) (c : Ctx) (b : Bundle) (k : Word → State → State) : State :=
  let go (s : State) : State :=
    match s.cx with
    | none => s
    | some c1 => match c1.order.bundle with
      | none => s
      | some b1 => match b1.outcome with
        | some w => k w (s.mapCx fun c => c.mapOrder fun o => { o with bundle := none })
        | none => s.stallOn .bundle
  if b.stage = .opened ∨ b.stage = .issued then
    if (s.closeWaits c b).isEmpty then go (s.startClose c.num b)
    else (s.mapBundle c.num fun b => { b with stage := .issued }).stallOn .perform
  else go s

/-- BCLOSE (R112, R113, R271). -/
def execBclose (o : COps) (s : State) : Result :=
  s.run (.c 0x075 o) fun c s =>
    match c.order.bundle with
    | none => s.closing fun s => (s.putScalar o.dst 2).done (.c 0x075 o)
    | some b =>
      if c.order.conflict.isSome ∨ !(s.hitsOut c).isEmpty then s.closing id
      else s.closeBundle c b fun w s => s.closing fun s => (s.putScalar o.dst w).done (.c 0x075 o)

/-- RGOPEN (R117, R271). -/
def execRgopen (o : COps) (s : State) : Result :=
  s.run (.c 0x076 o) fun c s =>
    s.closing fun s =>
      let s1 := s.acquire
      match c.order.group with
      | some g => (s1.putScalar o.dst (BitVec.ofNat 64 g.t)).done (.c 0x076 o)
      | none =>
        let g : Group := { t := s.time % 2 ^ 64, lost := none, devs := [] }
        ((s1.mapCx fun c => c.mapOrder fun r => { r with group := some g }).putScalar o.dst
          (BitVec.ofNat 64 s.time)).done (.c 0x076 o)

/-- The status word of RGCLOSE (R119). -/
def groupStatus (g : Option Group) : Word :=
  match g with
  | none => 2
  | some g => match g.lost with
    | none => 0
    | some (cause, dev) => BitVec.ofNat 64 (1 + 2 ^ 4 * cause + 2 ^ 8 * (dev % 2 ^ 12))

/-- RGCLOSE (R119, R271). -/
def execRgclose (o : COps) (s : State) : Result :=
  s.run (.c 0x077 o) fun c s =>
    s.closing fun s =>
      ((s.mapCx fun c => c.mapOrder fun r => { r with group := none }).putScalar o.dst
        (groupStatus c.order.group)).done (.c 0x077 o)

end Sys2Proof.Machine
end

