-- ==== Sys2Proof/Machine/Access.lean ====
section
/-! DEFINITION. The accesses of a seat: address formation and its tests, detection and the read cache, and what a load, a
store and an atomic do on this device and on another (R7 to R14, R41 to R57, R64 to R100, R175, R253 to R266). -/

namespace Sys2Proof.Machine

open Sys2Proof.Bits

/-! ## Addresses (R8 to R12, R41, R175) -/

/-- An address as R175 forms it: a local address, exact, or a global address. -/
inductive Addr where
  | la (x : Int)
  | ga (w : Word)
  deriving DecidableEq, Repr

/-- The address as a fault reports it (R359). -/
def Addr.word : Addr → Word
  | .la x => BitVec.ofInt 64 x
  | .ga w => w

/-- An address `n` bytes further on. -/
def Addr.plus (a : Addr) (n : Int) : Addr :=
  match a with
  | .la x => .la (x + n)
  | .ga w => .ga (w + BitVec.ofInt 64 n)

/-- The address of a form with an index of value `x`, or 0 (R175). -/
def Ctx.addr (c : Ctx) (o : MOps) (x : Word) : Addr :=
  if o.len ≠ 3 ∧ o.sa = 0 then .la (x.toInt + o.offset.toInt) else .ga (c.srcS [] o.sa + x + o.offset)

/-- The address of a form whose SB is an index. -/
def Ctx.addrIx (c : Ctx) (o : MOps) : Addr := c.addr o (c.srcS [o.sa] o.sb)

/-- Where an access goes: a device and an offset on it. -/
structure Tgt where
  dev : Nat
  off : Nat
  deriving DecidableEq, Repr

/-- The tests of an address over a length (R8, R10 to R12, R41, R100): the SUB of the access fault, or the place.  A
length of zero is tested on its base alone, which may be the end of a mapped range.
(DEDUCED, log entry 41.) -/
def State.testAddr (s : State) (a : Addr) (len : Nat) : Nat ⊕ Tgt :=
  match a with
  | .la x =>
    if x < 0 ∨ (0x20000 : Int) < x + len then .inl 10
    else .inr { dev := s.devNum, off := padOff s.cur.core x.toNat }
  | .ga w =>
    let n := s.resolve w
    let dev := field n 45 12
    let off := field n 0 45
    if field w.toNat 57 7 ≠ 0 then .inl 3
    else if 0x800 ≤ dev ∨ !s.routed dev then .inl 3
    else if s.place dev off = .hole then
      if len = 0 ∧ 0 < off ∧ s.place dev (off - 1) ≠ .hole then .inr { dev := dev, off := off } else .inl 1
    else if s.rangeEnd dev off < off + len then .inl 2
    else .inr { dev := dev, off := off }

/-- Go on with a scalar address that passes the tests of R253, items 2 and 3; else the precise access fault. -/
def State.withAddr (s : State) (a : Addr) (len align : Nat) (k : Tgt → State → State) : State :=
  match s.testAddr a len with
  | .inl sub => s.accessFault sub a.word len
  | .inr t => if t.off % align ≠ 0 then s.accessFault 4 a.word len else k t s

/-- The GA of a place. -/
def Tgt.ga (t : Tgt) : Nat := 2 ^ 45 * t.dev + t.off

/-- Is a place in HBM? -/
def State.isHbm (s : State) (t : Tgt) : Bool := s.place t.dev t.off == .hbm

/-- Is a place in the seat's own scratchpad? -/
def State.ownPad (s : State) (t : Tgt) : Bool :=
  t.dev == s.devNum && decide (padOff s.cur.core 0 ≤ t.off) && decide (t.off < padOff s.cur.core Config.padSize)

/-- Where a byte of this device is held for the seat in focus: its own banks are not judged (R42). -/
def State.heldSeat (s : State) (tenant : Nat) (offs : List Nat) : List Nat ⊕ Deny :=
  match offs with
  | [] => .inl []
  | off :: _ => if s.ownPad { dev := s.devNum, off := off } then .inl offs else s.heldAll tenant offs

/-! ## Outcomes of a refusal or a lost device -/

/-- A request that its coherence point refused (R34, R35, R139): the imprecise fault.
(DEDUCED, log entry 55.) -/
def State.denied (s : State) (c : Ctx) (d : Deny) (ga : Nat) : State :=
  match d with
  | .breach e => s.imprecise c.num
      { code := 16, sub := 0, val := BitVec.ofNat 64 ga, aux1 := c.tenant + 2 ^ 12 * e, aux2 := 0, pc := c.pc, detail := 0 }
      (c.retires + 1)
  | .record => s.imprecise c.num
      { code := 23, sub := 0, val := BitVec.ofNat 64 ga, aux1 := 0, aux2 := 0, pc := c.pc, detail := 0 } (c.retires + 1)

/-- The code by which a device answers that a coherence point refused a request, with the offset of the byte concerned: above every
reason of R25. -/
def denyCode (d : Deny) (off : Nat) : Nat :=
  2 ^ 24 * off + match d with
    | .breach e => 0x100000 + e
    | .record => 0x200000

/-- What a code of refusal stands for: none for a reason of R25.
(DEDUCED, log entry 55.) -/
def denyOf (r : Nat) : Option Deny :=
  let k := r % 2 ^ 24
  if k < 0x100000 then none else if k < 0x200000 then some (.breach (k - 0x100000)) else some .record

/-- The offset of the byte that a code of refusal names. -/
def denyOff (r : Nat) : Nat := r / 2 ^ 24

/-- The remote-access fault (R14, R32, R359). -/
def State.remoteFault (s : State) (c : Ctx) (sub ga dev reason : Nat) : State :=
  s.imprecise c.num
    { code := 19, sub := sub, val := BitVec.ofNat 64 ga, aux1 := dev, aux2 := reason, pc := c.pc, detail := 0 } (c.retires + 1)

/-! ## Detection (R68 to R73) -/

/-- The context in focus as a party to races. -/
def State.party (s : State) (c : Ctx) : Party := { dev := s.devNum, ctx := c.num, seat := s.cur }

/-- A conflict found in the open region (R71): the first one is kept, the others are counted. -/
def Order.addConflict (o : Order) (x : Conflict) : Order := match o.conflict with
  | none => { o with conflict := some x }
  | some _ => { o with more := o.more + 1 }

/-- A verdict on one line added to the region (R71). -/
def State.addVerdict (s : State) (line : Nat) (store : Bool) (v : Verdict) : State :=
  match v with
  | none => s
  | some x => s.mapCx fun c => c.mapOrder fun o => o.addConflict { line := line, mine := store, party := x.1, other := x.2 }

/-- A detected access of the context in focus to one line of this device, by its key (R70, R71): one verdict, of the record or else of a
read-cache hit, and the access recorded. -/
def State.detectLine (s : State) (p : Party) (store : Bool) (late : Verdict) (l : Nat) : State :=
  let ga := raceGa s.devNum l
  let v := match s.verdict l p store with
    | some x => some x
    | none => late
  let s1 := (s.recordRace l p store).addVerdict ga store v
  let s2 := if store then s1.noteWrite l p else s1
  s2.mapCx fun c => c.mapOrder fun o => { o with lines := if o.lines.contains ga then o.lines else o.lines ++ [ga] }

/-- A detected access of the context in focus to the lines of this device that it touches, by their keys (R70, R71). -/
def State.detect (s : State) (p : Party) (store : Bool) (lines : List Nat) : State :=
  lines.foldl (fun s l => s.detectLine p store none l) s

/-- Room for some lines of a device, by their keys, in the open region and at their coherence points here (R73): an access that would
record a 513th line first makes an implicit split, at which a conflict is delivered; one that finds a record store full waits for the split
that the store asks for. -/
def State.withRoom (s : State) (c : Ctx) (dev : Nat) (lines : List Nat) (k : State → State) : State :=
  let new := (lines.map (raceGa dev)).filter fun g => !c.order.lines.contains g
  match s.crowded (if dev = s.devNum then lines else []) with
  | some p => (s.askSplit p).stallOn .perform
  | none => if c.order.lines.length + new.length ≤ Config.regionLines then k s else s.closing k

/-- The conflicts that a checked synchronising access to lines of this device meets, by their keys (R72). -/
def State.conflicts (s : State) (p : Party) (store : Bool) (lines : List Nat) : List Conflict :=
  lines.filterMap fun l => (s.verdict l p store).map fun v =>
    { line := raceGa s.devNum l, mine := store, party := v.1, other := v.2 }

/-! ## The read cache (R53, R54) -/

/-- The line that a core's read cache holds. -/
def State.cachedLine (s : State) (core dev line : Nat) : Option CacheLine :=
  (s.core core).lines.find? fun l => l.dev == dev && l.line == line

/-- A line put first among the four of its set (R53). -/
def State.fillLine (s : State) (core : Nat) (l : CacheLine) : State :=
  s.mapCore core fun k =>
    let rest := k.lines.filter fun x => !(x.dev == l.dev && x.line == l.line)
    let set (x : CacheLine) : Bool := x.line / 64 % 64 == l.line / 64 % 64
    { k with lines := l :: ((rest.filter set).take 3 ++ rest.filter fun x => !set x) }

/-- A plain load of one line of this device by the context in focus, by the line's key (R53, R70): an HBM line goes through the read
cache, unless the context has a pending version of it, and a window's block does not; a hit is judged against every write by another
context since its fill.
(DEDUCED, log entry 48.) -/
def State.plainLine (s : State) (c : Ctx) (line : Nat) : State :=
  let p := s.party c
  if line < s.hbmEnd ∧ (s.ownPending line c.openBundle).isNone then
    match s.cachedLine s.cur.core s.devNum line with
    | some l => (s.detectLine p false (s.lateWrite line l.filled p) line).fillLine s.cur.core l
    | none =>
      let l : CacheLine := { dev := s.devNum, line := line, bytes := s.mem.read line 64, filled := s.slices.serial }
      (s.detectLine p false none line).fillLine s.cur.core l
  else s.detectLine p false none line

/-- The byte that a plain load returns of an offset of this device held at a place (R53, R258): of HBM the context's own pending version,
else the read cache, else the coherence point; of a window, the coherence point.
(DEDUCED, log entry 48.) -/
def State.plainByte (s : State) (c : Ctx) (off held : Nat) : Byte :=
  if s.hbmEnd ≤ off then s.byteAt held
  else match s.ownPending (off / 64 * 64) c.openBundle with
    | some bs => (bs[off % 64]?).getD 0
    | none => match s.cachedLine s.cur.core s.devNum (off / 64 * 64) with
      | some l => (l.bytes[off % 64]?).getD 0
      | none => s.byteAt held

/-- The bytes that a plain load returns of some offsets of this device, each held at its place (R258).
(DEDUCED, log entry 48.) -/
def State.plainBytes (s : State) (c : Ctx) (offs held : List Nat) : List Byte :=
  (offs.zip held).map fun x => s.plainByte c x.1 x.2

/-! ## Loads (R258) -/

/-- The outstanding accesses that a synchronising access waits for (R79).
(DEDUCED, log entry 49.) -/
def Order.syncOuts (o : Order) : List Out := o.outs.filter fun x => x.sync

/-- Does an outstanding access touch some bytes of a device (R65)? -/
def Out.touches (x : Out) (dev : Nat) (offs : List Nat) : Bool :=
  x.kind != .hit && x.dev == dev && x.bytes.any fun o => offs.contains o

/-- Reductions that acquire and have not performed: every later access waits for them (R76, R266). -/
def State.acquiring (s : State) (c : Ctx) : List Out := s.unperformed (c.order.outs.filter fun x => x.acq)

/-- A load of bytes of this device, plain or acquire; `fin` takes the bytes (R258). -/
def State.loadHere (s : State) (c : Ctx) (f : Form) (acq : Bool) (offs : List Nat) (fin : List Byte → State → State) :
    State :=
  if !(s.acquiring c).isEmpty || (acq && !(s.unperformed c.order.syncOuts).isEmpty) then s.stallOn .perform
  else match s.heldSeat c.tenant offs with
  | .inr d =>
    let refuse (s : State) : State := (s.denied c d (2 ^ 45 * s.devNum + s.firstDenied c.tenant false offs)).done f
    if acq then s.closing refuse else refuse s
  | .inl held =>
    let s0 := s.cacheOwners held
    let lines := s.raceLines c.tenant offs
    if acq then s0.closingWith (s0.conflicts (s.party c) false lines) fun s => fin (s.readBytes c.openBundle held) s.acquire
    else
      s0.withRoom c s.devNum lines fun s =>
        fin (s.plainBytes c offs held) (lines.foldl (fun s l => s.plainLine c l) s)

/-- A reply taken from the context in focus. -/
def State.takeReply (s : State) : State :=
  s.mapCx fun c => c.mapOrder fun o => { o with awaits := o.awaits.filter fun w => w.pc != c.pc }

/-- Finish a remote access that ends without a value: its fault is raised, and nothing is written (R14, R32). -/
def State.failAway (s : State) (c : Ctx) (f : Form) (sub ga dev reason : Nat) : State :=
  (s.takeReply.remoteFault c sub ga dev reason).done f

/-- Energy of a device's port traffic: 2,700 pJ for every 64 bytes that cross it (R418). -/
def portPj (bytes : Nat) : Nat := 2700 * max 1 ((bytes + 63) / 64)

/-- A request to another device that expects a reply: sent once, with the lines `kept` that the read cache gave at issue and the lines
`gas` that it records there, waited for, then handed to `fin` (R14, R64, R65, R67); `bytes` of it cross the port (R418).
(DESIGN CHOICE, log entry 5.) -/
def State.askDevice (s : State) (c : Ctx) (f : Form) (dev ga bytes : Nat) (group : Bool) (kept : List (Nat × List Byte)) (gas : List Nat)
    (body : PktBody) (fin : Reply → State → State) : State :=
  match c.await with
  | none =>
    if s.lost dev then s.failAway c f 1 ga dev 0
    else
      let s1 := (s.packet c dev body).mapCx fun c =>
        (c.charge (portPj bytes)).mapOrder fun o => { o with awaits := o.awaits ++
          [{ pc := c.pc, dev := dev, group := group, key := ga % 2 ^ 45, reply := none, kept := kept, hdl := c.handle, gas := gas, since := s.time }] }
      s1.stallOn .reply
  | some w => match w.reply with
    | none => s.stallOn .reply
    | some .lost => s.failAway c f 1 ga dev 0
    | some (.refused r) => match denyOf r with
      | some d => (s.takeReply.denied c d (2 ^ 45 * dev + denyOff r)).done f
      | none => s.failAway c f 2 ga dev r
    | some r => fin r s.takeReply

/-- Runs of consecutive offsets as (offset, length) parts. -/
def partsOf : List Nat → List (Nat × Nat)
  | [] => []
  | o :: os => match partsOf os with
    | (p, n) :: rest => if o + 1 = p then (o, n + 1) :: rest else (o, 1) :: (p, n) :: rest
    | [] => [(o, 1)]

/-- The bytes of a reply for some offsets: as asked, or picked from the whole lines of a cacheable load (R53). -/
def replyBytes (offs : List Nat) (bytes : List Byte) : List Byte :=
  let lines := linesOf offs
  if bytes.length = 64 * lines.length ∧ bytes.length ≠ offs.length then
    offs.map fun o => match indexOf (· == o / 64 * 64) lines with
      | some k => (bytes[64 * k + o % 64]?).getD 0
      | none => 0
  else bytes.take offs.length ++ List.replicate (offs.length - bytes.length) 0

/-- Lines of another device that a plain load of the seat in focus has asked for (R53).
(DEDUCED, log entry 89.) -/
def State.expect (s : State) (ctx dev : Nat) (lines : List Nat) : State :=
  s.mapCore s.cur.core fun k => { k with arriving := k.arriving ++ lines.map fun l => { ctx := ctx, dev := dev, line := l } }

/-- The lines of another device that a cacheable reply fills (R53): those that nothing has invalidated since they were asked for (R54).
(DEDUCED, log entry 89.) -/
def State.fillAway (s : State) (ctx dev : Nat) (offs : List Nat) (bytes : List Byte) (filled : Nat) : State :=
  let lines := linesOf offs
  let due (l : Nat) : Bool := (s.core s.cur.core).arriving.contains { ctx := ctx, dev := dev, line := l }
  let s1 := s.mapCore s.cur.core fun k => { k with
    arriving := k.arriving.filter fun x => !(x.ctx == ctx && x.dev == dev && lines.contains x.line) }
  if bytes.length = 64 * lines.length then
    ((lines.zip (pieces 64 lines.length bytes)).filter fun l => due l.1).foldl
      (fun s l => s.fillLine s.cur.core { dev := dev, line := l.1, bytes := l.2, filled := filled }) s1
  else s1

/-- Add an outstanding access of the context in focus; one to a lost device is kept once for each batch (R78, R102). -/
def State.addOut (s : State) (x : Out) : State :=
  s.mapCx fun c => c.mapOrder fun o =>
    if s.lost x.dev && o.outs.any fun y => y.dev == x.dev && y.batch == x.batch && y.kind == x.kind then o
    else { o with outs := o.outs ++ [x] }

/-- Read-cache hits on lines of another device put before their home slices (R54, R70): each sends its record with the fill's time, and
its verdict is owed. -/
def State.sendHits (s : State) (c : Ctx) (dev : Nat) (offs : List Nat) (hits : List CacheLine) : State :=
  if s.lost dev then s
  else hits.foldl (fun s l => ((s.fillLine s.cur.core l).packet c dev (.hit (s.party c) c.handle l.line l.filled (partsOf (offs.filter fun o => o / 64 * 64 == l.line)))).addOut
    { dev := dev, strm := 64, seq := l.line, batch := 4, bundled := false, kind := .hit, sync := false, acq := false, bytes := [],
      hdls := [c.handle], pc := c.pc, born := c.retires, sent := s.time }) s

/-- The lines of another device that the context's open bundle has stored to: its loads of them go to their home slices (R258). -/
def Order.storedAway (o : Order) (ga : Nat) : Bool := match o.bundle with
  | some b => b.away.contains ga
  | none => false

/-- A load of bytes of another device, plain or acquire (R14, R53, R65, R258): lines in the read cache are served from it when the load
issues, and the others are asked for. -/
def State.loadAway (s : State) (c : Ctx) (f : Form) (acq : Bool) (dev : Nat) (offs : List Nat)
    (fin : List Byte → State → State) : State :=
  let ga := 2 ^ 45 * dev + offs.headD 0
  let lines := linesOf offs
  let gas := lines.map fun l => 2 ^ 45 * dev + l
  let cacheable (l : Nat) : Bool := !acq && s.isHbm { dev := dev, off := l } && !c.order.storedAway (2 ^ 45 * dev + l)
  let hits := if c.await.isSome then [] else
    (lines.filter cacheable).filterMap fun l => s.cachedLine s.cur.core dev l
  let kept := match c.await with
    | some w => w.kept
    | none => hits.map fun l => (l.line, l.bytes)
  let rest := offs.filter fun o => (look kept (o / 64 * 64)).isNone
  let record (s : State) : State := s.mapCx fun c => c.mapOrder fun o =>
    { o with lines := o.lines ++ gas.filter fun g => !o.lines.contains g }
  let value (bytes : List Byte) : List Byte :=
    if kept.isEmpty then replyBytes offs bytes
    else
      let got := rest.zip (replyBytes rest bytes)
      offs.map fun o => match look kept (o / 64 * 64) with
        | some bs => (bs[o % 64]?).getD 0
        | none => (look got o).getD 0
  let waits := s.unperformed (c.order.outs.filter fun x => x.touches dev offs || (acq && x.sync))
  let refused : Bool := match c.await.bind (·.reply) with
    | some (.data _ _ (_ :: _) _) => acq
    | _ => false
  if c.await.isNone ∧ !waits.isEmpty then s.stallOn .perform
  else if refused ∧ !(s.unperformed (c.order.outs.filter fun x => x.kind != .hit)).isEmpty then s.stallOn .perform
  else
    let whole := rest.all fun o => cacheable (o / 64 * 64)
    let go (s : State) : State :=
      let s0 := s.sendHits c dev offs hits
      let s1 := if whole && c.await.isNone && !rest.isEmpty then s0.expect c.num dev (linesOf rest) else s0
      if rest.isEmpty then fin (value []) (record s0)
      else s1.askDevice c f dev ga (if whole then 64 * (linesOf rest).length else rest.length) false kept (if acq then [] else (linesOf rest).map (raceGa dev))
          (.load (s.party c) c.handle (partsOf rest) acq c.openBundle) fun r s =>
        match r with
        | .data bytes _ conflicts at' =>
          let xs : List Conflict := conflicts.map fun x =>
            { line := 2 ^ 45 * dev + x.1, mine := false, party := x.2.1, other := x.2.2 }
          match acq, xs with
          | true, x :: xs => s.memoryModel x xs.length
          | true, [] => fin (value bytes) s.acquire
          | false, _ =>
            let s1 := if whole then s.fillAway c.num dev rest bytes at' else s
            fin (value bytes) (xs.foldl (fun s x => s.addVerdict x.line false (some (x.party, x.other))) (record s1))
        | _ => fin (offs.map fun _ => 0) s
    if !acq then s.withRoom c dev lines go else if c.await.isNone then s.closing go else go s

/-- A group load (R117, R120): each line at its home slice, on this device or another; while a fate is asked the load waits, and its
answer comes to it as a reply. -/
def State.loadGroup (s : State) (c : Ctx) (f : Form) (g : Group) (acq : Bool) (dev : Nat) (offs : List Nat)
    (fin : List Byte → State → State) : State :=
  let after (bytes : List Byte) (cause : Option Nat) (devs : List Nat) (s : State) : State :=
    let s1 := s.mapGroup fun g =>
      let g1 := (g.mark cause dev).consult (dev :: devs)
      match devs.find? fun d => s.lost d with
      | some d => g1.mark (some 3) d
      | none => g1
    fin bytes (if acq then s1.acquire else s1)
  let close (k : State → State) : State := if acq && c.await.isNone then s.closing k else k s
  let waits := s.unperformed (c.order.outs.filter fun x => (dev != s.devNum && x.touches dev offs) || (acq && x.sync))
  if c.await.isNone && !waits.isEmpty then s.stallOn .perform
  else if dev = s.devNum then
    match c.await with
    | some w => match w.reply with
      | none => s.stallOn .reply
      | some (.group bytes cause devs) => after bytes cause devs s.takeReply
      | some _ => after (offs.map fun _ => 0) none [] s.takeReply
    | none => match s.heldSeat c.tenant offs with
      | .inr d => close fun s => (s.denied c d (2 ^ 45 * dev + s.firstDenied c.tenant false offs)).done f
      | .inl held => close fun s =>
        let q : Snapshot := { t := g.t, own := c.openBundle, tenant := c.tenant }
        match (s.cacheOwners held).groupLines q (linesOf offs) with
        | (s1, none, ds) =>
          let x : Serving := { dev := s.devNum, ctx := c.num, hdl := c.handle, parts := partsOf offs, t := q, devs := ds }
          let s2 : State := { s1 with slices := { s1.slices with serving := s1.slices.serving ++ [x] } }
          let w : Await :=
            { pc := c.pc, dev := s.devNum, group := true, key := offs.headD 0, reply := none, kept := [], hdl := c.handle, gas := [], since := s.time }
          ((s2.mapGroup fun g => g.consult ds).mapCx fun c => c.mapOrder fun o => { o with awaits := o.awaits ++ [w] }).stallOn .reply
        | (s1, some (ls, cause), ds) =>
          after (offs.map fun o => match look ls (o / 64 * 64) with
            | some bs => (bs[o % 64]?).getD 0
            | none => 0) cause ds s1
  else
    close fun s =>
      s.askDevice c f dev (2 ^ 45 * dev + offs.headD 0) offs.length true [] []
          (.groupLoad c.num c.handle (partsOf offs) { t := g.t, own := c.openBundle, tenant := c.tenant }) fun r s =>
        match r with
        | .group bytes cause devs => after (replyBytes offs bytes) cause devs s
        | .data bytes _ _ _ => after (replyBytes offs bytes) none [] s
        | _ => after (offs.map fun _ => 0) none [] s

/-- A load of bytes at offsets of one device (R258).
(DESIGN CHOICE, log entry 4.) -/
def State.load (s : State) (c : Ctx) (f : Form) (o : MOps) (dev : Nat) (offs : List Nat) (addr : Word) (len : Nat)
    (fin : List Byte → State → State) : State :=
  let acq := o.ord = 1
  if !(s.acquiring c).isEmpty then s.stallOn .perform
  else if offs.isEmpty then if acq then s.closing fun s => fin [] s.acquire else fin [] s
  else if o.grp then
    if !(offs.all fun x => s.isHbm { dev := dev, off := x }) then s.accessFault 5 addr len
    else match c.order.group with
      | none => s.accessFault 8 addr len
      | some g => s.loadGroup c f g acq dev offs fin
  else if dev = s.devNum then s.loadHere c f acq offs fin
  else s.loadAway c f acq dev offs fin

/-! ## Stores (R259) -/

/-- A store as its seat issues it: the device, the bytes by offset, the base offset, the enabled bytes that a flag counts,
and the flag's offset with whether it is a sync word. -/
structure StoreReq where
  dev : Nat
  base : Nat
  bytes : List (Nat × Byte)
  count : Nat
  flag : Option (Nat × Bool)
  addr : Word
  deriving DecidableEq, Repr

/-- A device added to a batch's touched set (R96). -/
def State.touch (s : State) (batch dev : Nat) : State :=
  s.mapCx fun c => c.mapOrder fun o =>
    let t := (o.touched[batch]?).getD []
    { o with touched := setAt o.touched batch (if t.contains dev then t else t ++ [dev]) }

/-- The sequence state of a (stream, device) pair (R90). -/
def Order.stream (o : Order) (strm dev : Nat) : Option StreamSeq := o.streams.find? fun x => x.strm == strm && x.dev == dev

/-- Set the sequence state of a pair. -/
def Order.setStream (o : Order) (x : StreamSeq) : Order :=
  { o with streams := x :: o.streams.filter fun y => !(y.strm == x.strm && y.dev == x.dev) }

/-- Doom the open bundle of the context in focus (R109, R110): the first cause stands. -/
def State.doomOpen (s : State) (c : Ctx) (reason : Nat) (comp : Option Comp) : State :=
  s.mapBundle c.num fun b => match b.doomed with
    | none => { b with doomed := some (reason, comp) }
    | some _ => b

/-- Send a store to another device (R32, R65, R88 to R90, R96): an earlier access of the seat to its bytes, unless its own stream orders
it, has performed; it needs a reorder window, asked for with its number, and fewer than 64 stores without acknowledgement; a store to a
lost device is discarded and counted in its batch (R102), and a bundled one dooms its bundle (R114).
(DESIGN CHOICE, log entry 5.) -/
def State.sendStore (s : State) (c : Ctx) (f : Form) (o : MOps) (r : StoreReq) (bundle : Option (Word × List Comp)) : State :=
  let strm := o.strm.toNat
  let batch := o.batch.toNat
  let sync := o.ord ≠ 0
  let flagged := match r.flag with
    | some (x, isSync) => (List.range (if isSync then 16 else 8)).map (x + ·)
    | none => []
  let mk (seq : Nat) : Out :=
    { dev := r.dev, strm := strm, seq := seq, batch := batch, bundled := bundle.isSome, kind := .store, sync := sync, acq := false,
      bytes := r.bytes.map (·.1) ++ flagged, hdls := c.handle :: (if r.flag.isSome then [c.flagHandle] else []),
      pc := c.pc, born := c.retires, sent := s.time }
  let before := s.unperformed (c.order.outs.filter fun x => x.touches r.dev (r.bytes.map (·.1) ++ flagged)
    && !(x.kind == .store && x.strm == strm && strm != 0))
  if s.lost r.dev then
    let s1 := match bundle, r.bytes with
      | some _, b :: _ => s.doomOpen c 4 (some { dev := r.dev, slice := homeSlice b.1 })
      | _, _ => s
    ((s1.touch batch r.dev).addOut (mk 0)).done f
  else if !before.isEmpty then s.stallOn .perform
  else match c.order.stream strm r.dev with
    | none =>
      ((s.packet c r.dev (.windowAsk c.num strm 0)).mapCx fun c => c.mapOrder fun q =>
        q.setStream { strm := strm, dev := r.dev, next := 0, window := false, asked := true, since := s.time }).stallOn .full
    | some w =>
      let unacked := (c.order.outs.filter fun x => x.kind == .store && x.strm == strm && x.dev == r.dev).length
      if !w.window ∧ !w.asked then
        ((s.packet c r.dev (.windowAsk c.num strm w.next)).mapCx fun c => c.mapOrder fun q => q.setStream { w with asked := true, since := s.time }).stallOn .full
      else if !w.window ∨ Config.unackedMax ≤ unacked then s.stallOn .full
      else
        let st : StreamStore :=
          { src := { dev := s.devNum, ctx := c.num, strm := strm }, seq := w.next, tenant := c.tenant, handle := c.handle,
            flagHandle := c.flagHandle, off := r.base, len := r.count, bytes := r.bytes, flag := r.flag.map (·.1),
            batch := batch, bundle := bundle }
        let s1 := (s.packet c r.dev (.store st)).mapCx fun c =>
          (c.charge (portPj r.bytes.length)).mapOrder fun q =>
            q.setStream { w with next := (w.next + 1) % 65536 }
        ((s1.touch batch r.dev).addOut (mk w.next)).done f

/-- The first of some bytes that lies in a live task record (R139). -/
def State.firstInRecord (s : State) (offs : List Nat) : Nat := (offs.find? fun o => s.touchesRecord [o]).getD (offs.headD 0)

/-- A store performed on this device: the data, then the flag (R94, R116, R139).  A detected one is recorded (R70), a checked synchronising
one is a write that later read-cache hits are judged against. -/
def State.storeHere (s : State) (c : Ctx) (f : Form) (detected sync : Bool) (r : StoreReq) : State :=
  let offs := r.bytes.map (·.1)
  let refuse (d : Deny) (off : Nat) : State := (s.denied c d (2 ^ 45 * r.dev + off)).done f
  match s.heldSeat c.tenant offs, (match r.flag with
    | some fl => s.heldSeat c.tenant [fl.1]
    | none => .inl []) with
  | .inr d, _ => refuse d (s.firstDenied c.tenant false offs)
  | _, .inr d => refuse d ((r.flag.map (·.1)).getD r.base)
  | .inl held, .inl fheld =>
    let hbm := held ++ (if r.flag.map (·.2) = some false then fheld else [])
    if s.touchesRecord hbm then refuse .record (s.firstInRecord hbm)
    else
      let lines := s.raceLines c.tenant offs
      let s0 := (s.cacheOwners hbm).dropLines s.cur.core s.devNum (linesOf hbm)
      let write (s : State) : State :=
        let s0 := if sync then lines.foldl (fun s l => s.noteWrite l (s.party c)) s else s
        let s1 := s0.writeBytes (held.zip (r.bytes.map (·.2)))
        let s2 := match r.flag, fheld with
          | some fl, x :: _ => s1.flagAt fl.2 x r.count
          | _, _ => s1
        s2.done f
      if detected then s0.withRoom c s.devNum lines fun s => write (s.detect (s.party c) true lines)
      else write s0

/-- The destinations that a store's bytes reach (R88, R262): a home slice, a core, or another device. -/
def State.destOf (s : State) (dev off : Nat) : Nat :=
  if dev ≠ s.devNum then 10000 + dev
  else match bankCore off with
    | some core => 200 + core
    | none => homeSlice off

/-- Is a form a vector store, whose lanes may reach several destinations (R262)? -/
def storesLanes : Form → Bool
  | .m op _ => decide (0x050 ≤ op.toNat) && decide (op.toNat ≤ 0x054)
  | _ => false

/-- Why some bytes that a context stores here are refused, and at which offset (R34, R139); none where they may be written. -/
def State.refusalOf (s : State) (c : Ctx) (offs : List Nat) : Option (Deny × Nat) :=
  match s.heldSeat c.tenant offs with
  | .inr d => some (d, s.firstDenied c.tenant false offs)
  | .inl held => if s.touchesRecord held then some (.record, s.firstInRecord held) else none

/-- A store performed on this device, a vector store part by part (R262): a part that its destination refuses is not written, and the others
are. -/
def State.storeParts (s : State) (c : Ctx) (f : Form) (detected sync : Bool) (r : StoreReq) : State :=
  if !storesLanes f ∨ (s.refusalOf c (r.bytes.map (·.1))).isNone then s.storeHere c f detected sync r
  else
    let dest (b : Nat × Byte) : Nat := s.destOf r.dev b.1
    let refused (d : Nat) : Option (Deny × Nat) := s.refusalOf c ((r.bytes.filter fun b => dest b == d).map (·.1))
    let bad := (r.bytes.map dest).eraseDups.filter fun d => (refused d).isSome
    let s1 := bad.foldl (fun s d => match refused d with
      | some x => s.denied c x.1 (2 ^ 45 * r.dev + x.2)
      | none => s) s
    let good := r.bytes.filter fun b => !bad.contains (dest b)
    if good.isEmpty then s1.done f else s1.storeHere c f detected sync { r with bytes := good }

/-- A bundled store (R108 to R110, R123, R124): counted, then prepared here or sent.  One that both passes the limit of line touches and
needs a 17th companion meets the limit first.
(DESIGN CHOICE, log entry 91.) -/
def State.storeBundled (s : State) (c : Ctx) (f : Form) (o : MOps) (r : StoreReq) : State :=
  match c.order.bundle with
  | none =>
    if !r.bytes.isEmpty then s.accessFault 7 r.addr r.bytes.length
    else if r.dev = s.devNum then s.done f
    else s.sendStore c f o r none
  | some b =>
    if b.doomed.isSome then s.done f
    else
      let lines := linesOf (r.bytes.map (·.1))
      let comps := (lines.map fun l => ({ dev := r.dev, slice := homeSlice l } : Comp)).eraseDups
      let new := comps.filter fun x => !b.comps.contains x
      if 4096 < b.lines + lines.length then (s.doomOpen c 5 none).done f
      else if 16 < b.comps.length + new.length then (s.doomOpen c 3 (new[16 - b.comps.length]?)).done f
      else
        let all := b.comps ++ new
        let gas := if r.dev = s.devNum then [] else lines.map fun l => 2 ^ 45 * r.dev + l
        let s1 := s.mapBundle c.num fun b => { b with
          lines := b.lines + lines.length, comps := all, away := (b.away ++ gas).eraseDups }
        if r.dev ≠ s.devNum then
          let s2 := (s1.dropLines s.cur.core r.dev lines).sendStore c f o r (some (b.ident, all))
          match s2.cx.map (·.stall) with
          | some (some _) => s2.mapBundle c.num fun _ => b
          | _ => s2
        else match s.heldSeat c.tenant (r.bytes.map (·.1)) with
          | .inr d => (s.denied c d (2 ^ 45 * r.dev + s.firstDenied c.tenant false (r.bytes.map (·.1)))).done f
          | .inl held =>
            if s.touchesRecord held then (s.denied c .record (2 ^ 45 * r.dev + s.firstInRecord held)).done f
            else
              let s2 := (s1.cacheOwners held).dropLines s.cur.core s.devNum lines
              match s2.prepareAll b.ident all s.devNum c.num r.bytes with
              | (s3, none) => s3.done f
              | (s3, some (reason, slice)) => (s3.doomOpen c reason (some { dev := s.devNum, slice := slice })).done f

/-- The outstanding accesses that a release waits for (R77, R79): those bound for its destination or this device, and
earlier synchronising accesses.
(DEDUCED, log entry 49.) -/
def State.relWaits (s : State) (c : Ctx) (dev : Nat) : List Out :=
  s.unperformed (c.order.outs.filter fun x => x.kind != .hit && (x.dev == dev || x.dev == s.devNum || x.sync))

/-- The release part of an access (R77, R78): plain goes on, rel waits, relc waits for everything and ends on a lost peer
with no access: a peer of its earlier accesses, or the one in `own`, its own destination. -/
def State.releasing (s : State) (c : Ctx) (f : Form) (ord : BitVec 3) (dev op : Nat) (own : List Nat) (k : State → State) : State :=
  if ord = 4 then
    if !(s.unperformed (c.order.outs.filter fun x => x.kind != .hit)).isEmpty then s.stallOn .perform
    else
      let lost := (s.lostAmong (c.order.outs.filter fun x => x.kind != .hit) ++ own.filter fun d => s.lost d).eraseDups
      if lost.isEmpty then k s else s.closing fun s => (s.peerLost c.num op lost).done f
  else if ord = 2 ∨ ord = 3 then if (s.relWaits c dev).isEmpty then k s else s.stallOn .perform
  else k s

/-- A store of bytes that passed its address tests (R259).
(DESIGN CHOICE, log entry 4.) -/
def State.store (s : State) (c : Ctx) (f : Form) (o : MOps) (r : StoreReq) : State :=
  if !(s.acquiring c).isEmpty then s.stallOn .perform
  else if o.bnd then
    if !(r.bytes.all fun b => s.isHbm { dev := r.dev, off := b.1 }) then s.accessFault 5 r.addr r.bytes.length
    else s.storeBundled c f o r
  else
    s.releasing c f o.ord r.dev 1 [r.dev] fun s =>
      let go (s : State) : State :=
        if r.dev ≠ s.devNum then
          (s.dropLines s.cur.core r.dev (linesOf (r.bytes.map (·.1) ++ (r.flag.map (·.1)).toList))).sendStore c f o r none
        else s.storeParts c f (o.ord == 0 && r.flag.isNone && !r.bytes.isEmpty) (o.ord != 0 && r.flag.isNone) r
      if o.ord = 0 then go s
      else
        let checked : Bool := r.dev == s.devNum && r.flag.isNone && match s.heldSeat c.tenant (r.bytes.map (·.1)) with
          | .inl _ => true
          | .inr _ => false
        let lines := if checked then s.raceLines c.tenant (r.bytes.map (·.1)) else []
        s.closingWith (s.conflicts (s.party c) true lines) go

/-- The mapped range of a store's base: that of the byte before it, for a zero-byte store at the end of a range (R100). -/
def State.basePlace (s : State) (t : Tgt) : Place :=
  if s.place t.dev t.off = .hole ∧ 0 < t.off then s.place t.dev (t.off - 1) else s.place t.dev t.off

/-- The flag of a flagged store (R93): its GA tested, on the data's device, an 8-byte word in HBM beside data in HBM, else
a sync word in the data's window. -/
def State.withFlag (s : State) (c : Ctx) (o : MOps) (data : Tgt) (k : Option (Nat × Bool) → State → State) : State :=
  if !o.fl then k none s
  else
    let ga := c.srcS [] o.flag
    let home := s.basePlace data
    let hbm := home == .hbm
    match s.testAddr (.ga ga) (if hbm then 8 else 16) with
    | .inl sub => s.accessFault sub ga (if hbm then 8 else 16)
    | .inr t =>
      if t.dev ≠ data.dev then s.accessFault 5 ga 8
      else if hbm then
        if s.place t.dev t.off = .hbm ∧ t.off % 8 = 0 then k (some (t.off, false)) s else s.accessFault 5 ga 8
      else if s.place t.dev t.off = home ∧ t.off % 16 = 0 ∧ !launchArea t.off
        ∧ s.place t.dev t.off ≠ .control then k (some (t.off, true)) s
      else s.accessFault 5 ga 16

/-! ## Atomics and reductions (R263 to R266) -/

/-- An atomic or reduction on `w` bytes (R80, R81, R264, R266): `fin` takes the old value where one is returned.  One that has been sent
only awaits its reply. -/
def State.atomic (s : State) (c : Ctx) (f : Form) (o : MOps) (t : Tgt) (op : AtomOp) (w : Nat) (b : Word) (ret : Bool)
    (fin : Nat → BitVec 7 → State → State) : State :=
  let acq := o.ord = 1 ∨ o.ord = 3
  let offs := (List.range w).map (t.off + ·)
  let finish (old : Nat) (fl : BitVec 7) (s : State) : State := if ret then fin old fl s else s.done f
  let ask (s : State) : State :=
    s.askDevice c f t.dev t.ga w false [] [] (.atomic c.num c.handle t.off op w b true) fun r s =>
      let s1 := s.dropLines s.cur.core t.dev (linesOf offs)
      let s2 := if acq then s1.acquire else s1
      match r with
      | .data bytes fl _ _ => finish (valOf (bytes.take w)) fl s2
      | _ => finish 0 0 s2
  if c.await.isSome then ask s
  else s.releasing c f o.ord t.dev 2 (if ret then [] else [t.dev]) fun s =>
    if !(s.unperformed (c.order.outs.filter fun x => x.sync || (t.dev != s.devNum && x.touches t.dev offs))).isEmpty then
      s.stallOn .perform
    else s.closing fun s =>
      if t.dev = s.devNum then
        match s.heldSeat c.tenant offs with
        | .inr d => (s.denied c d t.ga).done f
        | .inl held =>
          if s.touchesRecord held then (s.denied c .record t.ga).done f
          else
            let s0 := (s.cacheOwners held).takeLine (unitOf s.cur.core o.scope) (held.headD t.off)
            let r := s0.atomicAt op (held.headD t.off) w b.toNat
            let wrote := (op.apply w r.2.1 b.toNat).2.1
            let s1 := if wrote then r.1.dropLines s.cur.core s.devNum (linesOf held) else r.1
            finish r.2.1 r.2.2 (if acq then s1.acquire else s1)
      else if ret then ask (s.dropLines s.cur.core t.dev (linesOf offs))
      else if s.lost t.dev then (s.peerLost c.num 6 [t.dev]).done f
      else
        let s1 := (s.dropLines s.cur.core t.dev (linesOf offs)).packet c t.dev (.atomic c.num c.handle t.off op w b false)
        ((s1.mapCx fun c => c.charge 2700).addOut
          { dev := t.dev, strm := 16, seq := 0, batch := 4, bundled := false, kind := .reduction, sync := true, acq := acq,
            bytes := offs, hdls := [c.handle], pc := c.pc, born := c.retires, sent := s.time }).done f

end Sys2Proof.Machine
end

