-- ==== Sys2Proof/Machine/Sched.lean ====
section
/-! DEFINITION. The scheduler's work on task records and channels: the counters, the transitions of a record, the end of
a firing, and the wait lists (R137 to R150, R153, R160). -/

namespace Sys2Proof.Machine

open Sys2Proof.Bits

/-! ## Channels (R137, R141, R144) -/

/-- Device offset of a GA. -/
def gaOff (ga : Nat) : Nat := field ga 0 45
/-- Device number of a GA, the alias replaced (R9). -/
def State.gaDev (s : State) (ga : Nat) : Nat := field (s.resolve (BitVec.ofNat 64 ga)) 45 12

/-- A field of the channel descriptor at a device offset. -/
def State.chan (s : State) (off lo len : Nat) : Nat := field (s.mem.readNat off 64) lo len
/-- RD. -/
def State.chanRd (s : State) (off : Nat) : Nat := s.chan off 128 64
/-- WR. -/
def State.chanWr (s : State) (off : Nat) : Nat := s.chan off 192 64
/-- ITEMS. -/
def State.chanItems (s : State) (off : Nat) : Nat := s.chan off 64 32
/-- ITEMSZ. -/
def State.chanItemSize (s : State) (off : Nat) : Nat := s.chan off 96 16

/-- Word `i` of a record's argument block. -/
def State.argWord (s : State) (p idx i : Nat) : Nat := s.mem.readNat (gaOff (s.recGet p idx 192 64) + 8 * i) 8

/-- A bound port of a record: its descriptor's device offset, its rate, and whether it is an input. -/
structure Port where
  off : Nat
  rate : Nat
  input : Bool
  deriving DecidableEq, Repr

/-- The bound ports of a record (R144): inputs first, then outputs; a slot that holds 0 is bound to no channel.
(DESIGN CHOICE, log entry 71.) -/
def State.portsOf (s : State) (p idx : Nat) : List Port :=
  match s.recActor p idx with
  | none => []
  | some a =>
    (List.range (a.nin + a.nout)).filterMap fun i =>
      let ga := s.argWord p idx i
      if ga = 0 then none
      else some { off := gaOff ga, rate := (a.rates[i]?).getD 1, input := decide (i < a.nin) }

/-- The occupancy of a channel (R137). -/
def State.occupancy (s : State) (off : Nat) : Nat := s.chanWr off - s.chanRd off

/-- The channel counter (R141): 0 when every port is ready, else 1. -/
def State.chanCounter (s : State) (p idx : Nat) : Int :=
  if (s.portsOf p idx).all fun q =>
      if q.input then decide (q.rate ≤ s.occupancy q.off)
      else decide (q.rate ≤ s.chanItems q.off - s.occupancy q.off)
  then 0 else 1

/-- CHN of a record. -/
def State.recChn (s : State) (p idx : Nat) : Bool := s.recGet p idx 284 1 == 1

/-! ## Transitions of a record (R140, R142) -/

/-- A record becomes READY (R142, R157): its packet is owed. -/
def State.makeReady (s : State) (p idx : Nat) : State :=
  let s1 := s.setRecState p idx .ready
  let s2 := { s1 with sched := { s1.sched with ready := s1.sched.ready ++ [(p, idx, s1.time)] } }
  if 1 < s.recChain p idx then s2.owe (.chainClaim p idx) else s2.owe (.dispatchPacket p idx)

/-- A record in WAITING whose counters are all zero or negative becomes READY (R140). -/
def State.checkReady (s : State) (p idx : Nat) : State :=
  if s.recState p idx = 1 ∧ (List.range 4).all fun c => decide (s.recCnt p idx c ≤ 0) then s.makeReady p idx else s

/-- Recompute CNT3 of a record with channel ports (R141). -/
def State.recount (s : State) (p idx : Nat) : State :=
  if s.recLive p idx ∧ s.recChn p idx then (s.setRecCnt p idx 3 (s.chanCounter p idx)).checkReady p idx else s

/-- A decrement of a counter of a record (R140): the lower bound is −32,768; ignored, and counted, where the record is not
live or the counter is the channel counter. -/
def State.decrement (s : State) (p idx c n : Nat) : State :=
  if !s.recLive p idx ∨ (c = 3 ∧ s.recChn p idx) then
    { s with sched := { s.sched with ignored := put s.sched.ignored p ((look s.sched.ignored p).getD 0 + 1) } }
  else (s.setRecCnt p idx c (max (s.recCnt p idx c - n) (-32768))).checkReady p idx

/-- The counters at launch (R140, R141). -/
def State.loadCounters (s : State) (p idx : Nat) : State :=
  (List.range 4).foldl (fun s c =>
    s.setRecCnt p idx c (if c = 3 ∧ s.recChn p idx then s.chanCounter p idx else s.recInit p idx c)) s

/-- The counters at END.RE (R140, R141).
(DESIGN CHOICE, log entry 70.) -/
def State.rearmCounters (s : State) (p idx : Nat) : State :=
  (List.range 4).foldl (fun s c =>
    s.setRecCnt p idx c (if c = 3 ∧ s.recChn p idx then s.chanCounter p idx
      else min 32767 (s.recCnt p idx c + s.recInit p idx c))) s

/-- The pointers of a record's channels advanced by their rates, then the records at the other ends recomputed (R145). -/
def State.advance (s : State) (p idx : Nat) : State :=
  let ports := s.portsOf p idx
  let s1 := ports.foldl (fun s q =>
    if q.input then s.writeWord (q.off + 16) 8 (s.chanRd q.off + q.rate)
    else s.writeWord (q.off + 24) 8 (s.chanWr q.off + q.rate)) s
  ports.foldl (fun s q => s.recount p (if q.input then s.chan q.off 256 32 else s.chan q.off 320 32)) s1

/-- A stage record's weight after an END or END.RE (R160). -/
def State.reweigh (s : State) (p idx : Nat) : State :=
  let ports := s.portsOf p idx
  let w := s.recGet p idx 286 4
  let full (q : Port) : Bool := decide (3 * s.chanItems q.off ≤ 4 * s.occupancy q.off)
  let low (q : Port) : Bool := decide (4 * s.occupancy q.off ≤ s.chanItems q.off)
  if s.recGet p idx 285 1 = 0 ∨ ports.isEmpty then s
  else if ports.all fun q => if q.input then full q else low q then s.recPut p idx 286 4 (min 8 (w + 1))
  else if ports.all fun q => if q.input then low q else full q then s.recPut p idx 286 4 (max 1 (w - 1))
  else s

/-! ## Dispatch points as queues (R157, R159, R372) -/

/-- A cluster's dispatch point. -/
def State.point (s : State) (u : Nat) : DispatchPoint := (look s.sched.points u).getD DispatchPoint.fresh

/-- Change a dispatch point. -/
def State.mapPoint (s : State) (u : Nat) (f : DispatchPoint → DispatchPoint) : State :=
  { s with sched := { s.sched with points := put s.sched.points u (f (s.point u)) } }

/-- The class-0 count is 0 whenever no task of a lower class waits (R159). -/
def DispatchPoint.settled (d : DispatchPoint) : DispatchPoint := if d.queue.any fun t => t.cls != 0 then d else { d with zeros := 0 }

/-- Queued tasks that `gone` names leave the dispatch points. -/
def State.unqueue (s : State) (gone : QTask → Bool) : State :=
  { s with sched := { s.sched with points := s.sched.points.map fun (x : Nat × DispatchPoint) =>
      (x.1, ({ x.2 with queue := x.2.queue.filter fun t => !gone t } : DispatchPoint).settled) } }

/-- The queue entry of a record. -/
def State.taskOf (s : State) (p idx : Nat) : QTask :=
  { part := p, record := idx, cls := s.recClass p idx, weight := s.recGet p idx 286 4, stage := s.recGet p idx 285 1 == 1 }

/-- The place of a record in the order of readiness (R159): its place among the records that are READY; one that is not comes last. -/
def State.readiness (s : State) (p idx : Nat) : Nat :=
  (indexOf (fun (r : Nat × Nat × Nat) => (r.1, r.2.1) == (p, idx)) s.sched.ready).getD s.sched.ready.length

/-- A record queued at the dispatch point of its HOME's cluster, at the head of its class where an event was recorded, else in the order of
readiness (R157, R159, R365, R372). -/
def State.queueTask (s : State) (p idx : Nat) (front : Bool) : State :=
  let later (t : QTask) : Bool := decide (s.readiness p idx < s.readiness t.part t.record)
  s.mapPoint (clusterOf (s.recHome p idx)) fun d =>
    { d with queue := if front then s.taskOf p idx :: d.queue
        else d.queue.takeWhile (fun t => !later t) ++ s.taskOf p idx :: d.queue.dropWhile fun t => !later t }

/-- The record of a context that has left its seat: YIELDED, and queued in its class, once every member of the chain is
saved (R153, R365, R366, R372). -/
def State.yieldRecord (s : State) (c : Ctx) : State :=
  let others := c.chain.filter fun n => n != c.num
  let members := c :: s.saved.filter fun d => others.contains d.num
  if (others.any fun n => s.hasSeat n) ∨ !s.recLive c.part c.record then s
  else
    let evt := members.any fun d => d.evt
    ((s.setRecState c.part c.record .yielded).recPut c.part c.record 61 1 (ofBool evt)).queueTask c.part c.record evt

/-! ## The end of a firing (R145, R148, R153) -/

/-- A record woken, or not parked at all (R148, R150): READY with CONT and its cause. -/
def State.wakeRecord (s : State) (p idx cause : Nat) : State :=
  ((s.recPut p idx 60 1 1).recPut p idx 281 3 cause).makeReady p idx

/-- The reporter of a record without a context.
(DEDUCED, log entry 33.) -/
def State.recReporter (s : State) (p idx : Nat) : Reporter :=
  let tver := match s.image (s.recImage p idx) (s.recIgen p idx) with
    | some i => i.code.tver
    | none => 0
  { part := p, tenant := s.partTenant p, seat := { core := 0, seat := 0 }, lslot := s.recGet p idx 44 12, ctx := 0xFFFFFFFF,
    record := idx, pc := 0, image := s.recImage p idx, igen := s.recIgen p idx, tver := tver }

/-- A record FAULTED by a step that no instruction makes, with the report (R148, R159, R360). -/
def State.faultRecord (s : State) (p idx : Nat) (f : Flt) : State :=
  (s.endRecord p idx .faulted).report (s.recReporter p idx) f false false 0

/-- The report of a dispatch fault, which has no context (R359, R360): the record becomes FAULTED.
(DEDUCED, log entry 33.) -/
def State.dispatchFault (s : State) (p idx sub aux2 : Nat) : State :=
  s.faultRecord p idx
    { code := 24, sub := sub, val := BitVec.ofNat 64 (s.recImage p idx), aux1 := s.recIgen p idx, aux2 := aux2, pc := 0, detail := 0 }

/-- An access of a WAITV or NOTE that has been checked under a handle and has yet to perform (R23); those that have performed here are
forgotten. -/
def State.noteChecked (s : State) (h : BitVec 32) (x : Checked) : State :=
  let open' (y : BitVec 32 × Checked) : Bool := match y.2 with
    | .here i => s.pend.contains i
    | _ => true
  { s with sched := { s.sched with checked := s.sched.checked.filter open' ++ [(h, x)] } }

/-- A step owed for an access that was checked under a handle (R23). -/
def State.oweChecked (s : State) (h : BitVec 32) (i : Instr) : State := (s.noteChecked h (.here i)).owe i

/-- Is a checked access the WAITV of a record at a device? -/
def Checked.isWait (x : Checked) (dev part rec' : Nat) : Bool := x == .wait dev part rec'

/-- Is a checked access a NOTE of a context on a word of a device? -/
def Checked.isNote (x : Checked) (dev ctx off : Nat) : Bool :=
  match x with
  | .note d n o _ _ => d == dev && n == ctx && o == off
  | _ => false

/-- A checked access has performed at another device, or is made no more (R23). -/
def State.checkedDone (s : State) (isIt : Checked → Bool) : State :=
  { s with sched := { s.sched with checked := dropFirst (fun y => isIt y.2) s.sched.checked } }

/-- What a record does when its firing has ended (R142); one that awaits a word of a lost device is woken at once (R135).
(DESIGN CHOICE, log entry 76.) -/
def State.applyEnding (s : State) (p idx : Nat) (e : Ending) : State :=
  match e with
  | .done => ((s.advance p idx).reweigh p idx).endRecord p idx .done
  | .rearm =>
    let s1 := (s.advance p idx).reweigh p idx
    let s2 := ((s1.setRecState p idx .waiting).recPut p idx 60 1 0).recPut p idx 281 3 0
    (s2.rearmCounters p idx).checkReady p idx
  | .wait ga val resume handle =>
    let s1 := ((s.recPut p idx 320 32 resume).recPut p idx 384 64 ga).recPut p idx 448 64 val
    let dev := s.gaDev ga
    if dev = s.devNum then s1.oweChecked handle (.waitEnqueue p idx (gaOff ga) (BitVec.ofNat 64 val))
    else if s.lost dev then s1.wakeRecord p idx 2
    else
      let s1 := s1.setRecState p idx .parked
      let s2 := ({ s1 with sched := { s1.sched with abroad := s1.sched.abroad ++ [(dev, p, idx)] } } : State).noteChecked handle (.wait dev p idx)
      s2.send (.packet { src := s.devNum, dst := dev, time := s.time, hop := 0, tenant := s.partTenant p,
                         lslot := some (s.recGet p idx 44 12), cls := s.recClass p idx,
                         tagOk := true, keyGen := s.worldGen (s.partTenant p),
                         body := .waitv p idx handle (gaOff ga) (BitVec.ofNat 64 val) })

/-- s1 to s8 written into the argument block, but for the port slots (R148). -/
def State.saveArgs (s : State) (c : Ctx) : State :=
  let base := gaOff (s.recGet c.part c.record 192 64)
  (List.range 8).foldl (fun s i =>
    if i < c.ports.length then s else s.writeWord (base + 8 * i) 8 (c.regs.getS (i + 1)).toNat) s

/-- End the firing of the context in focus (R145, R153): position 0 of a chain decides, when every member has ended.  A record that is not
DONE keeps its context (R367).  The last member of a chain on a seat may leave the others YIELDED.
(DEDUCED, log entry 95.) -/
def State.endFiring (s : State) (c : Ctx) (e : Ending) : State :=
  if c.chain.isEmpty then (s.release c true (e != .done)).applyEnding c.part c.record e
  else
    let s1 := s.release c true true
    match s1.sched.chains.find? fun r => r.part == c.part && r.record == c.record with
    | none => s1
    | some r =>
      let r1 := { r with alive := r.alive.filter (· != c.num), ending := if c.chainAt = 0 then some e else r.ending }
      let rest := s1.sched.chains.filter fun x => !(x.part == c.part && x.record == c.record)
      if r1.alive.isEmpty then
        let s2 := { s1 with sched := { s1.sched with chains := rest } }
        match r1.ending with
        | some d => s2.applyEnding c.part c.record d
        | none => s2
      else
        let s2 := { s1 with sched := { s1.sched with chains := rest ++ [r1] } }
        match s2.saved.find? fun d => r1.alive.contains d.num with
        | some d => s2.yieldRecord d
        | none => s2

/-- An ending instruction (R145, R247, R248, R399): it waits for the accesses to this device and the acceptance of every engine command; the open bundle
closes first, its status discarded; then the region closes, and the firing ends. -/
def State.ending (s : State) (f : Form) (e : State → Ctx → Ending) (before : Ctx → State → State) : State :=
  match s.cx with
  | none => s
  | some c =>
    if c.order.conflict.isSome ∨ !(s.hitsOut c).isEmpty then s.closing id
    else if c.fault.isSome ∨ s.ownOut c ∨ c.queues.any fun q => q.cmds.any fun k => k.phase == .issued then s.stallOn .perform
    else
      let finish (s : State) : State := s.closing fun s =>
        let s1 := (before c s).retire f
        match s1.cx with
        | none => s1
        | some d => s1.endFiring d (e s c)
      match c.order.bundle with
      | none => finish s
      | some b => s.closeBundle c b fun _ s => finish s

/-! ## Wait lists (R148, R150) -/

/-- The condition of a WAITV at its word (R148). -/
def State.waitMet (s : State) (off : Nat) (val : Word) : Bool := decide (val.toNat ≤ s.mem.readNat off 8)

/-- The words that a slice's wait table holds (R150). -/
def State.waitTable (s : State) (slice : Nat) : List Nat :=
  ((s.slices.waiters.filter fun w => !w.overflow && homeSlice w.off == slice).map (·.off)).eraseDups

/-- The LINK fields of the records parked on a word, in enqueue order (R138, R150). -/
def State.relink (s : State) (off : Nat) : State :=
  let ws := s.slices.waiters.filter fun w => w.off == off && !w.overflow && w.dev == s.devNum
  (ws.zip ((ws.drop 1).map some ++ [none])).foldl (fun (s : State) (p : Waiter × Option Waiter) =>
    s.recPut p.1.part p.1.record 352 32 (match p.2 with
      | some n => n.record
      | none => 0)) s

/-- A parked record made READY (R150): one of another device is woken there, with a message. -/
def State.wakeWaiter (s : State) (w : Waiter) : State :=
  let s1 := ({ s with slices := { s.slices with waiters := s.slices.waiters.filter (· != w) } } : State).relink w.off
  if w.dev = s.devNum then
    if s.recLive w.part w.record ∧ s.recState w.part w.record = 5 then
      (s1.recPut w.part w.record 352 32 0).wakeRecord w.part w.record 1
    else s1
  else s1.packet0 w.dev (.wake w.part w.record 1)

/-- A record enqueued on a word, in one step with the test of its condition (R148, R150). -/
def State.enqueueWait (s : State) (dev part rec off : Nat) (val : Word) : State :=
  let w : Waiter :=
    { dev := dev, off := off, part := part, record := rec, val := val,
      overflow := !(s.waitTable (homeSlice off)).contains off
        && decide (Config.waitWords ≤ (s.waitTable (homeSlice off)).length) }
  let s1 : State := { s with slices := { s.slices with waiters := s.slices.waiters ++ [w] } }
  if s.waitMet off val then
    if dev = s.devNum then s.wakeRecord part rec 1
    else s.packet0 dev (.wake part rec 1)
  else if dev = s.devNum then (s1.setRecState part rec .parked).relink off
  else s1

/-- The waiters of some list whose condition holds are woken; at most one for NOTE.ONE (R150). -/
def State.noteAt (s : State) (off : Nat) (all : Bool) : State :=
  let met := s.slices.waiters.filter fun w => !w.overflow && w.off == off && s.waitMet off w.val
  let s1 := (if all then met else met.take 1).foldl (fun s w => s.wakeWaiter w) s
  let spilled := s1.slices.waiters.filter fun w => w.overflow && homeSlice w.off == homeSlice off && s1.waitMet w.off w.val
  spilled.foldl (fun s w => s.wakeWaiter w) s1

end Sys2Proof.Machine
end

