-- ==== Sys2Proof/Machine/Control.lean ====
section
/-! DEFINITION. The branches, calls and loops, REP, NOP and PAD, the ends of a firing, and a word that is no instruction
(R169 to R171, R186, R187, R245 to R251). -/

namespace Sys2Proof.Machine

open Sys2Proof.Bits

/-- Retire a control form at another program counter (R245). -/
def State.doneTo (s : State) (f : Form) (pc : BitVec 32) : State := (s.mapCx fun c => c.consume f).retireTo f pc

/-- The target of an offset form: PC + 4 × OFF (R245). -/
def Ctx.branchTo (c : Ctx) (off : BitVec 24) : BitVec 32 := c.pc + 4 * off.signExtend 32

/-- The address after a control form (R245). -/
def Ctx.after (c : Ctx) : BitVec 32 := c.pc + 8

/-- BR (R245). -/
def execBr (o : BOps) (s : State) : Result :=
  s.run (.b 0x034 o) fun c s => s.doneTo (.b 0x034 o) (c.branchTo o.off)

/-- BRI (R245). -/
def execBri (o : BOps) (s : State) : Result :=
  s.run (.b 0x035 o) fun c s => s.doneTo (.b 0x035 o) ((c.valA o.sa).setWidth 32)

/-- CALL (R245): the link is a scalar result. -/
def execCall (o : BOps) (s : State) : Result :=
  s.run (.b 0x036 o) fun c s =>
    (s.putScalar o.dst (c.after.setWidth 64)).doneTo (.b 0x036 o) (c.branchTo o.off)

/-- CALLI (R245): SA is read before the link is written. -/
def execCalli (o : BOps) (s : State) : Result :=
  s.run (.b 0x037 o) fun c s =>
    (s.putScalar o.dst (c.after.setWidth 64)).doneTo (.b 0x037 o) ((c.valA o.sa).setWidth 32)

/-- RET (R245): BRI in all but the seat's target prediction. -/
def execRet (o : BOps) (s : State) : Result :=
  s.run (.b 0x038 o) fun c s => s.doneTo (.b 0x038 o) ((c.valA o.sa).setWidth 32)

/-- LOOP (R245). -/
def execLoop (o : BOps) (s : State) : Result :=
  s.run (.b 0x039 o) fun c s =>
    let n := Word.minus (c.valA o.sa) 1
    (s.putScalar o.dst n).doneTo (.b 0x039 o) (if n ≠ 0 then c.branchTo o.off else c.after)

/-- END (R145, R247, R248). -/
def execEndF (o : COps) (s : State) : Result :=
  s.run (.c 0x03A o) fun _ s => s.ending (.c 0x03A o) (fun _ _ => .done) fun _ s => s

/-- END.RE (R140, R145, R247, R248). -/
def execEndRe (o : COps) (s : State) : Result :=
  s.run (.c 0x03B o) fun _ s => s.ending (.c 0x03B o) (fun _ _ => .rearm) fun _ s => s

/-- Does every repetition of a REP pass its check in this context (R187)? -/
def State.repPasses (s : State) (c : Ctx) (p : POps) : Bool :=
  match s.formAt c (c.pc.toNat + 8) with
  | none => false
  | some t => repOk p t && (List.range (p.count.toNat + 1)).all fun j => (c.decodeItem (t.stepped p j)).isNone

/-- REP (R187): the checks of all repetitions, then REPST with the program counter still at the REP. -/
def execRep (o : POps) (s : State) : Result :=
  s.run (.p 0x03C o) fun c s =>
    if !s.repPasses c o then s.decodeFault 9 ((Form.p 0x03C o).bits.setWidth 64)
    else s.mapCx fun c =>
      { (c.retired (.p 0x03C o)).mapCsrs fun r => { r with repst := repstOf 0 (o.count.toNat + 1) true } with pc := c.pc }

/-- NOP (R249). -/
def execNop (o : COps) (s : State) : Result := s.run (.c 0x03D o) fun _ s => s.done (.c 0x03D o)

/-- PAD_SKIP (R170): the next fetch-block boundary, and nothing else. -/
def execPadSkip (s : State) : Result :=
  .next (s.mapCx fun c => { c with pc := BitVec.ofNat 32 ((c.pc.toNat / 32 + 1) * 32) })

/-- UNASSIGNED_OP_VALUE (R171): the decode fault of bits that decode to nothing. -/
def execUnassignedOpValue (item : Nat) (bits : Word) (s : State) : Result := .next (s.decodeFault item bits)

end Sys2Proof.Machine
end

