-- ==== Sys2Proof/Machine/Int.lean ====
section
/-! DEFINITION. The integer, bit-field, compare, mask, move and address-building instructions (R233 to R241). -/

namespace Sys2Proof.Machine

open Sys2Proof.Bits

/-- The greater of two words, signed. -/
def maxS (a b : Word) : Word := if a.slt b then b else a
/-- The lesser of two words, signed. -/
def minS (a b : Word) : Word := if b.slt a then b else a
/-- The greater of two words, unsigned. -/
def maxU (a b : Word) : Word := if a.ult b then b else a
/-- The lesser of two words, unsigned. -/
def minU (a b : Word) : Word := if b.ult a then b else a

/-- The high 64 bits of the 128-bit product (R235). -/
def mulHigh (sg : Bool) (a b : Word) : Word :=
  if sg then BitVec.ofInt 64 ((a.toInt * b.toInt) / 2 ^ 64) else BitVec.ofNat 64 ((a.toNat * b.toNat) / 2 ^ 64)

/-- The quotient, rounded toward zero (R236). -/
def quotient (sg : Bool) (a b : Word) : Word :=
  if b = 0 then BitVec.allOnes 64
  else if sg then BitVec.ofInt 64 (a.toInt.tdiv b.toInt) else BitVec.ofNat 64 (a.toNat / b.toNat)

/-- The remainder, with the sign of a (R236). -/
def remainder (sg : Bool) (a b : Word) : Word :=
  if b = 0 then a
  else if sg then BitVec.ofInt 64 (a.toInt.tmod b.toInt) else BitVec.ofNat 64 (a.toNat % b.toNat)

/-- A shift amount: b mod 64 (R235). -/
def shiftOf (b : Word) : Nat := b.toNat % 64

/-- The leading zero bits of a word (R237). -/
def leadingZeros (a : Word) : Nat := 64 - Flt.bitLen a.toNat

/-- The one bits of a word (R237). -/
def oneBits (a : Word) : Nat := (List.range 64).foldl (fun n i => n + ofBool (a.getLsbD i)) 0

/-- The low `n` + 1 bits of a word sign-extended (R235). -/
def sextFrom (a : Word) (n : Nat) : Word := BitVec.ofInt 64 (signed (n + 1) a.toNat)

/-- The width that KB gives (R237). -/
def widthOf (kb : BitVec 6) : Nat := if kb = 0 then 64 else kb.toNat

/-- INS (R237): bits of the field above 63 are dropped. -/
def insertField (a b c : Word) (w : Nat) : Word :=
  let p := shiftOf c
  BitVec.ofNat 64 (setField a.toNat p w b.toNat)

/-- A mask of 128 equal bits (R184). -/
def fullMask (b : Bool) : Mask := if b then BitVec.allOnes 128 else 0

/-- A two-source form (R235). -/
def State.binary (s : State) (op : BitVec 9) (o : AOps) (g : Word → Word → Word) : Result :=
  s.scalar (.a op o) o.dst fun c => g (c.valA o.sa) (c.valB o.sa o.sb)

/-- A format I variant: the sign-extended IMM32 takes the place of SB (R234). -/
def State.binaryImm (s : State) (op : BitVec 9) (o : IOps) (g : Word → Word → Word) : Result :=
  s.scalar (.i op o) o.dst fun c => g (c.valA o.sa) (sext 32 o.imm)

/-- A one-source form (R237). -/
def State.unary (s : State) (op : BitVec 9) (o : AOps) (g : Word → Word) : Result :=
  s.scalar (.a op o) o.dst fun c => g (c.valA o.sa)

/-- A three-source form (R237). -/
def State.ternary (s : State) (op : BitVec 9) (o : AOps) (g : Word → Word → Word → Word) : Result :=
  s.scalar (.a op o) o.dst fun c => g (c.valA o.sa) (c.valB o.sa o.sb) (c.valC o.sa o.sb o.sc)

/-- A compare: every bit of the mask holds the result (R238). -/
def State.compare (s : State) (op : BitVec 9) (o : AOps) (g : Word → Word → Bool) : Result :=
  s.run (.a op o) fun c s =>
    (s.putMask o.dst.toNat (fullMask (g (c.valA o.sa) (c.valB o.sa o.sb)))).done (.a op o)

/-- ADD (R235). -/
def execAdd (o : AOps) (s : State) : Result := s.binary 0x000 o Word.plus

/-- ADD_IMM (R235). -/
def execAddImm (o : IOps) (s : State) : Result := s.binaryImm 0x001 o Word.plus

/-- SUB (R235). -/
def execSub (o : AOps) (s : State) : Result := s.binary 0x002 o Word.minus

/-- SUB_IMM (R235). -/
def execSubImm (o : IOps) (s : State) : Result := s.binaryImm 0x003 o Word.minus

/-- MUL (R235). -/
def execMul (o : AOps) (s : State) : Result := s.binary 0x004 o fun a b => a * b

/-- MUL_IMM (R235). -/
def execMulImm (o : IOps) (s : State) : Result := s.binaryImm 0x005 o fun a b => a * b

/-- MULH_S (R235). -/
def execMulhS (o : AOps) (s : State) : Result := s.binary 0x006 o (mulHigh true)

/-- MULH_U (R235). -/
def execMulhU (o : AOps) (s : State) : Result := s.binary 0x007 o (mulHigh false)

/-- DIV_S (R236). -/
def execDivS (o : AOps) (s : State) : Result := s.binary 0x008 o (quotient true)

/-- DIV_U (R236). -/
def execDivU (o : AOps) (s : State) : Result := s.binary 0x009 o (quotient false)

/-- REM_S (R236). -/
def execRemS (o : AOps) (s : State) : Result := s.binary 0x00A o (remainder true)

/-- REM_U (R236). -/
def execRemU (o : AOps) (s : State) : Result := s.binary 0x00B o (remainder false)

/-- AND (R235). -/
def execAnd (o : AOps) (s : State) : Result := s.binary 0x00C o fun a b => a &&& b

/-- AND_IMM (R235). -/
def execAndImm (o : IOps) (s : State) : Result := s.binaryImm 0x00D o fun a b => a &&& b

/-- OR (R235). -/
def execOr (o : AOps) (s : State) : Result := s.binary 0x00E o fun a b => a ||| b

/-- OR_IMM (R235). -/
def execOrImm (o : IOps) (s : State) : Result := s.binaryImm 0x00F o fun a b => a ||| b

/-- XOR (R235). -/
def execXor (o : AOps) (s : State) : Result := s.binary 0x010 o fun a b => a ^^^ b

/-- XOR_IMM (R235). -/
def execXorImm (o : IOps) (s : State) : Result := s.binaryImm 0x011 o fun a b => a ^^^ b

/-- SHL (R235). -/
def execShl (o : AOps) (s : State) : Result := s.binary 0x012 o fun a b => a <<< shiftOf b

/-- SHR_L (R235). -/
def execShrL (o : AOps) (s : State) : Result := s.binary 0x013 o fun a b => a >>> shiftOf b

/-- SHR_A (R235). -/
def execShrA (o : AOps) (s : State) : Result := s.binary 0x014 o fun a b => a.sshiftRight (shiftOf b)

/-- ROT (R235). -/
def execRot (o : AOps) (s : State) : Result := s.binary 0x015 o fun a b => a.rotateLeft (shiftOf b)

/-- MIN_S (R235). -/
def execMinS (o : AOps) (s : State) : Result := s.binary 0x016 o minS

/-- MIN_U (R235). -/
def execMinU (o : AOps) (s : State) : Result := s.binary 0x017 o minU

/-- MAX_S (R235). -/
def execMaxS (o : AOps) (s : State) : Result := s.binary 0x018 o maxS

/-- MAX_U (R235). -/
def execMaxU (o : AOps) (s : State) : Result := s.binary 0x019 o maxU

/-- CLAMP_S (R237). -/
def execClampS (o : AOps) (s : State) : Result := s.ternary 0x01A o fun a b c => minS (maxS a b) c

/-- CLAMP_U (R237). -/
def execClampU (o : AOps) (s : State) : Result := s.ternary 0x01B o fun a b c => minU (maxU a b) c

/-- ABS (R237). -/
def execAbs (o : AOps) (s : State) : Result := s.unary 0x01C o fun a => if a.slt 0 then 0 - a else a

/-- CLZ (R237). -/
def execClz (o : AOps) (s : State) : Result := s.unary 0x01D o fun a => BitVec.ofNat 64 (leadingZeros a)

/-- POPC (R237). -/
def execPopc (o : AOps) (s : State) : Result := s.unary 0x01E o fun a => BitVec.ofNat 64 (oneBits a)

/-- SEXT (R235). -/
def execSext (o : AOps) (s : State) : Result := s.binary 0x01F o fun a b => sextFrom a (shiftOf b)

/-- EXT_S (R237). -/
def execExtS (o : AOps) (s : State) : Result := s.binary 0x020 o fun a b => sextFrom (a.sshiftRight (shiftOf b)) (widthOf o.kb - 1)

/-- EXT_U (R237). -/
def execExtU (o : AOps) (s : State) : Result := s.binary 0x021 o fun a b => BitVec.ofNat 64 (field a.toNat (shiftOf b) (widthOf o.kb))

/-- INS (R237). -/
def execIns (o : AOps) (s : State) : Result := s.ternary 0x022 o fun a b c => insertField a b c (widthOf o.kb)

/-- MAD (R237). -/
def execMad (o : AOps) (s : State) : Result := s.ternary 0x023 o fun a b c => a * b + c

/-- SEL (R237): SC holds a mask number. -/
def execSel (o : AOps) (s : State) : Result :=
  s.scalar (.a 0x024 o) o.dst fun c =>
    if maskBit (c.regs.getM o.sc.toNat) 0 then c.valA o.sa else c.valB o.sa o.sb

/-- CMP_EQ (R238). -/
def execCmpEq (o : AOps) (s : State) : Result := s.compare 0x025 o fun a b => a == b

/-- CMP_NE (R238). -/
def execCmpNe (o : AOps) (s : State) : Result := s.compare 0x026 o fun a b => a != b

/-- CMP_LT (R238). -/
def execCmpLt (o : AOps) (s : State) : Result := s.compare 0x027 o fun a b => a.slt b

/-- CMP_GE (R238). -/
def execCmpGe (o : AOps) (s : State) : Result := s.compare 0x028 o fun a b => !a.slt b

/-- CMP_LTU (R238). -/
def execCmpLtu (o : AOps) (s : State) : Result := s.compare 0x029 o fun a b => a.ult b

/-- CMP_GEU (R238). -/
def execCmpGeu (o : AOps) (s : State) : Result := s.compare 0x02A o fun a b => !a.ult b

/-- MLOG's combination of two masks by a truth table (R239). -/
def maskLogic (t : Nat) (a b : Mask) : Mask :=
  maskOf 128 fun i => bit t (2 * ofBool (maskBit a i) + ofBool (maskBit b i))

/-- MLOG (R239). -/
def execMlog (o : AOps) (s : State) : Result :=
  s.run (.a 0x02B o) fun c s =>
    (s.putMask o.dst.toNat (maskLogic o.ka.toNat (c.regs.getM o.sc.toNat) (c.regs.getM o.kb.toNat))).done (.a 0x02B o)

/-- MOV (R240). -/
def execMov (o : AOps) (s : State) : Result := s.unary 0x02C o fun a => a

/-- MOVI_W (R240). -/
def execMoviW (o : IOps) (s : State) : Result := s.scalar (.i 0x02D o) o.dst fun _ => sext 32 o.imm

/-- MOVI_D (R240). -/
def execMoviD (o : LOps) (s : State) : Result := s.scalar (.l 0x02E o) o.dst fun _ => o.imm

/-- GA_MK (R241). -/
def execGaMk (o : AOps) (s : State) : Result := s.binary 0x02F o fun a b => BitVec.ofNat 64 (field a.toNat 0 12 * 2 ^ 45 + field b.toNat 0 45)

/-- GA_DEV (R241): the alias is replaced by this device's number. -/
def execGaDev (o : AOps) (s : State) : Result :=
  s.unary 0x030 o fun a =>
    let d := field a.toNat 45 12
    BitVec.ofNat 64 (if d = Config.aliasDev then s.devNum else d)

/-- CHKR_R (R242, R243). -/
def execChkrR (o : AOps) (s : State) : Result := s.run (.a 0x031 o) fun _ s => s.chkr 0x031 o .read

/-- CHKR_W (R242, R243). -/
def execChkrW (o : AOps) (s : State) : Result := s.run (.a 0x032 o) fun _ s => s.chkr 0x032 o .write

/-- CHKR_X (R242, R243). -/
def execChkrX (o : AOps) (s : State) : Result := s.run (.a 0x033 o) fun _ s => s.chkr 0x033 o .execute

end Sys2Proof.Machine
end

