-- ==== Sys2Proof/Machine/MemScalar.lean ====
section
/-! DEFINITION. The scalar loads and stores, the atomics and the reductions (R257 to R259, R263 to R266). -/

namespace Sys2Proof.Machine

open Sys2Proof.Bits

/-- The offsets of `w` bytes from a place. -/
def Tgt.bytes (t : Tgt) (w : Nat) : List Nat := (List.range w).map (t.off + ·)

/-- A loaded value extended to 64 bits (R257). -/
def extendTo (w : Nat) (sg : Bool) (n : Nat) : Word :=
  if sg then BitVec.ofInt 64 (signed (8 * w) n) else BitVec.ofNat 64 n

/-- A scalar load of `w` bytes (R257, R258). -/
def State.ld (s : State) (op : BitVec 9) (o : MOps) (w : Nat) (sg : Bool) : Result :=
  s.run (.m op o) fun c s =>
    let a := c.addrIx o
    s.withAddr a w w fun t s =>
      s.load c (.m op o) o t.dev (t.bytes w) a.word w fun bs s =>
        (s.putScalar o.dst (extendTo w sg (valOf bs))).done (.m op o)

/-- A scalar store of `w` bytes (R257, R259): DST is its data. -/
def State.st (s : State) (op : BitVec 9) (o : MOps) (w : Nat) : Result :=
  s.run (.m op o) fun c s =>
    let a := c.addrIx o
    s.withAddr a w w fun t s =>
      if launchArea t.off then s.accessFault 5 a.word w
      else s.withFlag c o t fun fl s =>
        s.store c (.m op o) o
          { dev := t.dev, base := t.off, bytes := (t.bytes w).zip (bytesOf w (c.srcS [o.sa, o.sb] o.dst).toNat),
            count := w, flag := fl, addr := a.word }

/-- The address tests of an atomic or reduction: natural alignment, and no launch area (R46, R254). -/
def State.atomAddr (s : State) (c : Ctx) (o : MOps) (w : Nat) (k : Tgt → State → State) : State :=
  let a := c.addr o 0
  s.withAddr a w w fun t s => if launchArea t.off then s.accessFault 5 a.word w else k t s

/-- An atomic of `w` bytes: the old value zero-extended to DST and y0 (R264). -/
def State.atom (s : State) (op : BitVec 9) (o : MOps) (w : Nat) (k : AtomOp) : Result :=
  s.run (.m op o) fun c s =>
    s.atomAddr c o w fun t s =>
      s.atomic c (.m op o) o t k w ((c.valB o.sa o.sb).setWidth (8 * w) |>.setWidth 64) true fun old _ s =>
        (s.putScalar o.dst (BitVec.ofNat 64 old)).done (.m op o)

/-- A reduction of `w` bytes: an atomic that returns nothing (R266). -/
def State.reduce (s : State) (op : BitVec 9) (o : MOps) (w : Nat) (k : AtomOp) : Result :=
  s.run (.m op o) fun c s =>
    s.atomAddr c o w fun t s =>
      s.atomic c (.m op o) o t k w ((c.valB o.sa o.sb).setWidth (8 * w) |>.setWidth 64) false fun _ _ s => s.done (.m op o)

/-- LD_B (R257, R258). -/
def execLdB (o : MOps) (s : State) : Result := s.ld 0x040 o 1 false

/-- LD_H (R257, R258). -/
def execLdH (o : MOps) (s : State) : Result := s.ld 0x041 o 2 false

/-- LD_W (R257, R258). -/
def execLdW (o : MOps) (s : State) : Result := s.ld 0x042 o 4 false

/-- LD_D (R257, R258). -/
def execLdD (o : MOps) (s : State) : Result := s.ld 0x043 o 8 false

/-- LD_BS (R257, R258). -/
def execLdBs (o : MOps) (s : State) : Result := s.ld 0x044 o 1 true

/-- LD_HS (R257, R258). -/
def execLdHs (o : MOps) (s : State) : Result := s.ld 0x045 o 2 true

/-- LD_WS (R257, R258). -/
def execLdWs (o : MOps) (s : State) : Result := s.ld 0x046 o 4 true

/-- ST_B (R257, R259). -/
def execStB (o : MOps) (s : State) : Result := s.st 0x047 o 1

/-- ST_H (R257, R259). -/
def execStH (o : MOps) (s : State) : Result := s.st 0x048 o 2

/-- ST_W (R257, R259). -/
def execStW (o : MOps) (s : State) : Result := s.st 0x049 o 4

/-- ST_D (R257, R259). -/
def execStD (o : MOps) (s : State) : Result := s.st 0x04A o 8

/-- AADD_W (R263, R264). -/
def execAaddW (o : MOps) (s : State) : Result := s.atom 0x055 o 4 .add

/-- AADD_D (R263, R264). -/
def execAaddD (o : MOps) (s : State) : Result := s.atom 0x056 o 8 .add

/-- AAND_W (R263, R264). -/
def execAandW (o : MOps) (s : State) : Result := s.atom 0x057 o 4 .and

/-- AAND_D (R263, R264). -/
def execAandD (o : MOps) (s : State) : Result := s.atom 0x058 o 8 .and

/-- AOR_W (R263, R264). -/
def execAorW (o : MOps) (s : State) : Result := s.atom 0x059 o 4 .or

/-- AOR_D (R263, R264). -/
def execAorD (o : MOps) (s : State) : Result := s.atom 0x05A o 8 .or

/-- AXOR_W (R263, R264). -/
def execAxorW (o : MOps) (s : State) : Result := s.atom 0x05B o 4 .xor

/-- AXOR_D (R263, R264). -/
def execAxorD (o : MOps) (s : State) : Result := s.atom 0x05C o 8 .xor

/-- AMINS_W (R263, R264). -/
def execAminsW (o : MOps) (s : State) : Result := s.atom 0x05D o 4 .minS

/-- AMINS_D (R263, R264). -/
def execAminsD (o : MOps) (s : State) : Result := s.atom 0x05E o 8 .minS

/-- AMINU_W (R263, R264). -/
def execAminuW (o : MOps) (s : State) : Result := s.atom 0x05F o 4 .minU

/-- AMINU_D (R263, R264). -/
def execAminuD (o : MOps) (s : State) : Result := s.atom 0x060 o 8 .minU

/-- AMAXS_W (R263, R264). -/
def execAmaxsW (o : MOps) (s : State) : Result := s.atom 0x061 o 4 .maxS

/-- AMAXS_D (R263, R264). -/
def execAmaxsD (o : MOps) (s : State) : Result := s.atom 0x062 o 8 .maxS

/-- AMAXU_W (R263, R264). -/
def execAmaxuW (o : MOps) (s : State) : Result := s.atom 0x063 o 4 .maxU

/-- AMAXU_D (R263, R264). -/
def execAmaxuD (o : MOps) (s : State) : Result := s.atom 0x064 o 8 .maxU

/-- AXCHG_W (R263, R264). -/
def execAxchgW (o : MOps) (s : State) : Result := s.atom 0x065 o 4 .xchg

/-- AXCHG_D (R263, R264). -/
def execAxchgD (o : MOps) (s : State) : Result := s.atom 0x066 o 8 .xchg

/-- A compare-and-swap of `w` bytes: DST is read before it is written (R263). -/
def State.cas (s : State) (op : BitVec 9) (o : MOps) (w : Nat) : Result :=
  s.run (.m op o) fun c s =>
    s.atomAddr c o w fun t s =>
      s.atomic c (.m op o) o t (.cas (c.srcS [o.sa, o.sb] o.dst)) w ((c.valB o.sa o.sb).setWidth (8 * w) |>.setWidth 64) true
        fun old _ s => (s.putScalar o.dst (BitVec.ofNat 64 old)).done (.m op o)

/-- ACAS_W (R263, R264). -/
def execAcasW (o : MOps) (s : State) : Result := s.cas 0x067 o 4

/-- ACAS_D (R263, R264). -/
def execAcasD (o : MOps) (s : State) : Result := s.cas 0x068 o 8

/-- AFADD_W (R265): FMODE.RM as captured at issue, and the flags ORed into FSTAT when it retires. -/
def execAfaddW (o : MOps) (s : State) : Result :=
  s.run (.m 0x069 o) fun c s =>
    s.atomAddr c o 4 fun t s =>
      s.atomic c (.m 0x069 o) o t (.fadd c.rm) 4 ((c.valB o.sa o.sb).setWidth 32 |>.setWidth 64) true fun old fl s =>
        ((s.putScalar o.dst (BitVec.ofNat 64 old)).mapCx fun c => c.raise fl).done (.m 0x069 o)

/-- RADD_W (R266). -/
def execRaddW (o : MOps) (s : State) : Result := s.reduce 0x06A o 4 .add

/-- RADD_D (R266). -/
def execRaddD (o : MOps) (s : State) : Result := s.reduce 0x06B o 8 .add

/-- RFADD_W (R266): the flags are discarded. -/
def execRfaddW (o : MOps) (s : State) : Result :=
  s.run (.m 0x06C o) fun c s =>
    s.atomAddr c o 4 fun t s =>
      s.atomic c (.m 0x06C o) o t (.fadd c.rm) 4 ((c.valB o.sa o.sb).setWidth 32 |>.setWidth 64) false fun _ _ s =>
        s.done (.m 0x06C o)

/-- RMAXS_W (R266). -/
def execRmaxsW (o : MOps) (s : State) : Result := s.reduce 0x06D o 4 .maxS

/-- RMAXS_D (R266). -/
def execRmaxsD (o : MOps) (s : State) : Result := s.reduce 0x06E o 8 .maxS

/-- RMAXU_W (R266). -/
def execRmaxuW (o : MOps) (s : State) : Result := s.reduce 0x06F o 4 .maxU

/-- RMAXU_D (R266). -/
def execRmaxuD (o : MOps) (s : State) : Result := s.reduce 0x070 o 8 .maxU

end Sys2Proof.Machine
end

