-- ==== Sys2Proof/Machine/MemVector.lean ====
section
/-! DEFINITION. The vector loads and stores: lane addresses, lane tests, and the parts of a store by destination
(R44, R45, R260 to R262). -/

namespace Sys2Proof.Machine

open Sys2Proof.Bits

/-- The shapes of a vector access (R260). -/
inductive VShape where
  | linear | row | column | strided | indexed
  deriving DecidableEq, Repr

/-- The tile base and index that a skew form's address names (R260): bits [6:0] cleared, and bits [6:2]. -/
def skewOf (a : Int) : Int × Nat := (a / 128 * 128, ((a % 128) / 4).toNat)

/-- The LA of an element of a skew tile (R45). -/
def skewElem (tb : Int) (row col : Nat) : Int := tb + 128 * row + 4 * ((row + col) % 32)

/-- The address of lane `i` (R260). -/
def Ctx.laneAddr (c : Ctx) (sh : VShape) (o : MOps) (i : Nat) : Addr :=
  match sh with
  | .linear => (c.addrIx o).plus (4 * i)
  | .row => match c.addrIx o with
    | .la a => let t := skewOf a; .la (skewElem t.1 t.2 i)
    | .ga w => .ga w
  | .column => match c.addrIx o with
    | .la a => let t := skewOf a; .la (skewElem t.1 i t.2)
    | .ga w => .ga w
  | .strided => match c.addr o 0 with
    | .la a => .la (a + (i : Int) * (c.srcS [o.sa] o.sb).toInt)
    | .ga w => .ga (w + BitVec.ofNat 64 i * c.srcS [o.sa] o.sb)
  | .indexed => (c.addr o 0).plus (signed 32 (lane 32 (c.srcV [o.sa] o.sb) i))

/-- The active lanes (R184, R260). -/
def Ctx.activeLanes (c : Ctx) (o : MOps) : List Nat :=
  (List.range 32).filter fun i => maskBit (c.predicate o.pred false) i

/-- The fault of a skew form's alignment and placement (R45, R253, R260): a[1:0] zero, the tile inside the scratchpad. -/
def Ctx.skewFault (c : Ctx) (sh : VShape) (o : MOps) : Option (Nat × Word) :=
  if (sh = .row ∨ sh = .column) ∧ !(c.activeLanes o).isEmpty then
    match c.addrIx o with
    | .la a =>
      let tb := (skewOf a).1
      if a % 4 ≠ 0 then some (4, BitVec.ofInt 64 a)
      else if tb < 0 ∨ (0x20000 : Int) < tb + 0x1000 then some (5, BitVec.ofInt 64 a)
      else none
    | .ga _ => none
  else none

/-- Lanes with their places: every active lane passes the address tests and lies in one mapped range of one device, then
every lane is aligned (R253, R254, R261); else the access fault. -/
def State.withLanes (s : State) (c : Ctx) (sh : VShape) (o : MOps) (k : List (Nat × Tgt) → State → State) : State :=
  let lanes := c.activeLanes o
  let addrs := lanes.map fun i => (i, c.laneAddr sh o i)
  match addrs.findSome? fun p => match s.testAddr p.2 4 with
      | .inl sub => some (sub, p.2.word)
      | .inr _ => none with
  | some (sub, w) => s.accessFault sub w 4
  | none =>
    let tgts := addrs.filterMap fun p => match s.testAddr p.2 4 with
      | .inl _ => none
      | .inr t => some (p.1, t)
    let t0 := (tgts.map (·.2)).headD { dev := s.devNum, off := 0 }
    match (addrs.zip tgts).find? fun p =>
        !(p.2.2.dev == t0.dev && s.place p.2.2.dev p.2.2.off == s.place t0.dev t0.off) with
    | some p => s.accessFault 2 p.1.2.word 4
    | none => match (addrs.zip tgts).find? fun p => p.2.2.off % 4 != 0 with
      | some p => s.accessFault 4 p.1.2.word 4
      | none => match c.skewFault sh o with
        | some (sub, w) => s.accessFault sub w 128
        | none => k tgts s

/-- The base of a vector access. -/
def Ctx.vBase (c : Ctx) (sh : VShape) (o : MOps) : Addr :=
  if sh = .strided ∨ sh = .indexed then c.addr o 0 else c.addrIx o

/-- A vector load (R260, R261): active lanes written, inactive ones kept, and y1 with the whole register. -/
def State.vld (s : State) (op : BitVec 9) (o : MOps) (sh : VShape) : Result :=
  s.run (.m op o) fun c s =>
    s.withLanes c sh o fun tgts s =>
      let dev := (tgts.map (·.2.dev)).headD s.devNum
      let offs := tgts.flatMap fun p => p.2.bytes 4
      s.load c (.m op o) o dev offs (c.vBase sh o).word 128 fun bs s =>
        let words := (tgts.map (·.1)).zip ((pieces 4 32 bs).map valOf)
        let old := c.oldV o.dst
        let v := ofLanes 32 ((List.range 32).map fun i => (look words i).getD (lane 32 old i))
        (s.putVector o.dst v).done (.m op o)

/-- Bytes of a vector store in lane order: of lanes that write one word, the highest-numbered stays (R44). -/
def laneBytes (v : Vec) (tgts : List (Nat × Tgt)) : List (Nat × Byte) :=
  let last := tgts.filter fun p => !(tgts.any fun q => decide (p.1 < q.1) && q.2.off == p.2.off)
  last.flatMap fun p => (p.2.bytes 4).zip (bytesOf 4 (lane 32 v p.1))

/-- A vector store (R260 to R262): one access for every test; its flag counts 4 bytes for each active lane. -/
def State.vst (s : State) (op : BitVec 9) (o : MOps) (sh : VShape) : Result :=
  s.run (.m op o) fun c s =>
    let base := (c.vBase sh o)
    if (c.activeLanes o).isEmpty then
      s.withAddr base 0 4 fun t s =>
        s.withFlag c o t fun fl s =>
          s.store c (.m op o) o { dev := t.dev, base := t.off, bytes := [], count := 0, flag := fl, addr := base.word }
    else
      s.withLanes c sh o fun tgts s =>
        match tgts with
        | [] => s
        | (_, t0) :: _ =>
          match tgts.find? fun p => launchArea p.2.off with
          | some p => s.accessFault 5 (BitVec.ofNat 64 (if o.sa = 0 ∧ o.len ≠ 3 then p.2.off - padOff s.cur.core 0 else p.2.ga)) 4
          | none =>
            if o.fl ∧ tgts.any fun p => s.destOf p.2.dev p.2.off != s.destOf t0.dev t0.off then s.accessFault 5 base.word 128
            else s.withFlag c o t0 fun fl s =>
              s.store c (.m op o) o
                { dev := t0.dev, base := t0.off, bytes := laneBytes (c.srcV [o.sa, o.sb] o.dst) tgts, count := 4 * tgts.length,
                  flag := fl,
                  addr := base.word }

/-- VLD_L (R260). -/
def execVldL (o : MOps) (s : State) : Result := s.vld 0x04B o .linear
/-- VLD_R (R45, R260). -/
def execVldR (o : MOps) (s : State) : Result := s.vld 0x04C o .row
/-- VLD_C (R45, R260). -/
def execVldC (o : MOps) (s : State) : Result := s.vld 0x04D o .column
/-- VLDS (R260). -/
def execVlds (o : MOps) (s : State) : Result := s.vld 0x04E o .strided
/-- VLDX (R260). -/
def execVldx (o : MOps) (s : State) : Result := s.vld 0x04F o .indexed
/-- VST_L (R260). -/
def execVstL (o : MOps) (s : State) : Result := s.vst 0x050 o .linear
/-- VST_R (R45, R260). -/
def execVstR (o : MOps) (s : State) : Result := s.vst 0x051 o .row
/-- VST_C (R45, R260). -/
def execVstC (o : MOps) (s : State) : Result := s.vst 0x052 o .column
/-- VSTS (R44, R260). -/
def execVsts (o : MOps) (s : State) : Result := s.vst 0x053 o .strided
/-- VSTX (R44, R260). -/
def execVstx (o : MOps) (s : State) : Result := s.vst 0x054 o .indexed

end Sys2Proof.Machine
end

