-- ==== Sys2Proof/Machine/Vector.lean ====
section
/-! DEFINITION. The vector instructions and the conversions (R228 to R232, R279 to R293). -/

namespace Sys2Proof

open Sys2Proof.Bits

/-- A lane read as its integer type (R215). -/
def laneInt (et : BitVec 4) (n : Nat) : Int :=
  if Flt.etSigned et then signed (Flt.etWidth et) n else ((n % 2 ^ Flt.etWidth et : Nat) : Int)

/-- An integer saturated to its type, with SAT where it is limited (R282). -/
def saturate (et : BitVec 4) (x : Int) : Nat × Flt.Flags :=
  let w := Flt.etWidth et
  let lo : Int := if Flt.etSigned et then -((2 ^ (w - 1) : Nat) : Int) else 0
  let hi : Int := if Flt.etSigned et then ((2 ^ (w - 1) : Nat) : Int) - 1 else ((2 ^ w : Nat) : Int) - 1
  if x < lo then (wrap w lo, Flt.SAT) else if hi < x then (wrap w hi, Flt.SAT) else (wrap w x, 0)

/-- A lane operation: the rounding mode, the element type, and the lanes of A, B and C (R280). -/
abbrev LaneOp := BitVec 2 → BitVec 4 → Nat → Nat → Nat → Nat × Flt.Flags

/-- A wrapping integer lane operation (R282). -/
def laneWrap (g : Int → Int → Int → Int) : LaneOp := fun _ et a b c =>
  (wrap (Flt.etWidth et) (g (laneInt et a) (laneInt et b) (laneInt et c)), 0)

/-- A saturating integer lane operation (R282). -/
def laneSat (g : Int → Int → Int) : LaneOp := fun _ et a b _ => saturate et (g (laneInt et a) (laneInt et b))

/-- The high half of a product (R282). -/
def laneHigh : LaneOp := fun _ et a b _ =>
  let w := Flt.etWidth et
  (wrap w ((laneInt et a * laneInt et b) / ((2 ^ w : Nat) : Int)), 0)

/-- A float lane operation of two lanes (R283, R284). -/
def laneF2 (g : Flt.Fmt → BitVec 2 → Nat → Nat → Nat × Flt.Flags) : LaneOp := fun rm et a b _ => g (Flt.fmtOf et) rm a b

/-- A float lane operation of one lane (R283, R284). -/
def laneF1 (g : Flt.Fmt → BitVec 2 → Nat → Nat × Flt.Flags) : LaneOp := fun rm et a _ _ => g (Flt.fmtOf et) rm a

/-- VFMA.F (R283). -/
def laneFma : LaneOp := fun rm et a b c => Flt.fmaF (Flt.fmtOf et) rm a b c

/-- A bitwise lane operation (R285). -/
def laneBits (g : Nat → Nat → Nat) : LaneOp := fun _ et a b _ => (g a b % 2 ^ Flt.etWidth et, 0)

/-- The shifts, by b mod w (R285). -/
def laneShift (g : Nat → Nat → Nat → Nat) : LaneOp := fun _ et a b _ =>
  let w := Flt.etWidth et
  (g w a (b % w) % 2 ^ w, 0)

/-- An arithmetic right shift that copies the lane's top bit (R285). -/
def shiftRightA (w a n : Nat) : Nat := wrap w (signed w a / ((2 ^ n : Nat) : Int))

/-- The lane that VPERM.Q takes for destination lane `i` of `n` lanes (R288): from A (false) or B (true). -/
def quadLane (ka n i : Nat) : Bool × Nat :=
  let h := n / 2
  match ka with
  | 0 => (i % 2 == 1, i / 2)
  | 1 => (i % 2 == 1, h + i / 2)
  | 2 => (decide (h ≤ i), 2 * (i % h))
  | _ => (decide (h ≤ i), 2 * (i % h) + 1)

/-- The zero point of VCVT: SB[7:0] beside o8, SB[3:0] beside o4, else 0 (R230). -/
def zeroPoint (et target : BitVec 4) (sb : Word) : Nat :=
  if et = 12 ∨ target = 12 then sb.toNat % 256 else if et = 13 ∨ target = 13 then sb.toNat % 16 else 0

/-- The source lane that VCVT converts into destination lane `j`, none outside the window of PART (R229). -/
def cvtLane (ls ld part j : Nat) : Option Nat :=
  let n := min ls ld
  if ld < ls then (if j < n then some (part * n + j) else none)
  else if ls < ld then (if part * n ≤ j ∧ j < part * n + n then some (j - part * n) else none)
  else some j

end Sys2Proof

namespace Sys2Proof.Machine

open Sys2Proof.Bits

/-! ## Shapes (R280) -/

/-- A vector result by lanes: active lanes take `g`, others keep their value or become zero; then the flags, y1, and the
end of the instruction (R280). -/
def State.putLanes (s : State) (c : Ctx) (f : Form) (dst : Spec) (w n : Nat) (active : Nat → Bool) (z : Bool)
    (g : Nat → Nat × Flt.Flags) : State :=
  let old := c.oldV dst
  let r := (List.range n).map fun i => if active i then g i else (if z then 0 else lane w old i, 0)
  let fl := r.foldl (fun a x => a ||| x.2) (0 : Flt.Flags)
  ((s.mapCx fun c => c.raise fl).putVector dst (ofLanes w (r.map (·.1)))).done f

/-- An elementwise form (R280). -/
def State.velem (s : State) (op : BitVec 9) (o : AOps) (z : Bool) (g : LaneOp) : Result :=
  s.run (.a op o) fun c s =>
    let w := Flt.etWidth o.et
    let p := c.predicate o.pred o.pn
    let va := c.srcV [] o.sa
    let vc := c.srcV [o.sa, o.sb] o.sc
    s.putLanes c (.a op o) o.dst w (Flt.etLanes o.et) (maskBit p) z fun i =>
      g c.rm o.et (lane w va i) (c.srcLane [o.sa] o.sb w i) (lane w vc i)

/-- A form that moves whole lanes (R287 to R289): the source lane of each destination lane. -/
def State.vmove (s : State) (op : BitVec 9) (o : AOps) (g : Ctx → Nat → Nat → Nat → Nat) : Result :=
  s.run (.a op o) fun c s =>
    let w := Flt.etWidth o.et
    let n := Flt.etLanes o.et
    s.putLanes c (.a op o) o.dst w n (maskBit (c.predicate o.pred o.pn)) false fun i => (g c w n i, 0)

/-- VCMP (R286): active lanes take the condition, inactive ones keep their bits, bits at and above L are cleared. -/
def State.vcmp (s : State) (op : BitVec 9) (o : AOps) (r : Flt.Rel) : Result :=
  s.run (.a op o) fun c s =>
    let w := Flt.etWidth o.et
    let n := Flt.etLanes o.et
    let p := c.predicate o.pred o.pn
    let va := c.srcV [] o.sa
    let old := c.regs.getM o.dst.toNat
    let res := (List.range n).map fun i =>
      if maskBit p i then Flt.cmpLane r o.et (lane w va i) (c.srcLane [o.sa] o.sb w i) else (maskBit old i, 0)
    let fl := res.foldl (fun a x => a ||| x.2) (0 : Flt.Flags)
    ((s.mapCx fun c => c.raise fl).putMask o.dst.toNat (maskOf n fun i => (res[i]?.map (·.1)).getD false)).done (.a op o)

/-- The active lanes of SA (R290). -/
def Ctx.activeCodes (c : Ctx) (o : AOps) : List Nat :=
  let w := Flt.etWidth o.et
  let p := c.predicate o.pred o.pn
  let va := c.srcV [] o.sa
  ((List.range (Flt.etLanes o.et)).filter fun i => maskBit p i).map fun i => lane w va i

/-- VRED (R290 to R292): a scalar result and the flags. -/
def State.vred (s : State) (op : BitVec 9) (o : AOps) (g : BitVec 2 → List Nat → Word × Flt.Flags) : Result :=
  s.run (.a op o) fun c s =>
    let r := g c.rm (c.activeCodes o)
    ((s.mapCx fun c => c.raise r.2).putScalar o.dst r.1).done (.a op o)

/-- VCVT (R228 to R230): the window's lanes converted or wrapped, the others kept. -/
def State.vcvt (s : State) (op : BitVec 9) (o : AOps) : Result :=
  s.run (.a op o) fun c s =>
    let t := vcvtTarget op.toNat
    let ws := Flt.etWidth o.et
    let w := Flt.etWidth t
    let ls := Flt.etLanes o.et
    let ld := Flt.etLanes t
    let p := c.predicate o.pred o.pn
    let va := c.srcV [] o.sa
    let zp := zeroPoint o.et t (c.valB o.sa o.sb)
    let from' (j : Nat) : Option Nat := cvtLane ls ld o.ka.toNat j
    s.putLanes c (.a op o) o.dst w ld
      (fun j => (from' j).isSome && maskBit p (if t = 13 then j / 2 else j)) false fun j =>
        let code := lane ws va ((from' j).getD 0)
        if o.kb = 1 then (wrap w (laneInt o.et code), 0) else Flt.encode t c.rm zp (Flt.decode o.et zp code)

/-- VADD.I (R282). -/
def execVaddI (o : AOps) (s : State) : Result := s.velem 0x0A0 o false (laneWrap fun a b _ => a + b)

/-- VADD.I.Z (R282): inactive lanes become zero (R280). -/
def execVaddIZ (o : AOps) (s : State) : Result := s.velem 0x0A1 o true (laneWrap fun a b _ => a + b)

/-- VADD.IS (R282). -/
def execVaddIs (o : AOps) (s : State) : Result := s.velem 0x0A2 o false (laneSat fun a b => a + b)

/-- VADD.IS.Z (R282): inactive lanes become zero (R280). -/
def execVaddIsZ (o : AOps) (s : State) : Result := s.velem 0x0A3 o true (laneSat fun a b => a + b)

/-- VADD.NS (R282). -/
def execVaddNs (o : AOps) (s : State) : Result := s.velem 0x0A4 o false (laneSat fun a b => a + b)

/-- VADD.NS.Z (R282): inactive lanes become zero (R280). -/
def execVaddNsZ (o : AOps) (s : State) : Result := s.velem 0x0A5 o true (laneSat fun a b => a + b)

/-- VADD.F (R283). -/
def execVaddF (o : AOps) (s : State) : Result := s.velem 0x0A6 o false (laneF2 Flt.addF)

/-- VADD.F.Z (R283): inactive lanes become zero (R280). -/
def execVaddFZ (o : AOps) (s : State) : Result := s.velem 0x0A7 o true (laneF2 Flt.addF)

/-- VSUB.I (R282). -/
def execVsubI (o : AOps) (s : State) : Result := s.velem 0x0A8 o false (laneWrap fun a b _ => a - b)

/-- VSUB.I.Z (R282): inactive lanes become zero (R280). -/
def execVsubIZ (o : AOps) (s : State) : Result := s.velem 0x0A9 o true (laneWrap fun a b _ => a - b)

/-- VSUB.IS (R282). -/
def execVsubIs (o : AOps) (s : State) : Result := s.velem 0x0AA o false (laneSat fun a b => a - b)

/-- VSUB.IS.Z (R282): inactive lanes become zero (R280). -/
def execVsubIsZ (o : AOps) (s : State) : Result := s.velem 0x0AB o true (laneSat fun a b => a - b)

/-- VSUB.NS (R282). -/
def execVsubNs (o : AOps) (s : State) : Result := s.velem 0x0AC o false (laneSat fun a b => a - b)

/-- VSUB.NS.Z (R282): inactive lanes become zero (R280). -/
def execVsubNsZ (o : AOps) (s : State) : Result := s.velem 0x0AD o true (laneSat fun a b => a - b)

/-- VSUB.F (R283). -/
def execVsubF (o : AOps) (s : State) : Result := s.velem 0x0AE o false (laneF2 Flt.subF)

/-- VSUB.F.Z (R283): inactive lanes become zero (R280). -/
def execVsubFZ (o : AOps) (s : State) : Result := s.velem 0x0AF o true (laneF2 Flt.subF)

/-- VMUL.I (R282). -/
def execVmulI (o : AOps) (s : State) : Result := s.velem 0x0B0 o false (laneWrap fun a b _ => a * b)

/-- VMUL.I.Z (R282): inactive lanes become zero (R280). -/
def execVmulIZ (o : AOps) (s : State) : Result := s.velem 0x0B1 o true (laneWrap fun a b _ => a * b)

/-- VMUL.IH (R282). -/
def execVmulIh (o : AOps) (s : State) : Result := s.velem 0x0B2 o false (laneHigh)

/-- VMUL.IH.Z (R282): inactive lanes become zero (R280). -/
def execVmulIhZ (o : AOps) (s : State) : Result := s.velem 0x0B3 o true (laneHigh)

/-- VMUL.NH (R282). -/
def execVmulNh (o : AOps) (s : State) : Result := s.velem 0x0B4 o false (laneHigh)

/-- VMUL.NH.Z (R282): inactive lanes become zero (R280). -/
def execVmulNhZ (o : AOps) (s : State) : Result := s.velem 0x0B5 o true (laneHigh)

/-- VMUL.F (R283). -/
def execVmulF (o : AOps) (s : State) : Result := s.velem 0x0B6 o false (laneF2 Flt.mulF)

/-- VMUL.F.Z (R283): inactive lanes become zero (R280). -/
def execVmulFZ (o : AOps) (s : State) : Result := s.velem 0x0B7 o true (laneF2 Flt.mulF)

/-- VFMA.I (R282). -/
def execVfmaI (o : AOps) (s : State) : Result := s.velem 0x0B8 o false (laneWrap fun a b c => a * b + c)

/-- VFMA.I.Z (R282): inactive lanes become zero (R280). -/
def execVfmaIZ (o : AOps) (s : State) : Result := s.velem 0x0B9 o true (laneWrap fun a b c => a * b + c)

/-- VFMA.F (R283). -/
def execVfmaF (o : AOps) (s : State) : Result := s.velem 0x0BA o false (laneFma)

/-- VFMA.F.Z (R283): inactive lanes become zero (R280). -/
def execVfmaFZ (o : AOps) (s : State) : Result := s.velem 0x0BB o true (laneFma)

/-- VDIV.F (R283). -/
def execVdivF (o : AOps) (s : State) : Result := s.velem 0x0BC o false (laneF2 Flt.divF)

/-- VDIV.F.Z (R283): inactive lanes become zero (R280). -/
def execVdivFZ (o : AOps) (s : State) : Result := s.velem 0x0BD o true (laneF2 Flt.divF)

/-- VSQRT.F (R283). -/
def execVsqrtF (o : AOps) (s : State) : Result := s.velem 0x0BE o false (laneF1 Flt.sqrtF)

/-- VSQRT.F.Z (R283): inactive lanes become zero (R280). -/
def execVsqrtFZ (o : AOps) (s : State) : Result := s.velem 0x0BF o true (laneF1 Flt.sqrtF)

/-- VMIN.I (R282). -/
def execVminI (o : AOps) (s : State) : Result := s.velem 0x0C0 o false (laneWrap fun a b _ => min a b)

/-- VMIN.I.Z (R282): inactive lanes become zero (R280). -/
def execVminIZ (o : AOps) (s : State) : Result := s.velem 0x0C1 o true (laneWrap fun a b _ => min a b)

/-- VMIN.N (R282). -/
def execVminN (o : AOps) (s : State) : Result := s.velem 0x0C2 o false (laneWrap fun a b _ => min a b)

/-- VMIN.N.Z (R282): inactive lanes become zero (R280). -/
def execVminNZ (o : AOps) (s : State) : Result := s.velem 0x0C3 o true (laneWrap fun a b _ => min a b)

/-- VMIN.F (R284). -/
def execVminF (o : AOps) (s : State) : Result := s.velem 0x0C4 o false (laneF2 fun f _ a b => Flt.minMaxF f false a b)

/-- VMIN.F.Z (R284): inactive lanes become zero (R280). -/
def execVminFZ (o : AOps) (s : State) : Result := s.velem 0x0C5 o true (laneF2 fun f _ a b => Flt.minMaxF f false a b)

/-- VMAX.I (R282). -/
def execVmaxI (o : AOps) (s : State) : Result := s.velem 0x0C6 o false (laneWrap fun a b _ => max a b)

/-- VMAX.I.Z (R282): inactive lanes become zero (R280). -/
def execVmaxIZ (o : AOps) (s : State) : Result := s.velem 0x0C7 o true (laneWrap fun a b _ => max a b)

/-- VMAX.N (R282). -/
def execVmaxN (o : AOps) (s : State) : Result := s.velem 0x0C8 o false (laneWrap fun a b _ => max a b)

/-- VMAX.N.Z (R282): inactive lanes become zero (R280). -/
def execVmaxNZ (o : AOps) (s : State) : Result := s.velem 0x0C9 o true (laneWrap fun a b _ => max a b)

/-- VMAX.F (R284). -/
def execVmaxF (o : AOps) (s : State) : Result := s.velem 0x0CA o false (laneF2 fun f _ a b => Flt.minMaxF f true a b)

/-- VMAX.F.Z (R284): inactive lanes become zero (R280). -/
def execVmaxFZ (o : AOps) (s : State) : Result := s.velem 0x0CB o true (laneF2 fun f _ a b => Flt.minMaxF f true a b)

/-- VABS.I (R282). -/
def execVabsI (o : AOps) (s : State) : Result := s.velem 0x0CC o false (laneWrap fun a _ _ => a.natAbs)

/-- VABS.I.Z (R282): inactive lanes become zero (R280). -/
def execVabsIZ (o : AOps) (s : State) : Result := s.velem 0x0CD o true (laneWrap fun a _ _ => a.natAbs)

/-- VABS.F (R284). -/
def execVabsF (o : AOps) (s : State) : Result := s.velem 0x0CE o false (laneF1 fun f _ a => Flt.signF f false a)

/-- VABS.F.Z (R284): inactive lanes become zero (R280). -/
def execVabsFZ (o : AOps) (s : State) : Result := s.velem 0x0CF o true (laneF1 fun f _ a => Flt.signF f false a)

/-- VNEG.I (R282). -/
def execVnegI (o : AOps) (s : State) : Result := s.velem 0x0D0 o false (laneWrap fun a _ _ => -a)

/-- VNEG.I.Z (R282): inactive lanes become zero (R280). -/
def execVnegIZ (o : AOps) (s : State) : Result := s.velem 0x0D1 o true (laneWrap fun a _ _ => -a)

/-- VNEG.F (R284). -/
def execVnegF (o : AOps) (s : State) : Result := s.velem 0x0D2 o false (laneF1 fun f _ a => Flt.signF f true a)

/-- VNEG.F.Z (R284): inactive lanes become zero (R280). -/
def execVnegFZ (o : AOps) (s : State) : Result := s.velem 0x0D3 o true (laneF1 fun f _ a => Flt.signF f true a)

/-- VAND (R285). -/
def execVand (o : AOps) (s : State) : Result := s.velem 0x0D4 o false (laneBits (· &&& ·))

/-- VOR (R285). -/
def execVor (o : AOps) (s : State) : Result := s.velem 0x0D5 o false (laneBits (· ||| ·))

/-- VXOR (R285). -/
def execVxor (o : AOps) (s : State) : Result := s.velem 0x0D6 o false (laneBits (· ^^^ ·))

/-- VSHL (R285). -/
def execVshl (o : AOps) (s : State) : Result := s.velem 0x0D7 o false (laneShift fun _ a n => a <<< n)

/-- VSHR.L (R285). -/
def execVshrL (o : AOps) (s : State) : Result := s.velem 0x0D8 o false (laneShift fun _ a n => a >>> n)

/-- VSHR.A (R285). -/
def execVshrA (o : AOps) (s : State) : Result := s.velem 0x0D9 o false (laneShift shiftRightA)

/-- VCMP.EQ (R286). -/
def execVcmpEq (o : AOps) (s : State) : Result := s.vcmp 0x0DA o .eq

/-- VCMP.NE (R286). -/
def execVcmpNe (o : AOps) (s : State) : Result := s.vcmp 0x0DB o .ne

/-- VCMP.LT (R286). -/
def execVcmpLt (o : AOps) (s : State) : Result := s.vcmp 0x0DC o .lt

/-- VCMP.LE (R286). -/
def execVcmpLe (o : AOps) (s : State) : Result := s.vcmp 0x0DD o .le

/-- VCMP.UN (R286). -/
def execVcmpUn (o : AOps) (s : State) : Result := s.vcmp 0x0DE o .un

/-- VSEL (R287). -/
def execVsel (o : AOps) (s : State) : Result := 
  s.vmove 0x0DF o fun c w _ i =>
    if maskBit (c.regs.getM o.sc.toNat) i then lane w (c.srcV [] o.sa) i else c.srcLane [o.sa] o.sb w i

/-- VPERM.X (R288). -/
def execVpermX (o : AOps) (s : State) : Result := 
  s.vmove 0x0E0 o fun c w n i => lane w (c.srcV [] o.sa) (lane w (c.srcV [o.sa] o.sb) i % n)

/-- VPERM.R (R288). -/
def execVpermR (o : AOps) (s : State) : Result := 
  s.vmove 0x0E1 o fun c w n i => lane w (c.srcV [] o.sa) ((i + (c.valB o.sa o.sb).toNat % n) % n)

/-- VPERM.Q (R288). -/
def execVpermQ (o : AOps) (s : State) : Result := 
  s.vmove 0x0E2 o fun c w n i =>
    let q := quadLane o.ka.toNat n i
    lane w (if q.1 then c.srcV [o.sa] o.sb else c.srcV [] o.sa) q.2

/-- VBCAST.S (R289). -/
def execVbcastS (o : AOps) (s : State) : Result := 
  s.vmove 0x0E3 o fun c w _ _ => (c.valA o.sa).toNat % 2 ^ w

/-- VBCAST.L (R289). -/
def execVbcastL (o : AOps) (s : State) : Result := 
  s.vmove 0x0E4 o fun c w n _ => lane w (c.srcV [] o.sa) ((c.valB o.sa o.sb).toNat % n)

/-- VINS (R289): one lane of D, under scalar predication. -/
def execVins (o : AOps) (s : State) : Result := 
  s.run (.a 0x0E5 o) fun c s =>
    let w := Flt.etWidth o.et
    let n := Flt.etLanes o.et
    let k := (c.valB o.sa o.sb).toNat % n
    s.putLanes c (.a 0x0E5 o) o.dst w n (· == k) false fun _ => ((c.valA o.sa).toNat % 2 ^ w, 0)

/-- VEXT (R289): one lane, sign-extended for i types. -/
def execVext (o : AOps) (s : State) : Result := 
  s.scalar (.a 0x0E6 o) o.dst fun c =>
    let w := Flt.etWidth o.et
    let x := lane w (c.srcV [] o.sa) ((c.valB o.sa o.sb).toNat % Flt.etLanes o.et)
    if Flt.etSigned o.et then BitVec.ofInt 64 (signed w x) else BitVec.ofNat 64 x

/-- VRED.ADDI (R291). -/
def execVredAddi (o : AOps) (s : State) : Result := s.vred 0x0E7 o fun _ xs => (Flt.redAddI o.et xs, 0)

/-- VRED.ADDF (R291). -/
def execVredAddf (o : AOps) (s : State) : Result := s.vred 0x0E8 o fun rm xs => Flt.redAddF o.et rm xs

/-- VRED.MIN (R291, R292). -/
def execVredMin (o : AOps) (s : State) : Result := s.vred 0x0E9 o fun _ xs => Flt.redPick .min false o.et xs

/-- VRED.MAX (R291, R292). -/
def execVredMax (o : AOps) (s : State) : Result := s.vred 0x0EA o fun _ xs => Flt.redPick .max false o.et xs

/-- VRED.MINN (R291, R292). -/
def execVredMinn (o : AOps) (s : State) : Result := s.vred 0x0EB o fun _ xs => Flt.redPick .min true o.et xs

/-- VRED.MAXN (R291, R292). -/
def execVredMaxn (o : AOps) (s : State) : Result := s.vred 0x0EC o fun _ xs => Flt.redPick .max true o.et xs

/-- VRED.AMAX (R291, R292). -/
def execVredAmax (o : AOps) (s : State) : Result := s.vred 0x0ED o fun _ xs => Flt.redPick .amax false o.et xs

/-- VRED.AMAXN (R291, R292). -/
def execVredAmaxn (o : AOps) (s : State) : Result := s.vred 0x0EE o fun _ xs => Flt.redPick .amax true o.et xs

/-- VCVT.I8 (R228 to R230). -/
def execVcvtI8 (o : AOps) (s : State) : Result := s.vcvt 0x0EF o

/-- VCVT.N8 (R228 to R230). -/
def execVcvtN8 (o : AOps) (s : State) : Result := s.vcvt 0x0F0 o

/-- VCVT.I16 (R228 to R230). -/
def execVcvtI16 (o : AOps) (s : State) : Result := s.vcvt 0x0F1 o

/-- VCVT.N16 (R228 to R230). -/
def execVcvtN16 (o : AOps) (s : State) : Result := s.vcvt 0x0F2 o

/-- VCVT.I32 (R228 to R230). -/
def execVcvtI32 (o : AOps) (s : State) : Result := s.vcvt 0x0F3 o

/-- VCVT.N32 (R228 to R230). -/
def execVcvtN32 (o : AOps) (s : State) : Result := s.vcvt 0x0F4 o

/-- VCVT.F16 (R228 to R230). -/
def execVcvtF16 (o : AOps) (s : State) : Result := s.vcvt 0x0F5 o

/-- VCVT.BF16 (R228 to R230). -/
def execVcvtBf16 (o : AOps) (s : State) : Result := s.vcvt 0x0F6 o

/-- VCVT.F32 (R228 to R230). -/
def execVcvtF32 (o : AOps) (s : State) : Result := s.vcvt 0x0F7 o

/-- VCVT.T8 (R228 to R230). -/
def execVcvtT8 (o : AOps) (s : State) : Result := s.vcvt 0x0F8 o

/-- VCVT.O8 (R228 to R230). -/
def execVcvtO8 (o : AOps) (s : State) : Result := s.vcvt 0x0F9 o

/-- VCVT.O4 (R228 to R230). -/
def execVcvtO4 (o : AOps) (s : State) : Result := s.vcvt 0x0FA o

/-- VSCALE (R232). -/
def execVscale (o : AOps) (s : State) : Result := 
  s.run (.a 0x0FB o) fun c s =>
    let w := Flt.etWidth o.et
    let ea := (c.valB o.sa o.sb).toNat % 256
    let eb := (c.valC o.sa o.sb o.sc).toNat % 256
    let two := o.ka = 1
    let nan := ea == 255 || (decide two && eb == 255)
    let k : Int := if two then (ea : Int) + eb - 254 else (ea : Int) - 127
    let va := c.srcV [] o.sa
    s.putLanes c (.a 0x0FB o) o.dst w (Flt.etLanes o.et) (maskBit (c.predicate o.pred o.pn)) false fun i =>
      Flt.scaleLane o.et c.rm nan k (lane w va i)

/-- VMOV (R287). -/
def execVmov (o : AOps) (s : State) : Result := 
  s.vmove 0x0FC o fun c w _ i => lane w (c.srcV [] o.sa) i

end Sys2Proof.Machine
end

