-- ==== Sys2Proof/Machine/Matrix.lean ====
section
/-! DEFINITION. The matrix unit: ownership, operand headers, the issue of the matrix forms, the sequencer's commands and
k-steps, and remote matrix commands (R294 to R321). -/

namespace Sys2Proof

open Sys2Proof.Bits

/-! ## Block headers (R222, R223) -/

/-- FMT. -/
def hFmt (h : BitVec 128) : Nat := field h.toNat 0 8
/-- E8. -/
def hE8 (h : BitVec 128) : Nat := field h.toNat 8 8
/-- ZP. -/
def hZp (h : BitVec 128) : Nat := field h.toNat 16 8
/-- SWZ. -/
def hSwz (h : BitVec 128) : Nat := field h.toNat 24 8
/-- KLEN. -/
def hKlen (h : BitVec 128) : Nat := field h.toNat 32 16
/-- ROWS. -/
def hRows (h : BitVec 128) : Nat := field h.toNat 48 16
/-- FSWZ. -/
def hFswz (h : BitVec 128) : Nat := field h.toNat 64 8
/-- FFMT. -/
def hFfmt (h : BitVec 128) : Nat := field h.toNat 72 8
/-- The element type of a header. -/
def hEt (h : BitVec 128) : BitVec 4 := BitVec.ofNat 4 (hFmt h)

/-- Is a header malformed (R223)? -/
def hMalformed (h : BitVec 128) : Bool :=
  decide (0xD < hFmt h) || decide (3 < hSwz h) || (hFmt h == 13 && decide (15 < hZp h))
    || (hFmt h != 12 && hFmt h != 13 && hZp h != 0) || field h.toNat 96 32 != 0

/-! ## The MXMAC forms (R305, R306) -/

/-- Operand types, accumulator type and products per k-step of an MXMAC form. -/
structure MacForm where
  a : BitVec 4
  b : BitVec 4
  int : Bool
  p : Nat
  deriving DecidableEq, Repr

/-- The table of R305 by OP value. -/
def macForm (op : BitVec 9) : MacForm :=
  match op.toNat with
  | 0x106 => { a := 11, b := 11, int := false, p := 32 }
  | 0x107 => { a := 0, b := 0, int := true, p := 32 }
  | 0x108 => { a := 12, b := 12, int := true, p := 32 }
  | 0x109 => { a := 0, b := 12, int := true, p := 32 }
  | 0x10A => { a := 12, b := 0, int := true, p := 32 }
  | 0x10B => { a := 13, b := 13, int := true, p := 64 }
  | 0x10C => { a := 13, b := 12, int := true, p := 32 }
  | 0x10D => { a := 12, b := 13, int := true, p := 32 }
  | 0x10E => { a := 8, b := 8, int := false, p := 32 }
  | _ => { a := 9, b := 9, int := false, p := 32 }

/-- Is an OP value an MXMAC? -/
def isMac (op : BitVec 9) : Bool := decide (0x106 ≤ op.toNat) && decide (op.toNat ≤ 0x10F)

/-- The span of an MXMAC (R306). -/
def macSpan (f : MacForm) (sparse : Bool) : Nat := if sparse then 2 * f.p else f.p

/-- The energy of a k-step (R418). -/
def macEnergy (op : BitVec 9) : Nat := if op = 0x10E ∨ op = 0x10F then 47200 else 11800

/-- The byte count of a B block (R304, R312). -/
def weightBytes (h : BitVec 128) (sparse : Bool) : Nat :=
  let w := Flt.etWidth (hEt h)
  if sparse then hKlen h / 64 * hRows h * (32 * w / 8 + 8) else hKlen h * hRows h * w / 8

/-- The swizzle that an MXLDW form takes (R303). -/
def ldwSwizzle (op : BitVec 9) : Nat := if op = 0x103 then 0 else if op = 0x104 then 2 else 3

/-- The first subcause of R303 that a B header meets at an MXLDW, if any (R312). -/
def ldwTest (swz : Nat) (h : BitVec 128) : Option Nat :=
  let sparse := swz == 2
  if hMalformed h then some 1
  else if hFswz h ≠ hSwz h ∨ hFfmt h ≠ hFmt h then some 2
  else if !(hFmt h == 11 || hFmt h == 0 || hFmt h == 12 || hFmt h == 13 || hFmt h == 8 || hFmt h == 9) then some 3
  else if hSwz h ≠ swz then some 4
  else if hRows h = 0 ∨ 32 < hRows h ∨ hKlen h = 0 ∨ hKlen h % (if sparse then 64 else 32) ≠ 0 then some 5
  else if 65536 < weightBytes h sparse then some 6
  else none

/-! ## MXSTAT (R298) -/

/-- ATYPE. -/
def mxAtype (w : Word) : Nat := field w.toNat 11 2
/-- CHAIN. -/
def mxChain (w : Word) : Bool := bit w.toNat 13
/-- SEQ. -/
def mxSeq (w : Word) : Bool := bit w.toNat 14
/-- CRM.
(DEDUCED, log entry 46.) -/
def mxCrm (w : Word) : BitVec 2 := BitVec.ofNat 2 (field w.toNat 15 2)
/-- ASC, 0 when ASCV is 0. -/
def mxAsc (w : Word) : Int := if bit w.toNat 30 then signed 9 (field w.toNat 21 9) else 0
/-- ASCV. -/
def mxAscv (w : Word) : Bool := bit w.toNat 30
/-- WVALID. -/
def mxWvalid (w : Word) : Bool := bit w.toNat 31
/-- WSPARSE. -/
def mxWsparse (w : Word) : Bool := bit w.toNat 32
/-- ANAN. -/
def mxAnan (w : Word) : Bool := bit w.toNat 45

/-- Set a field of MXSTAT. -/
def mxSet (w : Word) (lo len v : Nat) : Word := BitVec.ofNat 64 (setField w.toNat lo len v)

/-- The sticky bits of MXSTAT that flags set. -/
def mxSticky (fl : Flt.Flags) : Word :=
  BitVec.ofNat 64 (2 ^ 40 * field fl.toNat 0 1 + 2 ^ 41 * field fl.toNat 2 1 + 2 ^ 42 * field fl.toNat 3 1
    + 2 ^ 43 * field fl.toNat 4 1 + 2 ^ 46 * field fl.toNat 5 1)

/-! ## One k-step (R303, R304, R307) -/

/-- The code of an element of width `w` bits in a byte list. -/
def elemCode (w : Nat) (bytes : List Byte) (e : Nat) : Nat :=
  if w = 4 then field ((bytes[e / 2]?).getD 0).toNat (4 * (e % 2)) 4
  else valOf ((bytes.drop (e * (w / 8))).take (w / 8))

/-- The element index of A(i, k) (R303). -/
def aIndex (h : BitVec 128) (i k : Nat) : Nat := if hSwz h = 3 then k * hRows h + i else i * hKlen h + k

/-- The element index of a dense B(k, n) (R303). -/
def bIndex (h : BitVec 128) (k n : Nat) : Nat := if hSwz h = 3 then n * hKlen h + k else k * hRows h + n

/-- The first byte of a compressed unit in the weight buffer (R304). -/
def unitOffset (h : BitVec 128) (n u : Nat) : Nat := (n * (hKlen h / 64) + u) * (32 * Flt.etWidth (hEt h) / 8 + 8)

/-- A metadata nibble of a unit: i0 and i1 (R304). -/
def nibbleOf (h : BitVec 128) (bytes : List Byte) (n u g : Nat) : Nat × Nat :=
  let b := ((bytes[unitOffset h n u + 32 * Flt.etWidth (hEt h) / 8 + g / 2]?).getD 0).toNat
  let x := field b (4 * (g % 2)) 4
  (x % 4, x / 4)

/-- The weights that column `n` holds in the span from `k0` (R304, R307): logical k with the element's code. -/
def columnOf (h : BitVec 128) (sparse : Bool) (bytes : List Byte) (n k0 span : Nat) : List (Nat × Nat) :=
  let w := Flt.etWidth (hEt h)
  if sparse then
    (List.range (span / 64)).flatMap fun x =>
      let u := k0 / 64 + x
      let vals := bytes.drop (unitOffset h n u)
      (List.range 16).flatMap fun g =>
        let nb := nibbleOf h bytes n u g
        [(64 * u + 4 * g + nb.1, elemCode w vals (2 * g)), (64 * u + 4 * g + nb.2, elemCode w vals (2 * g + 1))]
  else (List.range span).map fun j => (k0 + j, elemCode w bytes (bIndex h (k0 + j) n))

/-- The first unit of a span with a malformed nibble, by its offset in the weight buffer (R304). -/
def badUnit (h : BitVec 128) (bytes : List Byte) (k0 span : Nat) : Option Nat :=
  (List.range (hRows h)).findSome? fun n => (List.range (span / 64)).findSome? fun x =>
    let u := k0 / 64 + x
    if (List.range 16).any fun g => let nb := nibbleOf h bytes n u g; decide (nb.2 ≤ nb.1) then some (unitOffset h n u)
    else none

/-- An integer operand: an i8 value, or an o8 or o4 difference (R221). -/
def mxInt (et : BitVec 4) (zp code : Nat) : Int := if et = 0 then signed 8 code else (code : Int) - (zp : Int)

/-- One accumulator of k-step (R307): its new code, the MXSTAT bits that it sets. -/
def macCell (f : MacForm) (rm : BitVec 2) (ha hb : BitVec 128) (acc : Nat) (pairs : List (Nat × Nat)) : Nat × Word :=
  if f.int then
    let r := kstepInt acc (pairs.map fun p => (mxInt f.a (hZp ha) p.1, mxInt f.b (hZp hb) p.2))
    (r.1, if r.2 then BitVec.ofNat 64 (2 ^ 44) else 0)
  else
    let nan := hE8 ha == 255 || hE8 hb == 255
    let r := Flt.kstepF rm nan ((hE8 ha : Int) + hE8 hb - 254) acc
      (pairs.map fun p => (Flt.decode f.a 0 p.1, Flt.decode f.b 0 p.2))
    (r.1, mxSticky r.2)
where
  /-- The integer sum of a step. -/
  kstepInt (acc : Nat) (ps : List (Int × Int)) : Nat × Bool := Flt.kstepI acc ps

/-- Set an accumulator; those that hold zero are not listed. -/
def accSet (acc : List (Nat × Nat)) (i v : Nat) : List (Nat × Nat) := if v = 0 then drop acc i else put acc i v

/-- An accumulator. -/
def accGet (acc : List (Nat × Nat)) (i : Nat) : Nat := (look acc i).getD 0

/-- k-step `j` of an MXMAC (R307): every accumulator of ROWS × N, in turn. -/
def macStep (f : MacForm) (k : Nat) (span : Nat) (rm : BitVec 2) (ha hb : BitVec 128) (sparse : Bool)
    (a b : List Byte) (acc : List (Nat × Nat)) : List (Nat × Nat) × Word :=
  let wa := Flt.etWidth f.a
  let rows := (List.range (hRows ha)).map fun i => (List.range span).map fun x => elemCode wa a (aIndex ha i (k + x))
  let cols := (List.range (hRows hb)).map fun n => columnOf hb sparse b n k span
  (rows.zip (List.range (hRows ha))).foldl (fun (st : List (Nat × Nat) × Word) (r : List Nat × Nat) =>
    (cols.zip (List.range (hRows hb))).foldl (fun (st : List (Nat × Nat) × Word) (q : List (Nat × Nat) × Nat) =>
      let cell := macCell f rm ha hb (accGet st.1 (32 * r.2 + q.2)) (q.1.map fun x => ((r.1[x.1 - k]?).getD 0, x.2))
      (accSet st.1 (32 * r.2 + q.2) cell.1, st.2 ||| cell.2)) st) (acc, 0)

end Sys2Proof

namespace Sys2Proof.Machine

open Sys2Proof.Bits

/-! ## The owner (R295 to R297) -/

/-- MXSTAT as a read shows it (R298): the issue view, with STEP and QLEN. -/
def Ctx.mxstat (c : Ctx) : Word :=
  let step := match c.mx.queue.find? fun k => k.start.isSome with
    | some k => k.step
    | none => 0
  mxSet (mxSet c.mx.stat 0 11 step) 17 4 c.mx.queue.length

/-- Accumulators as 8,192 bytes in the layout of R317. -/
def accBytes (acc : List (Nat × Nat)) : List (Nat × Byte) :=
  acc.flatMap fun p => [0, 1, 2, 3].map fun i => (4 * p.1 + i, BitVec.ofNat 8 (p.2 >>> (8 * i)))

/-- A context's accumulators written into its save area (R295, R368). -/
def State.saveAccumulators (s : State) (c : Ctx) : State :=
  if c.num < s.dcbField ctxcount 0 17 then
    let base := s.bufferOf c.num + 0x2800
    { s with mem := (s.mem.zero base 8192).writeEach ((accBytes c.mx.acc).map fun b => (base + b.1, b.2)) }
  else s

/-- The sequencer of a core owes its next command. -/
def State.oweSequencer (s : State) (core : Nat) (c : Ctx) : State :=
  match c.mx.queue with
  | [] => s
  | _ => if c.mx.queue.any fun k => k.start.isSome then s.owe (.kstep core) else s.owe (.sequencerCommand core 0 0)

/-- A context claims the matrix unit of a core (R295): the owner's state goes to its save area, and the weight buffer
waits for a refill. -/
def State.claimMatrix (s : State) (core : Nat) (c : Ctx) : State :=
  if (s.core core).mxOwner = some c.num then s
  else
    let s1 := match (s.core core).mxOwner with
      | none => s
      | some o => match s.findAny o with
        | some d => s.saveAccumulators d
        | none => s
    let s2 := s1.mapCore core fun k => { k with mxOwner := some c.num, weights := [], whdr := 0 }
    s2.oweSequencer core c

/-- The running owner of a core's matrix unit (R318, R319). -/
def State.mxRunning (s : State) (core : Nat) : Option Ctx :=
  match (s.core core).mxOwner with
  | none => none
  | some o => (s.running.find? fun p => p.2.num == o && p.1.core == core
      && (p.2.phase == .running || p.2.phase == .leaving)).map (·.2)

/-! ## Issue tests (R300, R303, R312 to R315) -/

/-- What the issue tests of a queued form give. -/
inductive MxTest where
  | access (sub la len : Nat)
  | header (la sub : Nat)
  | queue (k : MxCmd) (view : Matrix)
  deriving DecidableEq, Repr

/-- The rounding mode that a form captures (R226, R308). -/
def Ctx.mxRm (c : Ctx) : BitVec 2 := if mxChain c.mx.stat then mxCrm c.mx.stat else c.rm

/-- A command with the issue view's chain and rounding mode. -/
def Ctx.mxCmd (c : Ctx) (op : BitVec 9) (la : Nat) : MxCmd :=
  { op := op, la := la, hdr := 0, wla := c.mx.wla, whdr := c.mx.whdr, wsparse := mxWsparse c.mx.stat, rm := c.mxRm, row := 0,
    vec := 0, zp := 0, eo := 0, row0 := 0, nrow := 0, atype := mxAtype c.mx.stat, asc := mxAsc c.mx.stat,
    chain := mxChain c.mx.stat, seq := mxSeq c.mx.stat, start := none, step := 0, awaited := false, pc := c.pc, born := c.retires }

/-- The header at an LA of a core. -/
def State.headerAt (s : State) (core la : Nat) : BitVec 128 := BitVec.ofNat 128 (s.mem.readNat (padOff core la) 16)

/-- The access tests of a 16-byte-aligned place in the scratchpad: SUB 5 in the launch area, 10 past the end, 4 when not
aligned.
(DESIGN CHOICE, log entry 86.) -/
def placeFault (la len : Nat) : Option Nat :=
  if la < 0x100 then some 5 else if 0x20000 < la + len then some 10 else if la % 16 ≠ 0 then some 4 else none

/-- MXZERO at issue (R311). -/
def Ctx.testZero (c : Ctx) : MxTest :=
  .queue (c.mxCmd 0x102 0) { c.mx with stat := mxSet (mxSet c.mx.stat 11 2 0) 30 1 0 }

/-- MXLDW at issue (R312). -/
def State.testLdw (s : State) (core : Nat) (c : Ctx) (op : BitVec 9) (la : Nat) : MxTest :=
  match placeFault la 16 with
  | some sub => .access sub la 16
  | none =>
    let h := s.headerAt core la
    let sparse := op = 0x104
    match ldwTest (ldwSwizzle op) h with
    | some sub => .header la sub
    | none =>
      if 0x20000 < la + 16 + weightBytes h sparse then .access 10 la (16 + weightBytes h sparse)
      else
        let stat := mxSet (mxSet c.mx.stat 31 1 1) 32 1 (ofBool sparse)
        .queue { c.mxCmd op la with hdr := h, wla := la, whdr := h, wsparse := sparse }
          { c.mx with stat := stat, wla := la, whdr := h }

/-- The first subcause that an MXMAC meets, with whether the weights' header is at fault (R303, R313). -/
def macTest (f : MacForm) (m : Matrix) (h : BitVec 128) : Option (Nat × Bool) :=
  let span := macSpan f (mxWsparse m.stat)
  let valid := mxWvalid m.stat
  let s : Int := (hE8 h : Int) + hE8 m.whdr - 254
  if hMalformed h then some (1, false)
  else if hFswz h ≠ hSwz h ∨ hFfmt h ≠ hFmt h then some (2, false)
  else if hFmt h ≠ f.a.toNat then some (3, false)
  else if valid ∧ hFmt m.whdr ≠ f.b.toNat then some (3, true)
  else if hSwz h ≠ 0 ∧ hSwz h ≠ 3 then some (4, false)
  else if hRows h = 0 ∨ 64 < hRows h ∨ hKlen h = 0 ∨ hKlen h % span ≠ 0 ∨ (valid ∧ hKlen h ≠ hKlen m.whdr) then
    some (5, false)
  else if !valid then some (7, false)
  else if mxAtype m.stat ≠ 0 ∧ mxAtype m.stat ≠ (if f.int then 2 else 1) then some (8, false)
  else if f.int ∧ mxAscv m.stat ∧ hE8 h ≠ 255 ∧ hE8 m.whdr ≠ 255 ∧ s ≠ mxAsc m.stat then some (9, false)
  else none

/-- MXMAC at issue (R313): ATYPE, and for an integer form ASC, are set. -/
def State.testMac (s : State) (core : Nat) (c : Ctx) (op : BitVec 9) (la : Nat) : MxTest :=
  match placeFault la 16 with
  | some sub => .access sub la 16
  | none =>
    let f := macForm op
    let h := s.headerAt core la
    match macTest f c.mx h with
    | some (sub, w) => .header (if w then c.mx.wla else la) sub
    | none =>
      let len := 16 + hKlen h * hRows h * Flt.etWidth f.a / 8
      if 0x20000 < la + len then .access 10 la len
      else
        let stat := mxSet c.mx.stat 11 2 (if f.int then 2 else 1)
        let sets := f.int && !mxAscv c.mx.stat && hE8 h != 255 && hE8 c.mx.whdr != 255
        let stat1 := if sets then mxSet (mxSet stat 21 9 (wrap 9 ((hE8 h : Int) + hE8 c.mx.whdr - 254))) 30 1 1 else stat
        .queue { c.mxCmd op la with hdr := h } { c.mx with stat := stat1 }

/-- The target type of an MXST form (R315). -/
def mxstTarget (op : BitVec 9) : BitVec 4 :=
  match op.toNat with
  | 0x115 => 10 | 0x116 => 9 | 0x117 => 8 | 0x118 => 11 | 0x119 => 4 | 0x11A => 0 | 0x11B => 12 | _ => 13

/-- MXST at issue (R315). -/
def Ctx.testSt (c : Ctx) (op : BitVec 9) (la eo zp row0 nrow : Nat) : MxTest :=
  let len := nrow * 32 * Flt.etWidth (mxstTarget op) / 8
  if mxAtype c.mx.stat = 0 then .header la 8
  else match placeFault la len with
    | some sub => .access sub la len
    | none => .queue { c.mxCmd op la with eo := eo, zp := zp, row0 := row0, nrow := nrow } c.mx

/-- Put a tested command into a context's queue; the sequencer is owed its turn where the queue was empty (R300). -/
def State.queueMx (s : State) (core : Nat) (n : Nat) (k : MxCmd) (view : Matrix) : State :=
  let first := match s.findCtx n with
    | some c => c.mx.queue.isEmpty
    | none => false
  let s1 := s.updCtx n fun c => c.mapMx fun m => { view with queue := m.queue ++ [k], acc := m.acc }
  if first then s1.owe (.sequencerCommand core 0 0) else s1

/-- A matrix form issues (R294, R295): a claim first, then its own effect on the owner's state. -/
def State.mxForm (s : State) (f : Form) (effect : Ctx → State → State) : Result :=
  s.run f fun c s => effect c (s.claimMatrix s.cur.core c)

/-- A queued form (R300): a free entry, the tests, the issue view, the queue. -/
def State.mxQueued (s : State) (f : Form) (test : Ctx → State → MxTest) : Result :=
  s.mxForm f fun c s =>
    if 8 ≤ c.mx.queue.length then s.stallOn .full
    else match test c s with
      | .access sub la len => s.accessFault sub (BitVec.ofNat 64 la) len
      | .header la sub => s.fault 11 sub (BitVec.ofNat 64 la) 0 0
      | .queue k view => (s.queueMx s.cur.core c.num k view).done f

/-- The LA operand of a matrix form: SA bits [16:0]. -/
def Ctx.mxLa (c : Ctx) (o : AOps) : Nat := field (c.valA o.sa).toNat 0 17

/-! ## The forms (R310 to R318) -/

/-- MXBEGIN (R310): an open chain is ended first. -/
def execMxbegin (o : AOps) (s : State) : Result :=
  s.mxForm (.a 0x100 o) fun c s =>
    if 8 ≤ c.mx.queue.length then s.stallOn .full
    else
      let close (c : Ctx) : Matrix := { c.mx with stat := mxSet c.mx.stat 13 4 0 }
      let s1 := if mxChain c.mx.stat then s.queueMx s.cur.core c.num (c.mxCmd 0x101 0) (close c) else s
      match s1.cx with
      | none => s1
      | some d =>
        if 8 ≤ d.mx.queue.length then s1.stallOn .full
        else
          let stat := mxSet (mxSet (mxSet d.mx.stat 13 1 1) 14 1 o.ka.toNat) 15 2 d.rm.toNat
          (s1.queueMx s1.cur.core d.num (d.mxCmd 0x100 0) { d.mx with stat := stat }).done (.a 0x100 o)

/-- MXEND (R310): with no chain open it does nothing.
(DEDUCED, log entry 46.) -/
def execMxend (o : AOps) (s : State) : Result :=
  s.mxForm (.a 0x101 o) fun c s =>
    if !mxChain c.mx.stat then s.done (.a 0x101 o)
    else if 8 ≤ c.mx.queue.length then s.stallOn .full
    else (s.queueMx s.cur.core c.num (c.mxCmd 0x101 0) { c.mx with stat := mxSet c.mx.stat 13 4 0 }).done (.a 0x101 o)

/-- MXZERO (R311). -/
def execMxzero (o : AOps) (s : State) : Result := s.mxQueued (.a 0x102 o) fun c _ => c.testZero

/-- MXLDW.D (R312). -/
def execMxldwD (o : AOps) (s : State) : Result :=
  s.mxQueued (.a 0x103 o) fun c s => s.testLdw s.cur.core c 0x103 (c.mxLa o)

/-- MXLDW.S (R312). -/
def execMxldwS (o : AOps) (s : State) : Result :=
  s.mxQueued (.a 0x104 o) fun c s => s.testLdw s.cur.core c 0x104 (c.mxLa o)

/-- MXLDW.T (R312). -/
def execMxldwT (o : AOps) (s : State) : Result :=
  s.mxQueued (.a 0x105 o) fun c s => s.testLdw s.cur.core c 0x105 (c.mxLa o)

/-- An MXMAC (R313). -/
def State.mxmac (s : State) (op : BitVec 9) (o : AOps) : Result :=
  s.mxQueued (.a op o) fun c s => s.testMac s.cur.core c op (c.mxLa o)

/-- MXMAC.T8 (R305, R313). -/
def execMxmacT8 (o : AOps) (s : State) : Result := s.mxmac 0x106 o
/-- MXMAC.I8 (R305, R313). -/
def execMxmacI8 (o : AOps) (s : State) : Result := s.mxmac 0x107 o
/-- MXMAC.O8 (R305, R313). -/
def execMxmacO8 (o : AOps) (s : State) : Result := s.mxmac 0x108 o
/-- MXMAC.I8O8 (R305, R313). -/
def execMxmacI8o8 (o : AOps) (s : State) : Result := s.mxmac 0x109 o
/-- MXMAC.O8I8 (R305, R313). -/
def execMxmacO8i8 (o : AOps) (s : State) : Result := s.mxmac 0x10A o
/-- MXMAC.O4 (R305, R313). -/
def execMxmacO4 (o : AOps) (s : State) : Result := s.mxmac 0x10B o
/-- MXMAC.O4O8 (R305, R313). -/
def execMxmacO4o8 (o : AOps) (s : State) : Result := s.mxmac 0x10C o
/-- MXMAC.O8O4 (R305, R313). -/
def execMxmacO8o4 (o : AOps) (s : State) : Result := s.mxmac 0x10D o
/-- MXMAC.F16 (R305, R313). -/
def execMxmacF16 (o : AOps) (s : State) : Result := s.mxmac 0x10E o
/-- MXMAC.BF16 (R305, R313). -/
def execMxmacBf16 (o : AOps) (s : State) : Result := s.mxmac 0x10F o

/-- A row of accumulators (R314). -/
def Ctx.mxRow (c : Ctx) (row : Nat) : List Nat := (List.range 32).map fun n => accGet c.mx.acc (32 * row + n)

/-- Does the instruction of a context wait already for the commands that were in its queue when it issued? -/
def Ctx.mxAgain (c : Ctx) : Bool := c.stall == some .matrix || c.mx.queue.any fun k => k.awaited

/-- Wait for the commands that were in the queue when the instruction issued, then go on (R314, R316). -/
def State.mxDrained (s : State) (c : Ctx) (k : State → State) : State :=
  if c.mxAgain then if c.mx.queue.any fun k => k.awaited then s.stallOn .matrix else k s
  else if c.mx.queue.isEmpty then k s
  else (s.mapCx fun c => c.mapMx fun m => { m with queue := m.queue.map fun k => { k with awaited := true } }).stallOn .matrix

/-- An MXRD (R314): its ATYPE is tested at issue; it waits for every earlier command, then writes the row. -/
def State.mxrd (s : State) (op : BitVec 9) (o : AOps) (types : List Nat) (g : Ctx → Nat → Nat × Flt.Flags) : Result :=
  s.mxForm (.a op o) fun c s =>
    if !c.mxAgain ∧ !types.contains (mxAtype c.mx.stat) then s.fault 11 8 0 0 0
    else s.mxDrained c fun s =>
      let lanes := (c.mxRow ((c.valB o.sa o.sb).toNat % 64)).map fun x => g c x
      let fl := lanes.foldl (fun a x => a ||| x.2) (0 : Flt.Flags)
      ((s.mapCx fun c => c.raise fl).putVector o.dst (ofLanes 32 (lanes.map (·.1)))).done (.a op o)

/-- MXRD.F (R314). -/
def execMxrdF (o : AOps) (s : State) : Result := s.mxrd 0x110 o [1] fun _ x => (x, 0)

/-- MXRD.I (R314). -/
def execMxrdI (o : AOps) (s : State) : Result := s.mxrd 0x111 o [2] fun _ x => (x, 0)

/-- MXRD.SC (R314): an i32 accumulator times 2^ASC, rounded once; ANAN gives the NaN with NV. -/
def execMxrdSc (o : AOps) (s : State) : Result :=
  s.mxrd 0x112 o [1, 2] fun c x =>
    if mxAtype c.mx.stat = 1 then (x, 0)
    else if mxAnan c.mx.stat then (Flt.f32.canon, Flt.NV)
    else Flt.encodeBin Flt.f32 c.mxRm ((Flt.ofInt (signed 32 x)).scale (mxAsc c.mx.stat))

/-- An MXWR (R314). -/
def State.mxwr (s : State) (op : BitVec 9) (o : AOps) (atype : Nat) : Result :=
  s.mxQueued (.a op o) fun c _ =>
    if mxAtype c.mx.stat ≠ 0 ∧ mxAtype c.mx.stat ≠ atype then .header 0 8
    else .queue { c.mxCmd op 0 with row := (c.valB o.sa o.sb).toNat % 64, vec := c.srcV [] o.sa }
      { c.mx with stat := mxSet c.mx.stat 11 2 atype }

/-- MXWR.F (R314). -/
def execMxwrF (o : AOps) (s : State) : Result := s.mxwr 0x113 o 1
/-- MXWR.I (R314). -/
def execMxwrI (o : AOps) (s : State) : Result := s.mxwr 0x114 o 2

/-- The zero point operand of MXST (R315). -/
def Ctx.mxZp (c : Ctx) (op : BitVec 9) (o : AOps) : Nat :=
  if op = 0x11B then field (c.valC o.sa o.sb o.sc).toNat 0 8
  else if op = 0x11C then field (c.valC o.sa o.sb o.sc).toNat 0 4 else 0

/-- An MXST (R315). -/
def State.mxst (s : State) (op : BitVec 9) (o : AOps) : Result :=
  s.mxQueued (.a op o) fun c _ =>
    c.testSt op (c.mxLa o) (field (c.valB o.sa o.sb).toNat 0 8) (c.mxZp op o) o.ka.toNat (o.kb.toNat + 1)

/-- MXST.F32 (R315). -/
def execMxstF32 (o : AOps) (s : State) : Result := s.mxst 0x115 o
/-- MXST.BF16 (R315). -/
def execMxstBf16 (o : AOps) (s : State) : Result := s.mxst 0x116 o
/-- MXST.F16 (R315). -/
def execMxstF16 (o : AOps) (s : State) : Result := s.mxst 0x117 o
/-- MXST.T8 (R315). -/
def execMxstT8 (o : AOps) (s : State) : Result := s.mxst 0x118 o
/-- MXST.I32 (R315). -/
def execMxstI32 (o : AOps) (s : State) : Result := s.mxst 0x119 o
/-- MXST.I8 (R315). -/
def execMxstI8 (o : AOps) (s : State) : Result := s.mxst 0x11A o
/-- MXST.O8 (R315). -/
def execMxstO8 (o : AOps) (s : State) : Result := s.mxst 0x11B o
/-- MXST.O4 (R315). -/
def execMxstO4 (o : AOps) (s : State) : Result := s.mxst 0x11C o

/-- MXWAIT (R316): the commands in the queue when it issued, then MXSTAT, whose sticky bits KA[0] clears. -/
def execMxwait (o : AOps) (s : State) : Result :=
  s.mxForm (.a 0x11D o) fun c s =>
    s.mxDrained c fun s =>
      let s1 := s.putScalar o.dst c.mxstat
      let s2 := if o.ka = 1 then s1.mapCx fun c => c.mapMx fun m => { m with stat := mxSet m.stat 40 7 0 } else s1
      s2.done (.a 0x11D o)

/-- MXSTAT as an MXSAVE captures it at issue (R317): STEP, QLEN, CHAIN, SEQ and CRM zero; the sticky bits are added when
it executes.
(DESIGN CHOICE, log entry 13.) -/
def imageStat (w : Word) : Word := mxSet (mxSet (mxSet w 0 11 0) 13 8 0) 40 7 0

/-- MXSAVE (R317). -/
def execMxsave (o : AOps) (s : State) : Result :=
  s.mxQueued (.a 0x11F o) fun c _ =>
    match placeFault (c.mxLa o) 8208 with
    | some sub => .access sub (c.mxLa o) 8208
    | none => .queue { c.mxCmd 0x11F (c.mxLa o) with hdr := (imageStat c.mx.stat).setWidth 128 } c.mx

/-- MXLOAD (R317): the issue view is set from the image; an ATYPE of 3, which no image of MXSAVE holds, gives an ATYPE
that the manual leaves open. -/
def execMxload (o : AOps) (s : State) : Result :=
  s.mxQueued (.a 0x120 o) fun c s =>
    match placeFault (c.mxLa o) 8208 with
    | some sub => .access sub (c.mxLa o) 8208
    | none =>
      let w : Word := BitVec.ofNat 64 (s.mem.readNat (padOff s.cur.core (c.mxLa o + 8192)) 8)
      let at' := if mxAtype w = 3 then (Config.imageType w).toNat % 3 else mxAtype w
      let stat := mxSet (mxSet c.mx.stat 11 2 at') 21 10 (field w.toNat 21 10)
      .queue (c.mxCmd 0x120 (c.mxLa o)) { c.mx with stat := stat }

/-- A core-class packet that a router drops (R383): MESHDROPS, and the sender's fault. -/
def State.meshDrop (s : State) (part ctx : Nat) (val : Word) (pc : BitVec 32) (after : Nat) : State :=
  let s1 := s.dcbSetField (parttab part 6) 0 16 (min 0xFFFF (s.dcbField (parttab part 6) 0 16 + 1))
  s1.imprecise ctx { code := 20, sub := 4, val := val, aux1 := 0, aux2 := 0, pc := pc, detail := 0 } after

/-- MXCMD (R318): the arrival goes to the target core, whose reply the destination register awaits.  It is a matrix form, so it claims the
unit of its own core (R295). -/
def execMxcmd (o : AOps) (s : State) : Result :=
  s.mxForm (.a 0x11E o) fun c s =>
    let arg := (c.valC o.sa o.sb o.sc).toNat
    let core := field arg 32 11
    let num := c.order.lateNum
    let s1 := s.mapCx fun c => c.mapOrder fun q => q.await o.dst
    if s.ownOut c then s.stallOn .perform
    else if !s.inMesh c.part core then (s1.meshDrop c.part c.num (BitVec.ofNat 64 arg) c.pc (c.retires + 1)).done (.a 0x11E o)
    else if 4 ≤ (s.core core).arrivals.length then (s1.owe (.mxcmdReply c.num num 5 0)).done (.a 0x11E o)
    else
      let a : MxArrival :=
        { ctx := c.num, num := num, part := c.part, tenant := c.tenant, lslot := c.lslot, cap := c.valA o.sa, word := c.valB o.sa o.sb, arg := field arg 0 17 }
      let s2 := s1.mapCore core fun k => { k with arrivals := k.arrivals ++ [a] }
      (s2.owe (.mxcmdArrival core)).done (.a 0x11E o)

/-! ## The sequencer's steps (R300, R301, R308) -/

/-- A command of an owner's queue removed; the next turn is owed. -/
def State.finishMx (s : State) (core n pick : Nat) : State :=
  let s1 := s.updCtx n fun c => c.mapMx fun m => { m with queue := m.queue.eraseIdx pick }
  match s1.findCtx n with
  | some c => s1.oweSequencer core c
  | none => s1

/-- Set sticky bits of a context's MXSTAT (R298). -/
def State.stickMx (s : State) (n : Nat) (w : Word) : State :=
  s.updCtx n fun c => c.mapMx fun m => { m with stat := m.stat ||| w }

/-- The weight buffer loaded with a block (R295, R312). -/
def State.loadWeights (s : State) (core la : Nat) (h : BitVec 128) (sparse : Bool) : State :=
  s.mapCore core fun k => { k with weights := s.mem.read (padOff core (la + 16)) (weightBytes h sparse), whdr := h }

/-- The elements of an MXST, and their flags (R315). -/
def mxstRow (c : Ctx) (k : MxCmd) (row : Nat) : List (Nat × Flt.Flags) :=
  let t := mxstTarget k.op
  let int := k.atype = 2
  let nan := (mxAnan c.mx.stat && decide int) || k.eo == 255
  (c.mxRow row).map fun x =>
    Flt.mxstElem t k.rm k.zp nan ((if int then k.asc else 0) + 127 - (k.eo : Int))
      (if int then Flt.ofInt (signed 32 x) else Flt.decodeBin Flt.f32 x)

/-- A queued command other than an MXMAC executed whole (R311 to R317). -/
def State.runMx (s : State) (core : Nat) (c : Ctx) (k : MxCmd) : State :=
  let n := c.num
  if k.op = 0x102 then s.updCtx n fun c => c.mapMx fun m => { m with acc := [] }
  else if 0x103 ≤ k.op.toNat ∧ k.op.toNat ≤ 0x105 then s.loadWeights core k.la k.hdr k.wsparse
  else if k.op = 0x113 ∨ k.op = 0x114 then
    s.updCtx n fun c => c.mapMx fun m =>
      { m with acc := (List.range 32).foldl (fun a i => accSet a (32 * k.row + i) (lane 32 k.vec i)) m.acc }
  else if 0x115 ≤ k.op.toNat ∧ k.op.toNat ≤ 0x11C then
    let rows := (List.range k.nrow).map fun t => mxstRow c k (k.row0 + t)
    let w := Flt.etWidth (mxstTarget k.op)
    let bytes := rows.flatMap fun r => bytesOf (32 * w / 8) (packLanes w (r.map (·.1)))
    let fl := rows.foldl (fun a r => r.foldl (fun a x => a ||| x.2) a) (0 : Flt.Flags)
    ({ s with mem := s.mem.write (padOff core k.la) bytes } : State).stickMx n (mxSticky fl)
  else if k.op = 0x11F then
    let stat := k.hdr.setWidth 64 ||| (c.mx.stat &&& BitVec.ofNat 64 (0x7F * 2 ^ 40))
    let base := padOff core k.la
    let m1 := (s.mem.zero base 8208).writeEach ((accBytes c.mx.acc).map fun b => (base + b.1, b.2))
    { s with mem := m1.writeNat (base + 8192) 8 stat.toNat }
  else if k.op = 0x120 then
    let base := padOff core k.la
    let acc := (List.range 2048).foldl (fun a i => accSet a i (s.mem.readNat (base + 4 * i) 4)) []
    (s.updCtx n fun c => c.mapMx fun m => { m with acc := acc }).stickMx n
      (BitVec.ofNat 64 (s.mem.readNat (base + 8192) 8) &&& BitVec.ofNat 64 (0x7F * 2 ^ 40))
  else s

/-- The imprecise metadata fault of an MXMAC (R296, R304, R359): its queue position, and the unit's byte offset. -/
def State.metadataFault (s : State) (n : Nat) (k : MxCmd) (sub pos off : Nat) : State :=
  s.imprecise n { code := 22, sub := sub, val := BitVec.ofNat 64 pos, aux1 := off, aux2 := 0, pc := k.pc, detail := 0 } (k.born + 1)

/-- May the sequencer take the command at `pick` with start step `start` (R308)?  Within an unordered chain, any MXMAC of
the run at the head, from any step; otherwise the head, from step 0. -/
def mxPick (q : List MxCmd) (pick start : Nat) : Bool :=
  let free (k : MxCmd) : Bool := isMac k.op && k.chain && !k.seq
  let steps (k : MxCmd) : Nat := hKlen k.hdr / macSpan (macForm k.op) k.wsparse
  !(q.any fun k => k.start.isSome) && match q[pick]? with
    | none => false
    | some k => if (q.take (pick + 1)).all free then decide (start < steps k) else pick == 0 && start == 0

/-- The weight buffer as an MXMAC needs it (R295, R296): refilled from the weight descriptor where a claim emptied it; none where the
header, or the place its elements reach, fails the checks of R303. -/
def State.refillWeights (s : State) (core : Nat) (k : MxCmd) : Option State :=
  let h := s.headerAt core k.wla
  if !(s.core core).weights.isEmpty then some s
  else if (ldwTest (hSwz k.whdr) h).isSome ∨ 0x20000 < k.wla + 16 + weightBytes h k.wsparse then none
  else some (s.loadWeights core k.wla h k.wsparse)

/-- SEQUENCER_COMMAND: the sequencer of a core takes a command of the running owner's queue, an MXMAC of an unordered chain in any place and
from any step (R300, R308); a place or a step that R308 does not allow leaves its turn owed. -/
def execSequencerCommand (core pick start : Nat) (s : State) : Result :=
  .next <| match s.mxRunning core with
    | none => s
    | some c =>
      if c.mx.queue.any fun k => k.start.isSome then s
      else match c.mx.queue[pick]?, mxPick c.mx.queue pick start with
        | some k, true =>
          if isMac k.op then
            match s.refillWeights core k with
            | none => s.metadataFault c.num k 2 pick 0
            | some s1 => (s1.updCtx c.num fun c => c.mapMx fun m =>
                { m with queue := setAt m.queue pick { k with start := some start, step := 0 } }).owe (.kstep core)
          else (s.runMx core c k).finishMx core c.num pick
        | _, _ => s.oweSequencer core c

/-- KSTEP: one k-step of the MXMAC in progress (R304, R307, R308, R418), after a refill where a claim emptied the buffer (R295); it uses the
weight header register. -/
def execKstep (core : Nat) (s : State) : Result :=
  .next <| match s.mxRunning core with
    | none => s
    | some c => match indexOf (fun k : MxCmd => k.start.isSome) c.mx.queue with
      | none => s
      | some pos => match c.mx.queue[pos]? with
        | none => s
        | some k =>
          match s.refillWeights core k with
          | none => s.metadataFault c.num k 2 pos 0
          | some s0 =>
            let f := macForm k.op
            let span := macSpan f k.wsparse
            let total := hKlen k.hdr / span
            let k0 := (k.start.getD 0 + k.step) % total * span
            let b := (s0.core core).weights
            let hb := (s0.core core).whdr
            match (if k.wsparse then badUnit hb b k0 span else none) with
            | some off => s0.metadataFault c.num k 1 pos off
            | none =>
              let a := s0.mem.read (padOff core (k.la + 16)) (hKlen k.hdr * hRows k.hdr * Flt.etWidth f.a / 8)
              let r := macStep f k0 span k.rm k.hdr hb k.wsparse a b c.mx.acc
              let anan := if f.int ∧ (hE8 k.hdr = 255 ∨ hE8 hb = 255) then BitVec.ofNat 64 (2 ^ 45) else 0
              let s1 := (s0.updCtx c.num fun c => (c.mapMx fun m =>
                { m with acc := r.1, stat := m.stat ||| r.2 ||| anan,
                         queue := setAt m.queue pos { k with step := k.step + 1 } }).charge (macEnergy k.op))
              if total ≤ k.step + 1 then s1.finishMx core c.num pos else s1.owe (.kstep core)

/-! ## Remote commands (R318) -/

/-- The right that a form needs (R299). -/
def rightOf (op : BitVec 9) : Nat :=
  if op = 0x102 then 0 else if op.toNat ≤ 0x105 then 1 else if isMac op then 2 else 3

/-- The operands of a command word that MXCMD allows (R318): MXZERO, MXLDW, MXMAC or MXST, unpredicated, with DST 0x00; an
MXST with an immediate SB and SC 0x00. -/
def mxWord (w : Word) : Option (BitVec 9 × AOps) :=
  if w.extractLsb' 0 2 ≠ 1 then none
  else match decodeBits (w.setWidth 128) with
    | .bad _ => none
    | .ok (.a op o) =>
      let form := op == 0x102 || (decide (0x103 ≤ op.toNat) && decide (op.toNat ≤ 0x10F))
        || (decide (0x115 ≤ op.toNat) && decide (op.toNat ≤ 0x11C) && o.sb.isImm && o.sc == 0)
      if form && o.dst == 0 && o.pred == 0 && !o.pn then some (op, o) else none
    | .ok _ => none

/-- What the target makes of an arrival (R318): the machine, and the status and cause of the reply, or none while the command waits for an
entry of the owner's queue, as one of the owner's own does (R294). -/
def State.mxArrive (s : State) (core : Nat) (a : MxArrival) : State × Option (Nat × Nat) :=
  match s.mxRunning core with
  | none => (s, some (3, 0))
  | some c =>
    let cap := c.csrs.mxcap
    let holds := cap ≠ 0 ∧ cap = a.cap ∧ field cap.toNat 0 10 = core % 1024 ∧ field cap.toNat 10 12 = a.tenant
    match mxWord a.word with
    | none => (s, some (if holds then 2 else 1, 0))
    | some (op, o) =>
      if ¬holds ∨ !bit cap.toNat (22 + rightOf op) then (s, some (1, 0))
      else if 8 ≤ c.mx.queue.length then (s, none)
      else
        let t := if op = 0x102 then c.testZero
          else if op.toNat ≤ 0x105 then s.testLdw core c op a.arg
          else if isMac op then s.testMac core c op a.arg
          else c.testSt op a.arg (field (immVal o.sb).toNat 0 8) 0 o.ka.toNat (o.kb.toNat + 1)
        match t with
        | .access _ _ _ => (s, some (4, 1))
        | .header _ sub => (s, some (4, 0x10 + sub))
        | .queue k view => (s.queueMx core c.num k view, some (0, 0))

/-- MXCMD_ARRIVAL: the oldest arrived command of a core is judged, and its reply is owed; one that waits for an entry stays among the four
that the core holds (R318, R383). -/
def execMxcmdArrival (core : Nat) (s : State) : Result :=
  .next <| match (s.core core).arrivals with
    | [] => s
    | a :: rest =>
      let s1 := s.mapCore core fun k => { k with arrivals := rest }
      match s1.mxArrive core a with
      | (s2, some r) => s2.owe (.mxcmdReply a.ctx a.num r.1 r.2)
      | (_, none) => s.owe (.mxcmdArrival core)

/-- MXCMD_REPLY: the status word reaches the register that awaits it, and y0 (R182, R318); a later write stands. -/
def execMxcmdReply (ctx num status cause : Nat) (s : State) : Result :=
  .next (s.putLate ctx num (BitVec.ofNat 64 (status % 16 + 2 ^ 16 * (cause % 256))))

end Sys2Proof.Machine
end

