-- ==== Sys2Proof/Machine/Sync.lean ====
section
/-! DEFINITION. Fences, batch closes, waits on words, sync words and timelines (R51, R60, R61, R82, R83, R96 to R99,
R148 to R150, R267 to R277). -/

namespace Sys2Proof.Machine

open Sys2Proof.Bits

/-! ## FENCE and FWAIT (R82, R83, R268, R269) -/

/-- Is an outstanding access covered by a class mask (R82, R266, R343)?  Accesses to this device but DECT have performed when they issue; what
is outstanding goes to other devices: stores, and reductions, which the DEV class covers as it covers DECT. -/
def Out.covered (x : Out) (mask : Nat) : Bool :=
  (x.kind == .store && ((decide (x.strm < 16) && bit mask (2 + x.strm / 4)) || (bit mask 6 && decide (x.batch < 4))))
    || ((x.kind == .reduction || x.kind == .dect) && bit mask 1)

/-- The accesses that a mask covers now. -/
def Ctx.coveredBy (c : Ctx) (mask : Nat) : List Out := c.order.outs.filter fun x => x.covered mask

/-- Has a tracked token completed (R83)? -/
def State.tokenDone (s : State) (t : Token) : Bool := (s.unperformed t.waits).isEmpty

/-- The tracking slot that a FENCE's token takes (R83, R268): the lowest that no token kept for an FWAIT names, else the lowest that no unfinished
one holds.
(DESIGN CHOICE, log entry 96.) -/
def State.freeSlot (s : State) (o : Order) : Option Nat :=
  let busy := (o.tokens.filter fun t => !s.tokenDone t).map (·.slot)
  let kept := o.tokens.map (·.slot)
  match (List.range 8).find? fun k => !kept.contains k with
  | some k => some k
  | none => (List.range 8).find? fun k => !busy.contains k

/-- The oldest tracked token that a FENCE waits for (R83): with 8 tracked, and until that one completes.  None where it goes on. -/
def State.fenceWait (s : State) (c : Ctx) : Option Nat :=
  let tracked := c.order.tokens.filter fun t => !s.tokenDone t
  match c.stall with
  | some (.oldest n) => if tracked.any fun t => t.serial == n then some n else none
  | _ => if tracked.length < 8 then none else (tracked.head?).map (·.serial)

/-- A fence token (R268). -/
def tokenWord (mask slot serial ctx : Nat) : Word :=
  BitVec.ofNat 64 (mask % 2 ^ 7 + 2 ^ 8 * (slot % 8) + 2 ^ 16 * (serial % 2 ^ 32) + 2 ^ 48 * (ctx % 2 ^ 12) + 2 ^ 60 * 0xA)

/-- FENCE (R82, R83, R268): a mask of zero takes no slot. -/
def execFence (o : COps) (s : State) : Result :=
  s.run (.c 0x071 o) fun c s =>
    let mask := field o.imm.toNat 0 7
    let serial := (c.order.fences + 1) % 2 ^ 32
    let finish (slot : Nat) (s : State) : State :=
      (((s.mapCx fun c => c.mapOrder fun q => { q with fences := serial }).putScalar o.dst
        (tokenWord mask slot serial c.num))).done (.c 0x071 o)
    if mask = 0 then finish 0 s
    else match s.fenceWait c, s.freeSlot c.order with
      | some n, _ => s.stallOn (.oldest n)
      | none, none => s
      | none, some k =>
        let waits := c.coveredBy mask
        finish k (s.mapCx fun c => c.mapOrder fun q =>
          let rest := q.tokens.filter fun t => t.slot != k
          { q with tokens := if waits.isEmpty then rest
                             else rest ++ [{ slot := k, serial := serial, waits := waits, lost := [] }] })

/-- Is a value a token of the context (R269)? -/
def Ctx.isToken (c : Ctx) (w : Word) : Bool :=
  field w.toNat 60 4 == 0xA && field w.toNat 48 12 == c.num % 2 ^ 12
    && decide ((c.order.fences + 2 ^ 32 - field w.toNat 16 32) % 2 ^ 32 < 2 ^ 31)

/-- What an FWAIT on a value waits for (R269), and the peers already found lost. -/
def Ctx.fenceWaits (c : Ctx) (w : Word) : List Out × List Nat :=
  if c.isToken w then
    match c.order.tokens.find? fun t => t.slot == field w.toNat 8 3 && t.serial == field w.toNat 16 32 with
    | some t => (t.waits, t.lost)
    | none => ([], [])
  else (c.coveredBy 0x7F, [])

/-- FWAIT (R83, R269): the waits, the region's end, the acquire, and the status. -/
def execFwait (o : COps) (s : State) : Result :=
  s.run (.c 0x072 o) fun c s =>
    let w := c.valA o.sa
    let waits := c.fenceWaits w
    if !(s.unperformed waits.1).isEmpty then s.stallOn .perform
    else s.closing fun s =>
      let lost := (waits.2 ++ s.lostAmong waits.1).eraseDups
      let s1 := s.acquire
      let s2 := if lost.isEmpty then s1 else s1.peerLost c.num 3 lost
      let s3 := s2.mapCx fun c => c.mapOrder fun q =>
        { q with tokens := if c.isToken w then q.tokens.filter fun t =>
            !(t.slot == field w.toNat 8 3 && t.serial == field w.toNat 16 32) else q.tokens }
      (s3.putScalar o.dst (BitVec.ofNat 64 ((if lost.isEmpty then 0 else 2) + 2 ^ 16 * (lost.length % 2 ^ 12)))).done
        (.c 0x072 o)

/-! ## BATCHC (R96 to R99, R270) -/

/-- The batch status word (R98). -/
def Close.status (k : Close) : Word :=
  let st := if !k.lost.isEmpty then 2 else if k.refused ≠ 0 then 1 else 0
  BitVec.ofNat 64 (st + 2 ^ 8 * k.reasons.toNat + 2 ^ 16 * (k.peers % 2 ^ 12) + 2 ^ 28 * (k.errpeers % 2 ^ 12)
    + 2 ^ 40 * (k.lost.length % 2 ^ 12) + 2 ^ 52 * min 0xFFF k.refused)

/-- Has a close every reply, with no earlier close of its tag before it (R97)? -/
def closeReady (before : List Close) (k : Close) : Bool :=
  k.waiting.isEmpty && !before.any fun x => x.tag == k.tag

/-- The first close that can complete. -/
def readyClose : List Close → List Close → Option (Close × List Close)
  | _, [] => none
  | before, k :: ks => if closeReady before k then some (k, before ++ ks) else readyClose (before ++ [k]) ks

/-- The closes of a context that can complete do so (R97, R98, R104): the failed-peer bits, then the status register and y0. -/
def State.completeCloses (s : State) (n : Nat) : Nat → State
  | 0 => s
  | fuel + 1 =>
    match s.findCtx n with
    | none => s
    | some c => match readyClose [] c.order.closes with
      | none => s
      | some (k, rest) =>
        let s1 := if k.lost.isEmpty then s else s.peerLost n 4 k.lost
        let s2 := s1.updCtx n fun c => c.mapOrder fun o => { o with closes := rest }
        (s2.putLate n k.num k.status).completeCloses n fuel

/-- The oldest close that a BATCHC waits for (R97): with 4 in progress, and until that one completes.  None where it goes on. -/
def Ctx.closeWait (c : Ctx) : Option Nat :=
  match c.stall with
  | some (.oldest n) => if c.order.closes.any fun k => k.num == n then some n else none
  | _ => if c.order.closes.length < 4 then none else (c.order.closes.head?).map (·.num)

/-- BATCHC (R97, R270): CLOSE to every live peer that the tag touched; a fifth close waits for the oldest, and a close of nothing waits for an
earlier close of its tag.
(DESIGN CHOICE, log entry 97.) -/
def execBatchc (o : MOps) (s : State) : Result :=
  s.run (.m 0x073 o) fun c s =>
    let b := o.batch.toNat
    let gone := (c.order.gone.filter fun x => x.1 == b).map (·.2)
    let peers := ((c.order.touched[b]?).getD [] ++ gone).eraseDups
    let lost := peers.filter fun d => s.lost d || gone.contains d
    let live := peers.filter fun d => !(s.lost d || gone.contains d)
    let k : Close :=
      { num := c.order.lateNum, tag := b, peers := peers.length, waiting := live, reasons := 0, errpeers := 0,
        lost := sortNat lost, refused := 0, since := s.time }
    let at' := live.isEmpty && !c.order.closes.any fun x => x.tag == b
    match if at' then none else c.closeWait with
    | some n => s.stallOn (.oldest n)
    | none =>
      let s1 := s.mapCx fun c => c.mapOrder fun q =>
        { q with touched := setAt q.touched b [], gone := q.gone.filter fun x => x.1 != b,
                 outs := q.outs.map fun x => if x.batch = b ∧ x.kind = .store then { x with batch := b + 4 } else x }
      if at' then
        let s2 := if lost.isEmpty then s1 else s1.peerLost c.num 4 k.lost
        (s2.putScalar o.dst k.status).done (.m 0x073 o)
      else
        let s2 := live.foldl (fun s d => s.packet c d (.close c.num b)) s1
        let s3 := s2.mapCx fun c => c.mapOrder fun q =>
          { q.await o.dst with closes := q.closes ++ [k] }
        s3.done (.m 0x073 o)

/-! ## WAITV and NOTE (R148, R150, R272, R273) -/

/-- The word of a WAITV or NOTE: 8 bytes in HBM of a device of the domain, else the access fault (R272). -/
def State.withWord (s : State) (c : Ctx) (o : MOps) (k : Tgt → State → State) : State :=
  let a := c.addrIx o
  s.withAddr a 8 8 fun t s => if s.isHbm t then k t s else s.accessFault 5 a.word 8

/-- WAITV (R148, R272): position 0 of a chain, or a single firing, writes s1 to s8 back. -/
def execWaitv (o : MOps) (s : State) : Result :=
  s.run (.m 0x078 o) fun c s =>
    s.withWord c { o with sb := 0 } fun t s =>
      s.ending (.m 0x078 o)
        (fun _ c => .wait t.ga (c.srcS [o.sa] o.sb).toNat (c.pc.toNat + (Form.m 0x078 o).size) c.handle)
        fun c s => if c.chainAt = 0 then s.saveArgs c else s

/-- A NOTE (R150, R273): earlier accesses of the seat to the word come first; to a lost device it is dropped.
(DEDUCED, log entry 42.) -/
def State.note (s : State) (op : BitVec 9) (o : MOps) (all : Bool) : State :=
  match s.cx with
  | none => s
  | some c => s.withWord c o fun t s =>
    if !(s.unperformed (c.order.outs.filter fun x => x.acq || x.touches t.dev ((List.range 8).map (t.off + ·)))).isEmpty then
      s.stallOn .perform
    else if t.dev = s.devNum then match s.heldAll c.tenant [t.off] with
      | .inr d => (s.denied c d t.ga).done (.m op o)
      | .inl _ => (s.oweChecked c.handle (.noteWake t.off all)).done (.m op o)
    else if s.lost t.dev then s.done (.m op o)
    else (((s.packet c t.dev (.note c.num c.handle t.off all)).noteChecked c.handle (.note t.dev c.num t.off c.pc c.retires)).mapCx fun c =>
      c.charge (portPj 8)).done (.m op o)

/-- NOTE.ONE (R150, R273).
(DEDUCED, log entry 42.) -/
def execNoteOne (o : MOps) (s : State) : Result := s.run (.m 0x079 o) fun _ s => s.note 0x079 o false

/-- NOTE.ALL (R130, R150, R273). -/
def execNoteAll (o : MOps) (s : State) : Result := s.run (.m 0x07A o) fun _ s => s.note 0x07A o true

/-! ## SWSET and SWWAIT (R51, R274, R275) -/

/-- SWSET (R51, R274): a sync word in a scratchpad of this device takes TARGET and COUNT 0. -/
def execSwset (o : MOps) (s : State) : Result :=
  s.run (.m 0x07B o) fun c s =>
    let a := c.addr o 0
    let target := (c.srcS [o.sa] o.sb).toNat % 2 ^ 32
    s.withAddr a 16 16 fun t s =>
      if t.dev ≠ s.devNum ∨ (bankCore t.off).isNone ∨ launchArea t.off then s.accessFault 5 a.word 16
      else if !(s.acquiring c).isEmpty then s.stallOn .perform
      else match s.heldSeat c.tenant [t.off] with
        | .inr d => (s.denied c d t.ga).done (.m 0x07B o)
        | .inl held =>
          let x := held.headD t.off
          let w := setField (setField (s.mem.readNat x 16) 0 32 target) 32 32 0
          ({ s with mem := s.mem.writeNat x 16 w } : State).done (.m 0x07B o)

/-- SWWAIT (R51, R275): a generation already reached releases at once, else the seat's WAIT bit and a stall.
(DEDUCED, log entry 43.) -/
def execSwwait (o : MOps) (s : State) : Result :=
  s.run (.m 0x07C o) fun c s =>
    let a := c.addr o 0
    let g := (c.srcS [o.sa] o.sb).setWidth 32
    s.withAddr a 16 16 fun t s =>
      if !s.ownPad t then s.accessFault 5 a.word 16
      else
        let w := s.mem.readNat t.off 16
        let bitAt := 96 + s.cur.seat
        if (field w 64 32 + 2 ^ 32 - g.toNat) % 2 ^ 32 < 2 ^ 31 then
          if !(s.unperformed c.order.syncOuts).isEmpty then s.stallOn .perform
          else s.closing fun s => s.acquire.done (.m 0x07C o)
        else
          let s1 : State := { s with mem := s.mem.writeNat t.off 16 (setField w bitAt 1 1) }
          s1.stallOn (.syncWord (t.off - padOff s.cur.core 0) g)

/-! ## TLWAIT and TLREAD (R60, R61, R276, R277) -/

/-- Virtual queue index of a form's VQ and ENG bits. -/
def vqOf (imm : Nat) : Nat := 4 * field imm 2 1 + field imm 0 2

/-- A virtual queue of a context. -/
def Ctx.vq (c : Ctx) (k : Nat) : VQ := (c.queues[k]?).getD VQ.fresh

/-- TLWAIT (R61, R276): DONE of the queue reaches the lesser of n and ISSUED, then the acquire. -/
def execTlwait (o : COps) (s : State) : Result :=
  s.run (.c 0x07D o) fun c s =>
    let n := c.valA o.sa
    let q := c.vq (vqOf o.imm.toNat)
    if q.done < min n.toNat q.issued then s.stallOn .timeline
    else if !(s.unperformed c.order.syncOuts).isEmpty then s.stallOn .perform
    else s.closing fun s => (s.acquire.putScalar o.dst (BitVec.ofNat 64 q.done)).done (.c 0x07D o)

/-- TLREAD (R60, R277). -/
def execTlread (o : COps) (s : State) : Result :=
  s.run (.c 0x07E o) fun c s =>
    let q := c.vq (vqOf o.imm.toNat)
    (s.putScalar o.dst (BitVec.ofNat 64 (if bit o.imm.toNat 3 then q.done else q.issued))).done (.c 0x07E o)

end Sys2Proof.Machine
end

