-- ==== Sys2Proof/Machine/Engine.lean ====
section
/-! DEFINITION. The copy engines: the issue of every engine command, acceptance and its checks, the tensor slice, the
landings, the status record, the queues with their weights, and what a region update or a lost peer does to a command
(R31, R84, R102, R166, R167, R322 to R332). -/

namespace Sys2Proof.Machine

open Sys2Proof.Bits

/-! ## The command block (R326) -/

/-- A field of a command's block. -/
def Cmd.at (k : Cmd) (lo len : Nat) : Nat := field k.block.toNat lo len
/-- DGA. -/
def Cmd.dga (k : Cmd) : Word := BitVec.ofNat 64 (k.at 0 64)
/-- SGA. -/
def Cmd.sga (k : Cmd) : Word := BitVec.ofNat 64 (k.at 64 64)
/-- LEN. -/
def Cmd.len (k : Cmd) : Nat := k.at 192 32
/-- SWLA. -/
def Cmd.swla (k : Cmd) : Nat := k.at 224 17
/-- SFMT. -/
def Cmd.sfmt (k : Cmd) : BitVec 4 := BitVec.ofNat 4 (k.at 241 4)
/-- ZP. -/
def Cmd.zp (k : Cmd) : Nat := k.at 245 8
/-- ROWS. -/
def Cmd.rows (k : Cmd) : Nat := k.at 256 32
/-- STLA. -/
def Cmd.stla (k : Cmd) : Nat := k.at 288 17
/-- MAPLA. -/
def Cmd.mapla (k : Cmd) : Nat := k.at 305 17
/-- SSTR. -/
def Cmd.sstr (k : Cmd) : Int := signed 64 (k.at 384 64)
/-- DSTR. -/
def Cmd.dstr (k : Cmd) : Int := signed 64 (k.at 448 64)
/-- SWZW (R328). -/
def Cmd.swzw (k : Cmd) : Nat := field k.ke.toNat 0 2
/-- HDR (R328). -/
def Cmd.hdr (k : Cmd) : Bool := bit k.ke.toNat 2
/-- Bytes of a block header ahead of the elements. -/
def Cmd.ahead (k : Cmd) : Int := if k.hdr then 16 else 0

/-- The zero point that an element type takes from ZP (R326, R330). -/
def zpOf (et : BitVec 4) (zp : Nat) : Nat := if et = 12 then zp else if et = 13 then zp % 16 else 0

/-! ## Queues (R60, R323 to R325) -/

/-- Change a virtual queue of a context. -/
def Ctx.mapVq (c : Ctx) (qi : Nat) (f : VQ → VQ) : Ctx := { c with queues := setAt c.queues qi (f (c.vq qi)) }

/-- A command of a queue by its number. -/
def VQ.cmd (q : VQ) (num : Nat) : Option Cmd := q.cmds.find? fun k => k.num == num

/-- Change a command of a queue. -/
def VQ.mapCmd (q : VQ) (num : Nat) (f : Cmd → Cmd) : VQ :=
  { q with cmds := q.cmds.map fun k => if k.num = num then f k else k }

/-- Change a command of a context. -/
def State.mapCmd (s : State) (ctx qi num : Nat) (f : Cmd → Cmd) : State :=
  s.updCtx ctx fun c => c.mapVq qi fun q => q.mapCmd num f

/-- DONE over the commands that have completed in order (R60). -/
def advanceDone : Nat → Nat → List Nat → Nat × List Nat
  | 0, d, ahead => (d, ahead)
  | fuel + 1, d, ahead =>
    if ahead.contains (d + 1) then advanceDone fuel (d + 1) (ahead.filter (· != d + 1)) else (d, ahead)

/-- A command counts as complete (R60): DONE is the greatest n up to which every command has completed. -/
def VQ.complete (q : VQ) (num : Nat) : VQ :=
  let r := advanceDone (q.ahead.length + 1) q.done (num :: q.ahead)
  { q with done := r.1, ahead := r.2, cmds := q.cmds.filter fun k => k.num != num }

/-- The engine of a queue index. -/
def engOf (qi : Nat) : Eng := if qi < 4 then .copy else .coll

/-- Place of a context's engine (R323): its core, or that core's cluster. -/
def placeOfEngine (c : Ctx) (e : Eng) : Nat :=
  match e with
  | .copy => c.seatAt.core
  | .coll => clusterOf c.seatAt.core

/-! ## Issue (R323, R326, R333, R334) -/

/-- The command block of an engine form (R326): a local load of the seat, or what a runtime port gives in v0. -/
def State.withBlock (s : State) (c : Ctx) (f : Form) (la : Nat) (k : List Byte → State → State) : State :=
  if isPort c.num then k (bytesOf 64 (c.regs.getV 0).toNat) s
  else s.loadHere c f false ((List.range 64).map fun i => padOff s.cur.core (la + i)) k

/-- Issue an engine command: the block is read as a local load, the queue numbers the command, and its acceptance is
owed.
(DESIGN CHOICE, log entry 86.) -/
def State.engineForm (s : State) (op : BitVec 9) (o : EOps) : Result :=
  s.run (.e op o) fun c s =>
    let f := Form.e op o
    let la := (c.srcS [] o.sa).toNat % 2 ^ 17
    let coll := decide (0x147 ≤ op.toNat)
    let qi := (if coll then 4 else 0) + o.vq.toNat
    let q := c.vq qi
    let slot := field o.ke.toNat 0 2
    let b := if coll then (c.gbinds[slot]?).getD none else none
    if !isPort c.num && la % 64 != 0 then s.accessFault 4 (BitVec.ofNat 64 la) 64
    else if !isPort c.num && (decide (la < 0x100) || decide (0x1FFC0 < la)) then s.accessFault 10 (BitVec.ofNat 64 la) 64
    else if coll ∧ b.isNone then s.accessFault 9 (BitVec.ofNat 64 la) 64
    else if 16 ≤ q.cmds.length then s.stallOn .full
    else s.withBlock c f la fun bytes s =>
      let num := q.issued + 1
      let k : Cmd :=
        { num := num, op := op, block := BitVec.ofNat 512 (valOf bytes), et := o.et, ke := o.ke,
          pattern := c.srcS [o.sa] o.sb, indexLa := (c.srcS [o.sa, o.sb] o.sc).toNat % 2 ^ 17,
          rank := c.csrs.rank.toNat % 2 ^ 32, rm := c.rm, pc := c.pc, bind := (b.map (·.word)).getD 0,
          timeout := (b.map (·.timeout)).getD 0, inst := (b.map (·.seq)).getD 0, phase := .issued, src := 0, dst := 0,
          srcHdl := 0, dstHdl := 0, srcBase := 0, dstBase := 0, lands := [], dests := [], asked := false, fetched := false,
          acks := 0, done := 0, status := 0, flags := 0, arrived := 0, missing := [], stop := none, born := c.retires, times := [] }
      let s1 := s.mapCx fun c =>
        { c.mapVq qi fun q => { q with issued := num, cmds := q.cmds ++ [k] } with
          gbinds := if coll then setAt c.gbinds slot (b.map fun g => { g with seq := (g.seq + 1) % 65536 }) else c.gbinds }
      ((s1.putScalar o.dst (BitVec.ofNat 64 num)).owe (.copyAccept (engOf qi) c.num o.vq.toNat num)).done f

/-! ## Spans (R327) -/

/-- Are the LAs from `lo` up to `hi` inside a footprint (R48)? -/
def coveredFrom (fp : List (Nat × Nat)) : Nat → Nat → Nat → Bool
  | 0, lo, hi => decide (hi ≤ lo)
  | fuel + 1, lo, hi =>
    if hi ≤ lo then true
    else match fp.find? fun r => decide (r.1 ≤ lo) && decide (lo < r.1 + r.2) with
      | some r => coveredFrom fp fuel (r.1 + r.2) hi
      | none => false

/-- Does a context's declared footprint hold `n` bytes from an LA? -/
def Ctx.covers (c : Ctx) (la n : Nat) : Bool := coveredFrom c.footprint (c.footprint.length + 1) la (la + n)

/-- The check of one side of a command over the bytes from `lo` to `hi`, relative to its GA (R8, R31, R32, R327): the reason that
refuses it; a device without a route gives BOUNDS.  Handle 0 names the footprint of a seat's context; a command of the runtime under it
is not region-checked.
(DEDUCED, log entry 74.) -/
def State.checkSide (s : State) (c : Ctx) (h : BitVec 32) (ga : Nat) (lo hi : Int) (write : Bool) : Option Nat :=
  let start := (ga : Int) + lo
  let n := (hi - lo).toNat
  let off := field start.toNat 0 45
  let runtime := isPort c.num && c.tenant == 0 && h == 0
  if start < 0 then some 6
  else if h ≠ 0 ∨ runtime then
    match (if runtime then none else s.portCheck c.tenant h start.toNat n (if write then .write else .read)) with
    | some r => some r
    | none =>
      let dev := field start.toNat 45 12
      if field start.toNat 57 7 ≠ 0 ∨ 0x800 ≤ dev ∨ !s.routed dev ∨ (write ∧ n ≠ 0 ∧ launchArea off) then some 6 else none
  else
    let la := off - padOff c.seatAt.core 0
    if field start.toNat 45 19 = s.devNum ∧ bankCore off = some c.seatAt.core ∧ la + n ≤ Config.padSize ∧ c.covers la n
      ∧ !(write && n != 0 && launchArea off) then none
    else some 6

/-- A record of an LA and a length in the footprint, 16-byte aligned, or none at all (R327). -/
def Ctx.placed (c : Ctx) (la n : Nat) : Bool := la == 0 || (la % 16 == 0 && c.covers la n)

/-- The sync word of a command whose destination starts at a GA (R327). -/
def State.syncPlaced (s : State) (c : Ctx) (ga swla : Nat) : Bool :=
  if swla = 0 then true
  else match bankCore (field ga 0 45) with
    | none => false
    | some core =>
      swla % 16 == 0 && decide (0x100 ≤ swla) && decide (swla + 16 ≤ Config.padSize)
        && (if field ga 45 12 = s.devNum ∧ core = c.seatAt.core then c.covers swla 16 else true)

/-! ## The tensor slice (R166, R167) -/

/-- A slice in nibbles (half bytes): its base, and for each dimension, innermost first, its length and step. -/
structure TSlice where
  base : Nat
  lens : List Nat
  steps : List Nat
  deriving DecidableEq, Repr

/-- The coordinates of a rank (R167), dimension 0 first. -/
def coordsOf : List Nat → Nat → List Nat
  | [], _ => []
  | p :: ps, q => q % p :: coordsOf ps (q / p)

/-- The slice that a rank takes of a tensor shape record (R167); none is the slice fault. -/
def tensorSlice (tsr rank : Nat) : Option TSlice :=
  let fmt := BitVec.ofNat 4 (field tsr 0 8)
  let sz := Flt.etWidth fmt / 4
  let ndim := field tsr 8 8
  let parts := (List.range 4).map fun d => field tsr (384 + 16 * d) 16
  let dim (d : Nat) : Nat := if d < ndim then field tsr (128 + 32 * d) 32 else 1
  let stride (d : Nat) : Nat := field tsr (256 + 32 * d) 32
  let q := (rank + 2 ^ 32 - field tsr 448 32) % 2 ^ 32
  if parts.foldl (· * ·) 1 ≤ q then none
  else
    let cs := coordsOf parts q
    let part (d : Nat) : Nat := (parts[d]?).getD 1
    let c (d : Nat) : Nat := (cs[d]?).getD 0
    let block := decide (field tsr 24 8 = 0)
    let b (d : Nat) : Nat := (dim d + part d - 1) / part d
    let start (d : Nat) : Nat := if block then min (c d * b d) (dim d) else c d
    let len (d : Nat) : Nat :=
      if block then min (b d) (dim d - start d) else if c d < dim d then (dim d - c d + part d - 1) / part d else 0
    let step (d : Nat) : Nat := sz * (if block then stride d else stride d * part d)
    let base := 2 * field tsr 64 64 + sz * ((List.range 4).map fun d => start d * stride d).foldl (· + ·) 0
    if base % 2 ≠ 0 ∨ (List.range 4).any fun d => decide (1 < len d) && step d % 2 != 0 then none
    else some { base := base, lens := (List.range 4).map len, steps := (List.range 4).map step }

/-- The bytes of a slice in dense order, as runs from the region's base; an o4 element stands in the low half of its own
byte. -/
def TSlice.runs (t : TSlice) (sz : Nat) : List (Nat × Nat) :=
  let len (d : Nat) : Nat := (t.lens[d]?).getD 0
  let step (d : Nat) : Nat := (t.steps[d]?).getD 0
  (List.range (len 3)).flatMap fun i3 => (List.range (len 2)).flatMap fun i2 => (List.range (len 1)).flatMap fun i1 =>
    let row := t.base + i3 * step 3 + i2 * step 2 + i1 * step 1
    if step 0 = sz ∧ 2 ≤ sz ∧ len 0 ≠ 0 then [(row / 2, len 0 * sz / 2)]
    else (List.range (len 0)).map fun i0 => ((row + i0 * step 0) / 2, max 1 (sz / 2))

/-! ## Landings (R45, R328) -/

/-- A run cut into landings of at most 64 bytes, source and destination alike.
(DESIGN CHOICE, log entry 47.) -/
def cutLands : Nat → Int → Int → Nat → List Land
  | 0, _, _, _ => []
  | fuel + 1, s, d, n =>
    if n = 0 then []
    else
      let m := min 64 n
      { src := [(s, m)], lit := [], dst := d, len := m, kind := .elems } :: cutLands fuel (s + m) (d + m) (n - m)

/-- The landings of a run. -/
def runLands (s d : Int) (n : Nat) : List Land := cutLands (n / 64 + 1) s d n

/-- The landings of some literal bytes at a destination. -/
def litLands (d : Int) (bytes : List Byte) : List Land :=
  let ps := pieces 64 (bytes.length / 64 + 1) bytes
  (ps.zip (List.range ps.length)).map fun p =>
    { src := [], lit := p.1, dst := d + 64 * p.2, len := p.1.length, kind := .elems }

/-- The place of byte `x` of a skew tile's 128-byte rows (R45). -/
def skewOff (x : Nat) : Nat := 128 * (x / 128) + 4 * ((x / 128 + x % 128 / 4) % 32)

/-- The landings of a 64-byte-piece list moved to their skew places, four bytes each (R328). -/
def skewLands (s d : Int) (n : Nat) : List Land :=
  (List.range (n / 4)).map fun (i : Nat) =>
    { src := [(s + ((4 * i : Nat) : Int), 4)], lit := [], dst := d + skewOff (4 * i), len := 4, kind := .elems }

/-- The landings of a converted run (R329): whole pieces of 64 destination bytes. -/
def cvtLands (s d : Int) (ws wd total : Nat) : List Land :=
  let e := 512 / wd
  (List.range ((total + e - 1) / e)).map fun i =>
    let n := min e (total - i * e)
    { src := [(s + (i * e * ws / 8 : Nat), n * ws / 8)], lit := [], dst := d + (i * e * wd / 8 : Nat),
      len := n * wd / 8, kind := .elems }

/-- The landings of a converted run moved to its skew places (R45, R328, R329): a word each, which takes several elements, one, or
half of one. -/
def cvtSkewLands (s d : Int) (ws wd total : Nat) : List Land :=
  (List.range (total * wd / 32)).map fun j =>
    let first := if wd = 64 then j / 2 else j * (32 / wd)
    let n := if wd = 64 then 1 else 32 / wd
    { src := [(s + (first * ws / 8 : Nat), (first * ws % 8 + n * ws + 7) / 8)], lit := [], dst := d + (skewOff (4 * j) : Nat), len := 4,
      kind := .word (first * ws % 8 / ws) (if wd = 64 then j % 2 else 0) }

/-- The pattern bytes of a FILL. -/
def fillBytes (sz n : Nat) (pattern : Word) : List Byte :=
  (List.range n).map fun i => BitVec.ofNat 8 (pattern.toNat >>> (8 * (i % sz)))

/-- The landings of an o4 tensor copy (R167, R330): to or from one nibble a byte. -/
def nibbleLands (toTensor : Bool) (offs : List Nat) : List Land :=
  if toTensor then
    (offs.zip (List.range offs.length)).map fun p =>
      { src := [((p.2 / 2 : Nat), 1)], lit := [], dst := p.1, len := 1, kind := if p.2 % 2 = 0 then .low else .high }
  else
    ((pieces 2 (offs.length / 2 + 1) offs).zip (List.range offs.length)).map fun p =>
      { src := p.1.map fun (o : Nat) => (((o : Nat) : Int), 1), lit := [], dst := p.2, len := 1, kind := .pack }

/-- The landings of the other tensor copies: the slice is packed densely, dimension 0 innermost (R330). -/
def tensorLands (toTensor : Bool) : List (Nat × Nat) → Nat → List Land
  | [], _ => []
  | (o, n) :: rest, pos => (if toTensor then runLands pos o n else runLands o pos n) ++ tensorLands toTensor rest (pos + n)

/-- A header-tagged copy's first and last landings around its elements (R222, R328). -/
def Cmd.withHeader (k : Cmd) (lands : List Land) : List Land :=
  if !k.hdr ∨ lands.isEmpty then lands
  else
    let tag : List Byte := [BitVec.ofNat 8 k.swzw, k.et.setWidth 8] ++ bytesOf 2 k.num ++ bytesOf 4 0
    [{ src := [(0, 8)], lit := [], dst := 0, len := 8, kind := .header }] ++ lands
      ++ [{ src := [], lit := tag, dst := 8, len := 8, kind := .final }]

/-! ## Acceptance (R31, R327 to R330) -/

/-- What an accepted copy moves: whether it reads a source, each side's GA and handle, and the landings. -/
structure Plan where
  reads : Bool
  src : Nat
  srcHdl : BitVec 32
  dst : Nat
  dstHdl : BitVec 32
  lands : List Land
  /-- Bytes of a header that the spans include. -/
  head : Bool
  deriving DecidableEq, Repr

/-- The least and the greatest end of some runs; both zero when there are none. -/
def spanOf (rs : List (Int × Nat)) : Int × Int :=
  match rs with
  | [] => (0, 0)
  | r :: rest => rest.foldl (fun (a : Int × Int) (x : Int × Nat) => (min a.1 x.1, max a.2 (x.1 + x.2))) (r.1, r.1 + r.2)

/-- The source span of a plan. -/
def Plan.srcSpan (p : Plan) : Int × Int :=
  spanOf ((p.lands.flatMap (·.src)) ++ (if p.head && !p.lands.isEmpty then [(0, 16)] else []))

/-- The destination span of a plan. -/
def Plan.dstSpan (p : Plan) : Int × Int :=
  spanOf ((p.lands.map fun l => (l.dst, l.len)) ++ (if p.head && !p.lands.isEmpty then [(0, 16)] else []))

/-- Device and device offset of a byte relative to a GA. -/
def gaPlace (ga : Nat) (d : Int) : Tgt :=
  let x := ((ga : Int) + d).toNat
  { dev := field x 45 12, off := field x 0 45 }

/-- Does the destination at a place hold a skew tile (R45, R328)? -/
def skewTile (ga : Nat) (d : Int) : Bool :=
  let off := (gaPlace ga d).off
  match bankCore off with
  | none => false
  | some core => (off - windowOf core) % 128 == 0 && decide (off - windowOf core + 0x1000 ≤ Config.padSize)

/-- The rows of COPY.S and COPYX; with SWZW 1 each is a skew tile of its own (R328).
(DEDUCED, log entry 44.) -/
def Cmd.rowLands (k : Cmd) (idx : Nat → Int) : List Land :=
  if k.len = 0 then []
  else (List.range k.rows).flatMap fun (r : Nat) =>
    let s : Int := k.ahead + idx r * k.sstr
    let d : Int := k.ahead + (r : Int) * k.dstr
    if k.swzw = 1 then skewLands s d k.len else runLands s d k.len

/-- The pairs of types that R231 forbids. -/
def pairForbidden (a b : BitVec 4) : Bool :=
  a == b || decide (13 < a.toNat) || decide (13 < b.toNat) || (a == 12 && b == 13) || (a == 13 && b == 12)

/-- What a copy command moves, or the reason and handle that refuse it (R328 to R330).
(DEDUCED, log entry 44.) -/
def State.planCopy (s : State) (c : Ctx) (k : Cmd) : (Nat × BitVec 32) ⊕ Plan :=
  let op := k.op.toNat
  let dst := s.resolve k.dga
  let src := s.resolve k.sga
  let dh : BitVec 32 := BitVec.ofNat 32 (k.at 128 32)
  let sh : BitVec 32 := BitVec.ofNat 32 (k.at 160 32)
  let plan (reads : Bool) (lands : List Land) : (Nat × BitVec 32) ⊕ Plan :=
    .inr { reads := reads, src := src, srcHdl := sh, dst := dst, dstHdl := dh, lands := k.withHeader lands, head := k.hdr }
  let skew := decide (k.swzw = 1)
  let tiles (n : Nat) (places : List Int) (ok : (Nat × BitVec 32) ⊕ Plan) : (Nat × BitVec 32) ⊕ Plan :=
    if !skew then ok
    else if n % 128 ≠ 0 ∨ n < 128 ∨ 4096 < n then .inl (0, 0)
    else if places.any fun d => !skewTile dst d then .inl (6, dh)
    else ok
  let tile (n : Nat) (ok : (Nat × BitVec 32) ⊕ Plan) : (Nat × BitVec 32) ⊕ Plan := tiles n [k.ahead] ok
  let rows : List Int := (List.range k.rows).map fun (r : Nat) => k.ahead + (r : Int) * k.dstr
  if op = 0x140 then
    if k.rows ≠ 0 then .inl (0, 0)
    else tile k.len (plan true (if skew then skewLands k.ahead k.ahead k.len else runLands k.ahead k.ahead k.len))
  else if op = 0x141 then
    let tsr := s.mem.readNat (padOff c.seatAt.core (0x40 * field k.ke.toNat 4 2)) 64
    if k.len ≠ 0 ∨ skew then .inl (0, 0)
    else if tsr = 0 ∨ field tsr 0 8 ≠ k.et.toNat then .inl (8, 0)
    else match tensorSlice tsr k.rank with
      | none => .inl (8, 0)
      | some t =>
        let sz := Flt.etWidth k.et / 4
        let toTensor := bit k.ke.toNat 3
        let rs := t.runs sz
        let lands := if sz = 1 then nibbleLands toTensor (rs.map (·.1)) else tensorLands toTensor rs 0
        let h : BitVec 32 := BitVec.ofNat 32 (field tsr 32 32)
        let base := dBase (s.descAt (hIndex h))
        if toTensor then
          .inr { reads := true, src := src, srcHdl := sh, dst := base, dstHdl := h, lands := lands, head := false }
        else .inr { reads := true, src := base, srcHdl := h, dst := dst, dstHdl := dh, lands := lands, head := false }
  else if op = 0x142 then
    let ws := Flt.etWidth k.sfmt
    let wd := Flt.etWidth k.et
    if k.rows ≠ 0 then .inl (0, 0)
    else if pairForbidden k.sfmt k.et then .inl (9, 0)
    else if k.len * ws % 8 ≠ 0 ∨ k.len * wd % 8 ≠ 0 then .inl (0, 0)
    else tile (k.len * wd / 8) (plan true (if skew then cvtSkewLands k.ahead k.ahead ws wd k.len
      else cvtLands k.ahead k.ahead ws wd k.len))
  else if op = 0x143 then tiles k.len rows (plan true (k.rowLands fun r => r))
  else if op = 0x144 then
    if k.len ≠ 0 ∧ k.rows ≠ 0 ∧ !c.covers k.indexLa (4 * k.rows) then .inl (6, 0)
    else tiles k.len rows (plan true (k.rowLands fun r => signed 32 (s.mem.readNat (padOff c.seatAt.core (k.indexLa + 4 * r)) 4)))
  else
    let sz := if op = 0x145 then 4 else 8
    if k.rows ≠ 0 then .inl (0, 0)
    else if k.len % sz ≠ 0 ∨ dst % sz ≠ 0 ∨ k.hdr then .inl (6, dh)
    else
      let bytes := fillBytes sz k.len k.pattern
      let words := (pieces 4 (k.len / 4) bytes).zip (List.range (k.len / 4))
      tile k.len (plan false (if skew then words.map fun p =>
          { src := [], lit := p.1, dst := skewOff (4 * p.2), len := 4, kind := .elems } else litLands 0 bytes))

/-- The checks that every accepted copy passes (R327): its plan, or the reason and handle that refuse it. -/
def State.acceptCopy (s : State) (c : Ctx) (k : Cmd) : (Nat × BitVec 32) ⊕ Plan :=
  if k.at 253 3 ≠ 0 ∨ k.at 322 62 ≠ 0 then .inl (0, 0)
  else if !c.placed k.stla 16 ∨ !c.placed k.mapla 256 then .inl (6, 0)
  else match s.planCopy c k with
    | .inl r => .inl r
    | .inr p =>
      let ss := p.srcSpan
      let ds := p.dstSpan
      match (if p.reads then s.checkSide c p.srcHdl p.src ss.1 ss.2 false else none) with
      | some r => .inl (r, p.srcHdl)
      | none => match s.checkSide c p.dstHdl p.dst ds.1 ds.2 true with
        | some r => .inl (r, p.dstHdl)
        | none =>
          if k.hdr ∧ (bankCore (field p.dst 0 45)).isNone then .inl (6, p.dstHdl)
          else if !s.syncPlaced c p.dst k.swla then .inl (6, p.dstHdl)
          else .inr p

/-- AUX2 of an engine fault (R359): the queue and its engine.
(DESIGN CHOICE, log entry 45.) -/
def engineAux (qi : Nat) : Nat := qi % 4 + 4 * (qi / 4)

/-- The imprecise engine fault of a command (R31, R359).
(DESIGN CHOICE, log entry 45.) -/
def State.engineFault (s : State) (ctx qi : Nat) (k : Cmd) (reason : Nat) (h : BitVec 32) : State :=
  s.imprecise ctx
    { code := 18, sub := reason, val := BitVec.ofNat 64 k.num, aux1 := h.toNat, aux2 := engineAux qi, pc := k.pc, detail := 0 }
    (k.born + 1)

/-- The fault of an engine's store refused at its destination (R32, R359): the store's GA, and its mark; an engine's store has no batch
tag.
(DESIGN CHOICE, log entry 45.) -/
def landFault (qi : Nat) (k : Cmd) (reason ga : Nat) : Flt :=
  { code := 18, sub := reason, val := BitVec.ofNat 64 ga, aux1 := k.dstHdl.toNat, aux2 := engineAux qi + 8, pc := k.pc, detail := 0 }

/-- The fault of an engine's read refused where it was to be made (R32, R359). -/
def readFault (k : Cmd) (dev ga reason : Nat) : Flt :=
  { code := 19, sub := 2, val := BitVec.ofNat 64 ga, aux1 := dev, aux2 := reason, pc := k.pc, detail := 0 }

/-- A command that counts as complete leaves its queue, and the engine may start another (R60, R324). -/
def State.retireCmd (s : State) (c : Ctx) (qi num : Nat) : State :=
  (((s.updCtx c.num fun c => c.mapVq qi fun q => q.complete num).owe
    (.commandStart (engOf qi) (placeOfEngine c (engOf qi)))).cleanEnded)

/-- A refused command (R31, R60, R327): the imprecise fault, no byte moved, no status record. -/
def State.refuseCmd (s : State) (c : Ctx) (qi : Nat) (k : Cmd) (reason : Nat) (h : BitVec 32) : State :=
  (s.engineFault c.num qi k reason h).retireCmd c qi k.num

/-- Base GA of the region that a handle names, zero for handle 0. -/
def State.baseOf (s : State) (h : BitVec 32) : Nat := if h = 0 then 0 else dBase (s.descAt (hIndex h))

/-! ## The status record (R331) -/

/-- The 16 bytes of a status record. -/
def statusRecord (k : Cmd) : Nat :=
  field k.status 0 4 + 2 ^ 4 * field k.arrived 0 12 + 2 ^ 16 * k.flags.toNat + 2 ^ 64 * min k.done (2 ^ 32 - 1)

/-- Where a byte of a window is held for a command of a context: its own core's banks are not judged while its partition
is there (R34, R42, R387). -/
def State.heldEngine (s : State) (c : Ctx) (offs : List Nat) : List Nat ⊕ Deny :=
  match offs with
  | [] => .inl []
  | off :: _ =>
    if bankCore off = some c.seatAt.core ∧ ((s.core c.seatAt.core).resident = none
      ∨ (s.core c.seatAt.core).resident = some c.part) then .inl offs
    else s.heldAll c.tenant offs

/-- Bytes that an engine puts into the issuing core's scratchpad. -/
def State.putPad (s : State) (c : Ctx) (core la : Nat) (bytes : List Byte) : State :=
  let offs := (List.range bytes.length).map fun i => padOff core (la + i)
  match s.heldEngine { c with seatAt := { c.seatAt with core := core } } offs with
  | .inl held => { s with mem := s.mem.writeEach (held.zip bytes) }
  | .inr _ => s

/-- The status record of a command in the scratchpad of a core (R331, R370). -/
def State.writeStatus (s : State) (c : Ctx) (core : Nat) (k : Cmd) : State :=
  if k.stla = 0 then s else s.putPad c core k.stla (bytesOf 16 (statusRecord k))

/-- The map of missing contributors (R335): bit (c mod 8) of byte c div 8. -/
def missingMap (missing : List Nat) : List Byte :=
  (List.range 256).map fun b => BitVec.ofNat 8 (packLanes 1 ((List.range 8).map fun i => ofBool (missing.contains (8 * b + i))))

/-- The map of a collective at MAPLA, before its status (R335). -/
def State.writeMap (s : State) (c : Ctx) (core : Nat) (k : Cmd) : State :=
  if k.mapla = 0 ∨ k.op.toNat < 0x147 then s else s.putPad c core k.mapla (missingMap k.missing)

/-! ## Moving bytes (R84, R85, R328) -/

/-- May an engine move bytes of a context's commands?  Copies stop while the context is stopping or away (R332). -/
def State.mayMove (s : State) (c : Ctx) (qi : Nat) : Bool :=
  decide (4 ≤ qi) || isPort c.num || (s.ended.any fun d => d.num == c.num)
    || (s.hasSeat c.num && (c.phase == .running || c.phase == .leaving))

/-- Device offsets of a landing's source. -/
def Cmd.srcOffs (k : Cmd) (l : Land) : List Nat :=
  l.src.flatMap fun (r : Int × Nat) => (List.range r.2).map fun (i : Nat) => (gaPlace k.src (r.1 + (i : Int))).off

/-- The source bytes of a landing on this device, or the refusal of a coherence point. -/
def State.sourceBytes (s : State) (c : Ctx) (k : Cmd) (l : Land) : List Byte ⊕ Deny :=
  if l.src.isEmpty then .inl l.lit
  else match s.heldEngine c (k.srcOffs l) with
    | .inl held => .inl (s.readBytes none held)
    | .inr d => .inr d

/-- Elements of a width in a byte list. -/
def codesOf (w : Nat) (bytes : List Byte) : List Nat :=
  let v := valOf bytes
  (List.range (8 * bytes.length / w)).map fun i => v / 2 ^ (w * i) % 2 ^ w

/-- The bytes that a landing writes, with the flags of its conversions (R227, R328, R329); `old` is the destination byte
that keeps its other half. -/
def Cmd.convert (k : Cmd) (l : Land) (old : Byte) (raw : List Byte) : List Byte × Flt.Flags :=
  let b (i : Nat) : Nat := ((raw[i]?).getD 0).toNat
  match l.kind with
  | .header => (if k.op = 0x142 then setAt (setAt raw 0 (k.et.setWidth 8)) 2 (BitVec.ofNat 8 (zpOf k.et k.zp)) else raw, 0)
  | .final => (raw, 0)
  | .pack => ([BitVec.ofNat 8 (b 0 % 16 + 16 * (if raw.length < 2 then old.toNat / 16 else b 1 % 16))], 0)
  | .low => ([BitVec.ofNat 8 (b 0 % 16 + 16 * (old.toNat / 16))], 0)
  | .high => ([BitVec.ofNat 8 (b 0 / 16 + 16 * (old.toNat / 16))], 0)
  | .elems =>
    if k.op = 0x142 then
      let r := (codesOf (Flt.etWidth k.sfmt) raw).map fun x =>
        Flt.encode k.et k.rm (zpOf k.et k.zp) (Flt.decode k.sfmt (zpOf k.sfmt k.zp) x)
      (bytesOf l.len (packLanes (Flt.etWidth k.et) (r.map (·.1))), r.foldl (fun a x => a ||| x.2) 0)
    else (raw, 0)
  | .word skip half =>
    let wd := Flt.etWidth k.et
    let r := (((codesOf (Flt.etWidth k.sfmt) raw).drop skip).take (max 1 (32 / wd))).map fun x =>
      Flt.encode k.et k.rm (zpOf k.et k.zp) (Flt.decode k.sfmt (zpOf k.sfmt k.zp) x)
    (((bytesOf (max 4 (wd / 8)) (packLanes wd (r.map (·.1)))).drop (4 * half)).take 4, r.foldl (fun a x => a ||| x.2) 0)

/-- A free byte: the half of a byte on another device that a nibble leaves alone is not known here. -/
def State.freeByte (s : State) : Byte := (Config.freeValue s.fresh).setWidth 8

/-- A breach of an engine's or a port's request is logged as a hardware error against it (R35). -/
def State.engineError (s : State) (d : Deny) (o : Origin) : State :=
  match d with
  | .breach _ => { s with control := { s.control with hwErrors := s.control.hwErrors ++ [o] } }
  | .record => s

/-- A command that a fault ends moves nothing more, and its context is faulted (R32, R35, R139). -/
def State.faultCmd (s : State) (c : Ctx) (qi : Nat) (k : Cmd) (f : Flt) : State :=
  let s1 := (s.mapCmd c.num qi k.num Cmd.halted).imprecise c.num f (k.born + 1)
  if k.acks = 0 then s1.owe (.commandComplete (engOf qi) c.num (qi % 4) k.num) else s1

/-- A command of a breach or of a store into a live task record (R35, R139). -/
def State.breachCmd (s : State) (c : Ctx) (qi : Nat) (k : Cmd) (d : Deny) (ga : Nat) : State :=
  let f : Flt := match d with
    | .breach e =>
      { code := 16, sub := 0, val := BitVec.ofNat 64 ga, aux1 := c.tenant + 2 ^ 12 * e,
        aux2 := 1 + 2 * (qi / 4) + 8 * (qi % 4), pc := k.pc, detail := 0 }
    | .record => { code := 23, sub := 0, val := BitVec.ofNat 64 ga, aux1 := 0, aux2 := 0, pc := k.pc, detail := 0 }
  let o : Origin := .engine (engOf qi) c.seatAt c.num (qi % 4) k.num k.pc
  (s.engineError d o).faultCmd c qi k f

/-- Stream number of an engine's stores: no stream of a seat has it.  Their sequence numbers name the command and the length
of the landing. -/
def engineStrm (qi : Nat) : Nat := 17 + qi

/-- The handle that a request of an engine carries to another device (R32): none for a command of the runtime. -/
def Ctx.reqHandle (c : Ctx) (h : BitVec 32) : BitVec 32 := if c.tenant = 0 then 0 else h

/-- Send one landing to another device (R32): its bytes, and the sync word that counts them. -/
def State.sendLand (s : State) (c : Ctx) (qi : Nat) (k : Cmd) (l : Land) (bytes : List Byte) : State :=
  let t := gaPlace k.dst l.dst
  let flag := if k.swla = 0 then none else (bankCore t.off).map fun core => windowOf core + k.swla
  let st : StreamStore :=
    { src := { dev := s.devNum, ctx := c.num, strm := engineStrm qi }, seq := 128 * k.num + bytes.length, tenant := c.tenant,
      handle := c.reqHandle k.dstHdl, flagHandle := c.reqHandle k.dstHdl, off := t.off, len := bytes.length,
      bytes := ((List.range bytes.length).map (t.off + ·)).zip bytes, flag := flag, batch := 4, bundle := none }
  s.packet c t.dev (.store st)

/-- May a command land bytes now (R31, R332)?  What another device has answered is in flight, and lands while the command is held or its
context stops. -/
def State.mayLand (s : State) (c : Ctx) (qi : Nat) (k : Cmd) : Bool :=
  !k.asked && ((k.fetched && (k.phase == .active || k.phase == .paused)) || (k.phase == .active && s.mayMove c qi))

/-- The next work of an active command (R324, R328): the step that makes its next landing is owed or, to another device,
its landings are sent, as far as 64 may be unacknowledged; a command with nothing left completes. -/
def State.pumpFrom (s : State) (ctx qi num : Nat) : Nat → State
  | 0 => s
  | fuel + 1 =>
    match s.findAny ctx with
    | none => s
    | some c => match (c.vq qi).cmd num with
      | none => s
      | some k =>
        match k.lands with
          | [] =>
            if k.acks = 0 ∧ !k.asked ∧ (k.phase = .active ∨ k.phase = .paused) then s.owe (.commandComplete (engOf qi) ctx (qi % 4) num)
            else s
          | l :: rest =>
            let t := gaPlace k.dst l.dst
            if !s.mayLand c qi k then s
            else if l.kind = .final ∧ k.acks ≠ 0 then s
            else if t.dev ≠ s.devNum then
              if Config.unackedMax ≤ k.acks then s
              else match s.sourceBytes c k l with
                | .inr d => s.breachCmd c qi k d (2 ^ 45 * s.devNum + (k.srcOffs l).headD 0)
                | .inl raw =>
                  let r := k.convert l s.freeByte raw
                  let s1 := ({ s with fresh := s.fresh + 1 } : State).sendLand c qi k l r.1
                  (s1.mapCmd ctx qi num fun k => { k with
                      lands := rest, acks := k.acks + 1, flags := k.flags ||| r.2, times := k.times ++ [(t.dev, s.time)] }).pumpFrom
                    ctx qi num fuel
            else match bankCore t.off with
              | some core => s.owe (.landing core (t.off - windowOf core) l.len)
              | none =>
                if k.acks ≠ 0 then s
                else match s.sourceBytes c k l with
                  | .inr d => s.breachCmd c qi k d (2 ^ 45 * s.devNum + (k.srcOffs l).headD 0)
                  | .inl raw =>
                    let r := k.convert l (s.byteAt t.off) raw
                    let m : MemReq :=
                      { origin := .engine (engOf qi) c.seatAt ctx (qi % 4) num k.pc, tenant := c.tenant, off := t.off,
                        len := l.len, op := .store (((List.range r.1.length).map (t.off + ·)).zip r.1) none }
                    (s.mapCmd ctx qi num fun k =>
                      { k with lands := rest, acks := k.acks + 1, flags := k.flags ||| r.2 }).owe (.homeSliceRequest m)

/-- The next work of an active command. -/
def State.pump (s : State) (ctx qi num : Nat) : State := s.pumpFrom ctx qi num (Config.unackedMax + 1)

/-- A seat that stops asks, when its engines have moved, whether its copies are quiet (R332). -/
def State.askQuiet (s : State) (ctx : Nat) : State :=
  match s.running.find? fun p => p.2.num == ctx with
  | some p =>
    if p.2.phase == Phase.quiesce then s.owe (.copyQuiesceDone p.1)
    else if p.2.phase == Phase.saving then s.owe (.forcedSaveComplete p.1)
    else s
  | none => s

/-- A command goes on after a landing, or ends. -/
def State.afterLanding (s : State) (ctx qi num : Nat) : State :=
  let s1 := s.askQuiet ctx
  match (s1.findAny ctx).bind fun c => (c.vq qi).cmd num with
  | none => s1
  | some k =>
    if k.lands.isEmpty ∧ k.acks = 0 ∧ !k.asked then s1.owe (.commandComplete (engOf qi) ctx (qi % 4) num) else s1.pump ctx qi num

/-- A landing of a command has performed elsewhere than in a scratchpad here: it is counted, and the work goes on. -/
def State.landed (s : State) (ctx qi num n : Nat) : State :=
  (s.mapCmd ctx qi num fun k => { k with acks := k.acks - 1, done := k.done + n }).afterLanding ctx qi num

/-- Is a landing of a command the one at an LA of a core (R328)?  The final landing comes after every other. -/
def Cmd.landsAt (k : Cmd) (dev core la n : Nat) (l : Land) : Bool :=
  let t := gaPlace k.dst l.dst
  t.dev == dev && bankCore t.off == some core && t.off - windowOf core == la && l.len == n
    && (l.kind != .final || (k.lands.length == 1 && k.acks == 0))

/-- The commands that may land at an LA of a core now, with their contexts and queues. -/
def State.landers (s : State) (core la n : Nat) : List (Ctx × Nat × Cmd × Land) :=
  (s.allCtx ++ s.ended).flatMap fun c => (List.range 8).flatMap fun qi =>
    (c.vq qi).cmds.filterMap fun k =>
      if s.mayLand c qi k then (k.lands.find? fun l => k.landsAt s.devNum core la n l).map fun l => (c, qi, k, l) else none

/-- A landing in a scratchpad of this device (R51, R116, R328): the bytes, then the count on the sync word.
(DESIGN CHOICE, log entry 47.) -/
def State.land (s : State) (core la n : Nat) : State :=
  match s.landers core la n with
  | [] => s
  | (c, qi, k, l) :: _ =>
    match s.sourceBytes c k l with
    | .inr d => s.breachCmd c qi k d (2 ^ 45 * s.devNum + (k.srcOffs l).headD 0)
    | .inl raw =>
      let offs := (List.range l.len).map fun i => padOff core (la + i)
      let sw := if k.swla = 0 then [] else [padOff core k.swla]
      match s.heldEngine c offs, s.heldEngine c sw with
      | .inl held, .inl swHeld =>
        let r := k.convert l (s.byteAt (held.headD 0)) raw
        let s1 := s.writeBytes (held.zip r.1)
        let s2 := match swHeld with
          | x :: _ => s1.landSync x l.len
          | [] => s1
        (s2.mapCmd c.num qi k.num fun k =>
          { k with lands := dropFirst (· == l) k.lands, done := k.done + l.len, flags := k.flags ||| r.2 }).afterLanding
            c.num qi k.num
      | .inr d, _ => s.breachCmd c qi k d (2 ^ 45 * s.devNum + padOff core la)
      | _, .inr d => s.breachCmd c qi k d (2 ^ 45 * s.devNum + padOff core k.swla)

/-! ## Start and completion (R60, R324, R331) -/

/-- A command's devices that are marked lost (R102). -/
def State.lostSides (s : State) (k : Cmd) : List Nat :=
  sortNat (([(gaPlace k.src 0).dev, (gaPlace k.dst 0).dev].eraseDups).filter fun d => d != s.devNum && s.lost d)

/-- A command ended by a lost peer (R331): no more lands; the bytes that have landed stand. -/
def State.loseCmd (s : State) (ctx qi num : Nat) : State :=
  (s.mapCmd ctx qi num fun k => { k with status := 2, lands := [], asked := false, fetched := false, acks := 0, times := [] }).owe
    (.commandComplete (engOf qi) ctx (qi % 4) num)

/-- Begin a copy (R32, R84): a source on another device is asked for as a whole, else the landings begin. -/
def State.beginCopy (s : State) (c : Ctx) (qi : Nat) (k : Cmd) : State :=
  if !(s.lostSides k).isEmpty then s.loseCmd c.num qi k.num
  else
    let dev := (gaPlace k.src 0).dev
    let offs := k.lands.flatMap k.srcOffs
    if dev ≠ s.devNum ∧ !offs.isEmpty then
      (s.mapCmd c.num qi k.num fun k => { k with asked := true, times := k.times ++ [(dev, s.time)] }).packet c dev
        (.engineLoad c.num (qi % 8) k.num (c.reqHandle k.srcHdl) (partsOf offs))
    else s.pump c.num qi k.num

/-- Deal out the bytes of a reply to the landings in order. -/
def dealBytes : List Land → List Byte → List Land
  | [], _ => []
  | l :: ls, bytes =>
    let n := (l.src.map (·.2)).foldl (· + ·) 0
    if n = 0 then l :: dealBytes ls bytes
    else { l with src := [], lit := bytes.take n ++ List.replicate (n - bytes.length) 0 } :: dealBytes ls (bytes.drop n)

/-- The bytes that a device answers to a copy's read of an offset (R14, R32, R418): a refusal ends the command. -/
def State.copyReply (s : State) (c : Ctx) (qi : Nat) (k : Cmd) (dev off : Nat) (r : Reply) : State :=
  let came (bytes : List Byte) : State :=
    ((s.chargeCtx c.num (portPj bytes.length)).mapCmd c.num qi k.num fun k =>
      { k with asked := false, fetched := true, lands := dealBytes k.lands bytes }).pump c.num qi k.num
  match r with
  | .data bytes _ _ _ => came bytes
  | .group bytes _ _ => came bytes
  | .refused reason => s.faultCmd c qi k (readFault k dev (2 ^ 45 * dev + off) reason)
  | .lost => s.loseCmd c.num qi k.num

/-- May a command of a context end now (R379)?  The copies of a context that is in its yield handler, or away, wait for the resumption. -/
def State.mayEnd (s : State) (c : Ctx) (qi : Nat) : Bool :=
  decide (4 ≤ qi) || (s.ended.any fun d => d.num == c.num) || !(c.phase == .handler || c.phase == .yielded)

/-- The end of a command (R31, R60, R104, R331, R418): the fault of a stopped one; else the lost-peer map, the missing map
and the status record; then DONE. -/
def State.completeCmd (s : State) (ctx qi num : Nat) : State :=
  match s.findAny ctx with
  | none => s
  | some c => match (c.vq qi).cmd num with
    | none => s
    | some k =>
      if (k.phase ≠ .active ∧ k.phase ≠ .paused ∧ k.stop.isNone ∧ k.status ≠ 2) ∨ !k.lands.isEmpty ∨ k.acks ≠ 0 ∨ k.asked
        ∨ !s.mayEnd c qi then s
      else
        let s0 := s.chargeCtx ctx (1300 * ((k.done + 63) / 64))
        let s1 := match k.stop with
          | some r => s0.engineFault ctx qi k r.1 r.2
          | none =>
            let s2 := if k.status = 2 then s0.peerLost ctx 7 (if qi < 4 then s0.lostSides k else [field k.bind.toNat 38 12])
              else s0
            (s2.writeMap c c.seatAt.core k).writeStatus c c.seatAt.core k
        (s1.retireCmd c qi num).askQuiet ctx

/-- The queues of a place on one kind of engine (R323, R324): context, queue index, in the order of their numbers. -/
def State.queuesAt (s : State) (e : Eng) (place : Nat) : List (Ctx × Nat) :=
  let cs := (s.allCtx ++ s.ended).filter fun c => placeOfEngine c e == place
  let qs := match e with
    | .copy => [0, 1, 2, 3]
    | .coll => [4, 5, 6, 7]
  sortBy (fun a b => decide (8 * a.1.num + a.2 ≤ 8 * b.1.num + b.2)) (cs.flatMap fun c => qs.map fun qi => (c, qi))

/-- The command that a queue would start next (R324): commands of one queue start in order. -/
def VQ.head (q : VQ) : Option Cmd :=
  match q.cmds.find? fun k => k.phase != .active && k.phase != .paused with
  | some k => if k.phase = .accepted then some k else none
  | none => none

/-- Commands active at a place. -/
def activeAt (qs : List (Ctx × Nat)) : Nat :=
  qs.foldl (fun n p => n + ((p.1.vq p.2).cmds.filter fun k => k.phase == .active || k.phase == .paused).length) 0

/-- A round of credits (R324): every queue, idle ones included.
(DEDUCED, log entry 31.) -/
def State.openRound (s : State) (qs : List (Ctx × Nat)) : State :=
  qs.foldl (fun s p => s.updCtx p.1.num fun c => c.mapVq p.2 fun q =>
    { q with credit := min (q.credit + q.weight) (2 * q.weight) }) s

/-- The queue that an engine visited last. -/
def State.lastQueue (s : State) (e : Eng) (place : Nat) : Nat :=
  match e with
  | .copy => (s.core place).lastQueue
  | .coll => (look s.fabric.lastQueue place).getD 0

/-- Note the queue that an engine visits. -/
def State.setLastQueue (s : State) (e : Eng) (place key : Nat) : State :=
  match e with
  | .copy => s.mapCore place fun k => { k with lastQueue := key }
  | .coll => { s with fabric := { s.fabric with lastQueue := put s.fabric.lastQueue place key } }

/-- One start at a place (R324): a round where no waiting queue has credit, then round-robin among those that have; `begin'`
begins the command.
(DEDUCED, log entry 31.) -/
def State.startAt (s : State) (e : Eng) (place : Nat) (begin' : Ctx → Nat → Cmd → State → State) : State :=
  let cap := match e with
    | .copy => 8
    | .coll => 32
  let qs := s.queuesAt e place
  let ready := qs.filter fun p => s.mayMove p.1 p.2 && ((p.1.vq p.2).head).isSome
  if ready.isEmpty ∨ cap ≤ activeAt qs then s
  else
    let s1 := if ready.any fun p => decide (1 ≤ (p.1.vq p.2).credit) then s else s.openRound qs
    let credit (p : Ctx × Nat) : Nat := match s1.findAny p.1.num with
      | some c => (c.vq p.2).credit
      | none => 0
    let cands := ready.filter fun p => decide (1 ≤ credit p)
    let last := s.lastQueue e place
    match (match cands.find? fun p => decide (last < 8 * p.1.num + p.2 + 1) with
      | some p => some p
      | none => cands.head?) with
    | none => s1
    | some p => match (p.1.vq p.2).head with
      | none => s1
      | some k =>
        let s2 := s1.updCtx p.1.num fun c => c.mapVq p.2 fun q =>
          { q.mapCmd k.num fun k => { k with phase := .active } with credit := q.credit - 1 }
        let s3 := (s2.setLastQueue e place (8 * p.1.num + p.2 + 1)).owe (.commandStart e place)
        begin' p.1 p.2 { k with phase := .active } s3

/-! ## Regions (R31) -/

/-- A side of a command whose region is live again after a move: its GA against the new base, the handle and the base (R31, R37). -/
def rebound (d : Desc) (idx ga : Nat) (h : BitVec 32) (base : Nat) : Nat × BitVec 32 × Nat :=
  if h ≠ 0 ∧ hIndex h = idx ∧ dGen d = hGen h + 2 then
    (ga + dBase d - base, BitVec.ofNat 32 (idx + 2 ^ 20 * dGen d), dBase d)
  else (ga, h, base)

/-- A command whose region is live again after a move (R31): its sides against the new base. -/
def Cmd.rebind (k : Cmd) (d : Desc) (idx : Nat) : Cmd :=
  let a := rebound d idx k.src k.srcHdl k.srcBase
  let b := rebound d idx k.dst k.dstHdl k.dstBase
  { k with src := a.1, srcHdl := a.2.1, srcBase := a.2.2, dst := b.1, dstHdl := b.2.1, dstBase := b.2.2 }

/-- Is the region of a handle live at the handle's generation?  Handle 0 names none. -/
def State.liveHandle (s : State) (h : BitVec 32) : Bool :=
  h == 0 || (dState (s.descAt (hIndex h)) == 1 && dGen (s.descAt (hIndex h)) == hGen h)

/-- A held command goes on once every region that it names is live (R31, R37, R38). -/
def State.goOnCmd (s : State) (ctx qi num : Nat) : State :=
  match (s.findAny ctx).bind fun c => ((c.vq qi).cmd num).map fun k => (c, k) with
  | none => s
  | some (c, k) =>
    if !s.liveHandle k.srcHdl ∨ !s.liveHandle k.dstHdl then s
    else
      let s1 := s.mapCmd ctx qi num fun k => { k with phase := if k.phase = .held then .accepted else .active }
      (s1.pump ctx qi num).owe (.commandStart (engOf qi) (placeOfEngine c (engOf qi)))

/-- What a region update does to one command (R31): `d` is the descriptor as it now stands. -/
def State.regionCmd (s : State) (d : Desc) (idx ctx qi : Nat) (k : Cmd) : State :=
  let names (h : BitVec 32) : Bool := h != 0 && hIndex h == idx
  let h := if names k.srcHdl then k.srcHdl else k.dstHdl
  if k.phase = .issued ∨ !(names k.srcHdl || names k.dstHdl) ∨ k.stop.isSome then s
  else if dState d = 2 then
    s.mapCmd ctx qi k.num fun k => { k with phase := match k.phase with
      | .accepted => .held
      | .active => .paused
      | p => p }
  else if dState d = 1 ∧ (k.phase = .held ∨ k.phase = .paused) ∧ dGen d = hGen h + 2 then
    (s.mapCmd ctx qi k.num fun k => k.rebind d idx).goOnCmd ctx qi k.num
  else if dState d = 1 ∧ dGen d = hGen h then if k.phase = .held ∨ k.phase = .paused then s.goOnCmd ctx qi k.num else s
  else
    let s1 := s.mapCmd ctx qi k.num fun k =>
      { k.drained with stop := some (if dState d = 3 then 2 else 1, h) }
    if k.drained.inFlight then s1 else s1.owe (.commandComplete (engOf qi) ctx (qi % 4) k.num)

/-- Every unfinished command of the device, with its context and queue. -/
def State.allCmds (s : State) : List (Ctx × Nat × Cmd) :=
  (s.allCtx ++ s.ended).flatMap fun c => (List.range 8).flatMap fun qi => (c.vq qi).cmds.map fun k => (c, qi, k)

/-- A region update reaches the engines (R31). -/
def State.regionCmds (s : State) (idx : Nat) : State :=
  s.allCmds.foldl (fun s x => s.regionCmd (s.descAt idx) idx x.1.num x.2.1 x.2.2) s

/-- A lost peer ends the commands that depend on it (R102, R331): a copy with a side there, a collective rooted there. -/
def State.loseCmds (s : State) (dev : Nat) : State :=
  s.allCmds.foldl (fun s x =>
    let k := x.2.2
    let dep := if x.2.1 < 4 then (gaPlace k.src 0).dev == dev || (gaPlace k.dst 0).dev == dev
      else field k.bind.toNat 38 12 == dev
    if k.phase ≠ .issued ∧ dep then s.loseCmd x.1.num x.2.1 k.num else s) s

/-! ## The instructions (R322 to R330) -/

/-- COPY.G (R329). -/
def execCopyG (o : EOps) (s : State) : Result := s.engineForm 0x140 o

/-- COPY.T (R330). -/
def execCopyT (o : EOps) (s : State) : Result := s.engineForm 0x141 o

/-- COPY.C (R329). -/
def execCopyC (o : EOps) (s : State) : Result := s.engineForm 0x142 o

/-- COPY.S (R329). -/
def execCopyS (o : EOps) (s : State) : Result := s.engineForm 0x143 o

/-- COPYX (R329). -/
def execCopyx (o : EOps) (s : State) : Result := s.engineForm 0x144 o

/-- FILL.W (R329). -/
def execFillW (o : EOps) (s : State) : Result := s.engineForm 0x145 o

/-- FILL.D (R329). -/
def execFillD (o : EOps) (s : State) : Result := s.engineForm 0x146 o

/-- QSET (R325): the weight, kept from 1 to 8. -/
def execQset (o : EOps) (s : State) : Result :=
  s.run (.e 0x15D o) fun c s =>
    let w := field (c.srcS [] o.sa).toNat 0 4
    let qi := 4 * field o.ke.toNat 0 1 + o.vq.toNat
    (s.mapCx fun c => c.mapVq qi fun q => { q with weight := min 8 (max 1 w) }).done (.e 0x15D o)

/-- The QSTAT word of a queue (R325). -/
def VQ.word (q : VQ) : Word :=
  BitVec.ofNat 64 (q.weight % 16 + 2 ^ 4 * (q.credit % 32) + 2 ^ 9 * (q.cmds.length % 32) + 2 ^ 14 * ofBool q.abandoned)

/-- QSTAT (R325, R379): with KE[1] set, ABANDONED is cleared after the read. -/
def execQstat (o : EOps) (s : State) : Result :=
  s.run (.e 0x15E o) fun c s =>
    let qi := 4 * field o.ke.toNat 0 1 + o.vq.toNat
    let s1 := if bit o.ke.toNat 1 then s.mapCx fun c => c.mapVq qi fun q => { q with abandoned := false } else s
    (s1.putScalar o.dst (c.vq qi).word).done (.e 0x15E o)

/-! ## The engine's steps -/

/-- LANDING (R51, R328). -/
def execLanding (core la n : Nat) (s : State) : Result := .next (s.land core la n)

end Sys2Proof.Machine
end

