-- ==== Sys2Proof/Machine/Coll.lean ====
section
/-! DEFINITION. The collective engines: bindings, acceptance, contributions, reduction slots, combining and results, and the
steps that both kinds of engine share (R333 to R337, R384). -/

namespace Sys2Proof.Machine

open Sys2Proof.Bits

/-! ## Group words (R333) -/

/-- INDEX of a command's group word. -/
def Cmd.index (k : Cmd) : Nat := field k.bind.toNat 16 11
/-- Contributors of a command's group. -/
def Cmd.members (k : Cmd) : Nat := field k.bind.toNat 27 11 + 1
/-- ROOTDEV of a command's group word, the alias not allowed. -/
def Cmd.rootDev (k : Cmd) : Nat := field k.bind.toNat 38 12
/-- Bytes of an element of a command's type. -/
def Cmd.esize (k : Cmd) : Nat := Flt.etWidth k.et / 8

/-- CGRP.A (R333): an INDEX above NM1 or ROOTDEV 0xFFF is an access fault. -/
def execCgrpA (o : EOps) (s : State) : Result :=
  s.run (.e 0x151 o) fun c s =>
    let w := c.srcS [] o.sa
    let t := (c.srcS [o.sa] o.sb).toNat
    if field w.toNat 27 11 < field w.toNat 16 11 ∨ field w.toNat 38 12 = Config.aliasDev then s.accessFault 9 w 0
    else
      let g : GBind := { word := w, timeout := min 10000 (max 1 t), seq := 0 }
      (s.mapCx fun c => { c with gbinds := setAt c.gbinds (field o.ke.toNat 0 2) (some g) }).done (.e 0x151 o)

/-- CGRP.F (R333). -/
def execCgrpF (o : EOps) (s : State) : Result :=
  s.run (.e 0x152 o) fun _ s =>
    (s.mapCx fun c => { c with gbinds := setAt c.gbinds (field o.ke.toNat 0 2) none }).done (.e 0x152 o)

/-- COLL.SUM (R334). -/
def execCollSum (o : EOps) (s : State) : Result := s.engineForm 0x147 o

/-- COLL.MAX (R334). -/
def execCollMax (o : EOps) (s : State) : Result := s.engineForm 0x148 o

/-- COLL.AMAX (R334). -/
def execCollAmax (o : EOps) (s : State) : Result := s.engineForm 0x149 o

/-- COLL.MIN (R334). -/
def execCollMin (o : EOps) (s : State) : Result := s.engineForm 0x14A o

/-- CBCAST (R334). -/
def execCbcast (o : EOps) (s : State) : Result := s.engineForm 0x14B o

/-- CGATH (R334). -/
def execCgath (o : EOps) (s : State) : Result := s.engineForm 0x14C o

/-- CSCAT.SUM (R334). -/
def execCscatSum (o : EOps) (s : State) : Result := s.engineForm 0x14D o

/-- CSCAT.MAX (R334). -/
def execCscatMax (o : EOps) (s : State) : Result := s.engineForm 0x14E o

/-- CSCAT.AMAX (R334). -/
def execCscatAmax (o : EOps) (s : State) : Result := s.engineForm 0x14F o

/-- CSCAT.MIN (R334). -/
def execCscatMin (o : EOps) (s : State) : Result := s.engineForm 0x150 o

/-! ## Acceptance (R327, R334) -/

/-- Does a contributor read a source (R334)? -/
def Cmd.reads (k : Cmd) : Bool := k.op != 0x14B || k.index == 0

/-- Bytes that a contributor's destination takes (R334). -/
def Cmd.takes (k : Cmd) : Nat :=
  let n := k.len * k.esize
  if k.op = 0x14C then (if k.index = 0 then n * k.members else 0)
  else if 0x14D ≤ k.op.toNat then n / k.members
  else n

/-- Does a contributor write a destination (R334)? -/
def Cmd.gets (k : Cmd) : Bool := k.op != 0x14C || k.index == 0

/-- The acceptance of a collective (R327, R334): the reason and handle that refuse it.
(DEDUCED, log entry 53.) -/
def State.acceptColl (s : State) (c : Ctx) (k : Cmd) : Option (Nat × BitVec 32) :=
  let dh : BitVec 32 := BitVec.ofNat 32 (k.at 128 32)
  let sh : BitVec 32 := BitVec.ofNat 32 (k.at 160 32)
  let n := k.len * k.esize
  if k.at 253 3 ≠ 0 ∨ k.at 322 62 ≠ 0 then some (0, 0)
  else if !c.placed k.stla 16 ∨ !c.placed k.mapla 256 then some (6, 0)
  else if k.et.toNat < 4 ∨ 10 < k.et.toNat ∨ 65536 < n ∨ k.swla ≠ 0 ∨ (k.gets ∧ dh = 0) then some (0, 0)
  else if 0x14D ≤ k.op.toNat ∧ k.len % k.members ≠ 0 then some (0, 0)
  else match (if k.reads then s.checkSide c sh (s.resolve k.sga) 0 n false else none) with
    | some r => some (r, sh)
    | none => match (if k.gets then s.checkSide c dh (s.resolve k.dga) 0 k.takes true else none) with
      | some r => some (r, dh)
      | none => none

/-- COPY_ACCEPT (R31, R60, R327, R399): the checks once over the whole span; a refusal, a zero-length copy's completion, or
a command that waits in its queue.
(DEDUCED, log entry 44.) -/
def execCopyAccept (e : Eng) (ctx vq num : Nat) (s : State) : Result :=
  let qi := (match e with
    | .copy => 0
    | .coll => 4) + vq
  match s.findAny ctx with
  | none => .next s
  | some c => match (c.vq qi).cmd num with
    | none => .next s
    | some k =>
      if k.phase ≠ .issued then .next s
      else match e with
        | .coll => match s.acceptColl c k with
          | some r => .next (s.refuseCmd c qi k r.1 r.2)
          | none =>
            let dh : BitVec 32 := BitVec.ofNat 32 (k.at 128 32)
            let sh : BitVec 32 := BitVec.ofNat 32 (k.at 160 32)
            let n := k.len * k.esize
            .next ((s.mapCmd ctx qi num fun k =>
              { k with
                phase := .accepted, src := if k.reads then s.resolve k.sga else s.resolve k.dga, dst := s.resolve k.dga,
                srcHdl := if k.reads then sh else 0, dstHdl := if k.gets then dh else 0,
                srcBase := if k.reads then s.baseOf sh else 0, dstBase := if k.gets then s.baseOf dh else 0,
                lands := if k.reads then [{ src := [(0, n)], lit := [], dst := 0, len := n, kind := .elems }] else [],
                dests := if k.gets then [(0, k.takes)] else [] }).owe
              (.commandStart e (placeOfEngine c e)))
        | .copy =>
          if !(s.mayMove c qi) then .next s
          else match s.acceptCopy c k with
            | .inl r => .next (s.refuseCmd c qi k r.1 r.2)
            | .inr p =>
              let s1 := s.mapCmd ctx qi num fun k =>
                { k with phase := .accepted, src := if p.reads then p.src else p.dst, dst := p.dst,
                         srcHdl := if p.reads then p.srcHdl else 0, dstHdl := p.dstHdl,
                         srcBase := if p.reads then s.baseOf p.srcHdl else 0, dstBase := s.baseOf p.dstHdl,
                         lands := p.lands, dests := p.lands.map fun l => (l.dst, l.len) }
              if p.lands.isEmpty then
                .next ((s1.writeStatus c c.seatAt.core k).retireCmd c qi num)
              else .next (s1.owe (.commandStart e (placeOfEngine c e)))

/-! ## Contributions (R334 to R337) -/

/-- The contribution that a command sends, with its source bytes (R334). -/
def State.contribution (s : State) (c : Ctx) (qi : Nat) (k : Cmd) (data : List Byte) : Contribution :=
  { tenant := c.tenant, group := field k.bind.toNat 0 16, seq := k.inst, index := k.index, nm1 := k.members - 1,
    rootDev := k.rootDev, form := k.op.toNat, et := k.et, len := k.len, nanign := bit k.ke.toNat 2, rm := k.rm,
    data := data, dev := s.devNum, ctx := c.num, vq := qi % 4, num := k.num, timeout := k.timeout,
    keyGen := s.worldGen c.tenant }

/-- A contribution leaves for the router of its own device (R335). -/
def State.contribute (s : State) (c : Ctx) (qi : Nat) (k : Cmd) (data : List Byte) : State :=
  (s.mapCmd c.num qi k.num fun k => { k with lands := [], asked := true }).owe
    (.collContribution (s.contribution c qi k data))

/-- Begin a collective (R84, R334): its source is read, or asked of another device. -/
def State.beginColl (s : State) (c : Ctx) (qi : Nat) (k : Cmd) : State :=
  if s.lost k.rootDev then s.loseCmd c.num qi k.num
  else match k.lands with
    | [] => s.contribute c qi k []
    | l :: _ =>
      let dev := (gaPlace k.src 0).dev
      if dev ≠ s.devNum ∧ l.len ≠ 0 then
        if s.lost dev then s.loseCmd c.num qi k.num
        else
          (s.mapCmd c.num qi k.num fun k => { k with asked := true, times := k.times ++ [(dev, s.time)] }).packet c dev
            (.engineLoad c.num qi k.num (c.reqHandle k.srcHdl) [((gaPlace k.src 0).off, l.len)])
      else match s.sourceBytes c k l with
        | .inl bytes => s.contribute c qi k bytes
        | .inr d => s.breachCmd c qi k d (2 ^ 45 * s.devNum + (k.srcOffs l).headD 0)

/-- The bytes that a device answers to a collective's read of an offset (R31, R32, R334, R418): a command that a region update has stopped
contributes nothing. -/
def State.collReply (s : State) (c : Ctx) (qi : Nat) (k : Cmd) (dev off : Nat) (r : Reply) : State :=
  let came (bytes : List Byte) : State :=
    let s1 := s.chargeCtx c.num (portPj bytes.length)
    if k.stop.isSome then
      (s1.mapCmd c.num qi k.num fun k => { k with lands := [], asked := false }).owe (.commandComplete .coll c.num (qi % 4) k.num)
    else s1.contribute c qi k bytes
  match r with
  | .data bytes _ _ _ => came bytes
  | .group bytes _ _ => came bytes
  | .refused reason => s.faultCmd c qi k (readFault k dev (2 ^ 45 * dev + off) reason)
  | .lost => s.loseCmd c.num qi k.num

/-- COMMAND_START (R324): one command of the place starts. -/
def execCommandStart (e : Eng) (place : Nat) (s : State) : Result :=
  .next (s.startAt e place fun c qi k s => match e with
    | .copy => s.beginCopy c qi k
    | .coll => s.beginColl c qi k)

/-- COMMAND_COMPLETE (R60, R331, R335). -/
def execCommandComplete (e : Eng) (ctx vq num : Nat) (s : State) : Result :=
  .next (s.completeCmd ctx ((match e with
    | .copy => 0
    | .coll => 4) + vq) num)

/-! ## Combining (R291, R336) -/

/-- The element codes of a contribution. -/
def codesIn (c : Contribution) : List Nat := codesOf (Flt.etWidth c.et) c.data

/-- The contributions in the order of their indices, the first of each index only (R350). -/
def byIndex (parts : List Contribution) : List Contribution :=
  let firsts := parts.foldl (fun (acc : List Contribution) p => if acc.any fun q => q.index == p.index then acc else acc ++ [p]) []
  sortBy (fun a b => decide (a.index ≤ b.index)) firsts

/-- What combines the elements at one position (R336): 0 SUM, 1 MAX, 2 AMAX, 3 MIN. -/
def combineAt (kind : Nat) (et : BitVec 4) (rm : BitVec 2) (ign : Bool) (xs : List Nat) : Nat × Flt.Flags :=
  let w := Flt.etWidth et
  if kind = 0 then
    if Flt.etInt et then ((xs.foldl (· + ·) 0) % 2 ^ w, 0)
    else Flt.sumTerms (Flt.fmtOf et) rm (xs.map fun x => Flt.decode et 0 x)
  else
    let p : Flt.Pick := if kind = 1 then .max else if kind = 2 then .amax else .min
    let r := Flt.redPick p ign et xs
    (r.1.toNat % 2 ^ w, r.2)

/-- Every position combined. -/
def combineAll (kind : Nat) (et : BitVec 4) (rm : BitVec 2) (ign : Bool) (n : Nat) (parts : List (List Nat)) :
    List Nat × Flt.Flags :=
  let rs := (List.range n).map fun i => combineAt kind et rm ign (parts.map fun p => (p[i]?).getD 0)
  (rs.map (·.1), rs.foldl (fun a r => a ||| r.2) 0)

/-- The bytes and flags that an instance's result holds: the combined elements, contributor 0's, or every arrived
contributor's in order (R334, R336). -/
def resultOf (rm : BitVec 2) (parts : List Contribution) : List Byte × Flt.Flags :=
  let ps := byIndex parts
  match ps with
  | [] => ([], 0)
  | p :: _ =>
    if p.form = 0x14B then (if p.index = 0 then p.data else [], 0)
    else if p.form = 0x14C then (ps.flatMap (·.data), 0)
    else
      let kind := if p.form < 0x14B then p.form - 0x147 else p.form - 0x14D
      let w := Flt.etWidth p.et
      let r := combineAll kind p.et rm (kind == 2 && p.nanign) p.len (ps.map codesIn)
      (bytesOf (p.len * w / 8) (packLanes w r.1), r.2)

/-! ## Slots (R335) -/

/-- Is a slot the one of a key? -/
def RSlot.keyed (r : RSlot) (tenant group seq : Nat) : Bool := r.tenant == tenant && r.group == group && r.seq == seq

/-- Indices of an instance that have not arrived. -/
def missingOf (nm1 : Nat) (parts : List Contribution) : List Nat :=
  (List.range (nm1 + 1)).filter fun i => !parts.any fun p => p.index == i

/-- Send one contributor its result (R335): a step here, a message to another device, sealed for the job (R337). -/
def State.sendResult (s : State) (p : Contribution) (status arrived : Nat) (flags : BitVec 7) (missing : List Nat)
    (data : List Byte) : State :=
  if p.dev = s.devNum then s.owe (.collResult p.ctx p.vq p.num status arrived flags missing data)
  else s.answer p.tenant (.result p.dev p.ctx p.vq p.num status arrived flags missing data)

/-- Replace the slots. -/
def State.setSlots (s : State) (slots : List RSlot) : State := { s with fabric := { s.fabric with slots := slots } }

/-- Put a contribution into a slot, or let it wait for a free one (R335). -/
def State.placeContribution (s : State) (c : Contribution) : State :=
  match s.fabric.slots.find? fun r => r.keyed c.tenant c.group c.seq with
  | some _ =>
    s.setSlots (s.fabric.slots.map fun r =>
      if r.keyed c.tenant c.group c.seq then
        { r with parts := r.parts ++ [c],
                 mismatch := r.mismatch || r.parts.any fun p => p.form != c.form || p.et != c.et || p.len != c.len }
      else r)
  | none =>
    if Config.reductionSlots ≤ s.fabric.slots.length then
      { s with fabric := { s.fabric with queued := s.fabric.queued ++ [(c, s.time + 1000 * c.timeout)] } }
    else
      s.setSlots (s.fabric.slots ++
        [{ tenant := c.tenant, group := c.group, seq := c.seq, parts := [c], deadline := s.time + 1000 * c.timeout,
           mismatch := false }])

/-- An instance ends at its root router (R335): the result to every contributor that arrived, and the slot is free. -/
def State.endSlot (s : State) (r : RSlot) : State :=
  let s1 := s.setSlots (s.fabric.slots.filter fun x => !x.keyed r.tenant r.group r.seq)
  let nm1 := match r.parts with
    | p :: _ => p.nm1
    | [] => 0
  let missing := missingOf nm1 r.parts
  let arrived := (byIndex r.parts).length
  let zero := r.parts.find? fun p => p.index == 0
  let rm := match zero with
    | some p => p.rm
    | none => (Config.freeValue s.fresh).setWidth 2
  let s2 := { s1 with fresh := s1.fresh + 1 }
  let s3 := if r.mismatch then r.parts.foldl (fun s p => s.sendResult p 3 arrived 0 missing []) s2
    else
      let res := resultOf rm r.parts
      r.parts.foldl (fun s p => s.sendResult p (if missing.isEmpty then 0 else 1) arrived res.2 missing res.1) s2
  s3

/-- Has every contributor of a slot arrived? -/
def RSlot.full (r : RSlot) : Bool :=
  match r.parts with
  | p :: _ => (missingOf p.nm1 r.parts).isEmpty
  | [] => false

/-- A contribution that has its slot goes on (R335): at the root router the last one completes the instance, and from the router of its
own device it goes to the root (R335, R418). -/
def State.passOn (s : State) (c : Contribution) : State :=
  match s.fabric.slots.find? fun r => r.keyed c.tenant c.group c.seq with
  | none => s
  | some r =>
    if c.rootDev = s.devNum then (if r.full then s.endSlot r else s)
    else if c.dev = s.devNum then
      ((s.chargeCtx c.ctx (portPj c.data.length)).mapCmd c.ctx (4 + c.vq) c.num fun k =>
        { k with times := k.times ++ [(c.rootDev, s.time)] }).send (.contribution c.rootDev c)
    else s

/-- The contributions that wait, oldest first, take the slots that come free; those of one instance share its slot. -/
def State.serveFrom (s : State) : Nat → State
  | 0 => s
  | fuel + 1 =>
    match s.fabric.queued with
    | [] => s
    | (c, _) :: _ =>
      if Config.reductionSlots ≤ s.fabric.slots.length then s
      else
        let same (q : Contribution × Nat) : Bool := q.1.tenant == c.tenant && q.1.group == c.group && q.1.seq == c.seq
        let mine := (s.fabric.queued.filter same).map (·.1)
        let s1 : State := { s with fabric := { s.fabric with queued := s.fabric.queued.filter fun q => !same q } }
        let s2 := mine.foldl (fun s c => s.placeContribution c) s1
        (mine.foldl (fun s c => s.passOn c) s2).serveFrom fuel

/-- The contributions that wait served. -/
def State.serveQueued (s : State) : State := s.serveFrom s.fabric.queued.length

/-- Complete an instance at its root router (R335), and serve those that wait. -/
def State.completeSlot (s : State) (r : RSlot) : State := (s.endSlot r).serveQueued

/-- Is a slot at the root router of its instance? -/
def RSlot.isRoot (r : RSlot) (dev : Nat) : Bool := r.parts.all fun p => p.rootDev == dev

/-- Does a router open a contribution (R337)?  In confidential mode, under the current or the previous key generation. -/
def State.opens (s : State) (c : Contribution) : Bool := !s.confidential || s.opensGen c.tenant c.keyGen

/-- COLL_CONTRIBUTION (R335 to R337): a contribution reaches a router of this device. -/
def execCollContribution (c : Contribution) (s : State) : Result :=
  if s.deaf then .next s else
  if !s.opens c ∨ (c.rootDev ≠ s.devNum ∧ c.dev ≠ s.devNum) then .next s
  else .next (((s.placeContribution c).passOn c).serveQueued)

/-- COLL_SLOT_DEADLINE (R335): the root completes its instance, another router frees its slot, and a contribution that has
waited for a slot past its own deadline completes with NOSLOT. -/
def execCollSlotDeadline (tenant group seq : Nat) (s : State) : Result :=
  let late := s.fabric.queued.filter fun q =>
    q.1.tenant == tenant && q.1.group == group && q.1.seq == seq && decide (q.2 ≤ s.time)
  let s1 := { s with fabric := { s.fabric with queued := s.fabric.queued.filter fun q => !late.contains q } }
  let s2 := late.foldl (fun s q => s.sendResult q.1 4 0 0 [] []) s1
  match s2.fabric.slots.find? fun r => r.keyed tenant group seq with
  | none => .next s2
  | some r =>
    if s2.time < r.deadline then .next s2
    else if r.isRoot s2.devNum then .next (s2.completeSlot r)
    else .next ((s2.setSlots (s2.fabric.slots.filter fun x => !x.keyed tenant group seq)).serveQueued)

/-- The landings of a collective's result at one contributor (R334): the whole vector, its part, or at contributor 0 of a
CGATH each arrived contributor's elements. -/
def Cmd.resultLands (k : Cmd) (missing : List Nat) (data : List Byte) : List Land :=
  let n := k.len * k.esize
  if !k.gets ∨ n = 0 then []
  else if k.op = 0x14C then
    let there := (List.range k.members).filter fun i => !missing.contains i
    (there.zip (pieces n k.members data)).flatMap fun p => litLands ((p.1 * n : Nat) : Int) p.2
  else if 0x14D ≤ k.op.toNat then
    let m := n / k.members
    litLands 0 ((data.drop (k.index * m)).take m)
  else litLands 0 data

/-- COLL_RESULT (R331, R335): the result reaches a contributor's command, which lands its part and completes. -/
def execCollResult (ctx vq num status arrived : Nat) (flags : BitVec 7) (missing : List Nat) (data : List Byte) (s : State) :
    Result :=
  if s.deaf then .next s else
  let qi := 4 + vq
  match s.findAny ctx with
  | none => .next s
  | some c => match (c.vq qi).cmd num with
    | none => .next s
    | some k =>
      if !k.asked ∨ (k.phase ≠ .active ∧ k.phase ≠ .paused) then .next s
      else
        let s0 := if k.rootDev = s.devNum then s
          else (s.setSlots (s.fabric.slots.filter fun r =>
            !(r.keyed c.tenant (field k.bind.toNat 0 16) k.inst && r.parts.all fun p => p.ctx == ctx && p.num == num))).serveQueued
        let lands := if status = 0 ∨ status = 1 then k.resultLands missing data else []
        let s1 := if k.rootDev = s.devNum then s0 else s0.chargeCtx ctx (portPj data.length)
        .next ((s1.mapCmd ctx qi num fun k =>
          { k with asked := false, times := dropFirst (fun x => x.1 == k.rootDev) k.times, lands := lands, status := status, arrived := arrived, flags := flags, missing := missing }).pump
            ctx qi num)

end Sys2Proof.Machine
end

