-- ==== Sys2Proof/Machine/Message.lean ====
section
/-! DEFINITION. Messages, mailboxes and the task forms: SEND, RECV, MBSET, DECT, LAUNCH, CHWIN, CHSTAT and TASKRD, with the
landing of a message and the placing of a launch (R144, R146, R162, R163, R338 to R346, R376, R377, R383, R386). -/

namespace Sys2Proof.Machine

open Sys2Proof.Bits

/-! ## Mailboxes (R338, R339) -/

/-- A mailbox of a core: the request network's or the reply network's. -/
def Core.mailbox (k : Core) (net : Bool) : Mailbox := if net then k.mbrp else k.mbrq

/-- Replace a mailbox of a core. -/
def State.setMailbox (s : State) (core : Nat) (net : Bool) (m : Mailbox) : State :=
  s.mapCore core fun k => if net then { k with mbrp := m } else { k with mbrq := m }

/-- The mailbox that a context sees at its core: one of another partition's is not its own (R338). -/
def State.mailboxOf (s : State) (c : Ctx) (core : Nat) (net : Bool) : Mailbox :=
  let m := (s.core core).mailbox net
  if m.part = c.part then m else Mailbox.off

/-- The MBRQ or MBRP word (R339). -/
def Mailbox.word (m : Mailbox) : Word :=
  BitVec.ofNat 64 (field m.base 0 17 + 2 ^ 17 * field m.lsl 0 4 + 2 ^ 32 * field m.head 0 16 + 2 ^ 48 * field m.tail 0 16)

/-- Messages that a mailbox's ring holds. -/
def Mailbox.count (m : Mailbox) : Nat := (m.tail + 65536 - m.head) % 65536

/-- MBSET (R338, R376): the ring in the footprint, HEAD and TAIL zero; sA 0 disables the mailbox. -/
def State.mbset (s : State) (op : BitVec 9) (o : EOps) (net : Bool) : Result :=
  s.run (.e op o) fun c s =>
    let a := c.srcS [] o.sa
    let base := field a.toNat 0 17
    let n := field o.ke.toNat 0 4
    let b := (c.srcS [o.sa] o.sb).toNat
    let set (m : Mailbox) (s : State) : State :=
      ((s.setMailbox s.cur.core net m).owe (.messageLand net s.cur.core)).done (.e op o)
    if a = 0 then set { Mailbox.off with part := c.part } s
    else if base % 64 ≠ 0 ∨ 10 < n ∨ !c.covers base (64 * 2 ^ n) then s.accessFault 5 a (64 * 2 ^ n)
    else set { base := base, lsl := n, head := 0, tail := 0, record := field b 0 32, ctr := field b 32 2, part := c.part,
               owner := some c.num } s

/-- MBSET.RQ (R338). -/
def execMbsetRq (o : EOps) (s : State) : Result := s.mbset 0x157 o false

/-- MBSET.RP (R338). -/
def execMbsetRp (o : EOps) (s : State) : Result := s.mbset 0x158 o true

/-- RECV (R342, R377): the slot at HEAD, zeros above it, and a full mask; with nothing to receive the mask is cleared. -/
def State.recv (s : State) (op : BitVec 9) (o : EOps) (net : Bool) : Result :=
  s.run (.e op o) fun c s =>
    let f := Form.e op o
    let m := s.mailboxOf c s.cur.core net
    if m.base = 0 ∨ m.count = 0 then (s.putMask o.sc.toNat 0).done f
    else
      let la := m.base + 64 * (m.head % 2 ^ m.lsl)
      s.loadHere c f false ((List.range 64).map fun i => padOff s.cur.core (la + i)) fun bytes s =>
        let s1 := s.setMailbox s.cur.core net { m with head := (m.head + 1) % 65536 }
        let s2 := (s1.putMask o.sc.toNat (BitVec.allOnes 128)).putVector o.dst (BitVec.ofNat 1024 (valOf bytes))
        (s2.owe (.messageLand net s.cur.core)).done f

/-- RECV.RQ (R342). -/
def execRecvRq (o : EOps) (s : State) : Result := s.recv 0x155 o false

/-- RECV.RP (R342). -/
def execRecvRp (o : EOps) (s : State) : Result := s.recv 0x156 o true

/-! ## Sending (R340, R341) -/

/-- Queue index of a network. -/
def netAt (net : Bool) : Nat := if net then 1 else 0

/-- Device that a destination word names (R340). -/
def State.wordDev (s : State) (w : Word) : Nat :=
  if field w.toNat 12 12 = Config.aliasDev then s.devNum else field w.toNat 12 12

/-- A send-queue entry freed (R340). -/
def State.freeEntry (s : State) (m : Msg) : State :=
  s.updCtx m.ctx fun c =>
    { c with sendq := setAt c.sendq (netAt m.net) (((c.sendq[netAt m.net]?).getD []).filter fun x => x.seq != m.seq) }

/-- Is the context of a message's number another one, which never sent it?  A number is free again once its context has ended
(R367), and a message may be in the network longer. -/
def State.reused (s : State) (m : Msg) : Bool :=
  match s.findCtx m.ctx with
  | none => false
  | some c => !(((c.sendq[netAt m.net]?).getD []).any fun x => x.seq == m.seq)

/-- A message done with: its entry freed here, or its device told (R340, R341).  One whose context has ended and left its number
to another faults nobody. -/
def State.answerMsg (s : State) (m : Msg) (dropped : Option Nat) : State :=
  if m.dev = s.devNum then
    let s1 := s.freeEntry m
    match dropped with
    | none => s1
    | some sub =>
      if s.reused m then s1
      else s1.imprecise m.ctx { code := 20, sub := sub, val := m.word, aux1 := 0, aux2 := 0, pc := m.pc, detail := 0 } (m.born + 1)
  else s.answer m.tenant (.ack { dev := m.dev, ctx := m.ctx, strm := 32 + netAt m.net } m.seq dropped)

/-- A message that leaves the network and the spill areas. -/
def State.takeMsg (s : State) (m : Msg) : State :=
  { s with fabric := { s.fabric with msgs := s.fabric.msgs.filter (· != m),
                                     spilled := s.fabric.spilled.filter fun p => p.2 != m } }

/-- A router drops a message (R341, R383). -/
def State.dropMsg (s : State) (m : Msg) (sub : Nat) : State :=
  let s1 := s.takeMsg m
  let s2 := if sub = 4 then
      s1.dcbSetField (parttab m.part 6) 0 16 (min 0xFFFF (s1.dcbField (parttab m.part 6) 0 16 + 1))
    else s1
  s2.answerMsg m (some sub)

/-- The partition that a message goes to: its sender's here, or its tenant's on this device. -/
def State.msgPart (s : State) (m : Msg) : Option Nat :=
  if m.dev = s.devNum then some m.part else s.partOfTenant m.tenant

/-- Is a packet of a tenant, of another device or of a launch entry of this one, in the scope of a kill (R373)?  The entries of another
device are not this device's.
(DEDUCED, log entry 21.) -/
def Purge.covers (d : Purge) (tenant : Nat) (lslot : Option Nat) : Bool :=
  d.tenant == tenant && match d.slot with
    | none => true
    | some l => lslot == some l

/-- Is a message one that a kill's sweep discards at its core's router (R374, R383)? -/
def State.purged (s : State) (m : Msg) : Bool :=
  s.control.purges.any fun d => d.cores.contains m.core && d.covers m.tenant m.lslot

/-- Can a message move now: land, be dropped, be discarded, or be spilled into its partition's area where that has room (R341,
R386)?  One that finds a full ring or a full area waits, and so does one whose partition's scratchpad is being swapped in. -/
def State.canMove (s : State) (m : Msg) (spilled : Bool) : Bool :=
  match s.msgPart m with
  | none => true
  | some p =>
    if s.purged m ∨ !s.inMesh p m.core then true
    else if !s.scheduled p then
      !spilled && decide ((s.fabric.spilled.filter fun x => x.1 == p).length < 2 ^ s.lspill p)
    else if (s.core m.core).resident ≠ some p then false
    else
      let b := (s.core m.core).mailbox m.net
      b.base == 0 || b.part != p || decide (b.count < 2 ^ b.lsl)

/-- The next message for a mailbox that can move: those spilled come first, and order is kept within a partition (R341, R386). -/
def State.nextMsg (s : State) (net : Bool) (core : Nat) : Option Msg :=
  let mine (m : Msg) : Bool := m.net == net && m.core == core
  match s.fabric.spilled.find? fun p => mine p.2 && s.canMove p.2 true with
  | some p => some p.2
  | none => s.fabric.msgs.find? fun m => mine m && s.canMove m false

/-- A message spilled to its partition's area in HBM (R341, R386), as far as it has room; its sender's entry waits for the landing (R340).
(DEDUCED, log entry 25.) -/
def State.spillMsg (s : State) (p : Nat) (m : Msg) : State :=
  let n := (s.fabric.spilled.filter fun x => x.1 == p).length
  if s.fabric.spilled.any fun x => x.2 == m then s
  else if 2 ^ s.lspill p ≤ n then s
  else
    let s1 := s.writeWord (s.spillBase p + 64 * n) 64 m.data.toNat
    { s1 with fabric := { s1.fabric with msgs := s1.fabric.msgs.filter (· != m), spilled := s1.fabric.spilled ++ [(p, m)] } }

/-- The landing of a message at a mailbox (R341, R377): the slot, TAIL, the counter's decrement, and the entry freed. -/
def State.landMsg (s : State) (p : Nat) (b : Mailbox) (m : Msg) : State :=
  let la := b.base + 64 * (b.tail % 2 ^ b.lsl)
  let offs := (List.range 64).map fun i => padOff m.core (la + i)
  let held := match s.heldAll (s.partTenant p) offs with
    | .inl xs => xs
    | .inr _ => offs
  let s1 : State := { s with mem := s.mem.writeEach (held.zip (bytesOf 64 m.data.toNat)) }
  let s2 := (s1.setMailbox m.core m.net { b with tail := (b.tail + 1) % 65536 }).takeMsg m
  ((s2.owe (.dectApply p b.record b.ctr 1)).answerMsg m none).owe (.messageLand m.net m.core)

/-- A message that a kill's sweep absorbs: it counts as performed without effect (R374, R383).
(DEDUCED, log entry 25.) -/
def State.absorbMsg (s : State) (m : Msg) : State :=
  let s1 : State := { s with control := { s.control with purges := s.control.purges.map fun d =>
    if (d.cores.contains m.core && d.covers m.tenant m.lslot : Bool) then { d with packets := d.packets + 1 } else d } }
  (s1.takeMsg m).answerMsg m none

/-- MESSAGE_LAND (R341, R371, R374, R383, R386): the next message for a mailbox lands, is spilled, is dropped, or is discarded by a
kill's sweep.  A core outside the partition is one whose router's bit for it is clear.
(DEDUCED, log entry 25.) -/
def execMessageLand (net : Bool) (core : Nat) (s : State) : Result :=
  match s.nextMsg net core with
  | none => .next s
  | some m =>
    let again (s : State) : Result := .next (s.owe (.messageLand net core))
    match s.msgPart m with
    | none => again (if s.purged m then s.absorbMsg m else s.dropMsg m 4)
    | some p =>
      if s.purged m then again (s.absorbMsg m)
      else if !s.inMesh p core then again (s.dropMsg m 4)
      else if !s.scheduled p then again (s.spillMsg p m)
      else
        let b := (s.core core).mailbox net
        if b.base = 0 ∨ b.part ≠ p then again (s.dropMsg m 1) else .next (s.landMsg p b m)

/-- A message enters the network or leaves for another device (R340, R341). -/
def State.launchMsg (s : State) (c : Ctx) (m : Msg) : State :=
  let dev := s.wordDev m.word
  if dev = s.devNum then
    ({ s with fabric := { s.fabric with msgs := s.fabric.msgs ++ [m] } } : State).owe (.messageLand m.net m.core)
  else if s.lost dev then s.dropMsg m 3
  else (s.packet c dev (.message m.net m.core c.part c.num m.seq m.data)).chargeCtx c.num 2700

/-- SEND (R340): the destination word's form, then the trap on a full queue, then the message, once every earlier access to this device has
performed. -/
def State.sendForm (s : State) (op : BitVec 9) (o : EOps) (net : Bool) : Result :=
  s.run (.e op o) fun c s =>
    let w := c.srcS [o.sa] o.sb
    let core := field w.toNat 0 11
    let q := (c.sendq[netAt net]?).getD []
    if field w.toNat 11 1 ≠ 0 ∨ field w.toNat 24 40 ≠ 0 ∨ Config.cores ≤ core then s.accessFault 3 w 0
    else if 8 ≤ q.length then s.trapEntry 2 (BitVec.ofNat 64 (netAt net))
    else if s.ownOut c then s.stallOn .perform
    else
      let m : Msg :=
        { net := net, core := core, word := w, part := c.part, tenant := c.tenant, lslot := some c.lslot, cls := c.cls, dev := s.devNum, ctx := c.num,
          pc := c.pc, born := c.retires, seq := s.fresh, data := (c.srcV [] o.sa).setWidth 512 }
      let s1 := ({ s with fresh := s.fresh + 1 } : State).mapCx fun c =>
        { c with sendq := setAt c.sendq (netAt net) (q ++ [m]) }
      (s1.launchMsg c m).done (.e op o)

/-- SEND.RQ (R340). -/
def execSendRq (o : EOps) (s : State) : Result := s.sendForm 0x153 o false

/-- SEND.RP (R340). -/
def execSendRp (o : EOps) (s : State) : Result := s.sendForm 0x154 o true

/-- The messages of a context withdrawn from the network when it leaves its seat: its entries keep them (R366, R370). -/
def State.withdrawMsgs (s : State) (ctx : Nat) : State :=
  { s with fabric := { s.fabric with msgs := s.fabric.msgs.filter fun m => !(m.dev == s.devNum && m.ctx == ctx) } }

/-- The send-queue entries of a resumed context sent again in order (R370); those on their way to another device, or in a spill area, are
there already. -/
def State.resendMsgs (s : State) (ctx : Nat) : State :=
  match s.findCtx ctx with
  | none => s
  | some c => ((c.sendq.flatMap id).filter fun m => s.wordDev m.word == s.devNum && !s.fabric.spilled.any fun x => x.2 == m).foldl
      (fun s m => s.launchMsg c m) s

/-- Every message of this device to a lost one dropped (R341). -/
def State.dropLost (s : State) (dev : Nat) : State :=
  ((s.allCtx.flatMap fun c => c.sendq.flatMap id).filter fun m => s.wordDev m.word == dev).foldl (fun s m => s.dropMsg m 3) s

/-! ## Task forms (R343 to R346) -/

/-- The record and counter that a GA of this device names in a partition's pool (R343). -/
def State.counterAt (s : State) (p off : Nat) : Option (Nat × Nat) :=
  let base := s.poolBase p
  let d := off - base
  if off < base ∨ !s.inPool p (d / 64) ∨ d % 2 ≠ 0 ∨ d % 64 < 8 ∨ 16 ≤ d % 64 then none
  else some (d / 64, (d % 64 - 8) / 2)

/-- The number by which a DECT that has not performed stands among its context's accesses. -/
def dectSeq (part rec' c n : Nat) : Nat := part + 64 * (c + 4 * (n + 65536 * rec'))

/-- DECT (R146, R266, R343): a reduction on a counter of a record of the partition's pool, which has performed once its decrement is made. -/
def execDect (o : MOps) (s : State) : Result :=
  s.run (.m 0x159 o) fun c s =>
    let f := Form.m 0x159 o
    let a := c.addr o 0
    let n := field (c.srcS [o.sa] o.sb).toNat 0 16
    match a with
    | .la _ => s.accessFault 11 a.word 2
    | .ga _ => match s.testAddr a 2 with
      | .inl sub => s.accessFault sub a.word 2
      | .inr t =>
        if t.dev ≠ s.devNum then s.accessFault 11 a.word 2
        else match s.counterAt c.part t.off with
          | none => s.accessFault 11 a.word 2
          | some r =>
            s.releasing c f o.ord t.dev 2 [] fun s =>
              if !(s.unperformed c.order.syncOuts).isEmpty then s.stallOn .perform
              else s.closing fun s =>
                let acq := decide (o.ord = 1 ∨ o.ord = 3)
                let s1 := (s.owe (.dectApply c.part r.1 r.2 n)).addOut
                  { dev := s.devNum, strm := 65, seq := dectSeq c.part r.1 r.2 n, batch := 4, bundled := false, kind := .dect, sync := true,
                    acq := acq, bytes := [], hdls := [], pc := c.pc, born := c.retires, sent := s.time }
                (if acq then s1.acquire else s1).done f

/-- A DECT of a context has performed (R83, R343): one that acquires does so now.  The decrements that a mailbox or a channel makes are
no context's. -/
def State.dectPerformed (s : State) (part rec' c n : Nat) : State :=
  let seq := dectSeq part rec' c n
  let isIt (x : Out) : Bool := x.dev == s.devNum && x.strm == 65 && x.seq == seq
  let there := (s.allCtx ++ s.ended).flatMap fun d => (d.order.outs.filter isIt).map fun x => (d, x)
  let owed := (s.pend.filter fun i => i == .dectApply part rec' c n).length
  match there with
  | [] => s
  | (d, x) :: _ =>
    if there.length ≤ owed then s
    else
      let s1 := s.updCtx d.num fun d => d.performed 65 s.devNum seq
      (if x.acq then s1.flushReads d.seatAt.core else s1).runCloses.cleanEnded

/-- DECT_APPLY (R140, R146): the decrement at the record's home slice. -/
def execDectApply (part rec' c n : Nat) (s : State) : Result := .next ((s.decrement part rec' c n).dectPerformed part rec' c n)

/-- Can every byte of a range in HBM of this device be read under a tenant (R34, R162)? -/
def State.readable (s : State) (tenant ga n : Nat) : Bool :=
  let off := field ga 0 45
  field ga 57 7 == 0 && field (s.resolve (BitVec.ofNat 64 ga)) 45 12 == s.devNum && decide (off + n ≤ s.hbmEnd)
    && (List.range ((n + 63) / 64)).all fun i => ownerAccepts (s.ownerAt (homeSlice (off + 64 * i)) ((off + 64 * i) / 0x200000)) tenant

/-- Does a launch record break R162?  One whose bits are not zero where the rule gives zeros, or whose DONEGA is not 8-byte aligned, does.
(DESIGN CHOICE, log entry 100.) -/
def State.launchBad (s : State) (p idx r : Nat) : Bool :=
  let first := field r 0 32
  let count := field r 32 21
  let ntsr := field r 128 3
  let done := field r 192 64
  count == 0 || decide (2 ^ 20 < count) || field r 53 11 != 0 || field r 131 29 != 0 || field r 256 256 != 0
    || decide (4 < ntsr) || (decide (first ≤ idx) && decide (idx < first + count))
    || (ntsr != 0 && (field r 64 6 != 0 || !s.readable (s.partTenant p) (field r 64 64) (64 * ntsr)))
    || field done 0 3 != 0 || field done 57 7 != 0 || field (s.resolve (BitVec.ofNat 64 done)) 45 12 != s.devNum
    || decide (s.hbmEnd < field done 0 45 + 8)

/-- The lowest free pending-launch entry.
(DESIGN CHOICE, log entry 78.) -/
def State.freeLaunch (s : State) : Option Nat :=
  (List.range Config.launchEntries).find? fun k => !s.sched.launches.any fun l => l.slot == k

/-- Place a launch (R162, R163): the status word, and for an entry that is placed its scan owed. -/
def State.placeLaunch (s : State) (p idx : Nat) : State × Word :=
  let r := s.recBits p idx
  if s.launchBad p idx r then (s, 2)
  else if s.lquota p ≤ (s.sched.launches.filter fun l => l.part == p).length then (s, 1)
  else match s.freeLaunch with
    | none => (s, 1)
    | some k =>
      let off := field r 64 45
      let l : Launch :=
        { slot := k, part := p, record := BitVec.ofNat 512 r,
          tsrs := (List.range (field r 128 3)).map fun i => BitVec.ofNat 512 (s.mem.readNat (off + 64 * i) 64),
          scanned := false, remaining := field r 32 21, faulted := false }
      (({ s with sched := { s.sched with launches := s.sched.launches ++ [l] } } : State).owe (.launchScan k),
        BitVec.ofNat 64 (2 ^ 16 * k))

/-- LAUNCH (R344): it waits for the earlier accesses to this device, and never for the graph. -/
def execLaunch (o : EOps) (s : State) : Result :=
  s.run (.e 0x15A o) fun c s =>
    let idx := field (c.srcS [] o.sa).toNat 0 32
    if !s.inPool c.part idx then s.accessFault 11 (BitVec.ofNat 64 idx) 0
    else if s.ownOut c then s.stallOn .perform
    else
      let r := s.placeLaunch c.part idx
      (r.1.putScalar o.dst r.2).done (.e 0x15A o)

/-- The window GA of a channel at a descriptor (R144). -/
def State.windowGa (s : State) (ga : Word) (input : Bool) : Word :=
  let off := gaOff ga.toNat
  let pos := if input then s.chanRd off else s.chanWr off
  BitVec.ofNat 64 (s.chan off 0 64 + pos % s.chanItems off * s.chanItemSize off)

/-- A free word.
(DESIGN CHOICE, log entry 12.) -/
def State.freeWord (s : State) : Word := Config.freeValue s.fresh

/-- CHWIN (R345): the window of a port; the manual gives no value for a port that is bound to no channel. -/
def execChwin (o : EOps) (s : State) : Result :=
  s.run (.e 0x15B o) fun c s =>
    let p := field o.ke.toNat 0 3
    match c.ports[p]? with
    | some (ga, _) =>
      if ga = 0 then (({ s with fresh := s.fresh + 1 } : State).putScalar o.dst s.freeWord).done (.e 0x15B o)
      else (s.putScalar o.dst (s.windowGa ga (decide (p < c.nin)))).done (.e 0x15B o)
    | none => (({ s with fresh := s.fresh + 1 } : State).putScalar o.dst s.freeWord).done (.e 0x15B o)

/-- CHSTAT (R345): WR − RD and ITEMS at one moment; no value is given for a port that is bound to no channel. -/
def execChstat (o : EOps) (s : State) : Result :=
  s.run (.e 0x15C o) fun c s =>
    let p := field o.ke.toNat 0 3
    match c.ports[p]? with
    | some (ga, _) =>
      if ga = 0 then (({ s with fresh := s.fresh + 1 } : State).putScalar o.dst s.freeWord).done (.e 0x15C o)
      else
        let off := gaOff ga.toNat
        (s.putScalar o.dst (BitVec.ofNat 64 (s.occupancy off % 2 ^ 32 + 2 ^ 32 * s.chanItems off))).done (.e 0x15C o)
    | none => (({ s with fresh := s.fresh + 1 } : State).putScalar o.dst s.freeWord).done (.e 0x15C o)

/-- TASKRD (R346): the four counters, or bits [63:0] of a record. -/
def execTaskrd (o : EOps) (s : State) : Result :=
  s.run (.e 0x15F o) fun c s =>
    let idx := field (c.srcS [] o.sa).toNat 0 32
    if !s.inPool c.part idx then s.accessFault 11 (BitVec.ofNat 64 idx) 0
    else (s.putScalar o.dst (BitVec.ofNat 64 (s.recGet c.part idx (if bit o.ke.toNat 0 then 0 else 64) 64))).done (.e 0x15F o)

end Sys2Proof.Machine
end

