-- ==== Sys2Proof/Machine/System.lean ====
section
/-! DEFINITION. The CSR, trap and clock forms but for YRET and YIELD, and the steps that answer them (R188, R189, R347 to
R349, R354 to R357, R378). -/

namespace Sys2Proof.Machine

open Sys2Proof.Bits

/-! ## CSRs (R188, R189) -/

/-- The value of a CSR that R188 lists. -/
def State.csrRead (s : State) (c : Ctx) (n : Nat) : Word :=
  match n with
  | 0x000 => c.csrs.tenantid
  | 0x001 => c.csrs.firinfo
  | 0x002 => c.csrs.rank
  | 0x003 => c.csrs.chainpos
  | 0x004 => c.csrs.fmode
  | 0x005 => c.csrs.fstat
  | 0x006 => c.csrs.ybudget
  | 0x007 => c.csrs.energy
  | 0x008 => c.csrs.linkstat
  | 0x009 => c.csrs.lostla
  | 0x00A => c.csrs.repst
  | 0x010 => c.mxstat
  | 0x011 => c.csrs.mxcap
  | 0x020 => c.csrs.tcause
  | 0x021 => c.csrs.tpc
  | 0x022 => c.csrs.tval
  | 0x023 => c.csrs.tinfo
  | 0x030 => (s.mailboxOf c c.seatAt.core false).word
  | 0x031 => (s.mailboxOf c c.seatAt.core true).word
  | _ => 0

/-- Ones in the RW fields of a CSR (R103, R104, R189, R299, R357). -/
def csrRw (n : Nat) : Word :=
  match n with
  | 0x004 => 0x3
  | 0x006 => 0x1FFFF
  | 0x008 => 0x0000FFFF00000000
  | 0x009 => 0x1FFFF
  | 0x011 => 0xFFFFFFFFFFFFFFFF
  | 0x020 => 0x10000
  | _ => 0

/-- Ones in the W1C fields of a CSR (R103, R189, R298). -/
def csrW1c (n : Nat) : Word :=
  match n with
  | 0x005 => 0x7F
  | 0x008 => 0x8000000000000000
  | 0x010 => 0x00007F0000000000
  | _ => 0

/-- The corrections that a CSR makes to a written value (R104, R189). -/
def csrFix (n : Nat) (v : Word) : Word :=
  if n = 0x006 then (if 65536 < v.toNat % 2 ^ 17 then BitVec.ofNat 64 (setField v.toNat 0 17 65536) else v)
  else if n = 0x009 then
    let la := v.toNat % 2 ^ 17
    if la % 16 ≠ 0 ∨ la < 0x100 ∨ 0x1FF00 < la then BitVec.ofNat 64 (setField v.toNat 0 17 0) else v
  else v

/-- How a CSR form writes (R347). -/
inductive CsrWrite where
  | write | set | clear
  deriving DecidableEq, Repr

/-- The word that a CSR form leaves (R188, R347). -/
def csrMerge (w : CsrWrite) (n : Nat) (old a : Word) : Word :=
  let rw := csrRw n
  let v := match w with
    | .write => (old &&& ~~~rw) ||| (a &&& rw)
    | .set => old ||| (a &&& rw)
    | .clear => old &&& ~~~(a &&& rw)
  let v1 := match w with
    | .clear => v
    | _ => v &&& ~~~(a &&& csrW1c n)
  csrFix n v1

/-- A CSR set to a word that `csrMerge` gave. -/
def Ctx.csrSet (c : Ctx) (n : Nat) (v : Word) : Ctx :=
  match n with
  | 0x004 => c.mapCsrs fun r => { r with fmode := v }
  | 0x005 => c.mapCsrs fun r => { r with fstat := v }
  | 0x006 => c.mapCsrs fun r => { r with ybudget := v }
  | 0x008 => c.mapCsrs fun r => { r with linkstat := v }
  | 0x009 => c.mapCsrs fun r => { r with lostla := v }
  | 0x010 => c.mapMx fun m => { m with stat := BitVec.ofNat 64 (setField m.stat.toNat 40 7 (field v.toNat 40 7)) }
  | 0x011 => c.mapCsrs fun r => { r with mxcap := v }
  | 0x020 => c.mapCsrs fun r => { r with tcause := v }
  | _ => c

/-- CSRR (R188, R347). -/
def execCsrr (o : COps) (s : State) : Result :=
  s.run (.c 0x180 o) fun c s => (s.putScalar o.dst (s.csrRead c (field o.imm.toNat 0 12))).done (.c 0x180 o)

/-- A CSR form that writes (R188, R347); the bit forms return the old value.
(DEDUCED, log entry 50.) -/
def State.csrForm (s : State) (op : BitVec 9) (o : COps) (w : CsrWrite) : Result :=
  s.run (.c op o) fun c s =>
    let n := field o.imm.toNat 0 12
    let old := s.csrRead c n
    let s1 := s.mapCx fun d => d.csrSet n (csrMerge w n old (c.valA o.sa))
    match w with
    | .write => s1.done (.c op o)
    | _ => (s1.putScalar o.dst old).done (.c op o)

/-- CSRW (R188, R347).
(DEDUCED, log entry 50.) -/
def execCsrw (o : COps) (s : State) : Result := s.csrForm 0x181 o .write

/-- CSRB.S (R188, R347). -/
def execCsrbS (o : COps) (s : State) : Result := s.csrForm 0x182 o .set

/-- CSRB.C (R188, R347). -/
def execCsrbC (o : COps) (s : State) : Result := s.csrForm 0x183 o .clear

/-! ## Traps (R355, R356) -/

/-- TRAP n (R356, R358): it retires with the entry. -/
def execTrap (o : COps) (s : State) : Result :=
  s.run (.c 0x184 o) fun c s =>
    let s1 := if c.inTrap || c.inYield || (c.handler 3).isNone then s
      else s.mapCx fun c => { c.charge (Form.c 0x184 o).energy with retires := c.retires + 1 }
    s1.trapEntry 3 (o.imm.setWidth 64)

/-- TRET (R356). -/
def execTret (o : COps) (s : State) : Result := s.run (.c 0x185 o) fun _ s => s.trapReturn

/-- BRK (R356). -/
def execBrk (o : COps) (s : State) : Result := s.run (.c 0x18B o) fun _ s => s.trapEntry 4 0

/-! ## ECALL (R348, R378) -/

/-- The answer to an ECALL of a context at an offset, if it was sent. -/
def Ctx.ecallAt (c : Ctx) (pc : BitVec 32) : Option (Option Word) := (c.ecalls.find? fun x => x.1 == pc).map (·.2)

/-- ECALL (R348, R378): the service, s1 to s4, the tenant and the context go to the system image; the answer, when it has
come, is written.  Service 0x21 names the core where the answer is written. -/
def execEcall (o : COps) (s : State) : Result :=
  s.run (.c 0x18A o) fun c s =>
    match c.ecallAt c.pc with
    | none =>
      let s1 := (s.mapCx fun c => { c with ecalls := c.ecalls ++ [(c.pc, none)] }).send
        (.ecall c.part c.num o.imm.toNat ((List.range 4).map fun i => c.regs.getS (i + 1)))
      s1.stallOn .ecall
    | some none => s.stallOn .ecall
    | some (some v) =>
      let s1 := s.mapCx fun d => { d with ecalls := d.ecalls.filter fun x => x.1 != c.pc }
      (s1.putScalar o.dst (if o.imm = 0x21 then BitVec.ofNat 64 s.cur.core else v)).done (.c 0x18A o)

/-- The first ECALL without an answer takes one. -/
def answerFirst (v : Word) : List (BitVec 32 × Option Word) → List (BitVec 32 × Option Word)
  | [] => []
  | (pc, none) :: rest => (pc, some v) :: rest
  | x :: rest => x :: answerFirst v rest

/-- ECALL_ANSWER (R348): the system image's answer reaches the context, on its seat or saved. -/
def execEcallAnswer (ctx : Nat) (val : Word) (s : State) : Result :=
  .next (s.updCtx ctx fun c => { c with ecalls := answerFirst val c.ecalls })

/-! ## Clocks (R349) -/

/-- TIME.S (R349). -/
def execTimeS (o : COps) (s : State) : Result :=
  s.run (.c 0x188 o) fun _ s => (s.putScalar o.dst (BitVec.ofNat 64 s.time)).done (.c 0x188 o)

/-- TIME.C (R349). -/
def execTimeC (o : COps) (s : State) : Result :=
  s.run (.c 0x189 o) fun c s => (s.putScalar o.dst (BitVec.ofNat 64 c.cycles)).done (.c 0x189 o)

/-- WAITT (R349): released when the time reaches sA, or after 1 ms. -/
def execWaitt (o : COps) (s : State) : Result :=
  s.run (.c 0x18C o) fun c s =>
    let limit := match c.stall with
      | some (.time t) => t
      | _ => s.time + 1000000
    if (c.valA o.sa).toNat ≤ s.time ∨ limit ≤ s.time then
      (s.putScalar o.dst (BitVec.ofNat 64 s.time)).done (.c 0x18C o)
    else s.stallOn (.time limit)

/-- WAITT_EXPIRY (R349): 1 ms after it stalled, a WAITT is released; it retires at its seat's next step. -/
def execWaittExpiry (id : SeatId) (s : State) : Result :=
  let expire (c : Ctx) : Ctx := match c.stall with
    | some (.time t) => if t ≤ s.time then { c with stall := some (.time 0) } else c
    | _ => c
  .next { s with
    cx := if s.cur = id then s.cx.map expire else s.cx,
    seats := s.seats.map fun (p : SeatId × Ctx) => if p.1 = id then (p.1, expire p.2) else p }

end Sys2Proof.Machine
end

