-- ==== Sys2Proof/Machine/Yield.lean ====
section
/-! DEFINITION. Saving a context and the ends of a yield: the save area, the record's return to its queue, YRET and YIELD
(R153, R364 to R368, R372). -/

namespace Sys2Proof.Machine

open Sys2Proof.Bits

/-! ## The save area (R367, R368) -/

/-- The CSR numbers of R188 in order. -/
def csrNumbers : List Nat :=
  [0x000, 0x001, 0x002, 0x003, 0x004, 0x005, 0x006, 0x007, 0x008, 0x009, 0x00A, 0x010, 0x011, 0x020, 0x021, 0x022, 0x023,
   0x030, 0x031]

/-- Words of 8 bytes. -/
def words8 (ws : List Nat) : List Byte := ws.flatMap (bytesOf 8)

/-- The stage of a BCLOSE as a number. -/
def CloseStage.code : CloseStage → Nat
  | .opened => 0
  | .issued => 1
  | .final => 2
  | .deciding => 3
  | .committing => 4
  | .aborting => 5
  | .settled => 6

/-- A companion as 4 bytes. -/
def compWord (c : Comp) : Nat := c.dev + 2 ^ 12 * c.slice + 2 ^ 31

/-- Fence tokens, by their slots: the serial number under a mark, and the accesses still to perform. -/
def Order.tokenBytes (o : Order) : List Byte :=
  (List.range 8).flatMap fun i => match o.tokens.find? fun t => t.slot == i with
    | some t => words8 [2 ^ 63 + t.serial, t.waits.length]
    | none => bytesOf 16 0

/-- The open bundle: its identity; its stage, doom and lines under a mark; the stamps; the outcome; and the companions (R107). -/
def Order.bundleBytes (o : Order) : List Byte :=
  match o.bundle with
  | none => []
  | some b =>
    let doom := match b.doomed with
      | some d => 2 ^ 4 + 2 ^ 8 * d.1
      | none => 0
    words8 [b.ident.toNat, b.stage.code + doom + 2 ^ 5 * ofBool b.latelost + 2 ^ 16 * b.lines + 2 ^ 32, b.mmax,
        (b.doomed.bind fun d => d.2.map compWord).getD 0, ((b.outcome.map fun w => w.toNat)).getD 0]
      ++ (b.comps.take 16).flatMap fun c => bytesOf 4 (compWord c)

/-- The read group (R120): its snapshot time under a mark, and its loss. -/
def Order.groupBytes (o : Order) : List Byte :=
  match o.group with
  | none => []
  | some g => words8 [1, g.t, match g.lost with
      | some l => 1 + 2 ^ 8 * l.1 + 2 ^ 16 * l.2
      | none => 0]

/-- The batch closes in progress. -/
def Order.closeBytes (o : Order) : List Byte :=
  (o.closes.take 4).flatMap fun k =>
    words8 [k.num % 2 ^ 32 + 2 ^ 32 * k.tag + 2 ^ 36 * k.peers + 2 ^ 48 * k.reasons.toNat + 2 ^ 63,
      k.refused % 2 ^ 16 + 2 ^ 16 * k.errpeers + 2 ^ 32 * k.waiting.length + 2 ^ 48 * k.lost.length]

/-- The collective bindings. -/
def Ctx.bindBytes (c : Ctx) : List Byte :=
  c.gbinds.flatMap fun g => match g with
    | some b => words8 [b.word.toNat, b.timeout + 2 ^ 32 * b.seq + 2 ^ 63]
    | none => bytesOf 16 0

/-- The weights, credits and ABANDONED bits of the queues, as QSTAT shows them (R325). -/
def Ctx.weightBytes (c : Ctx) : List Byte := words8 (c.queues.map fun q => q.word.toNat)

/-- The copy commands (R332): each command's block, with its bytes-done in the block's bits [383:322], which are zero in a block that is
accepted. -/
def Ctx.copyWords (c : Ctx) : List (Nat × Nat) :=
  (c.queues.take 4).zipIdx.flatMap fun q => (q.1.cmds.take 16).zipIdx.map fun k =>
    (1024 * q.2 + 64 * k.2, setField k.1.block.toNat 322 62 k.1.done)

/-- The matrix state but the accumulators (R295, R319): MXSTAT, the weight descriptor, and the queue, each command with its step. -/
def Ctx.matrixBytes (c : Ctx) : List Byte :=
  words8 [c.mxstat.toNat, c.mx.wla] ++ bytesOf 16 c.mx.whdr.toNat ++ bytesOf 32 0
    ++ (c.mx.queue.take 8).flatMap fun k =>
      words8 [k.op.toNat + 2 ^ 16 * k.la + 2 ^ 40 * k.row, k.step % 2 ^ 32 + 2 ^ 32 * ofBool k.start.isSome] ++ bytesOf 16 k.hdr.toNat
        ++ words8 [k.wla + 2 ^ 32 * ofBool k.wsparse + 2 ^ 40 * k.rm.toNat, k.zp % 2 ^ 16 + 2 ^ 16 * (k.eo % 2 ^ 16) + 2 ^ 32 * k.row0 + 2 ^ 48 * k.nrow]
        ++ bytesOf 16 k.whdr.toNat

/-- Write a context's save area (R365, R366, R368): every item but the rows and the matrix state, and in a forced save these too.  Where the
manual gives a part of the area its contents and no layout of them, the layout is the model's.
(DESIGN CHOICE, log entry 19.) -/
def State.writeSaveArea (s : State) (c : Ctx) (forced : Bool) : State :=
  if !s.buffered c then s
  else
    let base := s.bufferOf c.num
    let csrs := csrNumbers.flatMap fun n => bytesOf 8 (s.csrRead c n).toNat
    let os := (List.range 8).flatMap fun k => bytesOf 128 (c.regs.getO k).toNat
    let counters := c.queues.flatMap fun q => bytesOf 8 q.issued ++ bytesOf 8 q.done
    let touched := c.order.touched.flatMap fun ds => bytesOf 256 (ds.eraseDups.foldl (fun n d => n + 2 ^ d) 0)
    let items : List (Nat × List Byte) :=
      [(0x0000, words8 c.controlWords), (0x0100, csrs), (0x0200, bytesOf 8 c.regs.y0.toNat), (0x0280, bytesOf 128 c.regs.y1.toNat),
       (0x0300, os), (0x0700, c.order.tokenBytes), (0x0780, c.order.bundleBytes), (0x0800, c.order.groupBytes),
       (0x0840, c.order.closeBytes), (0x0880, touched), (0x0C80, (c.pv.take 2).flatMap fun w => bytesOf 128 w.toNat),
       (0x0D80, c.bindBytes), (0x0DC0, counters), (0x0E40, c.weightBytes)]
    let m1 := items.foldl (fun (m : Memory) x => m.write (base + x.1) x.2) (s.mem.zero base 0x2400)
    let m2 := c.copyWords.foldl (fun (m : Memory) x => m.writeNat (base + 0x1000 + x.1) 64 x.2) m1
    let m3 := ([false, true].flatMap fun net => ((c.sendq[netAt net]?).getD []).zipIdx.map fun x => (netAt net, x.2, x.1)).foldl
      (fun (m : Memory) (x : Nat × Nat × Msg) => m.writeNat (base + 0x2000 + 512 * x.1 + 64 * x.2.1) 64 x.2.2.data.toNat) m2
    if forced then
      let s1 : State := { s with mem := (m3.zero (base + 0x2400) 0x400).write (base + 0x2400) c.matrixBytes }
      (s1.saveAccumulators c).saveRows c
    else { s with mem := m3 }

/-- The bytes of a footprint record copied between a scratchpad and a context buffer (R366, R370). -/
def State.saveFootprint (s : State) (c : Ctx) : State :=
  if !s.buffered c then s
  else
    { s with mem := c.footprint.foldl (fun (m : Memory) (r : Nat × Nat) =>
        m.copyRange (padOff c.seatAt.core r.1) r.2 (s.bufferOf c.num + 0x8000 + r.1)) s.mem }

/-- The footprint written back from the context buffer at a core (R370). -/
def State.restoreFootprint (s : State) (c : Ctx) (core : Nat) : State :=
  if !s.buffered c then s
  else
    { s with mem := c.footprint.foldl (fun (m : Memory) (r : Nat × Nat) =>
        m.copyRange (s.bufferOf c.num + 0x8000 + r.1) r.2 (padOff core r.1)) s.mem }

/-- A context leaves its seat for its save area (R365, R366, R370): a fault on its way is reported instead (R375).  The rows stay in place
(R369), but for those of a forced save, which the save area holds.
(DESIGN CHOICE, log entry 19.) -/
def State.saveContext (s : State) (id : SeatId) (forced : Bool) : State :=
  match s.ctxAt id with
  | none => s
  | some c =>
    if c.fault.isSome then s.deliverFault c.num
    else
      let seen : Word × Word := ((s.mailboxOf c id.core false).word, (s.mailboxOf c id.core true).word)
      let c1 := { (if c.inYield then c.leaveYield else c) with
        phase := .yielded, forced := forced, clobbered := false, stall := none, seatAt := id, rows := !forced || !s.buffered c }
      let c2 := c1.mapCsrs fun r => { r with mbSeen := seen }
      let s1 := (s.withdrawMsgs c.num).dropCtx c.num
      let s2 : State := { s1 with saved := s1.saved ++ [c2] }
      let s3 := s2.writeSaveArea c2 forced
      let s4 := if forced then s3.saveFootprint c2 else s3
      (s4.yieldRecord c2).noteFree id.core c.part

/-! ## YRET and YIELD (R356, R365, R366, R375) -/

/-- YRET (R356, R365): the yield handler ends, and the context is saved where it was interrupted. -/
def execYret (o : COps) (s : State) : Result :=
  s.run (.c 0x186 o) fun c s =>
    if !c.inYield then s.contextFault 2 (field c.csrs.tcause.toNat 0 8)
    else ((s.mapCx fun c => c.charge (Form.c 0x186 o).energy)).saveContext s.cur false

/-- YIELD (R356, R366): a forced full save that resumes at the next instruction; in the yield handler it is an overrun. -/
def execYield (o : COps) (s : State) : Result :=
  s.run (.c 0x187 o) fun c s => if c.inYield then s.forceSave s.cur else (s.done (.c 0x187 o)).forceSave s.cur

end Sys2Proof.Machine
end

