-- ==== Sys2Proof/Machine/Run.lean ====
section
/-! DEFINITION. A decoded instruction run: the meaning of each OP value, for the step that fetches it. -/

namespace Sys2Proof.Machine

/-- The meaning that a table gives an OP value. -/
def meaning {α : Type} (table : List (Nat × (α → State → Result))) (op : BitVec 9) : Option (α → State → Result) :=
  (table.find? fun p => p.1 == op.toNat).map (·.2)

/-- Meanings of format A, part 0 (R191). -/
def runA0 : List (Nat × (AOps → State → Result)) := [
  (0x000, execAdd),
  (0x002, execSub),
  (0x004, execMul),
  (0x006, execMulhS),
  (0x007, execMulhU),
  (0x008, execDivS),
  (0x009, execDivU),
  (0x00A, execRemS),
  (0x00B, execRemU),
  (0x00C, execAnd),
  (0x00E, execOr),
  (0x010, execXor),
  (0x012, execShl),
  (0x013, execShrL),
  (0x014, execShrA),
  (0x015, execRot),
  (0x016, execMinS),
  (0x017, execMinU),
  (0x018, execMaxS),
  (0x019, execMaxU),
  (0x01A, execClampS),
  (0x01B, execClampU),
  (0x01C, execAbs),
  (0x01D, execClz),
  (0x01E, execPopc),
  (0x01F, execSext),
  (0x020, execExtS),
  (0x021, execExtU),
  (0x022, execIns),
  (0x023, execMad),
  (0x024, execSel),
  (0x025, execCmpEq),
  (0x026, execCmpNe),
  (0x027, execCmpLt),
  (0x028, execCmpGe),
  (0x029, execCmpLtu),
  (0x02A, execCmpGeu),
  (0x02B, execMlog),
  (0x02C, execMov),
  (0x02F, execGaMk)]

/-- Meanings of format A, part 1 (R191). -/
def runA1 : List (Nat × (AOps → State → Result)) := [
  (0x030, execGaDev),
  (0x031, execChkrR),
  (0x032, execChkrW),
  (0x033, execChkrX),
  (0x0A0, execVaddI),
  (0x0A1, execVaddIZ),
  (0x0A2, execVaddIs),
  (0x0A3, execVaddIsZ),
  (0x0A4, execVaddNs),
  (0x0A5, execVaddNsZ),
  (0x0A6, execVaddF),
  (0x0A7, execVaddFZ),
  (0x0A8, execVsubI),
  (0x0A9, execVsubIZ),
  (0x0AA, execVsubIs),
  (0x0AB, execVsubIsZ),
  (0x0AC, execVsubNs),
  (0x0AD, execVsubNsZ),
  (0x0AE, execVsubF),
  (0x0AF, execVsubFZ),
  (0x0B0, execVmulI),
  (0x0B1, execVmulIZ),
  (0x0B2, execVmulIh),
  (0x0B3, execVmulIhZ),
  (0x0B4, execVmulNh),
  (0x0B5, execVmulNhZ),
  (0x0B6, execVmulF),
  (0x0B7, execVmulFZ),
  (0x0B8, execVfmaI),
  (0x0B9, execVfmaIZ),
  (0x0BA, execVfmaF),
  (0x0BB, execVfmaFZ),
  (0x0BC, execVdivF),
  (0x0BD, execVdivFZ),
  (0x0BE, execVsqrtF),
  (0x0BF, execVsqrtFZ),
  (0x0C0, execVminI),
  (0x0C1, execVminIZ),
  (0x0C2, execVminN),
  (0x0C3, execVminNZ)]

/-- Meanings of format A, part 2 (R191). -/
def runA2 : List (Nat × (AOps → State → Result)) := [
  (0x0C4, execVminF),
  (0x0C5, execVminFZ),
  (0x0C6, execVmaxI),
  (0x0C7, execVmaxIZ),
  (0x0C8, execVmaxN),
  (0x0C9, execVmaxNZ),
  (0x0CA, execVmaxF),
  (0x0CB, execVmaxFZ),
  (0x0CC, execVabsI),
  (0x0CD, execVabsIZ),
  (0x0CE, execVabsF),
  (0x0CF, execVabsFZ),
  (0x0D0, execVnegI),
  (0x0D1, execVnegIZ),
  (0x0D2, execVnegF),
  (0x0D3, execVnegFZ),
  (0x0D4, execVand),
  (0x0D5, execVor),
  (0x0D6, execVxor),
  (0x0D7, execVshl),
  (0x0D8, execVshrL),
  (0x0D9, execVshrA),
  (0x0DA, execVcmpEq),
  (0x0DB, execVcmpNe),
  (0x0DC, execVcmpLt),
  (0x0DD, execVcmpLe),
  (0x0DE, execVcmpUn),
  (0x0DF, execVsel),
  (0x0E0, execVpermX),
  (0x0E1, execVpermR),
  (0x0E2, execVpermQ),
  (0x0E3, execVbcastS),
  (0x0E4, execVbcastL),
  (0x0E5, execVins),
  (0x0E6, execVext),
  (0x0E7, execVredAddi),
  (0x0E8, execVredAddf),
  (0x0E9, execVredMin),
  (0x0EA, execVredMax),
  (0x0EB, execVredMinn)]

/-- Meanings of format A, part 3 (R191). -/
def runA3 : List (Nat × (AOps → State → Result)) := [
  (0x0EC, execVredMaxn),
  (0x0ED, execVredAmax),
  (0x0EE, execVredAmaxn),
  (0x0EF, execVcvtI8),
  (0x0F0, execVcvtN8),
  (0x0F1, execVcvtI16),
  (0x0F2, execVcvtN16),
  (0x0F3, execVcvtI32),
  (0x0F4, execVcvtN32),
  (0x0F5, execVcvtF16),
  (0x0F6, execVcvtBf16),
  (0x0F7, execVcvtF32),
  (0x0F8, execVcvtT8),
  (0x0F9, execVcvtO8),
  (0x0FA, execVcvtO4),
  (0x0FB, execVscale),
  (0x0FC, execVmov),
  (0x100, execMxbegin),
  (0x101, execMxend),
  (0x102, execMxzero),
  (0x103, execMxldwD),
  (0x104, execMxldwS),
  (0x105, execMxldwT),
  (0x106, execMxmacT8),
  (0x107, execMxmacI8),
  (0x108, execMxmacO8),
  (0x109, execMxmacI8o8),
  (0x10A, execMxmacO8i8),
  (0x10B, execMxmacO4),
  (0x10C, execMxmacO4o8),
  (0x10D, execMxmacO8o4),
  (0x10E, execMxmacF16),
  (0x10F, execMxmacBf16),
  (0x110, execMxrdF),
  (0x111, execMxrdI),
  (0x112, execMxrdSc),
  (0x113, execMxwrF),
  (0x114, execMxwrI),
  (0x115, execMxstF32),
  (0x116, execMxstBf16)]

/-- Meanings of format A, part 4 (R191). -/
def runA4 : List (Nat × (AOps → State → Result)) := [
  (0x117, execMxstF16),
  (0x118, execMxstT8),
  (0x119, execMxstI32),
  (0x11A, execMxstI8),
  (0x11B, execMxstO8),
  (0x11C, execMxstO4),
  (0x11D, execMxwait),
  (0x11E, execMxcmd),
  (0x11F, execMxsave),
  (0x120, execMxload)]

/-- The meanings of format A (R191). -/
def runA : List (Nat × (AOps → State → Result)) :=
  runA0 ++ runA1 ++ runA2 ++ runA3 ++ runA4

/-- The meanings of format I (R191). -/
def runI : List (Nat × (IOps → State → Result)) := [
  (0x001, execAddImm),
  (0x003, execSubImm),
  (0x005, execMulImm),
  (0x00D, execAndImm),
  (0x00F, execOrImm),
  (0x011, execXorImm),
  (0x02D, execMoviW)]

/-- The meanings of format L (R191). -/
def runL : List (Nat × (LOps → State → Result)) := [
  (0x02E, execMoviD)]

/-- Meanings of format M, part 0 (R191). -/
def runM0 : List (Nat × (MOps → State → Result)) := [
  (0x040, execLdB),
  (0x041, execLdH),
  (0x042, execLdW),
  (0x043, execLdD),
  (0x044, execLdBs),
  (0x045, execLdHs),
  (0x046, execLdWs),
  (0x047, execStB),
  (0x048, execStH),
  (0x049, execStW),
  (0x04A, execStD),
  (0x04B, execVldL),
  (0x04C, execVldR),
  (0x04D, execVldC),
  (0x04E, execVlds),
  (0x04F, execVldx),
  (0x050, execVstL),
  (0x051, execVstR),
  (0x052, execVstC),
  (0x053, execVsts),
  (0x054, execVstx),
  (0x055, execAaddW),
  (0x056, execAaddD),
  (0x057, execAandW),
  (0x058, execAandD),
  (0x059, execAorW),
  (0x05A, execAorD),
  (0x05B, execAxorW),
  (0x05C, execAxorD),
  (0x05D, execAminsW),
  (0x05E, execAminsD),
  (0x05F, execAminuW),
  (0x060, execAminuD),
  (0x061, execAmaxsW),
  (0x062, execAmaxsD),
  (0x063, execAmaxuW),
  (0x064, execAmaxuD),
  (0x065, execAxchgW),
  (0x066, execAxchgD),
  (0x067, execAcasW)]

/-- Meanings of format M, part 1 (R191). -/
def runM1 : List (Nat × (MOps → State → Result)) := [
  (0x068, execAcasD),
  (0x069, execAfaddW),
  (0x06A, execRaddW),
  (0x06B, execRaddD),
  (0x06C, execRfaddW),
  (0x06D, execRmaxsW),
  (0x06E, execRmaxsD),
  (0x06F, execRmaxuW),
  (0x070, execRmaxuD),
  (0x073, execBatchc),
  (0x078, execWaitv),
  (0x079, execNoteOne),
  (0x07A, execNoteAll),
  (0x07B, execSwset),
  (0x07C, execSwwait),
  (0x159, execDect)]

/-- The meanings of format M (R191). -/
def runM : List (Nat × (MOps → State → Result)) :=
  runM0 ++ runM1

/-- The meanings of format B (R191). -/
def runB : List (Nat × (BOps → State → Result)) := [
  (0x034, execBr),
  (0x035, execBri),
  (0x036, execCall),
  (0x037, execCalli),
  (0x038, execRet),
  (0x039, execLoop)]

/-- The meanings of format C (R191). -/
def runC : List (Nat × (COps → State → Result)) := [
  (0x03A, execEndF),
  (0x03B, execEndRe),
  (0x03D, execNop),
  (0x071, execFence),
  (0x072, execFwait),
  (0x074, execBopen),
  (0x075, execBclose),
  (0x076, execRgopen),
  (0x077, execRgclose),
  (0x07D, execTlwait),
  (0x07E, execTlread),
  (0x180, execCsrr),
  (0x181, execCsrw),
  (0x182, execCsrbS),
  (0x183, execCsrbC),
  (0x184, execTrap),
  (0x185, execTret),
  (0x186, execYret),
  (0x187, execYield),
  (0x188, execTimeS),
  (0x189, execTimeC),
  (0x18A, execEcall),
  (0x18B, execBrk),
  (0x18C, execWaitt)]

/-- The meanings of format E (R191). -/
def runE : List (Nat × (EOps → State → Result)) := [
  (0x140, execCopyG),
  (0x141, execCopyT),
  (0x142, execCopyC),
  (0x143, execCopyS),
  (0x144, execCopyx),
  (0x145, execFillW),
  (0x146, execFillD),
  (0x147, execCollSum),
  (0x148, execCollMax),
  (0x149, execCollAmax),
  (0x14A, execCollMin),
  (0x14B, execCbcast),
  (0x14C, execCgath),
  (0x14D, execCscatSum),
  (0x14E, execCscatMax),
  (0x14F, execCscatAmax),
  (0x150, execCscatMin),
  (0x151, execCgrpA),
  (0x152, execCgrpF),
  (0x153, execSendRq),
  (0x154, execSendRp),
  (0x155, execRecvRq),
  (0x156, execRecvRp),
  (0x157, execMbsetRq),
  (0x158, execMbsetRp),
  (0x15A, execLaunch),
  (0x15B, execChwin),
  (0x15C, execChstat),
  (0x15D, execQset),
  (0x15E, execQstat),
  (0x15F, execTaskrd)]

/-- The meanings of format P (R191). -/
def runP : List (Nat × (POps → State → Result)) := [
  (0x03C, execRep)]

/-- The meaning of an OP value applied to the fields of its format; decoding gives no other OP value. -/
def runOp {α : Type} (table : List (Nat × (α → State → Result))) (op : BitVec 9) (o : α) (s : State) : Result :=
  match meaning table op with
  | some g => g o s
  | none => .next s

/-- Run a decoded form: the meaning of its instruction. -/
def runForm (f : Form) (s : State) : Result :=
  match f with
  | .a op o => runOp runA op o s
  | .i op o => runOp runI op o s
  | .l op o => runOp runL op o s
  | .m op o => runOp runM op o s
  | .b op o => runOp runB op o s
  | .c op o => runOp runC op o s
  | .e op o => runOp runE op o s
  | .p op o => runOp runP op o s
  | .pad => execPadSkip s
  | .event => .next s

end Sys2Proof.Machine
end

