-- ==== Sys2Proof/Machine/Fetch.lean ====
section
/-! DEFINITION. What a seat does next: the instruction at its program counter fetched, decoded and run, a repetition of a
REP, the checks of a lost cover, or a fault that is due (R169, R170, R187, R244, R246, R358). -/

namespace Sys2Proof.Machine

open Sys2Proof.Bits

/-- What stands at a program counter. -/
inductive Fetched where
  | form (f : Form)
  | bad (item : Nat) (bits : Word)
  | outside
  deriving DecidableEq, Repr

/-- Fetch at an offset of a context's .text (R169, R246): the words of one instruction, all inside .text. -/
def State.fetchAt (s : State) (c : Ctx) (pc : Nat) : Fetched :=
  let w := s.codeBits c pc
  if pc % 4 ≠ 0 ∨ c.code.len < pc + lengthOfLen (w.extractLsb' 0 2) then .outside
  else match decodeAt pc w with
    | .ok f => .form f
    | .bad k => .bad k (w.setWidth 64)

/-- The fault of a fetch outside .text (R169, R246, R359): it names the address and the instruction that led there. -/
def State.fetchFault (s : State) (c : Ctx) : State :=
  s.fatal c
    { code := 9, sub := 6, val := BitVec.ofNat 64 c.pc.toNat, aux1 := c.lastPc.toNat, aux2 := 0, pc := c.lastPc, detail := 0 }
    true 0

/-- The end of a run of repetitions that TRET brought to its last one (R187, R244, R356). -/
def State.endRep (s : State) (c : Ctx) (size : Nat) : State :=
  s.mapCx fun d =>
    { d.mapCsrs (fun r => { r with repst := repstOf c.repDone c.repTotal false }) with
      pc := c.pc + 8 + BitVec.ofNat 32 size, chkr := [], coverLost := false, handle := 0, flagHandle := 0 }

/-- Run what was fetched. -/
def State.runFetched (s : State) (c : Ctx) (x : Fetched) : Result :=
  match x with
  | .outside => .next (s.fetchFault c)
  | .bad k w => execUnassignedOpValue k w s
  | .form f =>
    match f with
    | .p op p =>
      if !c.repActive then runForm (.p op p) s
      else match s.fetchAt c (c.pc.toNat + 8) with
        | .form t => if c.repTotal ≤ c.repDone then .next (s.endRep c t.size) else runForm (t.stepped p c.repDone) s
        | _ => .next (s.endRep c 0)
    | f => runForm f s

/-- May a context on a seat run instructions (R155, R364)? -/
def Ctx.mayRun (c : Ctx) : Bool :=
  match c.phase with
  | .running => true
  | .handler => true
  | .leaving => c.finishing
  | _ => false

/-- The next step of the seat in focus: a fault whose skid has run out, the checks of a lost cover, or the instruction at the
program counter. -/
def State.seatRun (s : State) : Result :=
  match s.cx with
  | none => .next s
  | some c =>
    if !c.mayRun then .next s
    else if c.fault.isSome ∧ Config.maxSkid ≤ c.skid then .next (s.deliverFault c.num)
    else if c.coverLost then .next (s.recheck id)
    else s.runFetched c (s.fetchAt c c.pc.toNat)

/-- A context that was to leave, and has finished its instruction, goes on to leave (R364). -/
def State.afterRun (s : State) (r : Result) : Result :=
  match r with
  | .next t => match t.cx with
    | some c => if c.phase = .leaving ∧ !c.finishing then .next (t.owe (.copyQuiesceDone s.cur)) else .next t
    | none => .next t
  | r => r

/-- The next step of a seat. -/
def State.seatStep (s : State) : Result := s.afterRun s.seatRun

/-- Has the release of a seat's stalled instruction come (R372)?  Run again, it would not stall.
(DEDUCED, log entry 57.) -/
def State.released (s : State) (id : SeatId) : Bool :=
  match s.ctxAt id with
  | none => false
  | some c =>
    c.stall.isSome && match (s.focus id).seatRun with
      | .next t => match t.ctxAt id with
        | some d => d.stall.isNone
        | none => true
      | _ => false

end Sys2Proof.Machine
end

