-- ==== Sys2Proof/Machine/Preempt.lean ====
section
/-! DEFINITION. Pre-emption: the stopping of a seat, the quiesce and the yield handler, the forced full save, the resumption
of saved contexts, and the delivery of an imprecise fault (R319, R332, R358, R364 to R372, R375, R379). -/

namespace Sys2Proof.Machine

open Sys2Proof.Bits

/-! ## Stopping a seat (R364, R366, R372, R375) -/

/-- Lines of a context's copies are in flight (R332), or a copy whose lines have all landed has still to complete (R379). -/
def Ctx.copying (c : Ctx) : Bool := (c.queues.take 4).any fun q => q.cmds.any fun k =>
  k.inFlight || ((k.phase == .active || k.phase == .paused) && k.lands.isEmpty && !k.asked)

/-- The release of a seat's stalled instruction that has come as the seat is stopped is withheld and noted (R372). -/
def State.withhold (s : State) (id : SeatId) : State :=
  let evt := s.released id
  s.mapSeat id fun d => { d with evt := d.evt || evt }

/-- Stop a seat for a yield or for a forced full save: a fault on its way is reported at this boundary (R375), an instruction
that awaits a reply is finished first, and a release that has come is withheld and noted (R372). -/
def State.stopSeat (s : State) (id : SeatId) (forced : Bool) : State :=
  match s.ctxAt id with
  | none => s
  | some c =>
    if c.phase = .quiesce ∨ c.phase = .handler then if forced then s.forceSave id else s
    else if c.phase = .saving ∨ c.phase = .yielded then s
    else if c.fault.isSome then s.deliverFault c.num
    else if c.finishing then s.mapSeat id fun d => { d with phase := .leaving, forced := forced || (d.phase == .leaving && d.forced) }
    else
      let s1 := s.withhold id
      if forced then s1.forceSave id
      else
        ((s1.clearWait c).mapSeat id fun d => { d with phase := .quiesce, stall := none, forced := false }).owe
          (.copyQuiesceDone id)

/-- Enter the yield handler (R364); a seat without one takes a forced full save.
(DEDUCED, log entry 57.) -/
def State.enterYield (s : State) (id : SeatId) : State :=
  match s.ctxAt id with
  | none => s
  | some c => match c.handler 0 with
    | none => s.forceSave id
    | some h => s.mapSeat id fun c =>
      { (c.setTcause 18 1 1).mapCsrs (fun r => { r with repst := BitVec.ofNat 64 (setField r.repst.toNat 18 1 0) }) with
        ipc := c.pc, irepst := c.csrs.repst, yieldChkr := c.chkr, chkr := [], coverLost := false, handle := 0, flagHandle := 0,
        pc := BitVec.ofNat 32 h, phase := .handler, stall := none,
        budgetEnd := c.cycles + field c.csrs.ybudget.toNat 0 17 }

/-- The handle by which a context's image binds a region (R30). -/
def Ctx.binding (c : Ctx) (idx : Nat) : Option (BitVec 32) := c.code.binds.find? fun h => h != 0 && hIndex h == idx

/-- A seat whose image binds a region that is now moving or revoked stops at its instruction boundary (R30, R363, R375,
R400): a region fault of reason MOVING with a forced save, or of reason REVOKED.  An instruction that awaits a reply is
finished first. -/
def State.stopHolder (s : State) (id : SeatId) (idx : Nat) : State :=
  match s.ctxAt id with
  | none => s
  | some c => match c.binding idx with
    | none => s
    | some h =>
      let d := s.descAt idx
      let f : Flt :=
        { code := 10, sub := if dState d = 2 then 3 else 2, val := BitVec.ofNat 64 (dBase d), aux1 := h.toNat, aux2 := 0,
          pc := c.pc, detail := 0 }
      if c.phase = .saving ∨ c.phase = .yielded then s
      else if c.finishing && !c.inYield then s.mapSeat id fun d => { d with phase := .leaving, forced := true }
      else if c.fault.isSome then s.deliverFault c.num
      else if dState d = 2 then ((s.withhold id).report c.reporter f true true 0).forceSave id
      else s.fatal c f true 0

/-- The index of a region that a context's image binds and that no firing may hold now (R30). -/
def State.stopIndex (s : State) (c : Ctx) : Option Nat :=
  (c.code.binds.find? fun h => h != 0 && (dState (s.descAt (hIndex h)) == 2 || dState (s.descAt (hIndex h)) == 3)).map hIndex

/-- COPY_QUIESCE_DONE (R332, R364): once no line of the context's copies is in flight, the seat enters its yield handler. -/
def execCopyQuiesceDone (id : SeatId) (s : State) : Result :=
  match s.ctxAt id with
  | none => .next s
  | some c =>
    if c.phase = .leaving then
      .next (if c.finishing then s
        else match s.stopIndex c with
          | some idx => s.stopHolder id idx
          | none => s.stopSeat id c.forced)
    else if c.phase = .quiesce ∧ !c.copying then .next (s.enterYield id)
    else .next s

/-- YIELD_BUDGET_OVERRUN (R364, R366, R375). -/
def execYieldBudgetOverrun (id : SeatId) (s : State) : Result :=
  match s.ctxAt id with
  | none => .next s
  | some c =>
    if c.phase = .handler ∧ c.inYield ∧ c.budgetEnd ≤ c.cycles then .next (s.forceSave id) else .next s

/-- FORCED_SAVE_COMPLETE (R363, R366, R368). -/
def execForcedSaveComplete (id : SeatId) (s : State) : Result :=
  match s.ctxAt id with
  | none => .next s
  | some c => if c.phase = .saving ∧ !c.copying then .next (s.saveContext id true) else .next s

/-- IMPRECISE_FAULT_DELIVERY (R358, R362): at an instruction boundary of the context; a port's control core is told of it (R2). -/
def execImpreciseFaultDelivery (ctx : Nat) (s : State) : Result :=
  match s.findCtx ctx with
  | none => .next s
  | some c =>
    if isPort ctx then .next ((s.updCtx ctx fun c => { c with fault := none, moreFaults := [] }).send (.portReply (ctx - portCtx 0) 0 []))
    else if c.finishing ∧ s.hasSeat ctx then .next s else .next (s.deliverFault ctx)

/-! ## Placing a context on a seat (R46, R47, R332) -/

/-- Do two LA ranges overlap? -/
def overlaps (a b : Nat × Nat) : Bool := decide (a.1 < b.1 + b.2) && decide (b.1 < a.1 + a.2) && a.2 != 0 && b.2 != 0

/-- Do two footprints overlap (R48)? -/
def footprintsMeet (a b : List (Nat × Nat)) : Bool := a.any fun x => b.any fun y => overlaps x y

/-- The LA ranges of a core that are destinations of a context's unfinished copies (R332): those of a command not yet accepted as its
acceptance would give them. -/
def State.landRanges (s : State) (c : Ctx) (core : Nat) : List (Nat × Nat) :=
  (c.queues.take 4).flatMap fun q => q.cmds.flatMap fun k =>
    let side : Nat × List (Int × Nat) := if k.phase = .issued then match s.acceptCopy c k with
        | .inr p => (p.dst, p.lands.map fun l => (l.dst, l.len))
        | .inl _ => (0, [])
      else (k.dst, k.dests)
    side.2.filterMap fun r =>
      let t := gaPlace side.1 r.1
      if t.dev = s.devNum ∧ bankCore t.off = some core then some (t.off - windowOf core, r.2) else none

/-- A footprint given to a firing on a core: saved contexts of the core that it overlaps are marked (R332, R370). -/
def State.giveFootprint (s : State) (core ctx : Nat) (fp : List (Nat × Nat)) : State :=
  { s with saved := s.saved.map fun c =>
      let unfinished := (c.queues.take 4).any fun q => !q.cmds.isEmpty
      let ranges := if unfinished then s.landRanges c core else c.footprint
      if c.seatAt.core = core ∧ c.num ≠ ctx ∧ footprintsMeet ranges fp then { c with clobbered := true } else c }

/-- Granules that a context holds (R154). -/
def Ctx.granules (c : Ctx) : Nat := granulesOf c.sRegs c.vRegs

/-- The contexts whose rows leave a core, oldest first, until what stands there in `total` granules fits into `room`. -/
def evicted : List Ctx → Nat → Nat → List Ctx
  | [], _, _ => []
  | c :: cs, total, room => if total ≤ room then [] else c :: evicted cs (total - c.granules) room

/-- The rows of a YIELDED context copied to its save area, and its granules given up (R369). -/
def State.evictRows (s : State) (c : Ctx) : State := (s.saveRows c).updCtx c.num fun d => { d with rows := false }

/-- Granules given to a firing on a core (R155, R369): free ones first, then those of the context that has been YIELDED longest.
(DESIGN CHOICE, log entry 20.) -/
def State.giveGranules (s : State) (core ctx need : Nat) : State :=
  let there := s.saved.filter fun c => c.rows && c.seatAt.core == core && c.num != ctx
  let held := (s.running.filter fun p => p.1.core == core && p.2.num != ctx).foldl (fun n p => n + p.2.granules) 0
  (evicted there (there.foldl (fun n c => n + c.granules) 0) (Config.granules - held - need)).foldl (fun s c => s.evictRows c) s

/-- The launch area of a core rewritten for a launch entry with tensor shape records, when it holds another's (R46, R47). -/
def State.fillLaunchArea (s : State) (core slot : Nat) : State :=
  match s.sched.launches.find? fun l => l.slot == slot with
  | none => s
  | some l =>
    if l.tsrs.isEmpty ∨ (s.core core).launch = some slot then s
    else
      let m := l.tsrs.zipIdx.foldl (fun (m : Memory) (x : BitVec 512 × Nat) =>
        m.writeNat (padOff core (64 * x.2)) 64 x.1.toNat) (s.mem.zero (padOff core 0) 0x100)
      ({ s with mem := m } : State).mapCore core fun k => { k with launch := some slot }

/-- Put a context on a free seat. -/
def State.putOnSeat (s : State) (id : SeatId) (c : Ctx) : State :=
  let s1 := s.mapCore id.core fun k => { k with claims := drop k.claims id.seat }
  if s1.cur = id then { s1 with cx := some { c with seatAt := id } }
  else { s1 with seats := s1.seats ++ [(id, { c with seatAt := id })] }

/-! ## Resumption (R104, R153, R319, R332, R369, R370, R379) -/

/-- Every unfinished copy of a context abandoned (R332, R379, R418): its status record at the new core, and DONE over it.  One that a lost
peer or a region update has ended meanwhile ends so. -/
def State.abandonCopies (s : State) (n : Nat) : State :=
  match s.findCtx n with
  | none => s
  | some c =>
    (List.range 4).foldl (fun s qi =>
      (c.vq qi).cmds.foldl (fun s k =>
        if k.stop.isSome ∨ k.status = 2 then s.completeCmd n qi k.num
        else
          let s1 := (s.writeStatus c c.seatAt.core { k with status := 5 }).chargeCtx n (1300 * ((k.done + 63) / 64))
          s1.updCtx n fun c => c.mapVq qi fun q => { q.complete k.num with abandoned := true }) s) s

/-- The copies of a context that came back to its core go on (R332); one that a lost peer or a region update has ended meanwhile ends. -/
def State.continueCopies (s : State) (n : Nat) : State :=
  match s.findCtx n with
  | none => s
  | some c =>
    (List.range 4).foldl (fun s qi =>
      (c.vq qi).cmds.foldl (fun s k =>
        if k.stop.isSome ∨ k.status = 2 then s.completeCmd n qi k.num
        else match k.phase with
        | .issued => s.owe (.copyAccept .copy n qi k.num)
        | .accepted => s.owe (.commandStart .copy c.seatAt.core)
        | .active => s.pump n qi k.num
        | _ => s) s) s

/-- The lost-peer bits and LINKSTAT changes that were held (R104, R370). -/
def State.applyHeld (s : State) (n : Nat) : State :=
  match s.findCtx n with
  | none => s
  | some c =>
    c.order.heldLost.foldl (fun s x => s.peerLost n x.1 x.2)
      (s.updCtx n fun c => c.mapOrder fun o => { o with heldLost := [] })

/-- The matrix unit at a resumption (R295, R319): a context with queued commands claims it; an owner that resumes elsewhere
leaves the old core's unit. -/
def State.resumeMatrix (s : State) (n : Nat) : State :=
  match s.findCtx n with
  | none => s
  | some c =>
    let core := c.seatAt.core
    let s1 := s.mapCores fun k => if k.mxOwner = some n then { k with mxOwner := none, weights := [], whdr := 0 } else k
    if (s.core core).mxOwner = some n then s.oweSequencer core c
    else if c.mx.queue.isEmpty then s1
    else s1.claimMatrix core c

/-- The code 1 handler entered, unless the context was saved inside a trap handler or none is declared (R354, R370). -/
def State.resumeHandler (s : State) (n : Nat) : State :=
  s.updCtx n fun c =>
    if c.inTrap then c
    else match c.handler 1 with
      | none => c
      | some h => c.enterTrap 1 h c.pc 0

/-- The code of a context, where its image's entry now says that it lies (R211, R214). -/
def State.codeOf (s : State) (c : Ctx) : Code := match s.image c.code.image c.code.igen with
  | some i => s.codeNow i
  | none => c.code

/-- One context resumed on a seat, in the order of R370: its rows in place or from its save area, the old core's evicted first where it
resumes elsewhere (R369), and the save area's other state.  The core's read cache is emptied: it may hold a line older than a store that the
context made, or saw, on the core that it left (R65).
(DEDUCED, log entry 69.) -/
def State.resumeOn (s : State) (n : Nat) (id : SeatId) : State :=
  match s.saved.find? fun c => c.num == n with
  | none => s
  | some c =>
    let same := c.seatAt.core == id.core
    let goOn := same && !c.clobbered
    let kept := c.forced || goOn
    let info := fun (w : Word) =>
      BitVec.ofNat 64 (setField w.toNat 19 4 (ofBool same + 2 * ofBool kept + 4 * ofBool c.forced + 8 * ofBool c.evt))
    let s0 := if same ∨ !c.rows then s else s.evictRows c
    let back := s0.putInPlace { c with rows := c.rows && same }
    let s1 := (((s0.giveGranules id.core n c.granules).giveFootprint id.core n c.footprint).fillLaunchArea id.core c.lslot).flushReads id.core
    let s2 := if c.forced then s1.restoreFootprint c id.core else s1
    let old := match (s.core c.seatAt.core).mxOwner with
      | some o => o == n && !same
      | none => false
    let s3 := (s2.dropCtx n).putOnSeat id
      { back with
        code := s.codeOf c, phase := .running, stall := none, evt := false, forced := false, rows := false, coverLost := !back.chkr.isEmpty,
        handle := 0, flagHandle := 0 }
    let s4 := (if old then s3.saveAccumulators c else s3).resumeMatrix n
    let s5 := if goOn then s4.continueCopies n else s4.abandonCopies n
    let s6 := ((s5.applyHeld n).resendMsgs n).updCtx n fun c => c.mapCsrs fun r => { r with tinfo := info r.tinfo }
    s6.resumeHandler n

/-- Is a seat free for a context: empty, its core in service? -/
def State.seatFree (s : State) (id : SeatId) : Bool :=
  s.inService id.core && decide (id.seat < 4) && (s.ctxAt id).isNone

end Sys2Proof.Machine
end

