-- ==== Sys2Proof/Machine/Requests.lean ====
section
/-! DEFINITION. Requests at a coherence point that do not come from a seat's own instruction: those of engines, runtime ports
and scale-out ports at a home slice, at a core's window or at a cluster unit, and the owner map's updates (R33 to R36, R49,
R54, R56, R80, R81, R94, R116, R139, R387, R391, R392). -/

namespace Sys2Proof

/-- The offsets that a request touches. -/
def MemReq.offs (r : MemReq) : List Nat :=
  match r.op with
  | .store bytes _ => bytes.map (·.1)
  | .atomic _ w _ _ => (List.range w).map (r.off + ·)
  | .note _ => (List.range 8).map (r.off + ·)
  | .swset _ => (List.range 16).map (r.off + ·)
  | .load => (List.range r.len).map (r.off + ·)

/-- The flag of a request, if it carries one. -/
def MemReq.flag (r : MemReq) : Option Nat :=
  match r.op with
  | .store _ f => f
  | _ => none

end Sys2Proof

namespace Sys2Proof.Machine

open Sys2Proof.Bits

/-- A reporter without a context (R359, R360): a port acts for a partition. -/
def portReporter (part tenant : Nat) : Reporter :=
  { part := part, tenant := tenant, seat := { core := 0, seat := 0 }, lslot := 0, ctx := 0xFFFFFFFF, record := 0, pc := 0,
    image := 0, igen := 0, tver := 0 }

/-- The fault of a refused request (R34, R35, R139, R359): `aux2` tells the origin. -/
def denyFault (tenant ga aux2 : Nat) (pc : BitVec 32) (d : Deny) : Flt :=
  match d with
  | .breach e =>
    { code := 16, sub := 0, val := BitVec.ofNat 64 ga, aux1 := tenant + 2 ^ 12 * e, aux2 := aux2, pc := pc, detail := 0 }
  | .record => { code := 23, sub := 0, val := BitVec.ofNat 64 ga, aux1 := 0, aux2 := 0, pc := pc, detail := 0 }

/-- A request refused at its coherence point for the byte at an offset (R34, R35): nothing is read or written. -/
def State.refuseReq (s : State) (r : MemReq) (d : Deny) (off : Nat) : State :=
  let ga := 2 ^ 45 * s.devNum + off
  match r.origin with
  | .seat _ ctx pc => s.imprecise ctx (denyFault r.tenant ga 0 pc d) (match s.findAny ctx with
      | some c => c.retires
      | none => 0)
  | .engine e _ ctx vq num _ =>
    let qi := (match e with
      | .copy => 0
      | .coll => 4) + vq
    let s1 := s.mapCmd ctx qi num fun k => { k with acks := k.acks - 1 }
    match s1.findAny ctx with
    | none => s1
    | some c => match (c.vq qi).cmd num with
      | none => s1
      | some k => s1.breachCmd c qi k d ga
  | .scaleOut _ => match s.partOfTenant r.tenant with
    | some p => (s.engineError d r.origin).report (portReporter p r.tenant) (denyFault r.tenant ga 7 0 d) false false 0
    | none => s.engineError d r.origin
  | .fabric _ _ => match s.partOfTenant r.tenant with
    | some p => (s.engineError d r.origin).report (portReporter p r.tenant) (denyFault r.tenant ga 5 0 d) false false 0
    | none => s.engineError d r.origin
  | .port k => s.send (.portReply k 0 [])

/-- A request performed, with the bytes or the value that it returns. -/
def State.answerReq (s : State) (r : MemReq) (val : Nat) (bytes : List Byte) : State :=
  match r.origin with
  | .engine e _ ctx vq num _ =>
    s.landed ctx ((match e with
      | .copy => 0
      | .coll => 4) + vq) num r.len
  | .port k => s.send (.portReply k (BitVec.ofNat 64 val) bytes)
  | _ => s

/-- A sync word armed (R51, R274): TARGET, and COUNT 0. -/
def State.armSync (s : State) (off : Nat) (target : BitVec 32) : State :=
  { s with mem := s.mem.writeNat off 16 (setField (setField (s.mem.readNat off 16) 0 32 target.toNat) 32 32 0) }

/-- Where the bytes of a request are held, or its refusal: no launch area is written (R46). -/
def State.heldReq (s : State) (r : MemReq) : List Nat ⊕ Deny :=
  if r.op == .load then s.heldAll r.tenant r.offs else s.heldWrite r.tenant r.offs

/-- Is a request one of an engine's command that has ended (R331)?  No more of it lands. -/
def State.stale (s : State) (r : MemReq) : Bool :=
  match r.origin with
  | .engine e _ ctx vq num _ =>
    let qi := (match e with
      | .copy => 0
      | .coll => 4) + vq
    match (s.findAny ctx).bind fun c => (c.vq qi).cmd num with
    | some k => k.status == 2 || k.acks == 0
    | none => true
  | _ => false

/-- Does an access that a port makes by no form, which is a synchronising one, meet a record of another context (R2, R69, R72)?
(DEDUCED, log entry 35.) -/
def State.portConflict (s : State) (r : MemReq) : Bool :=
  let other (k : Nat) (p : Party) : Bool := !(p.dev == s.devNum && p.ctx == portCtx k)
  match r.origin, r.op with
  | .port k, .load => (s.raceLines r.tenant r.offs).any fun l => (look s.slices.races l).any fun x => x.writer.any (other k)
  | .port k, .store _ _ => (s.raceLines r.tenant r.offs).any fun l =>
      (look s.slices.races l).any fun x => x.writer.any (other k) || x.readers.any (other k)
  | _, _ => false

/-- A request judged, performed and recorded at its coherence point (R34, R49, R56, R94, R116, R139, R387): engine traffic is exempt from
race detection (R68); a port's access that meets a record is refused (R72). -/
def State.performReq (s : State) (r : MemReq) : State :=
  if s.stale r then s
  else if s.portConflict r then s.refuseReq r (.breach 0) r.off
  else match s.heldReq r, s.heldWrite r.tenant r.flag.toList with
  | .inr d, _ => s.refuseReq r d (s.firstDenied r.tenant (r.op != .load) r.offs)
  | _, .inr d => s.refuseReq r d (r.flag.getD r.off)
  | .inl held, .inl fheld =>
    let s0 := s.cacheOwners held
    let word := r.flag.any fun o => decide (o < s.hbmEnd)
    let hbmFlag := if word then fheld else []
    match r.op with
    | .load => s0.answerReq r 0 (s0.readBytes none held)
    | .store bytes _ =>
      if s0.touchesRecord (held ++ hbmFlag) then s0.refuseReq r .record (s0.firstInRecord (held ++ hbmFlag))
      else
        let s1 := s0.writeBytes (held.zip (bytes.map (·.2)))
        let s2 := match fheld with
          | x :: _ => s1.flagAt (!word) x bytes.length
          | [] => s1
        s2.answerReq r 0 []
    | .atomic op w b _ =>
      if s0.touchesRecord held then s0.refuseReq r .record (s0.firstInRecord held)
      else
        let x := s0.atomicAt op (held.headD r.off) w b.toNat
        x.1.answerReq r x.2.1 []
    | .note all => (s0.noteAt r.off all).answerReq r 0 []
    | .swset target => (s0.armSync (held.headD r.off) target).answerReq r 0 []

/-- HOME_SLICE_REQUEST (R34, R56): a request to HBM. -/
def execHomeSliceRequest (r : MemReq) (s : State) : Result :=
  if r.off < s.hbmEnd then .next (s.performReq r) else .next s

/-- WINDOW_REQUEST (R34, R49, R387): a request through a core's window, performed at the banks or on the swap image. -/
def execWindowRequest (r : MemReq) (s : State) : Result :=
  if (bankCore r.off).isSome then .next (s.performReq r) else .next s

/-- CLUSTER_UNIT_ATOMIC (R80, R81): the unit takes the line from its home slice as sole owner and executes the atomic; its scope
changes no value. -/
def execClusterUnitAtomic (scope : BitVec 2) (r : MemReq) (s : State) : Result :=
  match r.op with
  | .atomic _ _ _ _ =>
    if scope = 1 ∧ r.off < s.hbmEnd then
      .next ((s.performReq r).takeLine (match r.origin with
        | .seat id _ _ => unitOf id.core scope
        | _ => none) r.off)
    else .next s
  | _ => .next s

/-! ## The owner map (R33, R36, R392) -/

/-- OWNER_ENTRY_FETCH_RETURN (R33, R36): a slice that missed keeps the entry as HBM holds it. -/
def execOwnerEntryFetchReturn (slice granule : Nat) (s : State) : Result :=
  if slice < 128 ∧ granule < 262144 then .next (s.cacheOwner slice granule) else .next s

/-- OWNER_MAP_UPDATE (R36): every slice drops its copy of the entry. -/
def execOwnerMapUpdate (granule : Nat) (s : State) : Result :=
  if bit (s.dcbGet omupcmd).toNat 63 then
    let s1 := { s with slices := { s.slices with owners := s.slices.owners.filter fun o => o.granule != granule } }
    .next (s1.owe .ownerMapUpdateComplete)
  else .next s

/-- OWNER_MAP_UPDATE_COMPLETE (R36, R392): BUSY clears; in confidential mode every block of the granule is unwritten. -/
def execOwnerMapUpdateComplete (s : State) : Result :=
  if bit (s.dcbGet omupcmd).toNat 63 then
    let g := s.dcbField omupcmd 0 18
    let e := s.ownerWord g % 2 ^ 14
    let changed := e ≠ (look s.control.owned g).getD 0
    let s0 := { s with control := { s.control with owned := put s.control.owned g e } }
    let s1 := if s.confidential ∧ changed then
        { s0 with mem := s0.mem.zero (0x200000 * g) 0x200000,
                  control := { s0.control with seals := s0.control.seals.filter fun x => x.1 / 4096 != g } }
      else s0
    .next (s1.dcbSetField omupcmd 63 1 0)
  else .next s

end Sys2Proof.Machine
end

