-- ==== Sys2Proof/Machine/Fabric.lean ====
section
/-! DEFINITION. Streams and the fabric: the arrival of other devices' requests, reorder windows, acknowledgements and replies,
the MOVING retry, batch closes, and forwarding (R14, R32, R53, R64, R65, R70 to R73, R87 to R99, R123, R124, R393, R402 to
R404). -/

namespace Sys2Proof

/-- The parts of a request that reads. -/
def PktBody.readParts : PktBody → List (Nat × Nat)
  | .load _ _ parts _ _ => parts
  | .engineLoad _ _ _ _ parts => parts
  | .groupLoad _ _ parts _ => parts
  | _ => []

/-- The context of this device that a request serves. -/
def PktBody.sender : PktBody → Option Nat
  | .store st => some st.src.ctx
  | .load p _ _ _ _ => some p.ctx
  | .engineLoad ctx _ _ _ _ => some ctx
  | .groupLoad ctx _ _ _ => some ctx
  | .atomic ctx _ _ _ _ _ _ => some ctx
  | .note ctx _ _ _ => some ctx
  | _ => none

/-- The step by which an answer of another device that a port has opened takes effect (R393, R403). -/
def Response.step (dev : Nat) : Response → Instr
  | .ack ctx strm seq refused => .storeAck ctx strm dev seq refused
  | .reply ctx cmd r => .loadReply ctx dev cmd r
  | .closeReply ctx tag refused reasons => .batchCloseReply ctx tag dev refused reasons
  | .windowGrant ctx strm => .reorderWindowGrant ctx strm dev
  | .prepare p => .bundlePrepare p
  | .prepareAck ctx ident slice refused => .prepareAck ctx ident { dev := dev, slice := slice } refused
  | .final slice ident comps => .bundleFinal slice ident comps
  | .finalReply ctx slice a => .finalReply ctx dev slice a
  | .commit slice ident c => .bundleCommit slice ident c
  | .abort slice ident => .bundleAbort slice ident
  | .outcomeAck ident slice => .commitAck ident dev slice
  | .question ident t slice asker => .fateQuestion ident t slice asker
  | .fate slice ident a => .fateReply slice ident a

/-- Is a request one whose destination answers a refusal alone? -/
def PktBody.silent : PktBody → Bool
  | .note _ _ _ _ => true
  | .waitv _ _ _ _ _ => true
  | _ => false

end Sys2Proof

namespace Sys2Proof.Machine

open Sys2Proof.Bits

/-! ## Counters of the fabric -/

/-- Change every context: on a seat, saved, or ended. -/
def State.mapCtxs (s : State) (f : Ctx → Ctx) : State :=
  { s with
    cx := s.cx.map f,
    seats := s.seats.map fun (p : SeatId × Ctx) => (p.1, f p.2),
    saved := s.saved.map f,
    ended := s.ended.map f }

/-- LINKFAIL raised (R391, R393), saturating. -/
def State.linkFail (s : State) : State := s.dcbSetField intstat 32 16 (min 0xFFFF (s.dcbField intstat 32 16 + 1))

/-- Does a port open what was sealed under a generation (R393)?  In confidential mode, under the current or the previous one,
with a tag that verifies.
(DEDUCED, log entry 27.) -/
def State.authentic (s : State) (tenant keyGen : Nat) (tagOk : Bool) : Bool :=
  !s.confidential || (tagOk && s.opensGen tenant keyGen)

/-- Does the sweep of a kill still discard the packets of a tenant and launch entry (R374)? -/
def State.purging (s : State) (tenant : Nat) (lslot : Option Nat) : Bool :=
  s.control.purges.any fun d => !d.cores.isEmpty && d.covers tenant lslot

/-- A packet that the routers discard in the sweep (R373, R374). -/
def State.countPurged (s : State) (tenant : Nat) (lslot : Option Nat) : State :=
  { s with control := { s.control with purges := s.control.purges.map fun d =>
    if (!d.cores.isEmpty && d.covers tenant lslot : Bool) then { d with packets := d.packets + 1 } else d } }

/-! ## Stores from other devices (R89 to R96) -/

/-- Stores of this stream number perform as they arrive (R88, R90): the unordered stream, and engines' stores. -/
def unordered (strm : Nat) : Bool := strm == 0 || decide (16 ≤ strm)

/-- A refused store counted for its batch (R96, R98): a reason of R25 sets its bit. -/
def State.countRefused (s : State) (st : StreamStore) (code : Nat) : State :=
  if 4 ≤ st.batch then s
  else
    let mine (b : BatchCount) : Bool := b.dev == st.src.dev && b.ctx == st.src.ctx && b.tag == st.batch
    let old := (s.fabric.batches.find? mine).getD { dev := st.src.dev, ctx := st.src.ctx, tag := st.batch, refused := 0, reasons := 0 }
    let new := { old with
      refused := old.refused + 1,
      reasons := if code < 8 then old.reasons ||| BitVec.ofNat 8 (2 ^ code) else old.reasons }
    { s with fabric := { s.fabric with batches := new :: s.fabric.batches.filter fun b => !mine b } }

/-- The acknowledgement of a store (R90); a store already answered at the port carries batch 5. -/
def State.ackStore (s : State) (st : StreamStore) (refused : Option Nat) : State :=
  if st.batch = 5 then s
  else
    let s1 := match refused with
      | some code => s.countRefused st code
      | none => s
    s1.answer st.tenant (.ack st.src st.seq refused)

/-- A store of another device performed at this one (R64, R94, R116, R123, R139), or refused by a coherence point. -/
def State.performStore (s : State) (st : StreamStore) : State :=
  let offs := st.bytes.map (·.1)
  match s.heldWrite st.tenant offs, s.heldWrite st.tenant st.flag.toList with
  | .inr d, _ => s.ackStore st (some (denyCode d (s.firstDenied st.tenant true offs)))
  | _, .inr d => s.ackStore st (some (denyCode d (st.flag.getD 0)))
  | .inl held, .inl fheld =>
    let word := st.flag.any fun o => decide (o < s.hbmEnd)
    let hbm := held ++ if word then fheld else []
    let s0 := s.cacheOwners hbm
    if s0.touchesRecord hbm then s0.ackStore st (some (denyCode .record (s0.firstInRecord hbm)))
    else match st.bundle with
      | some (ident, comps) =>
        match s0.prepareAll ident comps st.src.dev st.src.ctx (held.zip (st.bytes.map (·.2))) with
        | (s1, none) => s1.ackStore st none
        | (s1, some (reason, slice)) =>
          (s1.ackStore st none).answer st.tenant (.prepareAck st.src.dev st.src.ctx ident slice (some reason))
      | none =>
        let s1 := s0.writeBytes (held.zip (st.bytes.map (·.2)))
        let s2 := match fheld with
          | x :: _ => s1.flagAt (!word) x st.len
          | [] => s1
        s2.ackStore st none

/-- The window of a stream source here (R88, R90); numbering starts at 0. -/
def State.windowOfSrc (s : State) (src : StreamSrc) : RWindow :=
  (s.fabric.windows.find? fun w => w.src == src).getD { src := src, next := 0, held := [], grants := 0 }

/-- Set a stream source's sequence state. -/
def State.setWindow (s : State) (w : RWindow) : State :=
  { s with fabric := { s.fabric with windows := w :: s.fabric.windows.filter fun x => x.src != w.src } }

/-- The stores that wait in a window and are next, performed in sequence (R89, R90). -/
def State.releaseStores (s : State) (src : StreamSrc) : Nat → State
  | 0 => s
  | fuel + 1 =>
    let w := s.windowOfSrc src
    match w.held.find? fun st => st.seq == w.next with
    | none => s
    | some st =>
      let s1 := s.setWindow { w with next := (w.next + 1) % 65536, held := w.held.filter fun x => x.seq != st.seq }
      (s1.performStore st).releaseStores src fuel

/-- The reply to a CLOSE (R97): the refused count and reasons, which are then cleared.  It is a packet of tenant field 0, as a window's
grant is.
(DESIGN CHOICE, log entry 92.) -/
def State.replyClose (s : State) (dev ctx tag : Nat) : State :=
  let mine (b : BatchCount) : Bool := b.dev == dev && b.ctx == ctx && b.tag == tag
  let b := (s.fabric.batches.find? mine).getD { dev := dev, ctx := ctx, tag := tag, refused := 0, reasons := 0 }
  let s1 : State := { s with fabric := { s.fabric with batches := s.fabric.batches.filter fun b => !mine b } }
  s1.answer 0 (.closeReply dev ctx tag b.refused b.reasons)

/-- Does a store of a batch still have to perform here: in a window, between the port and its line, or refused MOVING and tried again
(R32, R97)?  The peer answers for the stores that have arrived.
(DESIGN CHOICE, log entry 93.) -/
def State.batchWaits (s : State) (dev ctx tag : Nat) : Bool :=
  let mine (src : StreamSrc) (batch : Nat) : Bool := src.dev == dev && src.ctx == ctx && batch == tag
  s.fabric.windows.any (fun w => w.held.any fun st => mine st.src st.batch)
    || s.fabric.moved.any (fun m => mine m.1 m.2.2)
    || s.pend.any fun i => match i with
      | .streamStoreArrival st => mine st.src st.batch
      | _ => false

/-- The CLOSEs that wait are answered once their stores have performed (R97).
(DESIGN CHOICE, log entry 93.) -/
def State.answerCloses (s : State) : State :=
  let due := s.fabric.closes.filter fun x => !s.batchWaits x.1 x.2.1 x.2.2
  due.foldl (fun s x => s.replyClose x.1 x.2.1 x.2.2)
    { s with fabric := { s.fabric with closes := s.fabric.closes.filter fun x => !due.contains x } }

/-- Windows in use (R90). -/
def State.windowsUsed (s : State) : Nat := (s.fabric.windows.filter fun w => w.grants != 0).length

/-- A window granted to a stream source (R90), once more where an earlier one is on its way back.  A source asks when every store that it
has sent is answered, so the number that it names is the next expected, and nothing of it waits or is tried again.
(DESIGN CHOICE, log entry 92.) -/
def State.grantWindow (s : State) (src : StreamSrc) (next : Nat) : State :=
  let w := s.windowOfSrc src
  let s1 : State := { s with fabric := { s.fabric with moved := s.fabric.moved.filter fun m => m.1 != src } }
  (s1.setWindow { w with next := next, held := [], grants := w.grants + 1 }).answer 0 (.windowGrant src)

/-- The windows asked for, oldest first, granted as long as one is free (R90). -/
def State.grantAsks (s : State) : List (StreamSrc × Nat) → State
  | [] => { s with fabric := { s.fabric with asks := [] } }
  | a :: rest =>
    if s.windowsUsed < Config.reorderWindows then (s.grantWindow a.1 a.2).grantAsks rest
    else { s with fabric := { s.fabric with asks := a :: rest } }

/-- A source asks for a window (R90): it waits where all are in use.
(DEDUCED, log entry 81.) -/
def State.askWindow (s : State) (src : StreamSrc) (next : Nat) : State :=
  if (s.windowOfSrc src).grants ≠ 0 then s.grantWindow src next else s.grantAsks (s.fabric.asks ++ [(src, next)])

/-- A source gives a window back (R90, item 5).
(DEDUCED, log entry 81.) -/
def State.backWindow (s : State) (src : StreamSrc) : State :=
  let w := s.windowOfSrc src
  if 1 < w.grants then s.setWindow { w with grants := w.grants - 1 }
  else
    let s1 : State := { s with fabric := { s.fabric with windows := s.fabric.windows.filter fun x => x.src != src } }
    s1.grantAsks s1.fabric.asks

/-- Everything that sources hold here goes, and their stores are discarded without being performed (R92). -/
def State.freeSources (s : State) (mine : StreamSrc → Bool) : State :=
  let s1 : State := { s with
    pend := s.pend.filter fun i => match i with
      | .streamStoreArrival st => !mine st.src
      | _ => true,
    fabric := { s.fabric with
      windows := s.fabric.windows.filter fun w => !mine w.src,
      moved := s.fabric.moved.filter fun m => !mine m.1,
      batches := s.fabric.batches.filter fun b => !mine { dev := b.dev, ctx := b.ctx, strm := 0 },
      closes := s.fabric.closes.filter fun x => !mine { dev := x.1, ctx := x.2.1, strm := 0 } } }
  s1.grantAsks (s.fabric.asks.filter fun a => !mine a.1)

/-- STREAM_STORE_ARRIVAL (R89, R90): the next store performs with those that it releases; one that comes early waits in its
window of 64 entries; one whose turn has passed is dropped. -/
def execStreamStoreArrival (st : StreamStore) (s : State) : Result :=
  if s.deaf then .next s else
  if unordered st.src.strm then .next (s.performStore st).answerCloses
  else
    let w := s.windowOfSrc st.src
    if 64 ≤ (st.seq + 65536 - w.next) % 65536 then .next s.answerCloses
    else if st.seq = w.next then
      let s1 := s.setWindow { w with next := (w.next + 1) % 65536 }
      .next (((s1.performStore st).releaseStores st.src (w.held.length + 1)).answerCloses)
    else .next (s.setWindow { w with held := (w.held.filter fun x => x.seq != st.seq) ++ [st] })

/-- A window that no store of its source uses is given back (R90, item 5). -/
def State.giveBack (s : State) (c : Ctx) (w : StreamSeq) : State :=
  (s.packet c w.dev (.windowBack c.num w.strm)).updCtx c.num fun c => c.mapOrder fun o => o.setStream { w with window := false, asked := false }

/-- REORDER_WINDOW_GRANT (R90): another device grants a stream source of this one its window; where no store waits for it any more, it is
given back at once. -/
def execReorderWindowGrant (ctx strm dev : Nat) (s : State) : Result :=
  if s.deaf ∨ s.lost dev then .next s else
  match s.findAny ctx with
  | none => .next s
  | some c => match c.order.stream strm dev with
    | none => .next s
    | some w =>
      if w.window then .next (s.packet c dev (.windowBack ctx strm))
      else if w.asked ∧ c.stall = some .full ∧ s.hasSeat ctx then
        .next (s.updCtx ctx fun c => c.mapOrder fun o => o.setStream { w with window := true })
      else .next (s.giveBack c w).cleanEnded

/-- BATCH_CLOSE_ARRIVAL (R97). -/
def execBatchCloseArrival (dev ctx tag : Nat) (s : State) : Result :=
  if s.deaf then .next s else
  if s.batchWaits dev ctx tag then
    .next { s with fabric := { s.fabric with closes := s.fabric.closes ++ [(dev, ctx, tag)] } }
  else .next (s.replyClose dev ctx tag)

/-- BATCH_CLOSE_REPLY (R97, R98): a peer's reply to the first close of the tag that waits for it; the last one completes the
status. -/
def execBatchCloseReply (ctx tag dev refused : Nat) (reasons : BitVec 8) (s : State) : Result :=
  if s.deaf then .next s else
  match s.findCtx ctx with
  | none => .next s
  | some c => match indexOf (fun (k : Close) => k.tag == tag && k.waiting.contains dev) c.order.closes with
    | none => .next s
    | some i =>
      let s1 := s.updCtx ctx fun c => c.mapOrder fun o => match o.closes[i]? with
        | none => o
        | some k =>
          let k1 : Close := { k with
            waiting := k.waiting.filter (· != dev), refused := k.refused + refused, reasons := k.reasons ||| reasons,
            errpeers := k.errpeers + (if refused = 0 then 0 else 1) }
          { o with closes := setAt o.closes i k1 }
      .next (s1.completeCloses ctx (c.order.closes.length + 1))

/-! ## Requests that arrive (R32, R124) -/

/-- The span of a store's bytes. -/
def storeSpan (bytes : List (Nat × Byte)) : Nat × Nat :=
  match bytes with
  | [] => (0, 0)
  | b :: rest => rest.foldl (fun (a : Nat × Nat) x => (min a.1 x.1, max a.2 (x.1 + 1))) (b.1, b.1 + 1)

/-- The check of a range under a handle at the destination (R32): tenant 0 is not checked. -/
def State.checkArrival (s : State) (tenant : Nat) (h : BitVec 32) (off len : Nat) (k : Kind) : Option Nat :=
  if tenant = 0 then none else s.portCheck tenant h (2 ^ 45 * s.devNum + off) len k

/-- The check of a store from another device: its data, a zero-byte store at its base with length 0, then its flag (R32, R93, R100). -/
def State.checkStore (s : State) (st : StreamStore) : Option Nat :=
  let sp := if st.bytes.isEmpty then (st.off, st.off) else storeSpan st.bytes
  match s.checkArrival st.tenant st.handle sp.1 (sp.2 - sp.1) .write with
  | some r => some r
  | none => match st.flag with
    | none => none
    | some f => s.checkArrival st.tenant st.flagHandle f (if f < s.hbmEnd then 8 else 16) .write

/-- A store that its source tries no more, or that has been answered, is not waited for (R32, R97). -/
def State.forgetMoved (s : State) (st : StreamStore) : State :=
  { s with fabric := { s.fabric with moved := s.fabric.moved.filter fun m => !(m.1 == st.src && m.2.1 == st.seq) } }

/-- A refused store keeps its place in its stream: it comes to its turn with nothing to perform (R89, R90). -/
def State.passOver (s : State) (st : StreamStore) : State :=
  s.owe (.streamStoreArrival { st with bytes := [], flag := none, batch := 5, bundle := none })

/-- A store that arrives at the port (R32): a refusal is answered here; MOVING is tried again by its source. -/
def State.arriveStore (s : State) (st : StreamStore) : State :=
  let s0 := s.forgetMoved st
  match s0.checkStore st with
  | none => s0.owe (.streamStoreArrival st)
  | some r =>
    if r = 3 then
      ({ s0 with fabric := { s0.fabric with moved := s0.fabric.moved ++ [(st.src, st.seq, st.batch)] } } : State).answer st.tenant
        (.ack st.src st.seq (some 3))
    else (s0.ackStore st (some r)).passOver st

/-- A store that its source has tried until the link timeout (R32): refused with MOVING, counted in its batch (R96, R98), and passed over,
unless a later try has passed. -/
def State.abandonStore (s : State) (st : StreamStore) : State :=
  if s.fabric.moved.any fun m => m.1 == st.src && m.2.1 == st.seq then ((s.forgetMoved st).countRefused st 3).passOver st
  else s

/-- The offsets of some parts. -/
def partOffs (parts : List (Nat × Nat)) : List Nat := parts.flatMap fun x => (List.range x.2).map (x.1 + ·)

/-- The first part that fails its check. -/
def State.checkParts (s : State) (tenant : Nat) (h : BitVec 32) (parts : List (Nat × Nat)) : Option Nat :=
  parts.findSome? fun x => s.checkArrival tenant h x.1 x.2 .read

/-- The conflicts of a party's loads of some lines of this device, by their keys (R70, R72). -/
def State.loadConflicts (s : State) (p : Party) (lines : List Nat) : List (Nat × Party × Bool) :=
  lines.filterMap fun l => (s.verdict l p false).map fun v => (l % 2 ^ 45, v.1, v.2)

/-- A plain or acquire load from another device (R32, R53, R64, R65, R68 to R72): the conflicts of its lines come with its bytes, whole lines
for a cacheable load, and with the time of their reading, as this device counts records and writes; the detected one is recorded. -/
def State.serveLoad (s : State) (tenant : Nat) (p : Party) (h : BitVec 32) (parts : List (Nat × Nat)) (sync : Bool) (own : Option Word) :
    State :=
  let offs := partOffs parts
  let reply (s : State) (r : Reply) : State := s.answer tenant (.reply p.dev p.ctx none r)
  match s.checkParts tenant h parts with
  | some r => reply s (.refused r)
  | none => match s.heldAll tenant offs with
    | .inr d => reply s (.refused (denyCode d (s.firstDenied tenant false offs)))
    | .inl held =>
      let lines := s.raceLines tenant offs
      let s1 := if sync then s else lines.foldl (fun s l => s.recordRace l p false) s
      let hbm := offs.all fun o => decide (o < s.hbmEnd)
      let bytes := s.readBytes own (if !sync && hbm then lines.flatMap fun l => (List.range 64).map (l + ·) else held)
      reply (s1.cacheOwners held) (.data bytes 0 (s.loadConflicts p lines) s1.slices.serial)

/-- A read-cache hit of another device's seat checked as any request (R32), then judged and recorded at its line's home slice (R54, R70). -/
def State.serveHit (s : State) (tenant : Nat) (p : Party) (h : BitVec 32) (line filled : Nat) (parts : List (Nat × Nat)) : State :=
  let reply (s : State) (r : Reply) : State := s.answer tenant (.reply p.dev p.ctx (some (9, line)) r)
  match s.checkParts tenant h parts with
  | some r => reply s (.refused r)
  | none => match s.heldAll tenant (partOffs parts) with
    | .inr d => reply s (.refused (denyCode d (s.firstDenied tenant false (partOffs parts))))
    | .inl held =>
      let v := match s.verdict line p false with
        | some x => some x
        | none => s.lateWrite line filled p
      let s1 := (s.cacheOwners held).recordRace line p false
      reply s1 (.data [] 0 (v.map fun x => (line, x.1, x.2)).toList s1.slices.serial)

/-- The lines that a packet would record, by their keys (R73). -/
def State.detectedLines (s : State) (p : Packet) : List Nat := match p.body with
  | .load _ _ parts false _ => s.raceLines p.tenant (partOffs parts)
  | .hit _ _ line _ _ => [line]
  | _ => []

/-- An engine's read of this device from another (R32). -/
def State.serveEngine (s : State) (tenant dev ctx vq num : Nat) (h : BitVec 32) (parts : List (Nat × Nat)) : State :=
  let reply (s : State) (r : Reply) : State := s.answer tenant (.reply dev ctx (some (vq, num)) r)
  match s.checkParts tenant h parts with
  | some r => reply s (.refused r)
  | none => match s.heldAll tenant (partOffs parts) with
    | .inr d => reply s (.refused (denyCode d (s.firstDenied tenant false (partOffs parts))))
    | .inl held => reply (s.cacheOwners held) (.data (s.readBytes none held) 0 [] s.slices.serial)

/-- An atomic or reduction from another device (R32, R80, R81, R116, R139): this device's fabric port executes it, and takes an HBM line
for it. -/
def State.serveAtomic (s : State) (tenant dev ctx : Nat) (h : BitVec 32) (off : Nat) (op : AtomOp) (w : Nat) (b : Word)
    (ret : Bool) : State :=
  let refuse (s : State) (r : Nat) : State :=
    s.answer tenant (if ret then .reply dev ctx none (.refused r) else .ack { dev := dev, ctx := ctx, strm := 16 } 0 (some r))
  let offs := (List.range w).map (off + ·)
  match s.checkArrival tenant h off w (if ret then .readWrite else .write) with
  | some r => refuse s r
  | none => match s.heldWrite tenant offs with
    | .inr d => refuse s (denyCode d (s.firstDenied tenant true offs))
    | .inl held =>
      let s0 := (s.cacheOwners held).takeLine (some .port) off
      if s0.touchesRecord held then refuse s0 (denyCode .record off)
      else
        let r := s0.atomicAt op (held.headD off) w b.toNat
        r.1.answer tenant (if ret then .reply dev ctx none (.data (bytesOf w r.2.1) r.2.2 [] s0.slices.serial)
          else .ack { dev := dev, ctx := ctx, strm := 16 } 0 none)

/-- A wake of a record of this device that was parked on another device's word (R135, R150). -/
def State.wakeAbroad (s : State) (p idx cause : Nat) : State :=
  if s.sched.abroad.any fun a => a.2.1 == p && a.2.2 == idx then
    let s0 := s.checkedDone fun x => s.sched.abroad.any fun a => x.isWait a.1 p idx
    let s1 := { s0 with sched := { s.sched with abroad := s0.sched.abroad.filter fun a => !(a.2.1 == p && a.2.2 == idx) } }
    if s1.recLive p idx ∧ s1.recState p idx = 5 then s1.wakeRecord p idx cause else s1
  else s

/-- The link timeout in ns (R101). -/
def State.linkLimit (s : State) : Nat := 1000 * s.dcbField linkctl 0 14

/-- Do two packets carry one request? -/
def samePacket (a b : Packet) : Bool := a.dst == b.dst && a.body == b.body

/-- A request refused MOVING is tried again until the link timeout, measured from its first sending (R32). -/
def State.mayRetry (s : State) (p : Packet) : Bool := decide (s.time < p.time + s.linkLimit)

/-- Note a request for a retry. -/
def State.noteRetry (s : State) (p : Packet) : State :=
  if s.fabric.retries.any fun r => samePacket r.packet p then s
  else { s with fabric := { s.fabric with retries := s.fabric.retries ++ [{ packet := p, since := p.time }] } }

/-- A request that is answered is tried no more. -/
def State.dropRetry (s : State) (p : Packet) : State :=
  { s with fabric := { s.fabric with retries := s.fabric.retries.filter fun r => !samePacket r.packet p } }

/-- The packet of a WAITV or NOTE that this device sent, latest first. -/
def State.sentWord (s : State) (dev : Nat) (isIt : PktBody → Bool) : Option Packet :=
  s.sent.findSome? fun x => match x with
    | .packet p => if p.dst = dev ∧ isIt p.body then some p else none
    | _ => none

/-- A WAITV that its word's device refuses (R32, R34, R253): MOVING is tried again; else the record is FAULTED, with a report. -/
def State.waitRefused (s : State) (dev p idx code : Nat) : State :=
  if !s.sched.abroad.contains (dev, p, idx) then s
  else
    let isIt (b : PktBody) : Bool := match b with
      | .waitv p' i' _ _ _ => p' == p && i' == idx
      | _ => false
    match s.sentWord dev isIt with
    | none => s
    | some pk =>
      if code = 3 ∧ s.mayRetry pk then s.noteRetry pk
      else
        let s0 := (s.dropRetry pk).checkedDone fun x => x.isWait dev p idx
        let s1 : State := { s0 with sched := { s0.sched with abroad := s0.sched.abroad.filter (· != (dev, p, idx)) } }
        let ga := s.recGet p idx 384 64
        s1.faultRecord p idx (match denyOf code with
          | some d => denyFault (s.partTenant p) ga 0 0 d
          | none => { code := 19, sub := 2, val := BitVec.ofNat 64 ga, aux1 := dev, aux2 := code, pc := 0, detail := 0 })

/-- Is a packet's body the NOTE of a context on a word? -/
def isNote (ctx off : Nat) (b : PktBody) : Bool := match b with
  | .note n _ o _ => n == ctx && o == off
  | _ => false

/-- A NOTE that has been made at its word's device (R23). -/
def State.noteMade (s : State) (ctx dev off : Nat) : State :=
  let s1 := s.checkedDone fun x => x.isNote dev ctx off
  match s1.sentWord dev (isNote ctx off) with
  | some pk => s1.dropRetry pk
  | none => s1

/-- A NOTE that its word's device refuses (R32, R34, R253): MOVING is tried again; else the imprecise fault.
(DEDUCED, log entry 82.) -/
def State.noteRefused (s : State) (ctx dev off code : Nat) : State :=
  match s.sentWord dev (isNote ctx off), s.sched.checked.find? fun y => y.2.isNote dev ctx off with
  | some pk, some (_, .note _ _ _ pc born) =>
    let ga := 2 ^ 45 * dev + off
    if code = 3 ∧ s.mayRetry pk then s.noteRetry pk
    else (s.noteMade ctx dev off).imprecise ctx (match denyOf code with
      | some d => denyFault pk.tenant ga 0 pc d
      | none => { code := 19, sub := 2, val := BitVec.ofNat 64 ga, aux1 := dev, aux2 := code, pc := pc, detail := 0 }) (born + 1)
  | _, _ => s

/-- A check of a NOTE or WAITV of another device at this one (R32, R34, R253): the word is read under the handle. -/
def State.checkWord (s : State) (tenant : Nat) (h : BitVec 32) (off : Nat) : Option Nat :=
  match s.checkArrival tenant h off 8 .read with
  | some r => some r
  | none => match s.heldAll tenant [off] with
    | .inr d => some (denyCode d off)
    | .inl _ => none

/-- The sequence state of every stream between this device and another begins at 0 (R406). -/
def State.resetStreams (s : State) (dev : Nat) : State :=
  (s.mapCtxs fun c => c.mapOrder fun o => { o with streams := o.streams.filter fun x => x.dev != dev }).freeSources fun x => x.dev == dev

/-- The answer to a request that the sweep of a kill has discarded: it counts as performed without effect (R374).
(DEDUCED, log entry 21.) -/
def State.purgedReply (s : State) (p : Packet) : State := match p.body with
  | .store st => s.answer p.tenant (.ack st.src st.seq none)
  | .load q _ parts _ _ => s.answer p.tenant (.reply q.dev q.ctx none (.data (List.replicate (partOffs parts).length 0) 0 [] 0))
  | .hit q _ line _ _ => s.answer p.tenant (.reply q.dev q.ctx (some (9, line)) (.data [] 0 [] 0))
  | .engineLoad ctx vq num _ parts =>
    s.answer p.tenant (.reply p.src ctx (some (vq, num)) (.data (List.replicate (partOffs parts).length 0) 0 [] 0))
  | .groupLoad ctx _ parts _ =>
    s.answer p.tenant (.reply p.src ctx (some (10, (parts.headD (0, 0)).1)) (.group (List.replicate (partOffs parts).length 0) none []))
  | .atomic ctx _ _ _ w _ true => s.answer p.tenant (.reply p.src ctx none (.data (List.replicate w 0) 0 [] 0))
  | .atomic ctx _ _ _ _ _ false => s.answer p.tenant (.ack { dev := p.src, ctx := ctx, strm := 16 } 0 none)
  | .message net _ _ ctx seq _ => s.answer p.tenant (.ack { dev := p.src, ctx := ctx, strm := 32 + netAt net } seq none)
  | _ => s

/-- FABRIC_REQUEST_ARRIVAL (R32, R393): a packet for this device is authenticated, checked, and served; one for another device
is forwarded.
(DEDUCED, log entry 82.) -/
def execFabricRequestArrival (p : Packet) (s : State) : Result :=
  if s.deaf then .next s else
  if p.dst ≠ s.devNum then .next (s.owe (.fabricForward p))
  else if !s.authentic p.tenant p.keyGen p.tagOk then .next s.linkFail
  else if s.purging p.tenant none then .next ((s.countPurged p.tenant none).purgedReply p)
  else match s.crowded (s.detectedLines p) with
  | some q => .next ((s.askSplit q).owe (.fabricRequestArrival p))
  | none => .next <| match p.body with
    | .store st => s.arriveStore { st with tenant := p.tenant }
    | .abandon st => s.abandonStore st
    | .load q h parts sync own => s.serveLoad p.tenant q h parts sync own
    | .hit q h line filled parts => s.serveHit p.tenant q h line filled parts
    | .engineLoad ctx vq num h parts => s.serveEngine p.tenant p.src ctx vq num h parts
    | .regionEnd ctx => s.clearParties fun q => q.dev == p.src && q.ctx == ctx
    | .split ctx => s.owe (.splitRequest ctx)
    | .groupLoad ctx h parts t =>
      let refuse (r : Nat) : State := s.answer p.tenant (.reply p.src ctx (some (10, (parts.headD (0, 0)).1)) (.refused r))
      match s.checkParts p.tenant h parts with
      | some r => refuse r
      | none => match s.heldAll p.tenant (partOffs parts) with
        | .inr d => refuse (denyCode d (s.firstDenied p.tenant false (partOffs parts)))
        | .inl held => (s.cacheOwners held).owe (.groupLoadServe p.src ctx h parts { t with tenant := p.tenant })
    | .atomic ctx h off op w b ret => s.serveAtomic p.tenant p.src ctx h off op w b ret
    | .note ctx h off all => match s.checkWord p.tenant h off with
      | some r => s.answer p.tenant (.ack { dev := p.src, ctx := ctx, strm := 26 } off (some r))
      | none => (s.noteAt off all).answer p.tenant (.ack { dev := p.src, ctx := ctx, strm := 26 } off none)
    | .waitv part rec' h off val => match s.checkWord p.tenant h off with
      | some r => s.packet0 p.src (.wake part rec' (16 + r))
      | none => (s.enqueueWait p.src part rec' off val).answer p.tenant (.ack { dev := p.src, ctx := rec', strm := 64 + part } 0 none)
    | .windowAsk ctx strm next => s.askWindow { dev := p.src, ctx := ctx, strm := strm } next
    | .windowBack ctx strm => s.backWindow { dev := p.src, ctx := ctx, strm := strm }
    | .windowsFree ctx => s.freeSources fun x => x.dev == p.src && x.ctx == ctx
    | .batchesEnd ctx => { s with fabric := { s.fabric with batches := s.fabric.batches.filter fun b => !(b.dev == p.src && b.ctx == ctx) } }
    | .readmit => s.resetStreams p.src
    | .response r => s.owe (r.step p.src)
    | .wake part rec' cause => if cause < 16 then s.wakeAbroad part rec' cause else s.waitRefused p.src part rec' (cause - 16)
    | .close ctx tag => s.owe (.batchCloseArrival p.src ctx tag)
    | .message net core part ctx seq data =>
      let m : Msg :=
        { net := net, core := core, word := BitVec.ofNat 64 (core + 2 ^ 12 * s.devNum), part := part, tenant := p.tenant, lslot := none,
          cls := p.cls, dev := p.src, ctx := ctx, pc := 0, born := 0, seq := seq, data := data }
      ({ s with fabric := { s.fabric with msgs := s.fabric.msgs ++ [m] } } : State).owe (.messageLand net core)

/-- Packets in transit that wait for one of some ports, of class 0 or of another class (R388, R403). -/
def State.inTransit (s : State) (ports : List Nat) (zero : Bool) : Bool := s.pend.any fun i => match i with
  | .fabricForward q => (q.cls == 0) == zero && (s.routePorts q.dst).any fun p => ports.contains p
  | _ => false

/-- Does a packet in transit let one of the other kind go first at a port (R388, R403)?  Class 0 goes first, but for one other packet after
15.
(DESIGN CHOICE, log entry 94.) -/
def State.letsPass (s : State) (port cls : Nat) : Bool :=
  let run := (look s.fabric.zeros port).getD 0
  if cls = 0 then decide (15 ≤ run) && s.inTransit [port] false else decide (run < 15) && s.inTransit [port] true

/-- FABRIC_FORWARD (R388, R403, R404): on to the next hop, or discarded and counted.  Of two ports that are valid and up the one with more
free credit is taken: a free value.
(DESIGN CHOICE, log entry 94.) -/
def execFabricForward (p : Packet) (s : State) : Result :=
  if s.deaf then .next s else
  if p.dst = s.devNum ∨ 2048 ≤ p.dst then .next s
  else if 3 < s.dcbField (routeReg p.dst) 12 3 + p.hop then
    .next (s.dcbSetField devstat 17 16 (min 0xFFFF (s.dcbField devstat 17 16 + 1)))
  else
    let ports := s.routePorts p.dst
    let s0 : State := if 1 < ports.length then { s with fresh := s.fresh + 1 } else s
    match if (Config.freeValue s.fresh).toNat % 2 = 1 then (ports.drop 1).head?.or ports.head? else ports.head? with
    | none => .next s
    | some port =>
      if s.letsPass port p.cls then .next (s.owe (.fabricForward p))
      else
        let run := if p.cls = 0 ∧ s.inTransit [port] false then (look s.fabric.zeros port).getD 0 + 1 else 0
        .next (({ s0 with fabric := { s0.fabric with zeros := if run = 0 then drop s0.fabric.zeros port else put s0.fabric.zeros port run } } :
          State).send (.forwarded port { p with hop := p.hop + 1 }))

/-! ## Answers that come back (R14, R32, R64, R90, R264) -/

/-- The packet of a store that this device sent, latest first. -/
def State.sentStore (s : State) (ctx strm dev seq : Nat) : Option (Packet × StreamStore) :=
  s.sent.findSome? fun x => match x with
    | .packet p => match p.body with
      | .store st => if p.dst = dev ∧ st.src.ctx = ctx ∧ st.src.strm = strm ∧ st.seq = seq then some (p, st) else none
      | _ => none
    | _ => none

/-- The packet of a load or atomic that this device sent and that awaits a reply, latest first: 9 with a line names a read-cache hit, 10 with
the first offset a group load, an engine queue and a command number an engine's read. -/
def State.sentLoad (s : State) (ctx dev : Nat) (cmd : Option (Nat × Nat)) : Option Packet :=
  s.sent.findSome? fun x => match x with
    | .packet p => match p.body, cmd with
      | .load q _ _ _ _, none => if p.dst = dev ∧ q.ctx = ctx then some p else none
      | .groupLoad n _ parts _, some k => if p.dst = dev ∧ n = ctx ∧ k = (10, (parts.headD (0, 0)).1) then some p else none
      | .atomic n _ _ _ _ _ true, none => if p.dst = dev ∧ n = ctx then some p else none
      | .hit q _ line _ _, some k => if p.dst = dev ∧ q.ctx = ctx ∧ k = (9, line) then some p else none
      | .engineLoad n vq num _ _, some k => if p.dst = dev ∧ n = ctx ∧ vq = k.1 ∧ num = k.2 then some p else none
      | _, _ => none
    | _ => none

/-- The packet of a reduction that this device sent, latest first. -/
def State.sentReduction (s : State) (ctx dev : Nat) : Option Packet :=
  s.sent.findSome? fun x => match x with
    | .packet p => match p.body with
      | .atomic n _ _ _ _ _ false => if p.dst = dev ∧ n = ctx then some p else none
      | _ => none
    | _ => none

/-- A refused store's fault on its issuer (R32, R35, R139, R359): its cause is the store's own instruction. -/
def State.storeFault (s : State) (ctx : Nat) (x : Out) (st : StreamStore) (dev code : Nat) : State :=
  match denyOf code with
  | some d => s.imprecise ctx (denyFault st.tenant (2 ^ 45 * dev + denyOff code) 0 x.pc d) (x.born + 1)
  | none => s.imprecise ctx
      { code := 18, sub := code, val := BitVec.ofNat 64 (2 ^ 45 * dev + st.off), aux1 := st.handle.toNat, aux2 := 8 + 16 * (st.batch % 4),
        pc := x.pc, detail := 0 } (x.born + 1)

/-- A window whose source has no unacknowledged store is given back (R90, item 5). -/
def State.returnWindow (s : State) (c : Ctx) (strm dev : Nat) : State :=
  match c.order.stream strm dev with
  | none => s
  | some w =>
    if !w.window ∨ c.order.outs.any fun x => x.kind == .store && x.strm == strm && x.dev == dev then s else s.giveBack c w

/-- An access of a context to another device has performed, or has been refused, there: its bytes go from the cache of the
context's core, which another seat may have filled since (R65), and the closes that wait for it go on (R115). -/
def State.answeredAway (s : State) (c : Ctx) (dev : Nat) (bytes : List Nat) : State :=
  (s.dropLines c.seatAt.core dev (linesOf bytes)).runCloses.cleanEnded

/-- The outstanding access of a context that an answer is about. -/
def State.outOf (s : State) (ctx strm dev seq : Nat) : Option Out :=
  (s.findAny ctx).bind fun c => c.order.outs.find? fun x => x.dev == dev && x.strm == strm && x.seq == seq

/-- A seat's store answered (R32, R65, R90, R92). -/
def State.storeAnswered (s : State) (ctx strm dev seq : Nat) (refused : Option Nat) : State :=
  let s1 := s.updCtx ctx fun c => c.performed strm dev seq
  match s1.findAny ctx, s1.sentStore ctx strm dev seq with
  | some c, some (p, st) =>
    let s2 := (s1.dropRetry p).returnWindow c strm dev
    let s3 := match refused, s.outOf ctx strm dev seq with
      | some code, some x => s2.storeFault ctx x st dev code
      | _, _ => s2
    s3.answeredAway c dev (st.bytes.map (·.1) ++ st.flag.toList)
  | _, _ => s1.cleanEnded

/-- An answer of a device to an engine command's request has come (R102). -/
def Cmd.answered (k : Cmd) (dev : Nat) : Cmd := { k with times := dropFirst (fun x => x.1 == dev) k.times }

/-- An engine's landing on another device answered (R31, R32, R35, R90, R418): the fault of a refused one names the landing's own GA, and a
refusal at the destination marks it as a store. -/
def State.landingAnswered (s : State) (ctx qi seq dev : Nat) (refused : Option Nat) : State :=
  let num := seq / 128
  let sent := s.sentStore ctx (engineStrm qi) dev seq
  let s00 := match sent with
    | some (p, _) => s.dropRetry p
    | none => s
  let s0 := s00.mapCmd ctx qi num fun k => k.answered dev
  let ga := match sent with
    | some (p, st) => 2 ^ 45 * p.dst + st.off
    | none => 0
  match refused with
  | none => (s0.chargeCtx ctx (portPj (seq % 128))).landed ctx qi num (seq % 128)
  | some code =>
    let s1 := s0.mapCmd ctx qi num fun k => { k with acks := k.acks - 1 }
    match (s1.findAny ctx).bind fun c => ((c.vq qi).cmd num).map fun k => (c, k) with
    | none => s1
    | some (c, k) => match denyOf code with
      | some d => s1.breachCmd c qi k d (2 ^ 45 * dev + denyOff code)
      | none => s1.faultCmd c qi k (landFault qi k code ga)

/-- A message answered by another device (R340, R341). -/
def State.messageAnswered (s : State) (ctx strm seq : Nat) (dropped : Option Nat) : State :=
  match (s.findCtx ctx).bind fun c => ((c.sendq[strm - 32]?).getD []).find? fun m => m.seq == seq with
  | none => s
  | some m => s.answerMsg m dropped

/-- A reduction answered (R32, R35, R76, R266): one that acquires does so now. -/
def State.reductionAnswered (s : State) (ctx dev : Nat) (refused : Option Nat) : State :=
  match s.findAny ctx with
  | none => s
  | some c =>
    let out := c.order.outs.find? fun x => x.dev == dev && x.strm == 16
    let bytes := match out with
      | some x => x.bytes
      | none => []
    let ga := 2 ^ 45 * dev + bytes.headD 0
    let s1 := s.updCtx ctx fun c => c.performed 16 dev 0
    let s2 := if (out.map (·.acq)) = some true then s1.flushReads c.seatAt.core else s1
    let s3 := match refused, out with
      | some code, some x => s2.imprecise ctx (match denyOf code with
          | some d => denyFault c.tenant (2 ^ 45 * dev + denyOff code) 0 x.pc d
          | none => { code := 19, sub := 2, val := BitVec.ofNat 64 ga, aux1 := dev, aux2 := code, pc := x.pc, detail := 0 }) (x.born + 1)
      | _, _ => s2
    s3.answeredAway c dev bytes

/-- A store that is tried no more (R32): its destination is told so, and passes it over, and its source takes it as refused with MOVING. -/
def State.giveUpStore (s : State) (p : Packet) (st : StreamStore) : State :=
  let s1 := s.send (.packet { p with body := .abandon st })
  if st.src.strm < 16 then s1.storeAnswered st.src.ctx st.src.strm p.dst st.seq (some 3)
  else s1.landingAnswered st.src.ctx (st.src.strm - 17) st.seq p.dst (some 3)

/-- STORE_ACK (R32, R83, R90): an acknowledgement or a refusal reaches the issuing context. -/
def execStoreAck (ctx strm dev seq : Nat) (refused : Option Nat) (s : State) : Result :=
  if s.deaf then .next s else
  if s.lost dev then .next s
  else if refused = some 3 ∧ strm = 16 then
    match s.sentReduction ctx dev with
    | some p => if s.mayRetry p then .next (s.noteRetry p) else .next ((s.dropRetry p).reductionAnswered ctx dev refused)
    | none => .next (s.reductionAnswered ctx dev refused)
  else if refused = some 3 ∧ strm < 25 then
    match s.sentStore ctx strm dev seq with
    | some (p, st) => .next (if s.mayRetry p then s.noteRetry p else s.giveUpStore p st)
    | none => .next s
  else if strm < 16 then .next (s.storeAnswered ctx strm dev seq refused)
  else if strm = 16 then .next (s.reductionAnswered ctx dev refused)
  else if strm < 25 then .next (s.landingAnswered ctx (strm - 17) seq dev refused)
  else if strm = 26 then .next (match refused with
    | some code => s.noteRefused ctx dev seq code
    | none => s.noteMade ctx dev seq)
  else if 64 ≤ strm then .next (s.checkedDone fun x => x.isWait dev (strm - 64) ctx)
  else .next (s.messageAnswered ctx strm seq refused)

/-- Does an access await a reply of a device, of the group load at an offset or of another access? -/
def Await.expects (w : Await) (dev : Nat) (group : Option Nat) : Bool :=
  w.dev == dev && w.reply.isNone && match group with
    | some key => w.group && w.key == key
    | none => !w.group

/-- A reply recorded for the first access of a context that awaits it from a device (R14, R120): an access of an abandoned
yield handler forgets its own. -/
def answerAwait (dev : Nat) (group : Option Nat) (r : Reply) : List Await → List Await
  | [] => []
  | w :: rest =>
    if w.expects dev group then
      if w.pc = BitVec.allOnes 32 then rest else { w with reply := some r } :: rest
    else w :: answerAwait dev group r rest

/-- The conflicts that a reply brings, as the region counts them (R71). -/
def replyConflicts (r : Reply) (dev : Nat) : List Conflict := match r with
  | .data _ _ xs _ => xs.map fun x => { line := 2 ^ 45 * dev + x.1, mine := false, party := x.2.1, other := x.2.2 }
  | _ => []

/-- The verdict on a read-cache hit, or on an abandoned load, has come from its home slice (R67, R70, R71). -/
def Ctx.verdictCame (c : Ctx) (dev seq : Nat) (r : Reply) : Ctx :=
  (c.performed 64 dev seq).mapOrder fun o => (replyConflicts r dev).foldl Order.addConflict o

/-- The reply of an access taken in (R64, R67, R120, R264, R358). -/
def State.replyCame (s : State) (ctx dev : Nat) (group : Option Nat) (r : Reply) : State :=
  let dropped := match (s.findCtx ctx).bind fun c => c.order.awaits.find? fun w => w.expects dev group with
    | some w => w.pc == BitVec.allOnes 32 && !w.gas.isEmpty
    | none => false
  let s1 := s.updCtx ctx fun c => c.mapOrder fun o => { o with awaits := answerAwait dev group r o.awaits }
  let s2 := if dropped then s1.updCtx ctx fun c => c.verdictCame dev droppedSeq r else s1
  match s2.findCtx ctx with
  | some c => if c.fault.isSome then s2.owe (.impreciseFaultDelivery ctx) else s2
  | none => s2

/-- The reply of an engine's read taken in (R31, R32, R35): a breach names the GA that was read. -/
def State.engineReply (s : State) (ctx : Nat) (k : Nat × Nat) (p : Packet) (r : Reply) : State :=
  match (s.findAny ctx).bind fun c => ((c.vq k.1).cmd k.2).map fun x => (c, x) with
  | none => s
  | some (c, x) =>
    if !x.asked then s
    else
      let deny := match r with
        | .refused code => denyOf code
        | _ => none
      let s0 := s.mapCmd ctx k.1 k.2 fun x => x.answered p.dst
      let code := match r with
        | .refused code => code
        | _ => 0
      match deny with
      | some d => (s0.mapCmd ctx k.1 k.2 fun x => { x with asked := false }).breachCmd c k.1 { x with asked := false } d
          (2 ^ 45 * p.dst + denyOff code)
      | none =>
        let off := (p.body.readParts.headD (0, 0)).1
        if k.1 < 4 then s0.copyReply c k.1 x p.dst off r else s0.collReply c k.1 x p.dst off r

/-- The verdict on a read-cache hit has come, or its refusal (R32, R67, R70, R71). -/
def State.hitAnswered (s : State) (ctx dev line : Nat) (r : Reply) : State :=
  let s1 := s.updCtx ctx fun c => c.verdictCame dev line r
  (match r, s.outOf ctx 64 dev line, s.findCtx ctx with
    | .refused code, some x, some c => s1.imprecise ctx (match denyOf code with
        | some d => denyFault c.tenant (2 ^ 45 * dev + denyOff code) 0 x.pc d
        | none => { code := 19, sub := 2, val := BitVec.ofNat 64 (2 ^ 45 * dev + line), aux1 := dev, aux2 := code, pc := x.pc, detail := 0 })
          (x.born + 1)
    | _, _, _ => s1).cleanEnded

/-- LOAD_REPLY (R14, R32, R64, R264): a reply reaches the seat or the engine that asked; one refused MOVING is tried again. -/
def execLoadReply (ctx dev : Nat) (cmd : Option (Nat × Nat)) (r : Reply) (s : State) : Result :=
  if s.deaf then .next s else
  let p := s.sentLoad ctx dev cmd
  let retry := match r, p with
    | .refused 3, some p => s.mayRetry p
    | _, _ => false
  let answer (s : State) (p : Packet) : State := match cmd with
    | none => s.replyCame ctx dev none r
    | some k => if k.1 = 9 then s.hitAnswered ctx dev k.2 r else if k.1 = 10 then s.replyCame ctx dev (some k.2) r else s.engineReply ctx k p r
  if s.lost dev then .next s
  else match p with
    | none => .next s
    | some p => if retry then .next (s.noteRetry p) else .next (answer (s.dropRetry p) p)

/-- REMOTE_MOVING_RETRY (R32): every 1 µs the source port sends a refused request again, until the link timeout; then it is
refused with MOVING, and a store's destination counts it. -/
def execRemoteMovingRetry (k : Nat) (s : State) : Result :=
  match s.fabric.retries[k]? with
  | none => .next s
  | some r =>
    let p := r.packet
    if s.mayRetry p then .next ((if p.body.silent then s.dropRetry p else s).send (.packet p))
    else
      let s1 := s.dropRetry p
      .next <| match p.body with
        | .store st => s1.giveUpStore p st
        | .load q _ _ _ _ => s1.replyCame q.ctx p.dst none (.refused 3)
        | .hit q _ line _ _ => s1.hitAnswered q.ctx p.dst line (.refused 3)
        | .groupLoad n _ parts _ => s1.replyCame n p.dst (some (parts.headD (0, 0)).1) (.refused 3)
        | .atomic n _ _ _ _ _ true => s1.replyCame n p.dst none (.refused 3)
        | .atomic n _ _ _ _ _ false => s1.reductionAnswered n p.dst (some 3)
        | .engineLoad n vq num _ _ => s1.engineReply n (vq, num) p (.refused 3)
        | .note n _ off _ => s1.noteRefused n p.dst off 3
        | .waitv part rec' _ _ _ => s1.waitRefused p.dst part rec' 3
        | _ => s1

/-- SPLIT_REQUEST (R73): a full coherence point asks the context of its oldest record to split its region, at its next instruction
boundary and once every verdict has come. -/
def execSplitRequest (ctx : Nat) (s : State) : Result :=
  if s.deaf then .next s else
  match s.findCtx ctx with
  | none => .next s
  | some c =>
    if c.finishing ∨ !(s.hitsOut c).isEmpty then .next (s.owe (.splitRequest ctx))
    else match c.order.conflict with
      | some x => .next (s.modelFault c x c.order.more)
      | none => .next (s.clearRegionOf c)

end Sys2Proof.Machine
end

