-- ==== Sys2Proof/Machine/Protocol.lean ====
section
/-! DEFINITION. The messages of the bundle protocol: prepares, FINAL, DECIDE, COMMIT and ABORT with their answers, fate
questions, orphans, and the group loads of other devices (R106, R110 to R123, R352, R353). -/

namespace Sys2Proof.Machine

open Sys2Proof.Bits

/-- The context whose open bundle has an identity: on a seat, saved or ended. -/
def State.bundleCtx (s : State) (ident : Word) : Option Ctx :=
  (s.allCtx ++ s.ended).find? fun c => match c.order.bundle with
    | some b => b.ident == ident
    | none => false

/-- The bundle of a context, and the context. -/
def State.bundleOf (s : State) (n : Nat) : Option (Ctx × Bundle) :=
  match s.findAny n with
  | none => none
  | some c => c.order.bundle.map fun b => (c, b)

/-- What waits for a fate runs again: the group loads that a slice has in hand (R118, R121). -/
def State.serveAgain (s : State) : State :=
  s.slices.serving.foldl (fun s x =>
    let i : Instr := .groupLoadServe x.dev x.ctx x.hdl x.parts x.t
    if s.pend.contains i then s else s.owe i) s

/-- The bundle of an ended context is forgotten once it is settled (R115). -/
def State.dropSettled (s : State) : State :=
  ({ s with ended := s.ended.map fun c => match c.order.bundle with
      | some b => if b.outcome.isSome then c.mapOrder fun o => { o with bundle := none } else c
      | none => c } : State).cleanEnded

/-! ## Prepares (R110, R123, R124) -/

/-- BUNDLE_PREPARE (R110): another device's prepare reaches its home slices here; its answer goes back. -/
def execBundlePrepare (p : Prepare) (s : State) : Result :=
  if s.deaf then .next s else
  match s.heldWrite p.tenant (p.bytes.map (·.1)) with
  | .inr _ => .next s
  | .inl held =>
    if identDev p.ident = s.devNum ∨ s.touchesRecord held then .next s
    else match s.prepareAll p.ident p.comps (identDev p.ident) p.ctx (held.zip (p.bytes.map (·.2))) with
      | (s1, none) => .next (s1.answer p.tenant (.prepareAck (identDev p.ident) p.ctx p.ident (homeSlice (held.headD 0)) none))
      | (s1, some (reason, slice)) => .next (s1.answer p.tenant (.prepareAck (identDev p.ident) p.ctx p.ident slice (some reason)))

/-- PREPARE_ACK (R110, R123): a refusal dooms the bundle that it names. -/
def execPrepareAck (ctx : Nat) (ident : Word) (comp : Comp) (refused : Option Nat) (s : State) : Result :=
  if s.deaf then .next s else
  match refused, s.bundleOf ctx with
  | some reason, some (c, b) =>
    if b.ident = ident then .next (s.doomOpen c reason (some comp)) else .next s
  | _, _ => .next s

/-! ## FINAL, DECIDE, COMMIT, ABORT (R106, R112, R122) -/

/-- BUNDLE_FINAL (R112, R121): a companion's slice answers with its greatest time or with a reason. -/
def execBundleFinal (slice : Nat) (ident : Word) (comps : List Comp) (s : State) : Result :=
  if s.deaf then .next s else
  let r := s.finalAt slice ident comps
  if identDev ident = s.devNum then
    match r.1.bundleCtx ident with
    | some c => .next (r.1.owe (.finalReply c.num s.devNum slice r.2))
    | none => .next r.1
  else .next (r.1.answer 0 (.finalReply (identDev ident) ident slice r.2))

/-- FINAL_REPLY (R112, R114): the last OK sends DECIDE; a NO aborts with its reason. -/
def execFinalReply (ctx dev slice : Nat) (ans : FinalAns) (s : State) : Result :=
  if s.deaf then .next s else
  let comp : Comp := { dev := dev, slice := slice }
  match s.bundleOf ctx with
  | none => .next s
  | some (_, b) =>
    if b.stage ≠ .final ∨ !b.waiting.contains comp then .next s
    else match ans with
      | .no reason => .next (s.abortClose ctx b reason comp)
      | .ok m =>
        let rest := b.waiting.filter (· != comp)
        let top := max b.mmax m
        if rest.isEmpty then
          .next ((s.mapBundle ctx fun b => { b with waiting := [], mmax := top, stage := .deciding }).owe (.bundleDecide b.ident top))
        else .next (s.mapBundle ctx fun b => { b with waiting := rest, mmax := top })

/-- BUNDLE_DECIDE (R112): the commit point, then COMMIT to every companion. -/
def execBundleDecide (ident : Word) (m : Nat) (s : State) : Result :=
  if s.deaf then .next s else
  match s.bundleCtx ident with
  | none => .next s
  | some c => match c.order.bundle with
    | none => .next s
    | some b =>
      if b.stage ≠ .deciding then .next s
      else match s.commitPoint ident m with
        | (_, none) => .next s
        | (s1, some stamp) =>
          let s2 := s1.mapBrec ident fun r => { r with waiting := b.comps, since := s.time }
          let s3 := s2.mapBundle c.num fun b =>
            { b with stage := .committing, stamp := some stamp, waiting := b.comps, since := s.time }
          .next (b.comps.foldl (fun s x => s.tell x (.bundleCommit x.slice ident stamp) (.commit x ident stamp)) s3)

/-- A companion's acknowledgement of an outcome. -/
def State.ackOutcome (s : State) (slice : Nat) (ident : Word) : State :=
  if identDev ident = s.devNum then s.owe (.commitAck ident s.devNum slice) else s.answer 0 (.outcomeAck (identDev ident) ident slice)

/-- BUNDLE_COMMIT (R111, R112, R352): a companion installs, and acknowledges. -/
def execBundleCommit (slice : Nat) (ident : Word) (c : Stamp) (s : State) : Result :=
  if s.deaf then .next s else
  .next (((s.installAt slice ident c).ackOutcome slice ident).serveAgain)

/-- BUNDLE_ABORT (R111, R112, R352): a companion discards, and acknowledges. -/
def execBundleAbort (slice : Nat) (ident : Word) (s : State) : Result :=
  if s.deaf then .next s else
  .next (((s.abortAt slice ident).ackOutcome slice ident).serveAgain)

/-- A companion no longer waited for in a commit (R112). -/
def State.commitStep (s : State) (ident : Word) (comp : Comp) : State :=
  match s.bundleCtx ident with
  | none => s
  | some c => match c.order.bundle with
    | none => s
    | some b =>
      if b.stage ≠ .committing ∨ !b.waiting.contains comp then s
      else
        let b1 : Bundle := { b with waiting := b.waiting.filter (· != comp) }
        let s1 := s.mapBundle c.num fun _ => b1
        if b1.waiting.isEmpty then (s1.finishCommit c.num b1).dropSettled else s1

/-- COMMIT_ACK (R106, R112, R113): a companion has acknowledged the outcome. -/
def execCommitAck (ident : Word) (dev slice : Nat) (s : State) : Result :=
  if s.deaf then .next s else
  let comp : Comp := { dev := dev, slice := slice }
  let s1 := s.mapBrec ident fun r => { r with waiting := r.waiting.filter (· != comp) }
  .next ((s1.commitStep ident comp).freeBrecs)

/-! ## Fates (R118, R121, R353) -/

/-- A fate told to the slice that asked, for the snapshot that it asked for, by the slice that knows it. -/
def State.tellFate (s : State) (asker : Comp) (ident : Word) (t : Nat) (replier : Comp) (f : Fate) : State :=
  if asker.dev = s.devNum then s.owe (.fateReply asker.slice ident { t := t, replier := replier, fate := f }) else s.answer 0 (.fate asker ident t replier f)

/-- FATE_QUESTION (R118, R121, R353): a companion that knows answers; the decider answers from its record; one that still
holds the bundle pending forwards to the decider, or says that it knows no outcome when the issuer is lost.
(DESIGN CHOICE, log entry 90.) -/
def execFateQuestion (ident : Word) (t : Nat) (slice : Nat) (asker : Comp) (s : State) : Result :=
  if s.deaf then .next s else
  let me : Comp := { dev := s.devNum, slice := slice }
  match s.knownFate slice ident with
  | some f => .next (s.tellFate asker ident t me f)
  | none =>
    if identDev ident = s.devNum then
      let r := s.askDecider ident t
      .next (r.1.tellFate asker ident t me r.2)
    else if s.lost (identDev ident) then .next (s.tellFate asker ident t me .undecided)
    else .next (s.answer 0 (.question { dev := identDev ident, slice := identDecider ident } ident t asker))

/-- A slice resolves a lost issuer's bundle once its companions have said what they know (R121). -/
def State.orphanStep (s : State) (slice : Nat) (ident : Word) (rest : List Comp) : State :=
  let others := s.slices.orphans.filter fun x => !(x.slice == slice && x.ident == ident)
  if rest.isEmpty then ({ s with slices := { s.slices with orphans := others } } : State).abortAt slice ident
  else
    let x : Orphan := { slice := slice, ident := ident, rest := rest, since := s.time }
    { s with slices := { s.slices with orphans := x :: others } }

/-- A slice begins to resolve a lost issuer's bundle (R121). -/
def State.orphan (s : State) (slice : Nat) (ident : Word) : State :=
  match s.pendingLines slice ident with
  | [] => s
  | p :: _ =>
    if !p.2.finalSeen then s.abortAt slice ident
    else
      let here := p.2.comps.filter fun c => c.dev == s.devNum
      match here.findSome? fun c => match s.knownFate c.slice ident with
          | some (.committed x) => some x
          | _ => none with
      | some x => s.installAt slice ident x
      | none =>
        let away := p.2.comps.filter fun c => c.dev != s.devNum && !s.lost c.dev
        let s1 := away.foldl (fun s c => s.answer 0 (.question c ident 0 { dev := s.devNum, slice := slice })) s
        s1.orphanStep slice ident away

/-- What a slice asked about a bundle is answered (R118, R121). -/
def State.forgetAsked (s : State) (slice : Nat) (ident : Word) : State :=
  { s with slices := { s.slices with
      orphans := s.slices.orphans.filter fun x => !(x.slice == slice && x.ident == ident),
      questions := s.slices.questions.filter fun q => !(q.slice == slice && q.ident == ident) } }

/-- The group loads that wait for a bundle's fate at a slice have consulted the device that tells it (R118, R120). -/
def State.noteReplier (s : State) (slice : Nat) (ident : Word) (a : FateAnswer) : State :=
  let waits (x : Serving) : Bool := x.t.t == a.t && (linesOf (partOffs x.parts)).any fun l =>
    homeSlice l == slice && (s.pendingLines slice ident).any fun p => p.1 == l
  let mine := (s.slices.serving.filter fun x => waits x && x.dev == s.devNum).map (·.ctx)
  let told (x : Serving) : Serving := if waits x then { x with devs := (x.devs ++ [a.replier.dev]).eraseDups } else x
  let s1 : State := { s with slices := { s.slices with serving := s.slices.serving.map told } }
  mine.foldl (fun s n => s.updCtx n fun c => c.mapOrder fun o =>
    { o with group := o.group.map fun g => g.consult [a.replier.dev] }) s1

/-- FATE_REPLY (R118, R121): the bundle is installed or aborted at the slice, or known to be undecided for the snapshot asked for; of a
lost issuer's bundle, the companion that replies has said what it knows. -/
def execFateReply (slice : Nat) (ident : Word) (answer : FateAnswer) (s : State) : Result :=
  if s.deaf then .next s else
  let s := s.noteReplier slice ident answer
  .next <| match answer.fate, s.slices.orphans.find? fun x => x.slice == slice && x.ident == ident with
    | .committed c, _ => ((s.installAt slice ident c).forgetAsked slice ident).serveAgain
    | _, some x => (s.orphanStep slice ident (x.rest.filter (· != answer.replier))).serveAgain
    | .aborted, none => ((s.abortAt slice ident).forgetAsked slice ident).serveAgain
    | .undecided, none =>
      ({ s with slices := { s.slices with questions := s.slices.questions.map fun q =>
          if q.slice = slice ∧ q.ident = ident ∧ q.t = answer.t then { q with told := true } else q } } : State).serveAgain

/-- GROUP_LOAD_SERVE (R117, R118, R120): a group load that has come to this device's home slices, of a context here or of another
device's; it waits while a fate is asked, and its answer names every device consulted for it. -/
def execGroupLoadServe (dev ctx : Nat) (h : BitVec 32) (parts : List (Nat × Nat)) (t : Snapshot) (s : State) : Result :=
  if s.deaf then .next s else
  let mine (x : Serving) : Bool := x.dev == dev && x.ctx == ctx && x.hdl == h && x.parts == parts && x.t == t
  let before := s.slices.serving.find? mine
  if dev = s.devNum ∧ before.isNone then .next s
  else
    let asked := match before with
      | some x => x.devs
      | none => []
    let s0 : State := { s with slices := { s.slices with serving := s.slices.serving.filter fun x => !mine x } }
    match s0.groupLines t (linesOf (partOffs parts)) with
    | (s1, none, ds) =>
      let x : Serving := { dev := dev, ctx := ctx, hdl := h, parts := parts, t := t, devs := (asked ++ ds).eraseDups }
      let s2 : State := { s1 with slices := { s1.slices with serving := s1.slices.serving ++ [x] } }
      .next (if dev = s.devNum then s2.updCtx ctx fun c => c.mapOrder fun o => { o with group := o.group.map fun g => g.consult ds } else s2)
    | (s1, some (ls, cause), _) =>
      let bytes := (partOffs parts).map fun o => match look ls (o / 64 * 64) with
        | some bs => (bs[o % 64]?).getD 0
        | none => 0
      let r : Reply := .group bytes cause asked
      let key := (parts.headD (0, 0)).1
      .next (if dev = s.devNum then s1.replyCame ctx dev (some key) r else s1.answer t.tenant (.reply dev ctx (some (10, key)) r))

end Sys2Proof.Machine
end

