-- ==== Sys2Proof/Machine/Links.lean ====
section
/-! DEFINITION. Links and lost peers: the mark of a lost device and all that it ends, readmission, and the ports' states
(R14, R78, R83, R97, R101 to R104, R113 to R122, R135, R331, R335, R341, R402 to R406, R410, R417). -/

namespace Sys2Proof.Machine

open Sys2Proof.Bits

/-! ## What a lost device ends (R102) -/

/-- Which reply an access takes: a group load's names its first offset (R120, R271). -/
def Await.answers (w : Await) : Option Nat := if w.group then some w.key else none

/-- The order state of a context once a device is marked lost (R83, R90, R97, R120): tokens wait for it no more, its streams
are free, and an open group that used it is lost with cause 3. -/
def Order.loseDevice (o : Order) (dev : Nat) : Order :=
  { o with
    streams := o.streams.filter fun x => x.dev != dev,
    tokens := o.tokens.map fun t =>
      if t.waits.any fun x => x.dev == dev then
        { t with waits := t.waits.filter fun x => x.dev != dev, lost := sortNat (t.lost ++ [dev]).eraseDups }
      else t,
    closes := o.closes.map fun k =>
      if k.waiting.contains dev then
        { k with waiting := k.waiting.filter (· != dev), lost := sortNat (k.lost ++ [dev]) }
      else k,
    group := o.group.map fun g => if g.devs.contains dev then g.mark (some 3) dev else g }

/-- Replies that a lost device owes to a context's instructions (R14, R120). -/
def State.loseReplies (s : State) (dev : Nat) : State :=
  s.allCtx.foldl (fun s c =>
    (c.order.awaits.filter fun w => w.dev == dev && w.reply.isNone).foldl (fun s w => s.replyCame c.num dev w.answers .lost) s) s

/-- The batch closes that a mark completes (R97, R98). -/
def State.settleCloses (s : State) : State :=
  s.allCtx.foldl (fun s c => s.completeCloses c.num (c.order.closes.length + 1)) s

/-- A context's bundle when a companion's device is marked lost (R112, R114, R122): an open bundle is doomed, one that closes
aborts before its commit point and goes on without the companion after it. -/
def State.loseBundle (s : State) (c : Ctx) (b : Bundle) (dev : Nat) : State :=
  match b.comps.find? fun x => x.dev == dev with
  | none => s
  | some comp => match b.stage with
    | .opened => s.doomOpen c 4 (some comp)
    | .issued => s.doomOpen c 4 (some comp)
    | .final => s.abortClose c.num b 4 comp
    | .deciding => s.abortClose c.num b 4 comp
    | .committing =>
      let b1 : Bundle := { b with
        waiting := b.waiting.filter fun x => x.dev != dev, latelost := true,
        lost := b.lost ++ b.comps.filter fun x => x.dev == dev }
      let s1 := s.mapBundle c.num fun _ => b1
      if b1.waiting.isEmpty then (s1.finishCommit c.num b1).dropSettled else s1
    | _ => s

/-- Every bundle of this device, its records, and the bundles of the lost device (R106, R121, R122). -/
def State.loseBundles (s : State) (dev : Nat) : State :=
  let s1 := (s.allCtx ++ s.ended).foldl (fun s c => match c.order.bundle with
    | some b => s.loseBundle c b dev
    | none => s) s
  let s2 : State := { s1 with slices := { s1.slices with records := s1.slices.records.map fun r =>
    { r with waiting := r.waiting.filter fun x => x.dev != dev } } }
  let s3 := (s2.freeBrecs).dropSettled
  let pending := ((s3.slices.versions.filter fun p => p.2.pending.isSome && p.2.dev == dev).map fun p =>
    (homeSlice p.1, p.2.ident)).eraseDups
  let asked := s3.slices.orphans.filter fun x => x.rest.any fun y => y.dev == dev
  let s4 := asked.foldl (fun s x => s.orphanStep x.slice x.ident (x.rest.filter fun y => y.dev != dev)) s3
  let s5 := pending.foldl (fun s x => s.orphan x.1 x.2) s4
  ({ s5 with slices := { s5.slices with
      questions := s5.slices.questions.filter fun q => q.told || q.asked.dev != dev,
      serving := s5.slices.serving.filter fun x => x.dev != dev } } : State).serveAgain

/-- What the fabric holds for a lost device (R32, R90, R97, R102). -/
def State.loseFabric (s : State) (dev : Nat) : State :=
  let s1 := s.freeSources fun x => x.dev == dev
  { s1 with fabric := { s1.fabric with retries := s1.fabric.retries.filter fun r => r.packet.dst != dev } }

/-- Reductions in flight to a lost device (R266): each context's LINKSTAT and map tell of them. -/
def State.loseReductions (s : State) (dev : Nat) : State :=
  s.allCtx.foldl (fun s c =>
    if c.order.outs.any fun x => x.dev == dev && x.kind == .reduction then s.peerLost c.num 6 [dev] else s) s

/-- Is a checked access on its way to a device? -/
def Checked.isFor (x : Checked) (dev : Nat) : Bool := match x with
  | .note d _ _ _ _ => d == dev
  | .wait d _ _ => d == dev
  | .here _ => false

/-- The records parked on a lost device's words are woken (R135); its own records wait here no more. -/
def State.loseWaits (s : State) (dev : Nat) : State :=
  let mine := s.sched.abroad.filter fun a => a.1 == dev
  let s1 := mine.foldl (fun s a => s.wakeAbroad a.2.1 a.2.2 2) s
  let s2 : State := { s1 with slices := { s1.slices with waiters := s1.slices.waiters.filter fun w => w.dev != dev } }
  { s2 with sched := { s2.sched with checked := s2.sched.checked.filter fun x => !x.2.isFor dev } }

/-- THE MARK of a lost peer (R102), which changes nothing for this device, for no device, or for one already marked. -/
def State.markLost (s : State) (dev : Nat) : State :=
  if 2048 ≤ dev ∨ dev = s.devNum ∨ s.lost dev then s
  else
    let s1 := s.dcbSetField (routeReg dev) 15 1 1
    let s2 := s1.mapCtxs fun c => c.mapOrder fun o => o.loseDevice dev
    let s3 := (((s2.loseReplies dev).loseReductions dev).settleCloses).loseBundles dev
    let s4 := ((s3.loseCmds dev).loseFabric dev).loseWaits dev
    let s5 := (s4.clearParties fun p => p.dev == dev).forgetWrites fun p => p.dev == dev
    (s5.dropLost dev).runCloses.cleanEnded

/-! ## Overdue replies (R101, R102) -/

/-- Has a time passed since which the link timeout has run out (R101, R102)? -/
def State.overtime (s : State) (since : Nat) : Bool := decide (since + s.linkLimit ≤ s.time)

/-- Is a request of some kind to a device refused and tried again?  Such a one has been answered (R32). -/
def State.retrying (s : State) (dev : Nat) (isIt : PktBody → Bool) : Bool :=
  s.fabric.retries.any fun r => r.packet.dst == dev && isIt r.packet.body

/-- Is the latest packet of a kind to a device overdue for its answer? -/
def State.lateWord (s : State) (dev : Nat) (isIt : PktBody → Bool) : Bool := match s.sentWord dev isIt with
  | some p => s.overtime p.time && !s.retrying dev isIt
  | none => false

/-- Is a packet's body the request of a context's outstanding access? -/
def Out.requestIs (x : Out) (ctx : Nat) (b : PktBody) : Bool := match b with
  | .store st => x.kind == .store && st.src.ctx == ctx && st.src.strm == x.strm && st.seq == x.seq
  | .atomic n _ _ _ _ _ false => x.kind == .reduction && n == ctx
  | .hit q _ line _ _ => x.kind == .hit && q.ctx == ctx && line == x.seq
  | .load q _ _ _ _ => x.kind == .hit && q.ctx == ctx
  | _ => false

/-- Is a packet's body the request whose reply an access awaits? -/
def Await.requestIs (w : Await) (ctx : Nat) (b : PktBody) : Bool := match b with
  | .load q _ _ _ _ => !w.group && q.ctx == ctx
  | .atomic n _ _ _ _ _ true => !w.group && n == ctx
  | .groupLoad n _ parts _ => w.group && n == ctx && w.key == (parts.headD (0, 0)).1
  | _ => false

/-- Is a packet's body a request of an engine command? -/
def Cmd.requestIs (k : Cmd) (ctx qi : Nat) (b : PktBody) : Bool := match b with
  | .engineLoad n vq num _ _ => n == ctx && vq == qi && num == k.num
  | .store st => st.src.ctx == ctx && st.src.strm == engineStrm qi && st.seq / 128 == k.num
  | _ => false

/-- Is an answer overdue to an engine command's requests to a device: is one more of them old enough than are tried again (R102)?
(DEDUCED, log entry 72.) -/
def State.lateCmd (s : State) (ctx qi dev : Nat) (k : Cmd) : Bool :=
  decide ((s.fabric.retries.filter fun r => r.packet.dst == dev && k.requestIs ctx qi r.packet.body).length <
    (k.times.filter fun t => t.1 == dev && s.overtime t.2).length)

/-- Is a packet's body the message of a context with a number? -/
def isMessage (ctx seq : Nat) (b : PktBody) : Bool := match b with
  | .message _ _ _ n m _ => n == ctx && m == seq
  | _ => false

/-- Is something that a device owes a context overdue: a reply, an acknowledgement, a window (R90), a batch close, a companion's answer,
an engine's reply or acknowledgement, or a message's?
(DEDUCED, log entry 72.) -/
def State.lateFor (s : State) (dev : Nat) (c : Ctx) : Bool :=
  c.order.awaits.any (fun w => w.dev == dev && w.reply.isNone && s.overtime w.since && !s.retrying dev (w.requestIs c.num))
    || c.order.outs.any (fun x => x.dev == dev && s.overtime x.sent && !s.retrying dev (x.requestIs c.num))
    || c.order.streams.any (fun x => x.dev == dev && x.asked && !x.window && s.overtime x.since)
    || c.order.closes.any (fun k => k.waiting.contains dev && s.overtime k.since)
    || (match c.order.bundle with
        | some b => b.waiting.any (fun x => x.dev == dev) && s.overtime b.since
        | none => false)
    || (List.range 8).any (fun qi => (c.vq qi).cmds.any fun k => s.lateCmd c.num qi dev k)
    || c.sendq.any (fun q => q.any fun m => s.lateWord dev (isMessage c.num m.seq))

/-- Is the acknowledgement of a NOTE, or of a WAITV's request, of another device overdue (R102)?
(DEDUCED, log entries 72 and 82.) -/
def State.lateCheck (s : State) (dev : Nat) (x : Checked) : Bool := match x with
  | .note d n off _ _ => d == dev && s.lateWord dev (isNote n off)
  | .wait d p idx => d == dev && s.lateWord dev fun b => match b with
      | .waitv p' i' _ _ _ => p' == p && i' == idx
      | _ => false
  | .here _ => false

/-- Is an answer that a peer owes this device overdue by the link timeout (R102, R118, R121, R122)? -/
def State.overdue (s : State) (dev : Nat) : Bool :=
  (s.allCtx ++ s.ended).any (fun c => s.lateFor dev c)
    || s.sched.checked.any (fun x => s.lateCheck dev x.2)
    || s.slices.records.any (fun r => r.waiting.any (fun x => x.dev == dev) && s.overtime r.since)
    || s.slices.orphans.any (fun x => x.rest.any (fun y => y.dev == dev) && s.overtime x.since)
    || s.slices.questions.any (fun q => !q.told && q.asked.dev == dev && s.overtime q.since)

/-- LINK_TIMEOUT (R14, R102, R121, R122, R132, R135): an answer that a peer owes is overdue by the link timeout. -/
def execLinkTimeout (dev : Nat) (s : State) : Result :=
  if dev = s.devNum ∨ !s.overdue dev then .next s else .next (s.markLost dev)

/-! ## The ports (R402, R404, R405, R410, R417) -/

/-- LINKSDOWN as it is (R417).
(DEDUCED, log entry 34.) -/
def State.countLinks (s : State) : State :=
  s.dcbSetField devstat 12 5 ((List.range 24).filter fun p => !s.portUp p).length

/-- Devices with an entry in the route table. -/
def State.routeDevs (s : State) : List Nat :=
  (s.dcb.filter fun p => decide (0x40000 ≤ p.1) && decide (p.1 < 0x44000)).map fun p => (p.1 - 0x40000) / 8

/-- Training failures in a row of a port. -/
def State.trainingFailures (s : State) (port : Nat) : Nat := (look s.fabric.failures port).getD 0

/-- LINK_UP (R405, R410): a port that trains learns its peer; at stage 18 it runs at half width.
(DEDUCED, log entry 34.) -/
def execLinkUp (port peer : Nat) (s : State) : Result :=
  if 24 ≤ port ∨ s.portUp port ∨ 3 ≤ s.trainingFailures port then .next s
  else
    let w := (s.dcbGet (linkst port)).toNat
    let half := ofBool (s.control.power.stage == 18)
    let s1 := s.dcbSet (linkst port) (BitVec.ofNat 64 (setField (setField (setField w 0 1 1) 1 1 half) 2 12 peer))
    let s2 : State := { s1 with fabric := { s1.fabric with failures := drop s1.fabric.failures port, retrains := drop s1.fabric.retrains port } }
    .next s2.countLinks

/-- LINK_DOWN (R102, R404): the peers whose last route went with the link are marked at once. -/
def execLinkDown (port : Nat) (s : State) : Result :=
  if !s.portUp port then .next s
  else
    let before := s.routeDevs.filter fun d => d != s.devNum && s.routed d
    let s1 := s.dcbSetField (linkst port) 0 2 0
    let s2 : State := { s1 with fabric := { s1.fabric with retrains := put s1.fabric.retrains port (0, s1.time) } }
    let gone := before.filter fun d => !s2.routed d
    .next (gone.foldl (fun s d => s.markLost d) s2.countLinks)

/-- FLIT_RETRY (R402, R405): a flit fails its CRC and is sent again; only the counters show it. -/
def execFlitRetry (port : Nat) (s : State) : Result :=
  if !s.portUp port then .next s
  else
    let r := linkst port
    let s1 := s.dcbSetField r 16 16 (min 0xFFFF (s.dcbField r 16 16 + 1))
    .next (s1.dcbSetField r 32 16 (min 0xFFFF (s.dcbField r 32 16 + 1)))

/-- LINK_TRAINING_FAILURE (R405): the third in a row keeps the link down until a RETRAIN. -/
def execLinkTrainingFailure (port : Nat) (s : State) : Result :=
  if 24 ≤ port ∨ s.portUp port then .next s
  else .next { s with fabric := { s.fabric with failures := put s.fabric.failures port (min 3 (s.trainingFailures port + 1)) } }

/-- LINK_DOWN_REPLREQ_TIMEOUT (R417): a link down for more than 1 s after three retrains. -/
def execLinkDownReplreqTimeout (port : Nat) (s : State) : Result :=
  match look s.fabric.retrains port with
  | none => .next s
  | some (n, t) =>
    if s.portUp port ∨ n < 3 ∨ s.time ≤ t + 1000000000 then .next s else .next s.requestReplacement

/-! ## PEERCMD (R406) -/

/-- DEV of PEERCMD. -/
def State.peerDev (s : State) : Nat := s.dcbField peercmd 0 12

/-- Is a PEERCMD operation in progress that has not been carried out yet? -/
def State.peerBusy (s : State) (op : Nat) : Bool :=
  bit (s.dcbGet peercmd).toNat 63 && s.dcbField peercmd 12 2 == op && (look s.control.started peercmd).isNone

/-- A command register's operation done, its status to be shown when BUSY clears. -/
def State.started (s : State) (off status : Nat) (next : Instr) : State :=
  ({ s with control := { s.control with started := put s.control.started off (BitVec.ofNat 64 status) } } : State).owe next

/-- Readmission (R406): the sequence state of both directions begins at 0, at both ends; the mark of a lost peer goes, and the batches that
have touched it keep the loss.
(DEDUCED, log entry 59.) -/
def State.readmit (s : State) (dev : Nat) : State :=
  let s1 := if s.lost dev then
      (s.dcbSetField (routeReg dev) 15 1 0).mapCtxs fun c => c.mapOrder fun o =>
        { o with
          outs := o.outs.filter fun x => x.dev != dev,
          gone := o.gone ++ ((List.range 4).filter fun b => ((o.touched[b]?).getD []).contains dev).map fun b => (b, dev),
          touched := o.touched.map fun t => t.filter (· != dev) }
    else s
  (s1.resetStreams dev).packet0 dev .readmit

/-- PEER_READMIT (R406): 3 SELF, 1 NOROUTE, 2 NOANSWER, else the peer is back.
(DEDUCED, log entry 59.) -/
def execPeerReadmit (answers : Bool) (s : State) : Result :=
  if !s.peerBusy 0 then .next s
  else
    let dev := s.peerDev
    let status := if dev = s.devNum then 3 else if !s.routed dev then 1 else if !answers then 2 else 0
    .next ((if status = 0 then s.readmit dev else s).started peercmd status .peercmdComplete)

/-- PEER_MARKLOST (R102, R406). -/
def execPeerMarklost (s : State) : Result :=
  if !s.peerBusy 1 then .next s
  else
    let dev := s.peerDev
    .next (if dev = s.devNum then s.started peercmd 3 .peercmdComplete
      else (s.markLost dev).started peercmd 0 .peercmdComplete)

/-- One more retrain of a link that is down: from the third on the time stands (R417). -/
def retrained (old : Nat × Nat) (now : Nat) : Nat × Nat := if 3 ≤ old.1 then old else (old.1 + 1, now)

/-- PEER_RETRAIN (R405, R406, R417): the links to DEV may train again. -/
def execPeerRetrain (s : State) : Result :=
  if !s.peerBusy 2 then .next s
  else
    let dev := s.peerDev
    if dev = s.devNum then .next (s.started peercmd 3 .peercmdComplete)
    else
      let ports := (List.range 24).filter fun p => s.dcbField (linkst p) 2 12 == dev
      let s1 := ports.foldl (fun (s : State) p =>
        { s with fabric := { s.fabric with
            failures := drop s.fabric.failures p,
            retrains := if s.portUp p then s.fabric.retrains
              else put s.fabric.retrains p (retrained ((look s.fabric.retrains p).getD (0, 0)) s.time) } }) s
      .next (s1.started peercmd 0 .peercmdComplete)

/-- PEERCMD_COMPLETE (R406): STATUS, then BUSY clears. -/
def execPeercmdComplete (s : State) : Result :=
  match look s.control.started peercmd with
  | none => .next s
  | some st =>
    let s1 : State := { s with control := { s.control with started := drop s.control.started peercmd } }
    .next ((s1.dcbSetField peercmd 14 2 st.toNat).dcbSetField peercmd 63 1 0)

end Sys2Proof.Machine
end

