-- ==== Sys2Proof/Machine/RegionUpdates.lean ====
section
/-! DEFINITION. Region updates: the publication of a descriptor, its invalidations, the firings and commands that it stops or
lets go on, and the return of a descriptor fetch (R21 to R23, R26, R27, R30, R31, R37, R39, R54, R142, R363, R400). -/

namespace Sys2Proof.Machine

open Sys2Proof.Bits

/-! ## Task records and regions (R30, R142) -/

/-- The handles that the image of a record binds. -/
def State.recBinds (s : State) (p idx : Nat) : List (BitVec 32) :=
  match s.image (s.recImage p idx) (s.recIgen p idx) with
  | some i => i.code.binds
  | none => []

/-- Does the image of a record bind a region whose descriptor is in a state? -/
def State.bindsIn (s : State) (p idx st : Nat) : Bool :=
  (s.recBinds p idx).any fun h => h != 0 && dState (s.descAt (hIndex h)) == st

/-- The HELD records that a region update lets go (R30, R142): READY when no region they bind is moving. -/
def State.freeHeld (s : State) : State :=
  (s.sched.live.filter fun r => s.recState r.1 r.2 == 6 && !s.bindsIn r.1 r.2 2).foldl (fun s r => s.makeReady r.1 r.2) s

/-- Ready and held records whose image binds a region that has turned moving become HELD; those that bind a revoked one take the
dispatch fault (R30, R142). -/
def State.holdReady (s : State) (idx : Nat) : State :=
  let st := dState (s.descAt idx)
  let waiting := s.sched.live.filter fun r =>
    (s.recState r.1 r.2 == 2 || s.recState r.1 r.2 == 6) && (s.recBinds r.1 r.2).any fun h => h != 0 && hIndex h == idx
  let s1 := s.unqueue fun t => s.recState t.part t.record == 2 && waiting.contains (t.part, t.record)
  if waiting.isEmpty then s
  else if st = 2 then waiting.foldl (fun s r => s.setRecState r.1 r.2 .held) s1
  else if st = 3 then waiting.foldl (fun s r => s.dispatchFault r.1 r.2 3
    (((s.recBinds r.1 r.2).find? fun h => h != 0 && hIndex h == idx).getD 0).toNat) s1
  else s

/-! ## The update (R22, R23, R30, R31, R54) -/

/-- Does the cover of a context's next access rest on a region? -/
def Ctx.coverOn (c : Ctx) (idx : Nat) : Bool :=
  !c.chkr.isEmpty && ((c.handle != 0 && hIndex c.handle == idx) || (c.flagHandle != 0 && hIndex c.flagHandle == idx))

/-- Cores that hold a descriptor of an index, fetch it, or run a context whose check has passed by it. -/
def State.holdersOf (s : State) (idx : Nat) : List Nat :=
  let cached := (s.cores.filter fun p => p.2.rcache.any (fun x => x.1 == idx) || p.2.fetches.any fun f => f.index == idx).map (·.1)
  let covered := (s.running.filter fun p => p.2.coverOn idx && !cached.contains p.1.core).map fun p => p.1.core
  cached ++ covered.eraseDups

/-- Every seat whose context binds a region is stopped (R30). -/
def State.stopHolders (s : State) (idx : Nat) : State :=
  (s.running.filter fun p => (p.2.binding idx).isSome).foldl (fun s p => s.stopHolder p.1 idx) s

/-- REGION_UPDATE (R22, R23, R30, R31, R54): the invalidation goes to the cores, the engines hold or end their commands,
running holders of a moving or revoked region stop, and the read caches are invalidated. -/
def execRegionUpdate (index : Nat) (s : State) : Result :=
  if !bit (s.dcbGet rupcmd).toNat 63 ∨ s.dcbField rupcmd 0 20 ≠ index then .next s
  else
    let d := s.descAt index
    let s1 := (s.holdersOf index).foldl (fun s k => s.owe (.regionInvalidation k index (dGen d))) s
    let s2 := s1.regionCmds index
    let s3 := if dState d = 2 ∨ dState d = 3 then
        (s2.stopHolders index).mapCores fun k => { k with lines := [], arriving := [] }
      else s2
    .next (((s3.holdReady index).freeHeld).owe .regionUpdateComplete)

/-- REGION_INVALIDATION (R23, R26, R27, R37, R39): the core drops its descriptor, a fetch in flight records the generation, and an access
that has passed its check and has not issued is checked again. -/
def execRegionInvalidation (core index gen : Nat) (s : State) : Result :=
  let s1 := s.mapCore core fun k => { k with
    rcache := k.rcache.filter fun x => x.1 != index,
    fetches := k.fetches.map fun f =>
      if f.index = index then { f with inval := some (max gen (f.inval.getD 0)) } else f }
  .next ((s1.running.filter fun p => p.1.core == core && p.2.coverOn index && !p.2.finishing).foldl
    (fun s p => s.mapSeat p.1 Ctx.loseCover) s1)

/-- Does a handle name a region at an earlier generation than the descriptor's? -/
def oldHandle (idx : Nat) (d : Desc) (h : BitVec 32) : Bool := h != 0 && hIndex h == idx && hGen h != dGen d

/-- Has an access of a context that has issued yet to perform, checked under an earlier generation of a region (R23, item 2, R244)?
Of a holder of a moving or revoked region, any access counts. -/
def State.underRegion (s : State) (c : Ctx) (idx : Nat) (d : Desc) : Bool :=
  let holds := (dState d == 2 || dState d == 3) && (c.binding idx).isSome
  (s.unperformed c.order.outs).any (fun x => holds || x.hdls.any (oldHandle idx d))
    || c.order.awaits.any fun w => w.reply.isNone && !s.lost w.dev && (holds || oldHandle idx d w.hdl)

/-- Requests of other devices that the port has checked under an earlier generation and that have yet to perform (R23, R39). -/
def State.portUnder (s : State) (idx : Nat) (d : Desc) : Bool :=
  s.slices.serving.any (fun x => oldHandle idx d x.hdl)
    || (s.fabric.windows.any fun w => w.held.any fun st => oldHandle idx d st.handle || oldHandle idx d st.flagHandle)
    || s.pend.any fun i => match i with
      | .streamStoreArrival st => oldHandle idx d st.handle || oldHandle idx d st.flagHandle
      | .groupLoadServe _ _ h _ _ => oldHandle idx d h
      | _ => false

/-- A command of a region that has not come to the state that R31 requires. -/
def Cmd.unsettled (k : Cmd) (idx : Nat) : Bool :=
  let names (h : BitVec 32) : Bool := h != 0 && hIndex h == idx
  (names k.srcHdl || names k.dstHdl) && (k.stop.isSome || k.phase == .paused || k.phase == .held) && k.inFlight

/-- Has a WAITV or NOTE yet to perform that was checked under an earlier generation (R23, item 2)?  Those of a holder of a moving or
revoked region, or owed here to such a region's end, count whatever their handle. -/
def State.wordUnder (s : State) (idx : Nat) (d : Desc) : Bool :=
  let stops := dState d == 2 || dState d == 3
  s.sched.checked.any fun x => match x.2 with
    | .here i => s.pend.contains i && (stops || oldHandle idx d x.1)
    | .wait dev _ _ => !s.lost dev && oldHandle idx d x.1
    | .note dev n _ _ _ => !s.lost dev &&
        (oldHandle idx d x.1 || (stops && ((s.findCtx n).bind fun c => c.binding idx).isSome))

/-- May a region update complete (R23)? -/
def State.updateDone (s : State) (idx : Nat) : Bool :=
  let d := s.descAt idx
  let stops := dState d == 2 || dState d == 3
  (s.pend.all fun i => match i with
    | .regionInvalidation _ i _ => i != idx
    | _ => true)
    && !((s.allCtx ++ s.ended).any fun c => s.underRegion c idx d)
    && !s.portUnder idx d
    && !s.wordUnder idx d
    && !(s.allCmds.any fun x => x.2.2.unsettled idx)
    && (!stops || s.running.all fun p => (p.2.binding idx).isNone || p.2.phase == .saving)

/-- REGION_UPDATE_COMPLETE (R23, R30): holders that finished an instruction stop now; BUSY clears once all is done. -/
def execRegionUpdateComplete (s : State) : Result :=
  let idx := s.dcbField rupcmd 0 20
  if !bit (s.dcbGet rupcmd).toNat 63 then .next s
  else
    let d := s.descAt idx
    let s1 := if dState d = 2 ∨ dState d = 3 then s.stopHolders idx else s
    .next (if s1.updateDone idx then s1.dcbSetField rupcmd 63 1 0 else s1.owe .regionUpdateComplete)

/-! ## A descriptor fetch returns (R26, R27) -/

/-- DESCRIPTOR_FETCH_RETURN (R27): bytes below an invalidation's generation are discarded and fetched again, at most twice; the
third failure is kept for the check; else the descriptor is cached. -/
def execDescriptorFetchReturn (ctx : Nat) (s : State) : Result :=
  match s.cores.findSome? fun p => (p.2.fetches.find? fun f => f.ctx == ctx && !fetchFailed f).map fun f => (p.1, f) with
  | none => .next s
  | some (core, f) =>
    let overtaken := match f.inval with
      | some g => decide (dGen f.desc < g)
      | none => false
    if !overtaken then .next ((s.dropFetch core ctx f.index).useDesc core f.index f.desc)
    else if f.tries < 3 then .next (s.startFetch core ctx f.index (f.tries + 1))
    else if s.running.any fun p => p.1.core == core && p.2.num == ctx then
      .next (s.mapCore core fun k => { k with fetches := k.fetches.map fun x =>
        if x.ctx = ctx ∧ x.index = f.index then { x with tries := 4 } else x })
    else .next (s.dropFetch core ctx f.index)

end Sys2Proof.Machine
end

