-- ==== Sys2Proof/Machine/Ports.lean ====
section
/-! DEFINITION. The runtime ports: accesses and commands under tenant 0 for the control cores, and writes to the device control
block (R2, R13, R34, R37, R59, R101, R208, R212 to R214, R299, R361, R380, R391, R401). -/

namespace Sys2Proof.Machine

open Sys2Proof.Bits

/-- CONTROL_BLOCK_WRITE (R13): a tenant-0 write to one register of the block. -/
def execControlBlockWrite (off : Nat) (mask val : Word) (s : State) : Result := .next (s.controlWrite off mask val)

/-- Where a port's global address leads, over a length and with an alignment: this device or another (R8 to R12). -/
def State.portTarget (s : State) (ga : Word) (len align : Nat) : Option Tgt :=
  match s.testAddr (.ga ga) len with
  | .inl _ => none
  | .inr t => if t.off % align = 0 then some t else none

/-- A packet of a port to another device, with tenant field 0 (R2, R32). -/
def State.portPacket (s : State) (dev : Nat) (body : PktBody) : State :=
  s.send (.packet { src := s.devNum, dst := dev, time := s.time, hop := 0, tenant := 0, lslot := none, cls := 0, tagOk := true,
                    keyGen := s.worldGen 0, body := body })

/-- A port's request to this device: to a home slice, to a window, or to the control block. -/
def State.portRequest (s : State) (k : Nat) (t : Tgt) (len : Nat) (op : MemOp) : State :=
  let r : MemReq := { origin := .port k, tenant := 0, off := t.off, len := len, op := op }
  if t.off < s.hbmEnd then s.owe (.homeSliceRequest r)
  else if (bankCore t.off).isSome then s.owe (.windowRequest r)
  else s.performReq r

/-- A port's request that passes no address test: its control core is told.
(DEDUCED, log entry 35.) -/
def State.portRefused (s : State) (k : Nat) : State := s.send (.portReply k 0 [])

/-- Does a port issue a form for its control core: a global load, store, atomic, reduction or notification, a fence or a close of a batch, or
an engine command with its queue's own forms, a send or a decrement (R2)?  A port is no seat: it has no scratchpad, and it parks on no word. -/
def portForm : Form → Bool
  | .m op o => op == 0x073 || ((o.len == 3 || o.sa != 0) && op != 0x078 && op != 0x07C)
  | .c op _ => op == 0x071 || op == 0x072 || op == 0x07D || op == 0x07E
  | .e op _ => (decide (0x140 ≤ op.toNat) && decide (op.toNat ≤ 0x152)) || op == 0x153 || op == 0x154 || op == 0x15D || op == 0x15E
  | _ => false

/-- The context under which a port's forms run: tenant 0, and none of a partition's (R2). -/
def State.portState (s : State) (k : Nat) : Ctx :=
  (s.saved.find? fun c => c.num == portCtx k).getD { Ctx.fresh (portCtx k) (portSeat k) with part := 64, sRegs := 63, vRegs := 32 }

/-- A port's context put away between two forms. -/
def State.putPort (s : State) (c : Ctx) : State := { s with saved := s.saved.filter (fun d => d.num != c.num) ++ [c] }

/-- A form of a port that its seat would have faulted at: nothing of it happens, the port's open region ends, and its control core is told. -/
def State.portFaults (s : State) (k : Nat) : State :=
  let c := s.portState k
  let s1 := (s.clearRaces c.num).putPort { c with stall := none, order := { c.order with lines := [], conflict := none, more := 0 } }
  ({ s1 with control := { s1.control with ports := drop s1.control.ports k } } : State).portRefused k

/-- The partition whose pool holds a counter at an offset of this device, with the counter (R343). -/
def State.counterOf (s : State) (off : Nat) : Option (Nat × Nat × Nat) :=
  allParts.findSome? fun p => if s.partLive p then (s.counterAt p off).map fun r => (p, r.1, r.2) else none

/-- The partition that a tenant-0 message to a core is for: the mailbox's, else the first live one that holds the core.
(DESIGN CHOICE, log entry 64.) -/
def State.portPart (s : State) (net : Bool) (core : Nat) : Nat :=
  let m := (s.core core).mailbox net
  if m.base ≠ 0 then m.part else ((allParts.find? fun p => s.partLive p && s.inRect p core).getD 0)

/-- The partition for which a port issues a form: that of a message's core or of a counter's pool, none for another form (R340, R343). -/
def State.portPartOf (s : State) (c : Ctx) : Form → Nat
  | .e op o =>
    if op = 0x153 ∨ op = 0x154 then s.portPart (op == 0x154) (field (c.srcS [o.sa] o.sb).toNat 0 11) else 64
  | .m op o =>
    if op = 0x159 then
      (match s.testAddr (c.addr o 0) 2 with
        | .inr t => ((s.counterOf t.off).map fun x => x.1).getD 64
        | .inl _ => 64)
    else 64
  | _ => 64

/-- A form run for a port with the effect and the ordering of a seat of tenant 0 (R2); one that waits is tried again, as a seat's would be.
The reply carries y0 and y1.  A port's plain loads go through a read cache of the port's own.
(DESIGN CHOICE, log entry 98.) -/
def State.portRun (s : State) (k : Nat) (r : PortReq) (f : Form) (regs : List (Nat × Word)) (vec : Vec) : State :=
  let again := (look s.control.ports k).isSome
  let c := s.portState k
  let g := if again then c.regs else (regs.foldl (fun (g : Regs) x => g.setS x.1 x.2) c.regs).setV 0 vec
  let s1 : State := ({ s with saved := s.saved.filter fun d => d.num != c.num } : State).focus (portSeat k)
  let c1 : Ctx := { c with regs := g }
  match runForm f { s1 with cx := some { c1 with part := s.portPartOf c1 f } } with
  | .next t => match t.cx with
    | none => s.portFaults k
    | some d =>
      if t.cur ≠ portSeat k ∨ d.num ≠ c.num then s.portFaults k
      else
        let t1 := (({ t with cx := none } : State).focus s.cur).putPort { d with part := 64 }
        if d.stall.isSome then ({ t1 with control := { t1.control with ports := put t1.control.ports k r } } : State).owe (.runtimePortAccess k r)
        else ({ t1 with control := { t1.control with ports := drop t1.control.ports k } } : State).send
          (.portReply k d.regs.y0 (bytesOf 128 d.regs.y1.toNat))
  | _ => s.portFaults k

/-- Bytes copied on this device under tenant 0 (R37). -/
def State.portCopy (s : State) (k : Nat) (dst src : Tgt) (len : Nat) : State :=
  let from' := (List.range len).map (src.off + ·)
  let to' := (List.range len).map (dst.off + ·)
  match s.heldAll 0 from', s.heldWrite 0 to' with
  | .inl a, .inl b =>
    if s.touchesRecord b then s.portRefused k
    else ((s.writeBytes (b.zip (s.readBytes none a)))).send (.portReply k 1 [])
  | _, _ => s.portRefused k

/-- Is an earlier access of a port still to be made (R2): a form that waits, a request owed, or a decrement?  Its later ones are made in
their order. -/
def State.portBusy (s : State) (k : Nat) : Bool :=
  (look s.control.ports k).isSome || s.ownOut (s.portState k) || s.pend.any fun i => match i with
    | .homeSliceRequest r => r.origin == .port k
    | .windowRequest r => r.origin == .port k
    | _ => false

/-- Does a port's request wait for its turn behind the earlier ones (R2)?  A form that waits is tried again in its own turn. -/
def State.portWaits (s : State) (k : Nat) (r : PortReq) : Bool := match r with
  | .load .. | .store .. | .atomic .. | .note .. | .dect .. | .copy .. | .send .. => s.portBusy k
  | .launch .. => s.portBusy k || s.pend.any fun i => match i with
    | .dectApply .. => true
    | _ => false
  | .form .. => (look s.control.ports k).any fun x => x != r
  | _ => false

/-- RUNTIME_PORT_ACCESS (R2): what port k does for its control core.  A request for another device is a form; a form behind one that has not
completed waits for its turn.
(DEDUCED, log entry 35.) -/
def execRuntimePortAccess (k : Nat) (r : PortReq) (s : State) : Result :=
  if 16 ≤ k then .next s
  else if s.portWaits k r then .next (s.owe (.runtimePortAccess k r))
  else .next <| match r with
    | .form bits regs vec => match decodeBits bits with
      | .bad _ => s.portRefused k
      | .ok f =>
        if !portForm f then s.portRefused k
        else s.portRun k r f regs vec
    | .load ga len => match s.portTarget ga len 1 with
      | none => s.portRefused k
      | some t =>
        if t.dev = s.devNum then s.portRequest k t len .load else s.portRefused k
    | .store ga bytes => match s.portTarget ga bytes.length 1 with
      | none => s.portRefused k
      | some t =>
        if t.dev = s.devNum then s.portRequest k t bytes.length (.store (bytes.zipIdx.map fun x => (t.off + x.2, x.1)) none)
        else s.portRefused k
    | .atomic ga op w b => match s.portTarget ga w w with
      | none => s.portRefused k
      | some t =>
        if t.dev = s.devNum then s.portRequest k t w (.atomic op w b true)
        else s.portRefused k
    | .note ga all => match s.portTarget ga 8 8 with
      | none => s.portRefused k
      | some t =>
        if t.dev = s.devNum ∧ t.off < s.hbmEnd then s.portRequest k t 8 (.note all)
        else s.portRefused k
    | .launch part index =>
      if s.control.pfail ∨ !s.partLive part ∨ !s.inPool part index then s.portRefused k
      else
        let x := s.placeLaunch part index
        x.1.send (.portReply k x.2 [])
    | .dect ga n => match s.portTarget ga 2 2 with
      | none => s.portRefused k
      | some t => match (if t.dev = s.devNum then s.counterOf t.off else none) with
        | some (p, i, c) => s.owe (.dectApply p i c n.toNat)
        | none => s.portRefused k
    | .copy dst src len => match s.portTarget dst len 1, s.portTarget src len 1 with
      | some d, some f => if d.dev = s.devNum ∧ f.dev = s.devNum then s.portCopy k d f len else s.portRefused k
      | _, _ => s.portRefused k
    | .send net dest data =>
      let core := field dest.toNat 0 11
      if field dest.toNat 11 1 ≠ 0 ∨ field dest.toNat 24 40 ≠ 0 ∨ Config.cores ≤ core then s.portRefused k
      else
        let dev := s.wordDev dest
        if dev = s.devNum then
          let m : Msg :=
            { net := net, core := core, word := dest, part := s.portPart net core, tenant := 0, lslot := none, cls := 0, dev := dev, ctx := portCtx k, pc := 0,
              born := 0, seq := s.fresh, data := data }
          ({ s with fresh := s.fresh + 1, fabric := { s.fabric with msgs := s.fabric.msgs ++ [m] } } : State).owe
            (.messageLand net core)
        else s.portPacket dev (.message net core 0 (portCtx k) s.fresh data)
    | .savedReg ctx reg val =>
      { s with saved := s.saved.map fun c => if c.num = ctx then c.mapRegs fun g => g.setS reg val else c }
    | .savedImage ctx image igen => match s.image image igen with
      | none => s.portRefused k
      | some i => { s with saved := s.saved.map fun c => if c.num = ctx then { c with code := s.codeNow i } else c }
    | .hostBuffer granule on =>
      let rest := s.control.hostBuffers.filter (· != granule)
      { s with control := { s.control with hostBuffers := if on then granule :: rest else rest } }
    | .mxcap ctx val => s.updCtx ctx fun c => c.mapCsrs fun g => { g with mxcap := val }

end Sys2Proof.Machine
end

