-- ==== Sys2Proof/Machine/Placement.lean ====
section
/-! DEFINITION. Where a task may run: what a core can take, the walk of a dispatch packet, the snake runs of a chain, and the
order in which a dispatch point serves its queues (R47, R48, R151, R154 to R159, R211, R383, R410). -/

namespace Sys2Proof.Machine

open Sys2Proof.Bits

/-! ## What a core can take (R47, R48, R154 to R156) -/

/-- What a task asks of a core: its registers, its footprint, its launch entry, whether it starts a new context, and the contexts that it
resumes. -/
structure Need where
  sRegs : Nat
  vRegs : Nat
  footprint : List (Nat × Nat)
  slot : Nat
  fresh : Bool
  own : List Nat
  deriving DecidableEq, Repr

/-- The saved contexts of a YIELDED record, position 0 of a chain first. -/
def State.savedOf (s : State) (p idx : Nat) : List Ctx :=
  sortBy (fun a b => decide (a.chainAt ≤ b.chainAt)) (s.saved.filter fun c => c.part == p && c.record == idx)

/-- The chain positions of a record for which it keeps no context (R367). -/
def State.newPlaces (s : State) (p idx : Nat) : List Nat :=
  (List.range (s.recChain p idx)).filter fun q => (s.keptCtx p idx q).isNone

/-- What a READY or YIELDED record asks of a core. -/
def State.needOf (s : State) (p idx : Nat) : Option Need :=
  if s.recState p idx = 4 then
    (s.savedOf p idx).head?.map fun c =>
      { sRegs := c.sRegs, vRegs := c.vRegs, footprint := c.footprint, slot := c.lslot, fresh := false,
        own := (s.savedOf p idx).map (·.num) }
  else (s.recActor p idx).map fun a =>
    { sRegs := a.s, vRegs := a.v, footprint := a.footprint, slot := s.recGet p idx 44 12, fresh := !(s.newPlaces p idx).isEmpty,
      own := [] }

/-- Contexts on a core's seats, but for one that is about to leave. -/
def State.onCore (s : State) (core : Nat) (but : Option SeatId) : List Ctx :=
  (s.running.filter fun p => p.1.core == core && some p.1 != but).map (·.2)

/-- Does the launch of a slot carry tensor shape records? -/
def State.carriesTsr (s : State) (slot : Nat) : Bool := s.sched.launches.any fun l => l.slot == slot && !l.tsrs.isEmpty

/-- Seats of a core that are idle and not claimed, lowest first. -/
def State.idleSeats (s : State) (core : Nat) (but : Option SeatId) : List Nat :=
  (List.range 4).filter fun k =>
    let id : SeatId := { core := core, seat := k }
    ((s.ctxAt id).isNone || some id == but) && (look (s.core core).claims k).isNone

/-- Mesh distance between two cores. -/
def distance (a b : Nat) : Nat :=
  (max (coreX a) (coreX b) - min (coreX a) (coreX b)) + (max (coreY a) (coreY b) - min (coreY a) (coreY b))

/-- The mailbox rings of a core that no firing of other contexts may overlap (R338). -/
def Core.ringsBut (k : Core) (own : List Nat) : List (Nat × Nat) :=
  ([k.mbrq, k.mbrp].filter fun m => m.base != 0 && !(m.owner.any fun n => own.contains n)).map fun m => (m.base, 64 * 2 ^ m.lsl)

/-- The conditions of R156 but for the distance and the context number: the partition's core in service with its scratchpad
in place, granules, footprint and launch area. -/
def State.hasRoom (s : State) (p core : Nat) (n : Need) (but : Option SeatId) : Bool :=
  let here := s.onCore core but
  let used := here.foldl (fun u c => u + granulesOf c.sRegs c.vRegs) 0
  s.inRect p core && s.inService core && (s.core core).resident == some p
    && decide (granulesOf n.sRegs n.vRegs + used ≤ Config.granules)
    && here.all (fun c => !footprintsMeet c.footprint n.footprint)
    && !footprintsMeet ((s.core core).ringsBut n.own) n.footprint
    && (!s.carriesTsr n.slot || (s.core core).launch == some n.slot || here.all fun c => !s.carriesTsr c.lslot)

/-- Free context numbers below COUNT, lowest first, at most `n` (R367). -/
def State.freeCtxs (s : State) (n : Nat) : List Nat :=
  let used := (s.allCtx ++ s.ended).map (·.num)
  ((List.range (min (s.dcbField ctxcount 0 17) (used.length + n))).filter fun k => !used.contains k).take n

/-- Can a core take a task (R156, R351)?  `but` is a seat whose firing is about to yield. -/
def State.canTake (s : State) (p idx core : Nat) (but : Option SeatId) : Bool :=
  match s.needOf p idx with
  | none => false
  | some n =>
    decide (distance core (s.recHome p idx) ≤ s.recRadius p idx) && !(s.idleSeats core but).isEmpty
      && s.hasRoom p core n but && (!n.fresh || !(s.freeCtxs 1).isEmpty)

/-- The lowest idle seat of a core.
(DESIGN CHOICE, log entry 63.) -/
def State.seatFor (s : State) (core : Nat) : SeatId := { core := core, seat := (s.idleSeats core none).headD 0 }

/-- The seat that a packet takes when it comes to a core (R157, R158): the one foreseen, or another that is idle.
(DESIGN CHOICE, log entry 63.) -/
def State.seatNow (s : State) (id : SeatId) : SeatId :=
  if (s.idleSeats id.core none).contains id.seat then id else s.seatFor id.core

/-! ## Dispatch checks (R30, R142, R159, R211, R410, R412) -/

/-- What a dispatch finds wrong with a record: SUB and AUX2 of its fault (R211, R359).
(DEDUCED, log entry 61.) -/
def State.dispatchFaultOf (s : State) (p idx : Nat) : Option (Nat × Nat) :=
  let im := s.recImage p idx
  if s.listState im = 2 then some (1, 0)
  else if s.listState im ≠ 1 ∨ s.recIgen p idx ≠ s.listGen im ∨ s.nactors im ≤ s.recGet p idx 0 16 ∨ (s.recActor p idx).isNone then some (2, 0)
  else match (s.recBinds p idx).find? fun h => h != 0 && dState (s.descAt (hIndex h)) == 3 with
    | some h => some (3, h.toNat)
    | none => none

/-- Is the dispatch of a class paused by power (R159, R410, R412)? -/
def State.paused (s : State) (cls : Nat) : Bool :=
  s.control.pfail || (cls == 3 && decide (1 ≤ s.control.power.stage)) || (cls == 2 && decide (2 ≤ s.control.power.stage))

/-- May a record be dispatched now: its partition in its slice, its class not paused, and no region that it binds moving? -/
def State.mayDispatch (s : State) (p idx : Nat) : Bool :=
  s.scheduled p && !s.paused (s.recClass p idx) && !s.bindsIn p idx 2

/-! ## The walk of a dispatch packet (R157) -/

/-- The core at which a home slice attaches to the mesh. -/
def attachAt (h : Nat) : Nat × Nat :=
  (24 * ((h / 32) % 2) + 3 * ((h % 32) % 8) + 1, 16 * (h / 64) + 4 * ((h % 32) / 8) + 1)

/-- A coordinate of a range that is nearest to a point. -/
def clampTo (lo hi x : Nat) : Nat := max lo (min hi x)

/-- The core number of coordinates. -/
def coreAt (x y : Nat) : Nat := y * Config.columns + x

/-- Coordinates from one to another, both included. -/
def stepsTo (a b : Nat) : List Nat :=
  if a ≤ b then (List.range (b + 1 - a)).map (a + ·) else (List.range (a + 1 - b)).map (a - ·)

/-- The cores of the walk from the partition core nearest a slice to HOME: first along x, then along y. -/
def State.walk (s : State) (p slice home : Nat) : List Nat :=
  let a := attachAt slice
  let x := clampTo (s.partX0 p) (s.partX1 p) a.1
  let y := clampTo (s.partY0 p) (s.partY1 p) a.2
  (stepsTo x (coreX home)).map (fun x => coreAt x y) ++ ((stepsTo y (coreY home)).drop 1).map fun y => coreAt (coreX home) y

/-- The cores at distance exactly `r` from HOME in the order of the ring. -/
def ring (home r : Nat) : List Nat :=
  let hx : Int := coreX home
  let hy : Int := coreY home
  let r' : Int := r
  let at' (x y : Int) : List Nat :=
    if 0 ≤ x ∧ x < 48 ∧ 0 ≤ y ∧ y < 32 then [coreAt x.toNat y.toNat] else []
  let ks : List Int := (List.range r).map Int.ofNat
  ks.flatMap (fun k => at' (hx + r' - k) (hy + k)) ++ ks.flatMap (fun k => at' (hx - k) (hy + r' - k))
    ++ ks.flatMap (fun k => at' (hx - r' + k) (hy - k)) ++ ks.flatMap (fun k => at' (hx + k) (hy - r' + k))

/-- The first core of some that can take a task, and those after it. -/
def State.firstOf (s : State) (p idx : Nat) : List Nat → Option (Nat × List Nat)
  | [] => none
  | k :: ks => if s.canTake p idx k none then some (k, ks) else s.firstOf p idx ks

/-- The first core on a task's walk and ring that can take it, and the rest of its way. -/
def State.findCore (s : State) (p idx : Nat) : Option (Nat × List Nat) :=
  let home := s.recHome p idx
  s.firstOf p idx (s.walk p (homeSlice (s.recAddr p idx)) home ++ ring home (s.recRadius p idx))

/-- A dispatch packet that has come to a core, with the cores still before it, or is on its walk no more (R157). -/
def State.walkOn (s : State) (p idx : Nat) (rest : Option (List Nat)) : State :=
  let others := s.sched.walks.filter fun w => !(w.1 == p && w.2.1 == idx)
  { s with sched := { s.sched with walks := match rest with
    | some cores => others ++ [(p, idx, cores)]
    | none => others } }

/-- The cores still before a packet that walks. -/
def State.walkLeft (s : State) (p idx : Nat) : Option (List Nat) :=
  (s.sched.walks.find? fun w => w.1 == p && w.2.1 == idx).map fun w => w.2.2

/-! ## The snake runs of a chain (R151, R157) -/

/-- The core at position `q` of the snake of width `w` whose top-left corner is (cx, cy). -/
def snakeCore (w cx cy q : Nat) : Nat :=
  let col := if (q / w) % 2 = 0 then q % w else w - 1 - q % w
  coreAt (cx + col) (cy + q / w)

/-- The snakes that a dispatch point tries, in order: its cluster, then the pairs with the east, south, west and north
neighbours: width, corner and positions. -/
def snakesOf (u : Nat) : List (Nat × Nat × Nat × Nat) :=
  let ux := u % 12
  let uy := u / 12
  [(4, 4 * ux, 4 * uy, 16)]
    ++ (if ux < 11 then [(8, 4 * ux, 4 * uy, 32)] else [])
    ++ (if uy < 7 then [(4, 4 * ux, 4 * uy, 32)] else [])
    ++ (if 0 < ux then [(8, 4 * (ux - 1), 4 * uy, 32)] else [])
    ++ (if 0 < uy then [(4, 4 * ux, 4 * (uy - 1), 32)] else [])

/-- The positions of a chain that seats are asked for: every one of a new chain, those of the members that have not ended of a
YIELDED one (R153). -/
def State.chainPlaces (s : State) (p idx : Nat) : List Nat :=
  if s.recState p idx = 4 then (s.savedOf p idx).map (·.chainAt) else List.range (s.recChain p idx)

/-- The first run of a chain's length whose cores can take its members. -/
def State.findRun (s : State) (p idx : Nat) : Option (List Nat) :=
  let k := s.recChain p idx
  let new := (s.newPlaces p idx).length
  let enough := s.recState p idx == 4 || (s.freeCtxs new).length == new
  if !enough then none
  else (snakesOf (clusterOf (s.recHome p idx))).findSome? fun sn =>
    let w := sn.1
    let cx := sn.2.1
    let cy := sn.2.2.1
    let n := sn.2.2.2
    ((List.range (n + 1 - k)).map fun start => (List.range k).map fun q => snakeCore w cx cy (start + q)).find? fun cs =>
      (s.chainPlaces p idx).all fun q => s.canTake p idx ((cs[q]?).getD 0) none

/-! ## The queues of a dispatch point (R159) -/

/-- The sub-queue of a task within its class: a stage record has its own. -/
def QTask.key (t : QTask) : Nat := (if t.stage then 1 + (64 * t.record + t.part) else 0) * 4 + t.cls

/-- The weight of a task's sub-queue. -/
def QTask.share (t : QTask) : Nat := if t.stage then t.weight else 4

/-- The repeating order of the lower classes. -/
def lowerOrder : List Nat := [1, 2, 1, 3, 1, 2, 1]

/-- Does a task of a lower class wait at the point? -/
def DispatchPoint.lowerWaits (d : DispatchPoint) : Bool := d.queue.any fun t => t.cls != 0

/-- Choose within a class by weighted round robin over its sub-queues: the foremost task whose sub-queue has credit; when none
has, every sub-queue gets its weight again.
(DESIGN CHOICE, log entry 77.) -/
def DispatchPoint.within (d : DispatchPoint) (fits : List QTask) : Option (QTask × List (Nat × Nat)) :=
  let credit (cs : List (Nat × Nat)) (t : QTask) : Nat := (look cs t.key).getD 0
  match fits.find? fun t => decide (0 < credit d.credits t) with
  | some t => some (t, put d.credits t.key (credit d.credits t - 1))
  | none => match fits with
    | [] => none
    | t :: _ =>
      let cs := fits.foldl (fun cs (t : QTask) => put cs t.key t.share) d.credits
      some (t, put cs t.key (credit cs t - 1))

/-- The next task among those that fit, and the point as its choice leaves it. -/
def DispatchPoint.choose (d : DispatchPoint) (fits : QTask → Bool) : Option (QTask × DispatchPoint) :=
  let ok := d.queue.filter fits
  let zero := ok.filter fun t => t.cls == 0
  let take (t : QTask) (d : DispatchPoint) : QTask × DispatchPoint := (t, { d with queue := dropFirst (· == t) d.queue })
  let lower : Option (QTask × DispatchPoint) :=
    ((List.range 7).map fun i => (d.place + i) % 7).findSome? fun i =>
      let cls := (lowerOrder[i]?).getD 1
      match d.within (ok.filter fun t => t.cls == cls) with
      | none => none
      | some (t, cs) => some (take t { d with credits := cs, place := (i + 1) % 7, zeros := 0 })
  let first : Option (QTask × DispatchPoint) :=
    match d.within zero with
    | none => none
    | some (t, cs) => some (take t { d with credits := cs, zeros := if d.lowerWaits then d.zeros + 1 else 0 })
  if 15 ≤ d.zeros then match lower with
    | some x => some x
    | none => first
  else match first with
    | some x => some x
    | none => lower

end Sys2Proof.Machine
end

