-- ==== Sys2Proof/Machine/Dispatching.lean ====
section
/-! DEFINITION. The scheduler's steps from READY to a running firing: dispatch packets, free notes, chain claims, displacement,
and the start of a firing (R46 to R48, R135, R140 to R161, R168, R199, R211, R367, R369, R372, R383). -/

namespace Sys2Proof.Machine

open Sys2Proof.Bits

/-! ## Dispatch (R30, R142, R157) -/

/-- A record that is dispatched: its fault, its HELD state, or what follows (R30, R142, R211). -/
def State.dispatching (s : State) (p idx : Nat) (k : State → State) : State :=
  match s.dispatchFaultOf p idx with
  | some (sub, aux2) => s.dispatchFault p idx sub aux2
  | none => if s.bindsIn p idx 2 then s.setRecState p idx .held else k s

/-- Is a record READY and live? -/
def State.isReady (s : State) (p idx : Nat) : Bool := s.recLive p idx && s.recState p idx == 2

/-- Does a record wait in the queue of some dispatch point? -/
def State.queued (s : State) (p idx : Nat) : Bool :=
  s.sched.points.any fun x => x.2.queue.any fun t => t.part == p && t.record == idx

/-- Is the start of a record's firing under way? -/
def State.starting (s : State) (p idx : Nat) : Bool :=
  s.pend.any fun i => match i with
    | .firingStart q r _ => q == p && r == idx
    | .packetReturn q r _ => q == p && r == idx
    | _ => false

/-- DISPATCH_PACKET (R30, R142, R157, R168, R211): the first core on the walk or the ring that can take the task gets it; else,
or while its partition or its class may not run, it queues at HOME's dispatch point. -/
def execDispatchPacket (part rec' : Nat) (s : State) : Result :=
  if !s.isReady part rec' ∨ s.queued part rec' ∨ s.starting part rec' ∨ 1 < s.recChain part rec' then .next s
  else .next (s.dispatching part rec' fun s =>
    if !s.mayDispatch part rec' then s.queueTask part rec' false
    else match s.findCore part rec' with
      | some (core, rest) => (s.walkOn part rec' (some rest)).owe (.firingStart part rec' [s.seatFor core])
      | none => s.queueTask part rec' false)

/-- Claim the seats of a chain (R155, R157). -/
def State.claimSeats (s : State) (p idx : Nat) (cores : List Nat) : State × List SeatId :=
  cores.foldl (fun (a : State × List SeatId) core =>
    let id := a.1.seatFor core
    (a.1.mapCore core fun k => { k with claims := put k.claims id.seat (.claimed p idx) }, a.2 ++ [id])) (s, [])

/-- Is a seat claimed for the chain of a record (R155)? -/
def State.claimedFor (s : State) (p idx : Nat) (id : SeatId) : Bool := look (s.core id.core).claims id.seat == some (.claimed p idx)

/-- Release the claims of a chain that were refused (R155): each seat that it held is free, and its core notes it (R158). -/
def State.releaseClaims (s : State) (p idx : Nat) (ids : List SeatId) : State :=
  (ids.filter (s.claimedFor p idx)).foldl (fun s id =>
    (s.mapCore id.core fun k => { k with claims := drop k.claims id.seat }).noteFree id.core p) s

/-- CHAIN_CLAIM (R151, R153, R157, R168): the dispatch point of HOME's cluster claims k seats of the first fitting run, or the
chain waits in its queue for the next free note. -/
def execChainClaim (part rec' : Nat) (s : State) : Result :=
  if !s.isReady part rec' ∨ s.queued part rec' ∨ s.starting part rec' ∨ s.recChain part rec' < 2 then .next s
  else .next (s.dispatching part rec' fun s =>
    if !s.mayDispatch part rec' then s.queueTask part rec' false
    else match s.findRun part rec' with
      | some cores =>
        let x := s.claimSeats part rec' cores
        x.1.owe (.firingStart part rec' x.2)
      | none => s.queueTask part rec' false)

/-- May a queued task go to a core that noted itself free (R158), or a chain to a run (R153)? -/
def State.fitsNote (s : State) (core : Nat) (t : QTask) : Bool :=
  s.recLive t.part t.record && (s.recState t.part t.record == 2 || s.recState t.part t.record == 4) && s.mayDispatch t.part t.record
    && (if 1 < s.recChain t.part t.record then (s.findRun t.part t.record).isSome else s.canTake t.part t.record core none)

/-- FREE_NOTE (R142, R153, R157 to R159, R351, R372): a dispatch point sends the noting core its first fitting task: a READY
record's packet, or a YIELDED record's contexts. -/
def execFreeNote (core cluster : Nat) (s : State) : Result :=
  match (s.point cluster).choose fun t => s.fitsNote core t with
  | none => .next s
  | some (t, d) =>
    let s1 := s.mapPoint cluster fun _ => d
    let chain := 1 < s.recChain t.part t.record
    if s1.recState t.part t.record = 4 then
      let cs := s1.savedOf t.part t.record
      if chain then match s1.findRun t.part t.record with
        | some cores => .next (s1.owe (.contextResume (cs.map (·.num)) (cs.map fun c => s1.seatFor ((cores[c.chainAt]?).getD 0))))
        | none => .next s1
      else .next (s1.owe (.contextResume (cs.map (·.num)) [s1.seatFor core]))
    else if s1.recState t.part t.record ≠ 2 ∨ !s1.recLive t.part t.record then .next s1
    else if chain then .next (s1.owe (.chainClaim t.part t.record))
    else .next (s1.dispatching t.part t.record fun s => s.owe (.firingStart t.part t.record [s.seatFor core]))

/-- PACKET_RETURN (R158, R168): the task goes back to the head of its queue. -/
def execPacketReturn (part rec' cluster : Nat) (s : State) : Result :=
  if !s.isReady part rec' ∨ s.queued part rec' ∨ 96 ≤ cluster then .next s
  else .next (s.mapPoint cluster fun d => { d with queue := s.taskOf part rec' :: d.queue })

/-! ## The start of a firing (R143, R144, R147, R149, R199) -/

/-- The words s1 to s8 of a firing (R144): a window in the place of a bound port's descriptor.
(DEDUCED, log entry 62.) -/
def State.argWords (s : State) (p idx : Nat) (a : Actor) : List Word :=
  (List.range 8).map fun i =>
    let w := s.argWord p idx i
    if i < a.nin + a.nout ∧ w ≠ 0 then s.windowGa (BitVec.ofNat 64 w) (decide (i < a.nin)) else BitVec.ofNat 64 w

/-- FIRINFO of a firing (R147). -/
def State.firinfoOf (s : State) (p idx : Nat) : Word :=
  BitVec.ofNat 64 (s.recGet p idx 281 3 + 2 ^ 3 * s.recGet p idx 60 1 + 2 ^ 16 * s.recGet p idx 44 12 + 2 ^ 32 * idx)

/-- RANK of a firing (R147): RANKOFF of the launch and the record's own. -/
def State.rankOf (s : State) (p idx : Nat) : Word :=
  let off := match s.sched.launches.find? fun l => l.slot == s.recGet p idx 44 12 with
    | some l => field l.record.toNat 160 32
    | none => 0
  BitVec.ofNat 64 ((off + s.recGet p idx 304 16) % 2 ^ 32)

/-- What a firing's context begins as (R367, R419): the one that its record keeps, with the CSRs that hold no firing's own values, its
queues, its bindings and its streams, or a new one.
(DEDUCED, log entry 95.) -/
def State.bornCtx (s : State) (p idx num : Nat) (id : SeatId) (pos : Nat) : Ctx := match s.keptCtx p idx pos with
  | none => Ctx.fresh num id
  | some k =>
    { Ctx.fresh num id with
      queues := k.queues, gbinds := k.gbinds, order := k.order, pv := k.pv, retires := k.retires, cycles := k.cycles, held := k.held,
      csrs := { Csrs.fresh with
        fmode := k.csrs.fmode, fstat := k.csrs.fstat, ybudget := k.csrs.ybudget, energy := k.csrs.energy,
        linkstat := k.csrs.linkstat, lostla := k.csrs.lostla } }

/-- The context of a firing at its start (R16, R143, R144, R147, R149, R151): a continuation begins at RESUME.
(DEDUCED, log entry 18.)
(DEDUCED, log entry 62.) -/
def State.newCtx (s : State) (p idx : Nat) (i : Image) (a : Actor) (num : Nat) (id : SeatId) (chain : List Nat) (pos : Nat) : Ctx :=
  let cont := s.recGet p idx 60 1 == 1
  let regs := (s.argWords p idx a).zipIdx.foldl (fun (r : Regs) x => r.setS (x.2 + 1) x.1) Regs.zero
  let born := s.bornCtx p idx num id pos
  { born with
    part := p, record := idx, lslot := s.recGet p idx 44 12, cls := s.recClass p idx, sRegs := a.s, vRegs := a.v,
    footprint := a.footprint, code := s.codeNow i, regs := regs,
    csrs := { born.csrs with
      tenantid := BitVec.ofNat 64 (s.partTenant p), mxcap := s.grantAt (s.partTenant p) id.core, firinfo := s.firinfoOf p idx,
      rank := s.rankOf p idx,
      chainpos := BitVec.ofNat 64 (pos + 16 * max 1 chain.length) },
    pc := BitVec.ofNat 32 (if cont then s.recGet p idx 320 32 else a.entry),
    lastPc := BitVec.ofNat 32 (if cont then s.recGet p idx 320 32 else a.entry),
    chain := chain, nin := a.nin, born := s.time,
    ports := (List.range (a.nin + a.nout)).map fun k => (BitVec.ofNat 64 (s.argWord p idx k), (a.rates[k]?).getD 1) }

/-- The block-template list at a device offset, up to its entry marked last, as (LA, template) (R199). -/
def State.templatesAt (s : State) : Nat → Nat → List (Nat × Nat)
  | 0, _ => []
  | fuel + 1, off =>
    let e := s.mem.readNat off 32
    (field e 0 32, field e 128 128) :: if bit e 32 then [] else s.templatesAt fuel (off + 32)

/-- The block header templates of an actor written at a core, as the image's constant region lists them (R197, R199); a scratchpad holds
8,192 headers. -/
def State.writeTemplates (s : State) (core : Nat) (i : Image) (a : Actor) : State :=
  if a.tmpl = 0 then s
  else (s.templatesAt 8192 (s.constNow i + 16 * a.tmpl)).foldl (fun (s : State) t =>
    if t.1 + 16 ≤ Config.padSize then { s with mem := s.mem.writeNat (padOff core t.1) 16 t.2 } else s) s

/-- One member's firing started on its seat (R46, R54, R76, R143, R199, R332, R369). -/
def State.startOn (s : State) (c : Ctx) (i : Image) (a : Actor) (cont : Bool) (id : SeatId) : State :=
  let s0 : State := { s with ended := s.ended.filter fun d => d.num != c.num }
  let s1 := ((s0.giveGranules id.core c.num c.granules).fillLaunchArea id.core c.lslot).giveFootprint id.core c.num c.footprint
  let s1 := s1.flushReads id.core
  (if cont then s1 else s1.writeTemplates id.core i a).putOnSeat id c

/-- May a firing start on its seats still (R156, R158): each is free, or claimed for the chain, and its core can take it? -/
def State.seatsHold (s : State) (p idx : Nat) (seats : List SeatId) : Bool :=
  decide (seats.length = s.recChain p idx) && decide (seats.eraseDups.length = seats.length)
    && seats.all fun id => s.seatFree id &&
      match s.needOf p idx with
      | none => false
      | some n =>
        decide (distance id.core (s.recHome p idx) ≤ s.recRadius p idx) && s.hasRoom p id.core n none
          && (if 1 < seats.length then s.claimedFor p idx id else (look (s.core id.core).claims id.seat).isNone)

/-- Is a firing leaving its seat on a core (R161, R168)?
(DEDUCED, log entry 85.) -/
def State.coreYields (s : State) (core : Nat) : Bool := s.running.any fun x => x.1.core == core && x.2.phase != .running

/-- A packet that its core does not take (R157, R158): one that walks goes on along its way, and at its end to the queue of HOME's
cluster; one that a dispatch point sent goes back to it. -/
def State.goOnWalk (s : State) (p idx : Nat) : State :=
  match s.walkLeft p idx with
  | none => s.owe (.packetReturn p idx (clusterOf (s.recHome p idx)))
  | some rest =>
    match if s.mayDispatch p idx then s.firstOf p idx rest else none with
    | some (core, rest) => (s.walkOn p idx (some rest)).owe (.firingStart p idx [s.seatFor core])
    | none => (s.walkOn p idx none).queueTask p idx false

/-- The numbers of a firing's contexts, in the order of the chain (R367): those kept, and free ones for the rest. -/
def numbered : List (Option Ctx) → List Nat → List Nat
  | [], _ => []
  | some c :: cs, free => c.num :: numbered cs free
  | none :: cs, n :: free => n :: numbered cs free
  | none :: cs, [] => numbered cs []

/-- FIRING_START (R46, R54, R142 to R144, R147, R149, R151, R157, R158, R199, R367, R369): the record runs; a core that can no longer
take it passes the packet on or returns it, and a claim that is refused, or that meets a firing leaving one of its cores, releases the
chain's claims.
(DEDUCED, log entry 85.) -/
def execFiringStart (part rec' : Nat) (places : List SeatId) (s : State) : Result :=
  let seats := if places.length = 1 then places.map s.seatNow else places
  let off (s : State) : State := (s.releaseClaims part rec' seats).walkOn part rec' none
  let back (s : State) : State :=
    if 1 < seats.length then (s.releaseClaims part rec' seats).queueTask part rec' false else s.goOnWalk part rec'
  if !s.isReady part rec' ∨ s.queued part rec' then .next (off s)
  else if (s.dispatchFaultOf part rec').isSome ∨ s.bindsIn part rec' 2 then .next ((off s).dispatching part rec' id)
  else .next (s.dispatching part rec' fun s =>
    match s.image (s.recImage part rec') (s.recIgen part rec'), s.recActor part rec' with
    | some i, some a =>
      let nums := numbered ((List.range seats.length).map (s.keptCtx part rec')) (s.freeCtxs (s.newPlaces part rec').length)
      if !s.seatsHold part rec' seats ∨ nums.length ≠ seats.length ∨ !s.mayDispatch part rec'
        ∨ (1 < seats.length ∧ seats.any fun id => s.coreYields id.core) then back s
      else
        let cont := s.recGet part rec' 60 1 == 1
        let chain := if seats.length = 1 then [] else nums
        let members := (nums.zip seats).zipIdx.map fun x =>
          (s.newCtx part rec' i a x.1.1 x.1.2 chain x.2, x.1.2)
        let s1 := ((s.setRecState part rec' .running).recPut part rec' 61 1 0).walkOn part rec' none
        let s2 := members.foldl (fun s m => s.startOn m.1 i a cont m.2) s1
        if chain.isEmpty then s2
        else { s2 with sched := { s2.sched with chains := s2.sched.chains ++
            [{ part := part, record := rec', alive := nums, ending := none }] } }
    | _, _ => back s)

/-! ## Resumption (R351, R370, R372) -/

/-- Can the contexts of a YIELDED record go on some seats (R156, R351)? -/
def State.resumeHolds (s : State) (p idx : Nat) (seats : List SeatId) : Bool :=
  decide (seats.eraseDups.length = seats.length) && s.mayDispatch p idx
    && seats.all fun id => s.seatFree id && (look (s.core id.core).claims id.seat).isNone && s.canTake p idx id.core none

/-- A firing that holds a revoked region does not go on (R30, R39). -/
def State.stopRevoked (s : State) (id : SeatId) : State :=
  match (s.ctxAt id).bind fun c => s.stopIndex c with
  | some idx => s.stopHolder id idx
  | none => s

/-- CONTEXT_RESUME (R351, R370, R372): the contexts of a YIELDED record resume, together for a chain, on the seats that took
the record; where those were faster taken, the record goes back to the head of its queue (R158). -/
def execContextResume (ctxs : List Nat) (places : List SeatId) (s : State) : Result :=
  let seats := if places.length = 1 then places.map s.seatNow else places
  let cs := ctxs.filterMap fun n => s.saved.find? fun c => c.num == n
  match cs with
  | [] => .next s
  | c :: _ =>
    if cs.length ≠ ctxs.length ∨ seats.length ≠ ctxs.length ∨ s.recState c.part c.record ≠ 4 ∨ !s.recLive c.part c.record
      ∨ s.queued c.part c.record then .next s
    else if !s.resumeHolds c.part c.record seats then .next (s.queueTask c.part c.record true)
    else
      let s1 := (s.setRecState c.part c.record .running).recPut c.part c.record 61 1 0
      .next (seats.foldl (fun s id => s.stopRevoked id) ((ctxs.zip seats).foldl (fun s x => s.resumeOn x.1 x.2) s1))

/-! ## Displacement (R161, R410) -/

/-- Nanoseconds that a class-0 task waits before it displaces, stretched by the clock ratio at stages 13 to 15. -/
def State.displaceAfter (s : State) : Nat :=
  let st := s.control.power.stage
  if st = 13 then 13334 else if st = 14 then 20000 else if 15 ≤ st then 40000 else 10000

/-- The firings that a task may displace: single, of a lower class, on a core that could take it then. -/
def State.displaceable (s : State) (p idx : Nat) : List (SeatId × Ctx) :=
  s.running.filter fun x =>
    x.2.part == p && x.2.cls != 0 && x.2.chain.isEmpty && x.2.phase == .running && s.canTake p idx x.1.core (some x.1)

/-- The victim: the least urgent class, and in it the youngest firing. -/
def victimOf (xs : List (SeatId × Ctx)) : Option (SeatId × Ctx) :=
  xs.foldl (fun (best : Option (SeatId × Ctx)) x => match best with
    | none => some x
    | some b => if b.2.cls < x.2.cls ∨ (b.2.cls = x.2.cls ∧ b.2.born < x.2.born) then some x else some b) none

/-- DISPLACEMENT (R161, R364): a class-0 task that has waited 10 µs makes a firing yield, unless the one that it displaced still leaves
its seat. -/
def execDisplacement (part rec' : Nat) (s : State) : Result :=
  let waited := s.sched.ready.any fun r => r.1 == part && r.2.1 == rec' && decide (r.2.2 + s.displaceAfter ≤ s.time)
  let kept := s.sched.displacing.filter fun x => s.hasSeat x.2.2
  let leaving := kept.any fun x => x.1 == part && x.2.1 == rec'
  if !s.isReady part rec' ∨ s.recClass part rec' ≠ 0 ∨ !waited ∨ leaving ∨ !s.queued part rec' ∨ !s.scheduled part ∨ s.control.pfail then
    .next s
  else match victimOf (s.displaceable part rec') with
    | none => .next s
    | some (id, c) =>
      let s1 : State := { s with sched := { s.sched with displacing := kept ++ [(part, rec', c.num)] } }
      .next (s1.stopSeat id false)

/-! ## Waits and chain stalls (R135, R148, R150, R152) -/

/-- WAIT_ENQUEUE (R34, R148, R150): the word's home slice tests the condition and parks or readies the record. -/
def execWaitEnqueue (part rec' off : Nat) (val : Word) (s : State) : Result :=
  if !s.recLive part rec' ∨ s.recState part rec' ≠ 3 ∨ s.hbmEnd < off + 8 then .next s
  else match s.heldAll (s.partTenant part) [off] with
    | .inr d =>
      .next (s.faultRecord part rec' (denyFault (s.partTenant part) (2 ^ 45 * s.devNum + off) 0 0 d))
    | .inl _ => .next (s.enqueueWait s.devNum part rec' off val)

/-- NOTE_WAKE (R130, R150): a NOTE at the word's home slice. -/
def execNoteWake (off : Nat) (all : Bool) (s : State) : Result := .next (s.noteAt off all)

/-- OVERFLOW_RECHECK (R150): the records of a slice's overflow list whose condition holds are woken. -/
def execOverflowRecheck (slice : Nat) (s : State) : Result :=
  let met := s.slices.waiters.filter fun w => w.overflow && homeSlice w.off == slice && s.waitMet w.off w.val
  .next (met.foldl (fun s w => s.wakeWaiter w) s)

/-- CHAIN_STALL_TIMEOUT (R152, R359): a stall on pv or nx of 65,536 cycles raises the chain fault. -/
def execChainStallTimeout (id : SeatId) (s : State) : Result :=
  match s.ctxAt id with
  | none => .next s
  | some c => match c.stall with
    | some (.chain nx _) =>
      if !c.chainOverdue then .next s
      else .next (s.imprecise c.num
        { code := 21, sub := if nx then 2 else 1, val := BitVec.ofNat 64 c.chainAt, aux1 := 0, aux2 := 0, pc := c.pc, detail := 0 } c.retires)
    | _ => .next s

end Sys2Proof.Machine
end

