-- ==== Sys2Proof/Machine/Launches.lean ====
section
/-! DEFINITION. Launches: the two passes of the scan, the completion of an entry, the host's messages, and the rewriting of image
generations (R137 to R142, R164 to R166, R211, R213, R389, R408). -/

namespace Sys2Proof.Machine

open Sys2Proof.Bits

/-! ## The checks of a launch (R137, R164, R166) -/

/-- Is a GA a 64-byte aligned place in HBM of this device?
(DESIGN CHOICE, log entry 73.) -/
def State.lineHere (s : State) (ga : Nat) : Bool :=
  field ga 57 7 == 0 && s.gaDev ga == s.devNum && gaOff ga % 64 == 0 && decide (gaOff ga + 64 ≤ s.hbmEnd)

/-- Does a channel descriptor break R137 for a port of a record?
(DESIGN CHOICE, log entry 73.) -/
def State.channelBad (s : State) (ga : Nat) (idx port rate : Nat) (input : Bool) : Bool :=
  let off := gaOff ga
  let ringGa := s.chan off 0 64
  let n := s.chanItems off
  let sz := s.chanItemSize off
  !s.lineHere ga || field ringGa 57 7 != 0 || s.gaDev ringGa != s.devNum || gaOff ringGa % 16 != 0
    || decide (s.hbmEnd < gaOff ringGa + n * sz) || n == 0 || sz % 16 != 0 || sz < 16 || 65520 < sz
    || s.chan off 112 16 != 0 || s.chan off 290 30 != 0 || s.chan off 354 158 != 0 || n % (max 1 rate) != 0
    || (if input then s.chan off 320 32 != idx || s.chan off 352 2 != port
        else s.chan off 256 32 != idx || s.chan off 288 2 != port)

/-- Is a tensor shape record malformed (R166)? -/
def tsrBad (t : Nat) : Bool :=
  decide (0xD < field t 0 8) || field t 8 8 == 0 || decide (4 < field t 8 8) || decide (1 < field t 24 8)
    || (List.range 4).any fun d =>
      let parts := field t (384 + 16 * d) 16
      parts == 0 || (parts != 1 && (!bit t (16 + d) || decide (field t 8 8 ≤ d)))

/-- Does a record fail the first pass of a launch scan (R164, R211)? -/
def State.recordBad (s : State) (p idx : Nat) : Bool :=
  let im := s.recImage p idx
  let arg := s.recGet p idx 192 64
  !s.inPool p idx || s.recLive p idx || s.listState im != 1 || s.recIgen p idx != s.listGen im
    || decide (s.nactors im ≤ s.recGet p idx 0 16) || decide (16 < s.recGet p idx 276 5) || !s.lineHere arg
    || match s.recActor p idx with
      | none => true
      | some a => (List.range (a.nin + a.nout)).any fun i =>
          let ga := s.argWord p idx i
          ga != 0 && s.channelBad ga idx (if i < a.nin then i else i - a.nin) ((a.rates[i]?).getD 1) (decide (i < a.nin))

/-- The pool indices of a launch. -/
def Launch.records (l : Launch) : List Nat := (List.range (field l.record.toNat 32 21)).map (field l.record.toNat 0 32 + ·)

/-- DONEGA of a launch. -/
def Launch.doneOff (l : Launch) : Nat := gaOff (field l.record.toNat 192 64)

/-- An entry that ends: DONEGA rises by an atomic add, NOTE.ALL wakes its waiters, and the entry is free (R164, R165). -/
def State.endLaunch (s : State) (l : Launch) (amount : Nat) : State :=
  let s1 := (s.atomicAt .add l.doneOff 8 amount).1
  let s2 : State := { s1 with sched := { s1.sched with launches := s1.sched.launches.filter fun x => x.slot != l.slot } }
  let s2 := s2.mapCores fun k => { k with launch := if k.launch = some l.slot then none else k.launch }
  s2.owe (.noteWake l.doneOff true)

/-- The pointers of the channels that a launch begins to use (R137): zero where neither end is live yet.
(DEDUCED, log entry 32.) -/
def State.openChannels (s : State) (p idx : Nat) : State :=
  (s.portsOf p idx).foldl (fun s q =>
    let other := if q.input then s.chan q.off 256 32 else s.chan q.off 320 32
    if s.recLive p other then s
    else s.writeWord (q.off + 16) 16 0) s

/-- One record launched (R138, R140, R142). -/
def State.launchRecord (s : State) (p idx slot : Nat) : State :=
  let s1 := s.openChannels p idx
  let s2 := ((((s1.recPut p idx 44 12 slot).setRecState p idx .waiting).recPut p idx 60 2 0).recPut p idx 281 3 0).recPut p idx 286 4 4
  let s3 : State := { s2 with sched := { s2.sched with live := s2.sched.live ++ [(p, idx)] } }
  s3.loadCounters p idx

/-- LAUNCH_SCAN (R137, R140 to R142, R157, R164, R166, R211, R212): the first pass checks every record; the second launches
them.
(DEDUCED, log entry 32.) -/
def execLaunchScan (slot : Nat) (s : State) : Result :=
  match s.sched.launches.find? fun l => l.slot == slot && !l.scanned with
  | none => .next s
  | some l =>
    if s.control.pfail then .next s else
    if (l.records.any fun i => s.recordBad l.part i) ∨ l.tsrs.any fun t => tsrBad t.toNat then .next (s.endLaunch l (2 ^ 32 + 1))
    else
      let s1 : State := { s with sched := { s.sched with launches := s.sched.launches.map fun x =>
        if x.slot = slot then { x with scanned := true } else x } }
      let s2 := l.records.foldl (fun s i => s.launchRecord l.part i slot) s1
      .next (l.records.foldl (fun s i => s.checkReady l.part i) (l.records.foldl (fun s i => s.recount l.part i) s2))

/-- Does something of a launch's firings still go on (R165, R248)? -/
def State.launchBusy (s : State) (l : Launch) : Bool :=
  s.ended.any (fun c => c.lslot == l.slot && c.part == l.part)
    || s.pend.any fun i => match i with
      | .dectApply p _ _ _ => p == l.part
      | _ => false

/-- LAUNCH_COMPLETE (R165): once all is performed, DONEGA is raised and notified, and the entry freed. -/
def execLaunchComplete (slot : Nat) (s : State) : Result :=
  match s.sched.launches.find? fun l => l.slot == slot && l.scanned && l.remaining == 0 with
  | none => .next s
  | some l =>
    if s.launchBusy l then .next (s.owe (.launchComplete slot))
    else .next (s.endLaunch l (if l.faulted then 2 ^ 32 + 1 else 1))

/-! ## The host (R165, R389, R408) -/

/-- HOST_LAUNCH_MESSAGE (R165, R408): the system image of a live partition issues the launch and replies with its status word;
Dentan refuses for a partition that is not live.  A power failure stops launches (R412).
(DESIGN CHOICE, log entry 101.) -/
def execHostLaunchMessage (part index : Nat) (s : State) : Result :=
  if 64 ≤ part ∨ s.deaf ∨ s.control.pfail then .next s
  else if !s.partLive part then .next (s.send (.hostReply part true))
  else if !s.inPool part index then .next (s.send (.launchStatus part 2))
  else
    let r := s.placeLaunch part index
    .next (r.1.send (.launchStatus part r.2))

/-- HOST_SERVICE_MESSAGE (R389, R408): a message in a function's window; Dentan refuses those of a partition that is not live. -/
def execHostServiceMessage (fn : Nat) (data : List Byte) (s : State) : Result :=
  if 64 < fn ∨ s.deaf then .next s
  else if fn < 64 ∧ !s.partLive fn then .next (s.send (.hostReply fn true))
  else .next { s with control := { s.control with hostMsgs := s.control.hostMsgs ++ [(fn, data)] } }

/-- HOST_LINK_RESET (R408): the host's messages in flight are lost; the device goes on. -/
def execHostLinkReset (s : State) : Result := .next { s with control := { s.control with hostMsgs := [] } }

/-- VF_RESET (R408): a virtual function's pending messages are dropped, and nothing else. -/
def execVfReset (fn : Nat) (s : State) : Result :=
  if 64 ≤ fn then .next s
  else .next { s with control := { s.control with hostMsgs := s.control.hostMsgs.filter fun x => x.1 != fn } }

/-- HOST_DMA (R34, R389): host DMA reaches granules whose owner entry is runtime and which Dentan has marked as host buffers. -/
def execHostDma (a : HostAccess) (s : State) : Result :=
  let n := match a.write with
    | some bytes => bytes.length
    | none => a.len
  let offs := (List.range n).map (a.off + ·)
  let granules := (offs.map (· / 0x200000)).eraseDups
  let allowed := !s.deaf && decide (a.off + n ≤ s.hbmEnd)
    && granules.all fun g => s.control.hostBuffers.contains g && field (s.ownerAt (homeSlice (0x200000 * g)) g) 12 2 == 3
  if !allowed then .next s
  else match a.write with
    | none => .next (s.send (.hostData (s.readBytes none offs)))
    | some bytes => if s.touchesRecord offs then .next s else .next (s.writeBytes (offs.zip bytes))

/-! ## Image generations (R213) -/

/-- IMAGE_GEN_REWRITE (R213): IGEN rewritten in every live record of the image and old generation, as a scheduler action. -/
def execImageGenRewrite (s : State) : Result :=
  if !bit (s.dcbGet imgcmd).toNat 63 then .next s
  else
    let im := s.dcbField imgcmd 0 16
    let old := s.dcbField imgcmd 16 12
    let new := s.dcbField imgcmd 28 12
    let mine := s.sched.live.filter fun r => s.recImage r.1 r.2 == im && s.recIgen r.1 r.2 == old
    .next ((mine.foldl (fun s r => s.recPut r.1 r.2 32 12 new) s).owe .imageGenRewriteComplete)

/-- IMAGE_GEN_REWRITE_COMPLETE (R213): BUSY clears. -/
def execImageGenRewriteComplete (s : State) : Result :=
  if bit (s.dcbGet imgcmd).toNat 63 then .next (s.dcbSetField imgcmd 63 1 0) else .next s

end Sys2Proof.Machine
end

