-- ==== Sys2Proof/Machine/Kill.lean ====
section
/-! DEFINITION. Kill and partitions: the flood, the sweep and its confirmation, and the forming, release and re-slotting of
partitions (R48, R86, R92, R115, R163, R297, R320, R371, R373 to R375, R380 to R383, R398, R419). -/

namespace Sys2Proof.Machine

open Sys2Proof.Bits

/-! ## What a kill does to a context (R115, R297, R374) -/

/-- A context without its engine commands, its streams and its unfinished accesses: they count as performed without effect. -/
def Ctx.emptied (c : Ctx) : Ctx :=
  { c.mapOrder (fun o => { o with outs := [], streams := [] }) with queues := c.queues.map fun q => { q with cmds := [] } }

/-- Every device where a killed context has stores, windows or batches discards and frees them (R92). -/
def State.freeWindows (s : State) (c : Ctx) : State :=
  let devs := c.order.streams.map (·.dev) ++ (c.order.outs.filter fun x => x.kind == .store).map (·.dev) ++ c.order.touched.flatten
  (devs.eraseDups.filter fun d => d != s.devNum && !s.lost d).foldl (fun s d => s.packet c d (.windowsFree c.num)) s

/-- A killed context leaves the device: the weight buffer that it owns is zeroed, its bundle is aborted before the commit
point, and no fault report is written. -/
def State.killCtx (s : State) (c : Ctx) : State :=
  let s1 := s.mapCores fun k => if k.mxOwner = some c.num then { k with weights := [], whdr := 0 } else k
  let s1 : State := { s1 with fabric := { s1.fabric with retries := s1.fabric.retries.filter fun r => r.packet.body.sender != some c.num } }
  let s2 := s1.freeWindows c
  ((s2.forgetWrites fun p => p.dev == s.devNum && p.ctx == c.num).settleBundle c).release c.emptied true false

/-- Is a context in the scope of a kill?
(DEDUCED, log entry 21.) -/
def Ctx.inScope (c : Ctx) (tenant : Nat) (slot : Option Nat) : Bool :=
  c.tenant == tenant && match slot with
    | some l => c.lslot == l
    | none => true

/-- Live records in the scope of a kill.
(DEDUCED, log entry 21.) -/
def State.recsInScope (s : State) (tenant : Nat) (slot : Option Nat) : List (Nat × Nat) :=
  s.sched.live.filter fun r => s.partTenant r.1 == tenant && match slot with
    | some l => s.recGet r.1 r.2 44 12 == l
    | none => true

/-- Does a step that the device owes dispatch one of some records? -/
def dispatches (rs : List (Nat × Nat)) : Instr → Bool
  | .dispatchPacket p r => rs.contains (p, r)
  | .chainClaim p r => rs.contains (p, r)
  | .packetReturn p r _ => rs.contains (p, r)
  | .firingStart p r _ => rs.contains (p, r)
  | _ => false

/-- Every live record in scope becomes FAULTED, its packets, the seats claimed for it and its places in queues and wait lists go
(R150, R155, R159, R168); the number of packets. -/
def State.killRecords (s : State) (rs : List (Nat × Nat)) : State × Nat :=
  let queued := s.sched.points.foldl (fun n p => n + (p.2.queue.filter fun t => rs.contains (t.part, t.record)).length) 0
  let owed := s.pend.filter (dispatches rs)
  let waits (w : Waiter) : Bool := w.dev == s.devNum && rs.contains (w.part, w.record)
  let words := ((s.slices.waiters.filter waits).map (·.off)).eraseDups
  let s0 := owed.foldl (fun s i => match i with
    | .firingStart p r seats => s.releaseClaims p r seats
    | _ => s) (s.unqueue fun t => rs.contains (t.part, t.record))
  let s1 : State := { s0 with
    pend := s0.pend.filter fun i => !dispatches rs i,
    slices := { s0.slices with waiters := s0.slices.waiters.filter fun w => !waits w },
    sched := { s0.sched with
      chains := s0.sched.chains.filter fun c => !rs.contains (c.part, c.record),
      walks := s0.sched.walks.filter fun w => !rs.contains (w.1, w.2.1),
      displacing := s0.sched.displacing.filter fun x => !rs.contains (x.1, x.2.1),
      checked := s0.sched.checked.filter fun x => match x.2 with
        | .wait _ p r => !rs.contains (p, r)
        | _ => true,
      abroad := s0.sched.abroad.filter fun a => !rs.contains (a.2.1, a.2.2) } }
  let s2 := words.foldl (fun s off => s.relink off) s1
  (rs.foldl (fun s r => s.endRecord r.1 r.2 .faulted) s2, queued + owed.length)

/-- Stores of other devices that have not performed here: in windows, or between the port and their lines. -/
def State.waitingStores (s : State) : List StreamStore :=
  s.fabric.windows.flatMap (·.held) ++ s.pend.filterMap fun i => match i with
    | .streamStoreArrival st => some st
    | _ => none

/-- Messages in the scope of a kill are discarded, those that have been spilled too, and for scope 0 the tenant's stores from other
devices with the windows of their sources (R92, R374): each counts as performed, and its sender is told; their number. -/
def State.killPackets (s : State) (d : Purge) : State × Nat :=
  let msgs := (s.fabric.msgs ++ s.fabric.spilled.map (·.2)).filter fun m => d.covers m.tenant m.lslot
  let held := if d.slot.isNone then s.waitingStores.filter fun st => st.tenant == d.tenant else []
  let s1 := s.freeSources fun x => held.any fun st => st.src.dev == x.dev && st.src.ctx == x.ctx
  let s2 := held.foldl (fun s st => s.answer st.tenant (.ack st.src st.seq none)) s1
  (msgs.foldl (fun s m => (s.takeMsg m).answerMsg m none) s2, msgs.length + held.length)

/-- Mesh cycles for which each router discards packets in scope (R374). -/
def purgeCycles : Nat := 4096

/-- THE FLOOD of a kill (R374): every context in scope is reset, saved ones are ended in their buffers, the records, packets and
stores go, and each router begins to discard. -/
def State.flood (s : State) (tenant : Nat) (slot release : Option Nat) : State :=
  let cs := s.allCtx.filter fun c => c.inScope tenant slot
  let rs := s.recsInScope tenant slot
  let gone := s.ended.filter fun c => c.inScope tenant slot
  let d0 : Purge :=
    { tenant := tenant, slot := slot, cores := allCores, release := release, start := s.time, clock := s.clock, contexts := 0, packets := 0 }
  let s0 := gone.foldl (fun s c => s.freeWindows c) s
  let s1 : State := { s0 with ended := s0.ended.map fun c => if c.inScope tenant slot then c.emptied else c }
  let s2 := (cs.foldl (fun s c => s.killCtx c) s1).cleanEnded
  let s3 := s2.killRecords rs
  let s4 := s3.1.killPackets d0
  let d : Purge := { d0 with contexts := cs.length + (gone.filter (·.dormant)).length, packets := s3.2 + s4.2 }
  { s4.1 with control := { s4.1.control with purges := s4.1.control.purges ++ [d] } }

/-! ## The kill's steps (R373, R374) -/

/-- KILL (R373 to R375): a kill is never throttled, and it wins over a save or a yield handler. -/
def execKill (s : State) : Result :=
  if !bit (s.dcbGet killcmd).toNat 63 ∨ s.control.purges.any fun d => d.release.isNone then .next s
  else
    let slot := if s.dcbField killcmd 12 1 = 1 then some (s.dcbField killcmd 13 12) else none
    .next (s.flood (s.dcbField killcmd 0 12) slot none)

/-- KILL_DISCARD_WINDOW_END (R374): the router of a core has discarded for 4,096 mesh cycles; the last one lets the purge be
confirmed. -/
def execKillDiscardWindowEnd (core : Nat) (s : State) : Result :=
  let close (d : Purge) : Purge :=
    if d.clock + purgeCycles ≤ s.clock then { d with cores := d.cores.filter (· != core) } else d
  let ds := s.control.purges.map close
  let closed (d : Purge) : Bool := !d.cores.isEmpty && (close d).cores.isEmpty
  let s1 : State := { s with control := { s.control with purges := ds } }
  .next ((s.control.purges.filter closed).foldl (fun s d => s.owe (if d.release.isNone then .killConfirm else .partcmdComplete)) s1)

/-- KILL_CONFIRM (R373, R374): KILLSTAT, then BUSY clears. -/
def execKillConfirm (s : State) : Result :=
  match s.control.purges.find? fun d => d.release.isNone && d.cores.isEmpty with
  | none => .next s
  | some d =>
    let stat := d.contexts % 2 ^ 16 + 2 ^ 16 * min 0xFFFF d.packets + 2 ^ 32 * min 0xFFFF ((s.time - d.start) / 10)
    let s1 : State := { s with control := { s.control with purges := s.control.purges.filter (· != d) } }
    .next ((s1.dcbSet killstat (BitVec.ofNat 64 stat)).dcbSetField killcmd 63 1 0)

/-! ## Partitions (R380, R381) -/

/-- PART of PARTCMD. -/
def State.cmdPart (s : State) : Nat := s.dcbField partcmd 0 6

/-- Is a PARTCMD operation asked for that has not started? -/
def State.partBusy (s : State) (op : Nat) : Bool :=
  bit (s.dcbGet partcmd).toNat 63 && s.dcbField partcmd 6 2 == op && (look s.control.started partcmd).isNone

/-- Set STATE of a partition: 0 free, 1 forming, 2 live, 3 releasing. -/
def State.setPartState (s : State) (p st : Nat) : State := s.dcbSetField (parttab p 0) 34 2 st

/-- The SLOTS of a live partition from the next boundary on (R381). -/
def State.slotsSoon (s : State) (p : Nat) : Nat := (look s.control.slotsNext p).getD (s.slotsOf p)

/-- Do the rectangles of two partitions share a core? -/
def State.rectsMeet (s : State) (p q : Nat) : Bool :=
  decide (s.partX0 p ≤ s.partX1 q) && decide (s.partX0 q ≤ s.partX1 p) && decide (s.partY0 p ≤ s.partY1 q)
    && decide (s.partY0 q ≤ s.partY1 p)

/-- Does a live partition over a shared core hold a slot that this one's new SLOTS names (R381)?  What it holds now, unless the
new value waits for the same boundary, and what it will hold.
(DEDUCED, log entry 29.) -/
def State.overlap (s : State) (p : Nat) (now : Bool) : Bool :=
  allParts.any fun q => q != p && s.partLive q && s.rectsMeet p q
    && ((s.slotsSoon q &&& s.partSlots p) != 0 || (now && (s.slotsOf q &&& s.partSlots p) != 0))

/-- The status of a FORM (R381): 4 INUSE, 2 BADRECT, 3 TENANTDUP, 1 OVERLAP, 0 OK, tested in this order.
(DEDUCED, log entry 29.) -/
def State.formStatus (s : State) (p : Nat) : Nat :=
  let t := s.partTenant p
  if s.partState p ≠ 0 then 4
  else if s.partX1 p < s.partX0 p ∨ 47 < s.partX1 p ∨ s.partY1 p < s.partY0 p ∨ 31 < s.partY1 p then 2
  else if t = 0 ∨ allParts.any fun q => q != p && s.partState q != 0 && s.partTenant q == t then 3
  else if s.overlap p true then 1
  else 0

/-- Bytes of a partition's swap area (R380). -/
def State.swapSize (s : State) (p : Nat) : Nat :=
  0x20000 * ((s.partX1 p + 1 - s.partX0 p) * (s.partY1 p + 1 - s.partY0 p))

/-- The bit of a partition set in the membership bitmap of every router of its rectangle (R381). -/
def State.setMembers (s : State) (p : Nat) : State :=
  { s with control := { s.control with members := put s.control.members p (BitVec.ofNat 64 (s.dcbField (parttab p 0) 0 22)) } }

/-- PARTITION_FORM (R380, R381): the tests, then the swap area is zeroed and the routers' bits are set while the partition forms. -/
def execPartitionForm (s : State) : Result :=
  if !s.partBusy 0 then .next s
  else
    let p := s.cmdPart
    let st := s.formStatus p
    let s1 := if st = 0 then
        (({ s with mem := s.mem.zero (s.swapBase p) (s.swapSize p) } : State).setMembers p).setPartState p 1
      else s
    .next (s1.started partcmd st .partcmdComplete)

/-- PARTITION_RELEASE (R374, R381, R398): the partition is releasing, and its tenant is killed. -/
def execPartitionRelease (s : State) : Result :=
  if !s.partBusy 1 then .next s
  else
    let p := s.cmdPart
    if !s.partLive p then .next (s.started partcmd 5 .partcmdComplete)
    else
      let s1 : State := { s with control := { s.control with started := put s.control.started partcmd 0 } }
      .next ((s1.flood (s1.partTenant p) none (some p)).setPartState p 3)

/-- PARTITION_RESLOT (R381, R398): a new SLOTS from the next boundary on. -/
def execPartitionReslot (s : State) : Result :=
  if !s.partBusy 2 then .next s
  else
    let p := s.cmdPart
    let st := if !s.partLive p then 5 else if s.overlap p false then 1 else 0
    let s1 : State := if st = 0 then
        { s with control := { s.control with slotsNext := put s.control.slotsNext p (s.partSlots p) } } else s
    .next (s1.started partcmd st .partcmdComplete)

/-- A core that passes from a released partition (R48, R297, R381): scratchpad, accumulators and weight buffer zeroed, its
mailboxes disabled. -/
def State.scrubCore (s : State) (core : Nat) : State :=
  ({ s with mem := s.mem.zero (padOff core 0) Config.padSize } : State).mapCore core fun k =>
    { k with resident := none, launch := none, mbrq := Mailbox.off, mbrp := Mailbox.off, mxOwner := none, weights := [], whdr := 0,
             lines := [] }

/-- What a FORM that succeeded makes of the partition (R381, R385): live, and resident on the cores where no other is. -/
def State.formed (s : State) (p : Nat) : State :=
  let s1 := s.setPartState p 2
  let s2 : State := { s1 with control := { s1.control with slots := put s1.control.slots p (s1.partSlots p) } }
  (s2.partCores p).foldl (fun s k => if (s.core k).resident.isNone then s.mapCore k fun c => { c with resident := some p } else s) s2

/-- The end of a RELEASE (R381, R398): the launch entries freed, the mailboxes disabled, the cores where the partition is
resident scrubbed, its messages dropped, and the partition free. -/
def State.unformed (s : State) (p : Nat) : State :=
  let s1 := (allCores.filter fun k => (s.core k).resident == some p).foldl (fun s k => s.scrubCore k) s
  let mine := (s.sched.launches.filter fun l => l.part == p).map (·.slot)
  let s2 := s1.mapCores fun k => { k with boxes := drop k.boxes p, launch := k.launch.filter fun slot => !mine.contains slot }
  let s3 : State := { s2 with
    sched := { s2.sched with
      launches := s2.sched.launches.filter fun l => l.part != p,
      live := s2.sched.live.filter fun r => r.1 != p },
    fabric := { s2.fabric with spilled := s2.fabric.spilled.filter fun x => x.1 != p },
    control := { s2.control with members := drop s2.control.members p, slots := drop s2.control.slots p, slotsNext := drop s2.control.slotsNext p,
                                 purges := s2.control.purges.filter fun d => d.release != some p } }
  s3.setPartState p 0

/-- PARTCMD_COMPLETE (R381): the operation's effect, once a RELEASE's kill is confirmed; then STATUS, and BUSY clears. -/
def execPartcmdComplete (s : State) : Result :=
  match look s.control.started partcmd with
  | none => .next s
  | some st =>
    let p := s.cmdPart
    let op := s.dcbField partcmd 6 2
    if op = 1 ∧ st = 0 ∧ s.control.purges.any fun d => d.release == some p && !d.cores.isEmpty then .next s
    else
      let s1 := if st ≠ 0 then s else if op = 0 then s.formed p else if op = 1 then s.unformed p else s
      let s2 : State := { s1 with control := { s1.control with started := drop s1.control.started partcmd } }
      .next ((s2.dcbSetField partcmd 8 4 st.toNat).dcbSetField partcmd 63 1 0)

end Sys2Proof.Machine
end

