-- ==== Sys2Proof/Machine/Slices.lean ====
section
/-! DEFINITION. Gang slices and the clock: the slice boundary, the swap of a scratchpad, and the setting of the synchronised time
(R92, R115, R341, R364, R371, R372, R384 to R387, R398, R416). -/

namespace Sys2Proof.Machine

open Sys2Proof.Bits

/-! ## The boundary (R384, R385) -/

/-- The first boundary of a new SLICECTL value: at least 200 µs after its write (R384). -/
def firstBoundary (v : Word) (t : Nat) : Nat :=
  let len := 1000 * field v.toNat 0 24
  (t + 200000 + len - 1) / len * len

/-- The writes of SLICECTL that take effect by now, in the order of their boundaries (R384). -/
def State.slicesDue (s : State) : List (Word × Nat) :=
  sortBy (fun a b => decide (firstBoundary a.1 a.2 ≤ firstBoundary b.1 b.2)) (s.control.sliceNext.filter fun x => firstBoundary x.1 x.2 ≤ s.time)

/-- The boundary that the synchronised time has reached, as the SLICECTL value in force from it on and the slice number. -/
def State.boundaryDue (s : State) : Option (Word × Nat) :=
  match s.slicesDue.getLast? with
  | some (v, _) => some (v, s.time / (1000 * field v.toNat 0 24))
  | none => if s.sliceOf s.time = s.control.slice then none else some (s.control.sliceNow, s.sliceOf s.time)

/-- The slice number, SLICECTL and SLOTS from a boundary on (R381, R384, R398). -/
def State.enterSlice (s : State) (v : Word) (n : Nat) : State :=
  { s with control := { s.control with
      slice := n, sliceNow := v, sliceNext := s.control.sliceNext.filter fun x => !(firstBoundary x.1 x.2 ≤ s.time),
      slots := s.control.slotsNext.foldl (fun ss x => if s.partLive x.1 then put ss x.1 x.2 else ss) s.control.slots,
      slotsNext := [] } }

/-- A wait counts only the time in which the task's partition is scheduled (R388): the times of READY records of the others move on by what
they have spent in the slice that ends at a boundary. -/
def State.holdWaits (s : State) (boundary : Nat) : State :=
  let start := 1000 * field s.control.sliceNow.toNat 0 24 * s.control.slice
  let later (t : Nat) : Nat := t + (boundary - max start t)
  { s with sched := { s.sched with ready := s.sched.ready.map fun r => if s.scheduled r.1 then r else (r.1, r.2.1, later r.2.2) } }

/-- SLICE_BOUNDARY (R364, R366, R375, R385, R398, R416): the seats of partitions that are no longer scheduled, and those of cores that
are to leave service, yield; the cores of incoming partitions, and those where another one is resident, switch when they are idle.
(DEDUCED, log entry 30.) -/
def execSliceBoundary (s : State) : Result :=
  match s.boundaryDue with
  | none => .next s
  | some (v, n) =>
    if s.deaf then .next s
    else
      let s1 := (s.holdWaits (1000 * field v.toNat 0 24 * n)).enterSlice v n
      let out := s1.running.filter fun p => !s1.scheduled p.2.part || s1.control.removing.contains p.1.core
      let s2 := out.foldl (fun s p => s.stopSeat p.1 false) s1
      let incoming := allCores.filter fun k => match s1.scheduledAt k with
        | some p => !s.scheduled p || (s1.core k).resident != some p
        | none => false
      .next (incoming.foldl (fun s k => s.owe (.scratchpadSwap k)) s2)

/-! ## The swap (R371, R385, R387) -/

/-- A partition becomes resident on a core (R385): the scratchpad, rings included, goes to the outgoing one's swap area, and the
incoming one's image is loaded; each partition keeps its own mailboxes.
(DEDUCED, log entry 24.) -/
def State.swapIn (s : State) (core p : Nat) : State :=
  let m1 := match (s.core core).resident with
    | some q => s.mem.copyRange (padOff core 0) Config.padSize (s.swapImage q core)
    | none => s.mem
  let m2 := m1.copyRange (s.swapImage p core) Config.padSize (padOff core 0)
  ({ s with mem := m2 } : State).mapCore core fun k =>
    let boxes := match k.resident with
      | some q => put k.boxes q (k.mbrq, k.mbrp)
      | none => k.boxes
    let mine := (look boxes p).getD (Mailbox.off, Mailbox.off)
    { k with resident := some p, boxes := drop boxes p, mbrq := mine.1, mbrp := mine.2, launch := none, lines := [] }

/-- A core begins to take the tasks of its partition (R385, R386): its dispatch points serve their queues as at a free note, and its
messages land. -/
def State.serveCore (s : State) (core p : Nat) : State :=
  let waiting := (s.partCores p).map clusterOf |>.eraseDups |>.filter fun u => (s.point u).queue.any fun t => t.part == p
  let s1 := waiting.foldl (fun s u => s.owe (.freeNote core u)) s
  [false, true].foldl (fun s net => if (s.nextMsg net core).isSome then s.owe (.messageLand net core) else s) s1

/-- SCRATCHPAD_SWAP (R371, R385, R387).
(DEDUCED, log entry 24.) -/
def execScratchpadSwap (core : Nat) (s : State) : Result :=
  match s.scheduledAt core with
  | none => .next s
  | some p =>
    if !s.inService core then .next s
    else if (s.core core).resident = some p then .next (s.serveCore core p)
    else if !s.coreIdle core then .next s
    else .next ((s.swapIn core p).serveCore core p)

/-- SLICECTL_WRITE (R384): read back at once, and in force from a later boundary.
(DEDUCED, log entry 30.) -/
def execSlicectlWrite (val : Word) (s : State) : Result :=
  let s1 := s.dcbSet slicectl val
  .next { s1 with control := { s1.control with sliceNext := s1.control.sliceNext ++ [(val, s1.time)] } }

/-- IEEE_1588_TIME_SYNC (R385): the synchronised time follows the grandmaster's, and never steps back.
(DEDUCED, log entry 16.) -/
def execIeee1588TimeSync (t : Nat) (s : State) : Result := .next { s with time := max s.time t }

end Sys2Proof.Machine
end

