-- ==== Sys2Proof/Machine/Power.lean ====
section
/-! DEFINITION. Power levels and stages: the three sources of the level, the steps of a stage and what they pause and halve
(R159, R405, R409 to R411). -/

namespace Sys2Proof.Machine

open Sys2Proof.Bits

/-! ## Levels and stages (R409, R410) -/

/-- The limit of a level in W (R409). -/
def levelLimit (level : Nat) : Nat := ([3600, 3200, 2800, 2400, 2000, 1600, 1100, 600][level]?).getD 600

/-- The first stage that a level applies (R409). -/
def levelStage (level : Nat) : Nat := ([0, 3, 5, 7, 10, 12, 15, 18][level]?).getD 18

/-- PWRCAP of PWRCTL (R411). -/
def State.pwrCap (s : State) : Nat := s.dcbField pwrctl 0 3

/-- The level in force: the highest of its three sources (R409). -/
def State.levelNow (s : State) : Nat := max (max s.control.power.pins s.control.power.i3c) s.pwrCap

/-- The source of the level; the lowest code wins a tie (R411). -/
def State.levelSource (s : State) : Nat :=
  if s.control.power.pins = s.levelNow then 0 else if s.control.power.i3c = s.levelNow then 1 else 2

/-- Queues served as at a free note of every core, when a pause of a class has ended.
(DEDUCED, log entry 23.) -/
def State.serveAll (s : State) : State :=
  let parts := allParts.filter fun p => s.scheduled p && s.sched.points.any fun x => x.2.queue.any fun t => t.part == p
  parts.foldl (fun s p => (s.partCores p).foldl (fun s k => s.serveCore k p) s) s

/-- The device at a stage (R410, R411): PWRSTAT.STAGE, the links' width, and the dispatch of classes that are no longer paused.
(DEDUCED, log entry 23.) -/
def State.setStage (s : State) (n : Nat) : State :=
  let old := s.control.power.stage
  let s1 : State := { s with control := { s.control with power := { s.control.power with stage := n } } }
  let s2 := s1.dcbSetField pwrstat 5 5 n
  let half := ofBool (n == 18)
  let s3 := if old = n then s2 else
    ((List.range 24).filter fun p => s2.portUp p).foldl (fun s p => s.dcbSetField (linkst p) 1 1 half) s2
  if (n < 2 ∧ 2 ≤ old) ∨ (n < 1 ∧ 1 ≤ old) then s3.serveAll else s3

/-- What follows a change of a source (R410, R411): LEVEL and SRC; a rise moves the device to the level's first stage, a fall begins
the release of stages. -/
def State.applyLevel (s : State) (old : Nat) : State :=
  let now := s.levelNow
  let s1 := (s.dcbSetField pwrstat 0 3 now).dcbSetField pwrstat 3 2 s.levelSource
  if now = old then s1
  else
    let s2 : State := { s1 with control := { s1.control with power :=
      { s1.control.power with since := s1.time, falling := decide (now < old), lowSince := none } } }
    if old < now then s2.setStage (max s2.control.power.stage (levelStage now)) else s2

/-- POWER_STEP (R409): the pins, sampled at the strobe. -/
def execPowerStep (pins : BitVec 3) (s : State) : Result :=
  let s1 : State := { s with control := { s.control with power := { s.control.power with pins := pins.toNat } } }
  .next (s1.applyLevel s.levelNow)

/-- I3C_POWER_LEVEL (R409): a data byte with a bit above bit 2 is ignored. -/
def execI3cPowerLevel (data : Byte) (s : State) : Result :=
  if 8 ≤ data.toNat then .next s
  else
    let s1 : State := { s with control := { s.control with power := { s.control.power with i3c := data.toNat } } }
    .next (s1.applyLevel s.levelNow)

/-- POWER_CAP_WRITE (R409, R411): Dentan's write of PWRCTL. -/
def execPowerCapWrite (val : Word) (s : State) : Result :=
  .next ((s.dcbSetField pwrctl 0 3 (field val.toNat 0 3)).applyLevel s.levelNow)

/-- POWER_SAMPLE (R410, R411): every 10 µs the 100 µs average; above the limit a stage more, below 95 % of it for 200 µs, or
while stages are being released, a stage less, down to the level's first. -/
def execPowerSample (watts : Nat) (s : State) : Result :=
  let p := s.control.power
  if s.time < p.sampled + 10000 ∨ s.control.pfail then .next s
  else
    let level := s.levelNow
    let limit := levelLimit level
    let first := levelStage level
    let above : Bool := decide (limit < watts)
    let low : Bool := decide (100 * watts < 95 * limit)
    let since := if low then some (p.lowSince.getD s.time) else none
    let full : Bool := match since with
      | some t => decide (t + 200000 ≤ s.time)
      | none => false
    let falling := p.falling && !above && decide (first < p.stage)
    let stage := if above then min 18 (p.stage + 1)
      else if falling ∨ full then (if first < p.stage then p.stage - 1 else p.stage)
      else p.stage
    let s1 := s.dcbSetField pwrstat 10 12 (min 4095 watts)
    let s2 := if above ∧ p.since + 1000000 < s.time then s1.dcbSetField pwrstat 22 1 1 else s1
    let s3 : State := { s2 with control := { s2.control with power :=
      { p with falling := falling && decide (first < stage), lowSince := if full then some s.time else since, sampled := s.time } } }
    .next (s3.setStage stage)

end Sys2Proof.Machine
end

