-- ==== Sys2Proof/Machine/Security.lean ====
section
/-! DEFINITION. Confidential mode, keys, attestation, firmware and the scale-out ports (R31, R34, R68, R209, R211, R385, R390 to
R396, R398, R407). -/

namespace Sys2Proof.Machine

open Sys2Proof.Bits

/-! ## The mode reset (R390) -/

/-- Offsets of the control block registers that hold a BUSY bit. -/
def busyRegs : List Nat := [rupcmd, omupcmd, imgcmd, killcmd, partcmd, keycmd, peercmd, rowflush]

/-- Nothing runs and nothing is stored any more: contexts, partitions, memory, register files, accumulators, weight buffers, tarns and
home-slice caches, keys, and what the device owed (R390 steps 1 to 4). -/
def State.scrubbed (s : State) : State :=
  let s1 := s.allCtx.foldl (fun s c => s.addPenergy c) s
  let s2 := allParts.foldl (fun s p => s.setPartState p 0) s1
  let s3 := busyRegs.foldl (fun s r => s.dcbSetField r 63 1 0) s2
  let s4 := (List.range 128).foldl (fun s h => s.dcbSet (tarnstat h) (dcbReset (tarnstat h))) s3
  let k := s4.control
  { s4 with
    cx := none, seats := [], saved := [], ended := [], mem := [], cores := [], slices := Slices.fresh, sched := Sched.fresh, pend := [],
    fabric := { Fabric.fresh with failures := s4.fabric.failures, retrains := s4.fabric.retrains },
    control := { k with keys := [], purges := [], removing := [], started := [], slots := [], slotsNext := [], hostMsgs := [],
                        hostBuffers := [], receives := [], seals := [], members := [], owned := [] } }

/-- MODE_RESET (R390): from the write until the boot the device answers nothing; CONF takes NEXT, and confidential mode makes fresh
keys.
(DEDUCED, log entry 22.) -/
def execModeReset (s : State) : Result :=
  if !bit (s.dcbGet modectl).toNat 63 ∨ s.control.resetting ∨ s.control.pfail then .next s
  else
    let next := s.dcbField modectl 1 1
    let s1 := (s.scrubbed.dcbSetField keycmd 12 8 0).dcbSetField modectl 0 1 next
    .next (({ s1 with control := { s1.control with resetting := true, keySerial := s1.control.keySerial + next } } : State).owe
      .modeResetBootDone)

/-- MODE_RESET_BOOT_DONE (R390): Dentan has booted again.
(DEDUCED, log entry 22.) -/
def execModeResetBootDone (s : State) : Result :=
  if !s.control.resetting then .next s
  else .next (({ s with control := { s.control with resetting := false } } : State).dcbSetField modectl 63 1 0)

/-! ## Keys (R392, R394, R398) -/

/-- The world whose key seals a MAC block (R392): the owner's for KIND tenant, else world 0. -/
def State.worldOf (s : State) (blk : Nat) : Nat :=
  let e := s.ownerWord (blk / 4096)
  if field e 12 2 = 1 then field e 0 12 else 0

/-- The keys of a world set (R394). -/
def State.setKey (s : State) (k : WorldKey) : State :=
  { s with control := { s.control with keys := k :: s.control.keys.filter fun x => x.tenant != k.tenant } }

/-- KEY_ROTATION (R394): phase 1 makes generation g + 1 receivable while g still seals; with the other roots' confirmation phase 2 switches
sealing to it, and g is the previous one.
(DEDUCED, log entry 28.) -/
def execKeyRotation (s : State) : Result :=
  if !bit (s.dcbGet keycmd).toNat 63 then .next s
  else match look s.control.started keycmd with
    | none =>
      let t := s.dcbField keycmd 0 12
      let s1 : State := { s with control := { s.control with started := put s.control.started keycmd (BitVec.ofNat 64 t) } }
      .next ((s1.setKey { tenant := t, gen := s.worldGen t, phase := 1 }).owe .keyRotation)
    | some w =>
      let t := w.toNat
      if !s.nextInstalled t then .next s
      else
        let g := (s.worldGen t + 1) % 256
        .next (((s.setKey { tenant := t, gen := g, phase := 2 }).dcbSetField keycmd 12 8 g).owe .keyRotationComplete)

/-- KEY_ROTATION_COMPLETE (R394, R398): phase 3 seals every block of the world again, then BUSY clears.
(DEDUCED, log entry 28.) -/
def execKeyRotationComplete (s : State) : Result :=
  match look s.control.started keycmd with
  | none => .next s
  | some w =>
    let t := w.toNat
    let g := s.worldGen t
    if s.nextInstalled t then .next s else
    let s1 : State := { s with control := { s.control with
      started := drop s.control.started keycmd,
      keys := s.control.keys.map fun k => if k.tenant = t then { k with phase := 0 } else k,
      seals := s.control.seals.map fun x =>
        if s.worldOf x.1 = t ∧ x.2.2 = (g + 255) % 256 then (x.1, x.2.1, g) else x } }
    .next (s1.dcbSetField keycmd 63 1 0)

/-! ## Attestation and firmware (R395, R396, R398) -/

/-- The listed images of a tenant in image id order (R209, R211, R395). -/
def State.listedImages (s : State) (tenant : Nat) : List Image :=
  sortBy (fun a b => decide (a.id ≤ b.id))
    (s.sched.images.filter fun i => i.tenant == tenant && s.listState i.id == 1 && s.listGen i.id == i.code.igen)

/-- The 320 bytes of an attestation report (R395, R396). -/
def State.reportFor (s : State) (part : Nat) (nonce : BitVec 256) : List Byte :=
  let tenant := s.partTenant part
  let set := Config.shake ((s.listedImages tenant).flatMap fun i => bytesOf 64 i.hash.toNat)
  let m := s.control.measures
  bytesOf 320 (0x41545352 + 2 ^ 32 * 1 + 2 ^ 40 * ofBool s.confidential + 2 ^ 41 * ofBool s.control.activating + 2 ^ 48 * tenant
    + 2 ^ 64 * nonce.toNat + 2 ^ 320 * m.fw.toNat + 2 ^ 832 * m.dtn.toNat + 2 ^ 1344 * m.tr.toNat + 2 ^ 1856 * m.tver.toNat
    + 2 ^ 1920 * set.toNat + 2 ^ 2432 * (s.time % 2 ^ 64))

/-- ATTESTATION_REQUEST (R395, R396, R398): the report, and its signature over its hash; a device in a mode reset does not answer. -/
def execAttestationRequest (part : Nat) (nonce : BitVec 256) (s : State) : Result :=
  if s.deaf ∨ 64 ≤ part ∨ !s.partLive part then .next s
  else
    let r := s.reportFor part nonce
    .next (s.send (.attestation part r (Config.sign (bytesOf 64 (Config.shake r).toNat))))

/-- FIRMWARE_ACTIVATION_START (R396). -/
def execFirmwareActivationStart (s : State) : Result := .next { s with control := { s.control with activating := true } }

/-- FIRMWARE_ACTIVATION_COMPLETE (R396): the new measurements, all at once. -/
def execFirmwareActivationComplete (m : Measures) (s : State) : Result :=
  if s.control.activating then .next { s with control := { s.control with activating := false, measures := m } } else .next s

/-! ## The scale-out ports (R31, R68, R393, R407) -/

/-- What a scale-out port's DMA engine may touch for a work request: the bytes as they are held, checked under the tenant of the queue
pair's partition; a refused request moves no byte and completes in error. -/
def State.workBytes (s : State) (w : WorkReq) (n : Nat) (write : Bool) (go : List Nat → State) : State :=
  let t := s.partTenant w.part
  let ga := dBase (s.descAt (hIndex w.handle)) + w.off
  let off := gaOff ga
  let offs := (List.range n).map (off + ·)
  let fail (s : State) : State := s.send (.scaleOut w true)
  let breach (x : Deny) (at' : Nat) : State :=
    fail (s.refuseReq { origin := .scaleOut w.port, tenant := t, off := off, len := n, op := .load } x at')
  if 2 ≤ w.port ∨ 64 ≤ w.part ∨ !s.partLive w.part then fail s
  else if (s.portCheck t w.handle ga n (if write then .write else .read)).isSome then fail s
  else if field ga 45 12 ≠ s.devNum ∨ s.hbmEnd < off + n then fail s
  else match if write then s.heldWrite t offs else s.heldAll t offs with
    | .inr x => breach x (s.firstDenied t write offs)
    | .inl held => if write ∧ s.touchesRecord held then breach .record (s.firstInRecord held) else go held

/-- An RDMA READ or WRITE here, or the payload of a SEND that goes out: in confidential mode payloads leave sealed (R393). -/
def State.serveWork (s : State) (w : WorkReq) : State :=
  match w.write with
  | none => s.workBytes w w.len false fun held =>
      let s0 := s.cacheOwners held
      s0.answer (s0.partTenant w.part) (.scaleOut { w with write := some (s0.readBytes none held) } false)
  | some bs => s.workBytes w bs.length true fun held => ((s.cacheOwners held).writeBytes (held.zip bs)).send (.scaleOut w false)

/-- A SEND that comes: its bytes land in the oldest buffer posted on its queue pair, which completes; with none, or with one that is too
small, it completes in error.
(DEDUCED, log entry 26.) -/
def State.takeSend (s : State) (w : WorkReq) : State :=
  let mine (r : WorkReq) : Bool := r.port == w.port && r.pair == w.pair && r.part == w.part
  match w.write, s.control.receives.find? mine with
  | some bs, some r =>
    let s1 : State := { s with control := { s.control with receives := dropFirst mine s.control.receives } }
    if r.len < bs.length then s1.send (.scaleOut r true) else s1.serveWork { r with write := some bs }
  | _, _ => s.send (.scaleOut w true)

/-- SCALEOUT_WORK_REQUEST (R31, R407): the control complex's own request at a port, or a buffer that it posts there.
(DEDUCED, log entry 26.) -/
def execScaleoutWorkRequest (w : WorkReq) (s : State) : Result :=
  if s.deaf then .next s
  else .next <| match w.verb with
    | .receive =>
      if 2 ≤ w.port ∨ 64 ≤ w.part ∨ !s.partLive w.part then s.send (.scaleOut w true)
      else { s with control := { s.control with receives := s.control.receives ++ [w] } }
    | .send => s.serveWork { w with write := none }
    | .rdma => s.serveWork w

/-- SCALEOUT_PACKET (R393, R407): a packet that fails its tag or its generation is discarded and counted; another is a READ or WRITE of
this device's bytes, or a SEND.
(DEDUCED, log entry 26.)
(DEDUCED, log entry 27.) -/
def execScaleoutPacket (tenant keyGen : Nat) (tagOk : Bool) (w : WorkReq) (s : State) : Result :=
  if s.deaf then .next s
  else if !s.authentic tenant keyGen tagOk then .next s.linkFail
  else .next <| match w.verb with
    | .rdma => s.serveWork w
    | .send => s.takeSend w
    | .receive => s

end Sys2Proof.Machine
end

