-- ==== Sys2Proof/Machine/Failures.lean ====
section
/-! DEFINITION. Failures and resets: the power-fail trap, its image and its restore, the flush of rows, errors and the removal of
cores, and the device reset (R5, R11, R18, R63, R319, R332, R359, R364, R366, R369, R375, R379, R390, R391, R412 to R417). -/

namespace Sys2Proof.Machine

open Sys2Proof.Bits

/-! ## The power-fail trap (R412, R413) -/

/-- A free word for a destination of MXCMD whose reply never comes. -/
def Ctx.freeOwed (c : Ctx) (fresh : Nat) : Ctx :=
  let closing (r : Late) : Bool := c.order.closes.any fun k => k.num == r.num
  let regs := (c.order.late.filter fun r => !closing r).zipIdx.foldl (fun (g : Regs) x =>
    let w := Config.freeValue (fresh + x.2)
    let g1 := if x.1.writes then g.putS x.1.dst w else g
    if x.1.y0 then { g1 with y0 := w } else g1) c.regs
  { c with regs := regs, order := { c.order with late := c.order.late.filter closing } }

/-- A context as the forced save of a power failure leaves it (R366, R412, R414): commands, messages and tokens are gone, an open
bundle is doomed with PEER_LOST, a read group is lost with cause 3, and a batch close has lost every peer that it waited for. -/
def Ctx.pfSaved (c : Ctx) (fresh : Nat) : Ctx :=
  let c1 := if c.inYield then c.dropAwait.leaveYield else c.loseCover
  let c2 := c1.freeOwed fresh
  { c2 with
    phase := .saving, forced := true, stall := none, sendq := [[], []],
    queues := c2.queues.map fun q =>
      { q with done := q.issued, ahead := [], cmds := [], abandoned := q.abandoned || !q.cmds.isEmpty },
    order := { c2.order with
      outs := [], streams := [], tokens := [], awaits := [], lines := [], conflict := none, more := 0,
      bundle := c2.order.bundle.map fun b => { b with stage := .opened, doomed := some (4, none), waiting := [], comps := [] },
      group := c2.order.group.map fun g => g.mark (some 3) 0,
      closes := c2.order.closes.map fun k => { k with waiting := [], lost := sortNat (k.lost ++ k.waiting).eraseDups } } }

/-- Does a step that the device owes belong to a kill (R375, R412)? -/
def ofKill : Instr → Bool
  | .killConfirm => true
  | .partcmdComplete => true
  | _ => false

/-- POWER_FAIL (R366, R375, R412): stage 18, no dispatch, launch or packet any more; a kill under way completes first, every context
on a seat is saved in place, and commands and messages are abandoned. -/
def execPowerFail (s : State) : Result :=
  if s.control.pfail then .next s
  else
    let s0 := if s.pend.contains .kill then match execKill s with
        | .next t => t
        | _ => s
      else s
    let s1 := (s0.running.filter fun p => p.2.fault.isSome).foldl (fun s p => s.deliverFault p.2.num) s0
    let s1 := (s1.running.map (·.1)).foldl (fun s id => s.withhold id) s1
    let s2 : State := { s1 with control := { s1.control with pfail := true } }
    let s3 := s2.setStage 18
    let n := s3.fresh
    .next { s3 with
      cx := s3.cx.map fun c => c.pfSaved (n + 64 * c.num),
      seats := s3.seats.map fun (p : SeatId × Ctx) => (p.1, p.2.pfSaved (n + 64 * p.2.num)),
      fresh := n + 64 * 2 ^ 21,
      fabric := { s3.fabric with msgs := [], retries := [], closes := [] },
      pend := s3.pend.filter ofKill }

/-- The power-fail image (R413). -/
def State.flashImage (s : State) : FlashImage :=
  { ctxs := s.running.map fun p => { p.2 with phase := .yielded, seatAt := p.1 },
    pads := s.mem.filter fun c => (bankCore c.1).isSome,
    resident := s.cores.filterMap fun p => p.2.resident.map fun q => (p.1, q),
    boxes := s.cores.map fun p => (p.1, p.2.mbrq, p.2.mbrp),
    weights := (s.cores.filter fun p => !p.2.weights.isEmpty).map fun p => (p.1, p.2.weights),
    tarns := s.slices.versions, conf := s.confidential }

/-- FLASH_DRAIN_DONE (R412, R413): the image is in flash, and FLASHDONE is signalled. -/
def execFlashDrainDone (s : State) : Result :=
  if !s.control.pfail ∨ s.control.drained then .next s
  else .next (({ s with control := { s.control with flash := some s.flashImage, drained := true } } : State).send .flashDone)

/-! ## The restore (R379, R414) -/

/-- A context of the image returned to YIELDED, its record live, and its state in its buffer as a forced save would leave it (R366).
(DESIGN CHOICE, log entry 19.) -/
def State.restoreCtx (s : State) (c : Ctx) : State :=
  let c1 := { c with forced := true, rows := !s.buffered c }
  let s1 : State := { s with
    saved := s.saved ++ [c1],
    sched := { s.sched with live := (c.part, c.record) :: s.sched.live.filter (· != (c.part, c.record)) } }
  ((s1.writeSaveArea c1 true).saveFootprint c1).completeCloses c.num (c.order.closes.length + 1)

/-- A word of a context buffer. -/
def State.bufferWord (s : State) (n off : Nat) : Nat := s.mem.readNat (s.bufferOf n + off) 8

/-- The virtual queues of a save area: abandoned commands count as complete (R332, R379). -/
def State.bufferQueues (s : State) (n : Nat) : List VQ :=
  (List.range 8).map fun i =>
    let issued := s.bufferWord n (0xDC0 + 16 * i)
    let w := s.bufferWord n (0xE40 + 8 * i)
    { VQ.fresh with
      issued := issued, done := issued, weight := field w 0 4, credit := field w 4 5,
      abandoned := bit w 14 || issued != s.bufferWord n (0xDC8 + 16 * i) }

/-- The collective bindings of a save area (R333). -/
def State.bufferBinds (s : State) (n : Nat) : List (Option GBind) :=
  (List.range 4).map fun i =>
    let w := s.bufferWord n (0xD88 + 16 * i)
    if bit w 63 then some { word := BitVec.ofNat 64 (s.bufferWord n (0xD80 + 16 * i)), timeout := field w 0 32, seq := field w 32 31 } else none

/-- The batch, bundle and group state of a save area: an open bundle is doomed with PEER_LOST, and an open read group lost with cause 3
(R414). -/
def State.bufferOrder (s : State) (n : Nat) : Order :=
  let touched (b : Nat) : List Nat :=
    let m := s.mem.readNat (s.bufferOf n + 0x880 + 256 * b) 256
    (List.range 2048).filter fun d => bit m d
  { Order.fresh with
    touched := (List.range 4).map touched,
    bundle := if bit (s.bufferWord n 0x788) 32 then
        some { ident := BitVec.ofNat 64 (s.bufferWord n 0x780), comps := [], lines := 0, doomed := some (4, none), stage := .opened,
               waiting := [], mmax := 0, stamp := none, latelost := false, lost := [], outcome := none, away := [], since := 0 }
      else none,
    group := if bit (s.bufferWord n 0x800) 0 then some { t := s.bufferWord n 0x808, lost := some (3, 0), devs := [] } else none }

/-- The accumulators, the sticky state and the weight descriptor of a save area (R317, R368). -/
def State.bufferMatrix (s : State) (n : Nat) : Matrix :=
  let base := s.bufferOf n
  let acc := (List.range 2048).foldl (fun (a : List (Nat × Nat)) i =>
    let w := s.mem.readNat (base + 0x2800 + 4 * i) 4
    if w = 0 then a else accSet a i w) []
  { acc := acc, stat := BitVec.ofNat 64 (setField (setField (s.bufferWord n 0x2400) 0 11 0) 17 4 0), wla := s.bufferWord n 0x2408,
    whdr := BitVec.ofNat 128 (s.mem.readNat (base + 0x2410) 16), queue := [] }

/-- A YIELDED context of a record that the runtime has rewritten in its buffer (R414): it resumes as after a forced save.
(DESIGN CHOICE, log entry 19.) -/
def State.rebuilt (s : State) (p idx n : Nat) : Option Ctx :=
  if s.bufferWord n 0x50 ≠ saveMark p ∨ s.bufferWord n 0x30 ≠ idx then none
  else match s.image (s.recImage p idx) (s.recIgen p idx), s.recActor p idx with
    | some i, some a =>
      let seat := s.bufferWord n 0x28
      let id : SeatId := { core := field seat 0 11, seat := field seat 11 2 }
      let c := s.putInPlace (s.newCtx p idx i a n id [] 0)
      some { c with
        phase := .yielded, forced := true, evt := bit (s.bufferWord n 0x40) 0, queues := s.bufferQueues n, gbinds := s.bufferBinds n,
        order := s.bufferOrder n, mx := s.bufferMatrix n,
        pv := (List.range (min 2 (s.bufferWord n 0x48))).map fun k => BitVec.ofNat 1024 (s.mem.readNat (s.bufferOf n + 0xC80 + 128 * k) 128) }
    | _, _ => none

/-- The contexts of a record that its buffers hold, the restored ones' apart. -/
def State.rebuiltOf (s : State) (p idx : Nat) : List Ctx :=
  ((List.range (s.dcbField ctxcount 0 17)).filter fun n => !s.saved.any fun c => c.num == n).filterMap fun n => s.rebuilt p idx n

/-- A number that no context has, for a position of a chain whose member has ended. -/
def endedMember (q : Nat) : Nat := 2 ^ 30 + q

/-- A record whose contexts are restored: its chain runs on with the members that are there, and it is YIELDED and queued (R153, R414).
(DESIGN CHOICE, log entry 19.) -/
def State.restoreRecord (s : State) (p idx : Nat) : State :=
  let cs := s.savedOf p idx
  let k := s.recChain p idx
  let chain := if k = 1 then [] else (List.range k).map fun q => ((cs.find? fun c => c.chainAt == q).map (·.num)).getD (endedMember q)
  let s1 : State := { s with saved := s.saved.map fun c => if c.part = p ∧ c.record = idx then { c with chain := chain } else c }
  let run : ChainRun :=
    { part := p, record := idx, alive := cs.map (·.num), ending := if cs.any fun c => c.chainAt == 0 then none else some .done }
  let s2 : State := if k = 1 then s1 else { s1 with sched := { s1.sched with chains := s1.sched.chains ++ [run] } }
  match (s2.savedOf p idx).head? with
  | some c => s2.yieldRecord c
  | none => s2

/-- The records of a partition that stand YIELDED in its rewritten pool, and whose contexts are not in the image: those whose buffers the
runtime has rewritten are restored from them, and the others are FAULTED. -/
def State.settleYielded (s : State) (p : Nat) : State :=
  let mine := (List.range (s.poolCnt p)).filter fun i =>
    s.inPool p i && s.recState p i == 4 && !s.saved.any fun c => c.part == p && c.record == i
  mine.foldl (fun s i =>
    let s1 : State := { s with sched := { s.sched with live := (p, i) :: s.sched.live.filter (· != (p, i)) } }
    match s1.rebuiltOf p i with
    | [] => s1.endRecord p i .faulted
    | cs => ({ s1 with saved := s1.saved ++ cs } : State).restoreRecord p i) s

/-- The scratchpad and mailboxes of a core written back from the image. -/
def State.restoreCore (s : State) (img : FlashImage) (core p : Nat) : State :=
  let boxes := (look img.boxes core).getD (Mailbox.off, Mailbox.off)
  let pad := img.pads.filter fun c => bankCore c.1 == some core
  ({ s with mem := (s.mem.zero (padOff core 0) Config.padSize).writeEach pad } : State).mapCore core fun k =>
    { k with resident := some p, mbrq := boxes.1, mbrp := boxes.2 }

/-- POWER_FAIL_RESTORE (R379, R413, R414): an image that fails its signature or comes from another mode is refused; else the
partitions whose runtimes accept get back their scratchpads and the contexts that held a seat, and those whose buffers their runtimes have rewritten. -/
def execPowerFailRestore (sigOk : Bool) (accept : List Nat) (s : State) : Result :=
  match s.control.flash with
  | none => .next s
  | some img =>
    if s.deaf then .next s
    else
      let s0 : State := { s with control := { s.control with flash := none } }
      if !sigOk ∨ img.conf ≠ s.confidential then .next s0
      else
        let ps := accept.eraseDups.filter fun p => decide (p < 64) && s.partLive p
        let s1 := (img.resident.filter fun x => ps.contains x.2).foldl (fun s x => s.restoreCore img x.1 x.2) s0
        let cs := img.ctxs.filter fun c => ps.contains c.part
        let s2 := cs.foldl (fun s c => s.restoreCtx c) s1
        let s3 := ((cs.map fun c => (c.part, c.record)).eraseDups).foldl (fun s r => s.restoreRecord r.1 r.2) s2
        .next (ps.foldl (fun s p => s.settleYielded p) s3)

/-! ## The flush of rows (R369, R415) -/

/-- ROW_FLUSH (R369, R415): every core copies the rows of its YIELDED contexts to their save areas, and they stay in place.
(DESIGN CHOICE, log entry 20.) -/
def execRowFlush (s : State) : Result :=
  if !bit (s.dcbGet rowflush).toNat 63 then .next s
  else .next (((s.saved.filter (·.rows)).foldl (fun s c => s.saveRows c) s).owe .rowFlushComplete)

/-- ROW_FLUSH_COMPLETE (R415): BUSY clears. -/
def execRowFlushComplete (s : State) : Result := .next (s.dcbSetField rowflush 63 1 0)

/-! ## Errors (R5, R11, R359, R391, R416) -/

/-- Fault code 17 of a context, delivered at once. -/
def State.eccFault (s : State) (n : Nat) (e : EccErr) : State :=
  match s.findCtx n with
  | none => s
  | some c =>
    (s.imprecise n { code := 17, sub := e.sub, val := e.val, aux1 := 0, aux2 := 0, pc := c.pc, detail := 0 } c.retires).deliverFault n

/-- An uncorrectable error in a core's own state (R416): its context and those whose save meets it take the fault, the others of the
core are saved whole, and the core leaves service at once. -/
def State.coreError (s : State) (e : EccErr) : State :=
  let hit := e.ctx.toList ++ ((s.running.filter fun p => p.1.core == e.core && e.blocked.contains p.2.num).map fun p => p.2.num)
  let s1 := hit.eraseDups.foldl (fun s n => s.eccFault n e) s
  let s2 := (s1.running.filter fun p => p.1.core == e.core).foldl (fun s p => s.stopSeat p.1 true) s1
  if s2.inService e.core then s2.removeCore e.core else s2

/-- Can the tag of a MAC block fail (R391)?  In confidential mode that of a block which has been written. -/
def State.tagged (s : State) (e : EccErr) : Bool :=
  e.sub == 1 && s.confidential && (look s.control.seals (gaOff e.val.toNat / 512)).isSome

/-- UNCORRECTABLE_ERROR (R359, R391, R416): of HBM, where confidential mode counts a failed tag, of a tarn, or of a core's own
state. -/
def execUncorrectableError (e : EccErr) (s : State) : Result :=
  if e.sub = 0 ∨ 6 < e.sub ∨ !s.inService e.core ∨ (e.tag = true ∧ !s.tagged e) then .next s
  else if 2 ≤ e.sub ∧ e.sub ≤ 5 then .next (s.coreError e)
  else
    let s1 := if e.tag then
        s.dcbSetField intstat 0 32 (min (2 ^ 32 - 1) (s.dcbField intstat 0 32 + 1))
      else s
    .next (match e.ctx with
      | some n => match s1.findCtx n with
        | some c => s1.imprecise n { code := 17, sub := e.sub, val := e.val, aux1 := 0, aux2 := 0, pc := c.pc, detail := 0 } c.retires
        | none => s1
      | none => s1)

/-- CORRECTED_ERROR (R416, R417): the core whose corrected errors within one second reach ERRTHR is to leave service: its contexts
yield at the next slice boundary, and it is removed when its seats are idle. -/
def execCorrectedError (core : Nat) (s : State) : Result :=
  if !s.inService core then .next s
  else
    let times := ((s.core core).cerr.filter fun t => decide (s.time < t + 1000000000)) ++ [s.time]
    let s1 := s.mapCore core fun k => { k with cerr := times }
    let limit := s.dcbField errthr 0 16
    if limit = 0 ∨ times.length < limit then .next s1
    else
      let s2 : State := { s1 with control := { s1.control with removing := (core :: s1.control.removing).eraseDups } }
      .next (if s2.coreIdle core then s2.removeCore core else s2)

/-! ## The device reset (R5, R18, R390, R416, R417) -/

/-- DEVICE_RESET: everything at its reset value, HBM scrubbed, and the cores that fail their self-test out of service.  The mode
in force, the power-fail image and the firmware's measurements are no part of what a reset clears. -/
def execDeviceReset (failed : List Nat) (s : State) : Result :=
  let r := State.reset
  let s1 : State := { r with
    devNum := s.devNum, time := s.time, clock := s.clock, fresh := s.fresh, agenda := s.agenda, sent := s.sent,
    control := { r.control with keySerial := s.control.keySerial, measures := s.control.measures, flash := s.control.flash } }
  let s2 := s1.dcbSetField modectl 0 1 (s.dcbField modectl 0 1)
  .next ((failed.eraseDups.filter fun c => decide (c < Config.cores)).foldl (fun s c => s.removeCore c) s2)

end Sys2Proof.Machine
end

