-- ==== Sys2Proof/Machine/Object.lean ====
section
/-! DEFINITION. Portable objects and sealed images as files: the ELF64 header, the sections and their records, symbols and relocations,
and the condition FORMAT of R205 (R195 to R202, R345). -/

namespace Sys2Proof

open Sys2Proof.Bits

/-! ## The container (R195, R196) -/

/-- sh_type, sh_flags and entry size of a section of R196. -/
def SecName.shape : SecName → Option (Nat × Nat × Nat)
  | .text => some (1, 6, 0)
  | .rodata => some (1, 2, 0)
  | .data => some (1, 3, 0)
  | .lmem => some (0x70000001, 0, 8)
  | .actors => some (0x70000002, 0, 32)
  | .channels => some (0x70000003, 0, 16)
  | .regions => some (0x70000004, 0, 16)
  | .tensors => some (0x70000005, 0, 64)
  | .traps => some (0x70000006, 0, 8)
  | .seal => some (0x70000007, 0, 0)
  | .other => none

/-- The bytes of a section, none where the file lacks it. -/
def PFile.sec (f : PFile) (n : SecName) : List Byte :=
  match f.sections.find? fun x => x.name == n with
  | some x => x.data
  | none => []

/-- The section header index of a name: sections are numbered from 1. -/
def PFile.secIndex (f : PFile) (n : SecName) : Option Nat := (f.sections.findIdx? fun x => x.name == n).map (· + 1)

/-- Does a section keep to R196?  A name of the table has its type, flags and entry size; the device's type range holds no other. -/
def PSection.ok (x : PSection) : Bool :=
  !(decide (0x70000007 ≤ x.typ) && decide (x.typ ≤ 0x7FFFFFFF)) && x.name != .seal
    && match x.name.shape with
      | some t => x.typ == t.1 && x.flags == t.2.1 && x.entsize == t.2.2 && x.data.length % max 1 t.2.2 == 0
      | none => true

/-- The header values that a portable object and a sealed image share (R195). -/
def PFile.identOk (f : PFile) : Bool :=
  f.eclass == 2 && f.edata == 1 && f.osabi == 0 && f.machine == 0x5A17 && f.eentry == 0 && field f.eflags.toNat 0 4 == 1
    && field f.eflags.toNat 6 26 == 0

/-- Is a file a portable object by its header (R195)? -/
def PFile.portable (f : PFile) : Bool := f.identOk && f.etype == 1 && !bit f.eflags.toNat 5

/-- Is a file a sealed image by its header, made from an object with this FOLDOK (R195)? -/
def PFile.image (f : PFile) (foldok : Bool) : Bool :=
  f.identOk && f.etype == 2 && bit f.eflags.toNat 5 && bit f.eflags.toNat 4 == foldok

/-- The words of `n` bytes of a byte list. -/
def chunks (n : Nat) (bs : List Byte) : List Nat :=
  (List.range (bs.length / n)).map fun k => valOf ((bs.drop (n * k)).take n)

/-! ## Records (R197 to R200) -/

/-- A footprint record (R199); `whole` says that its zero bits are zero and that its template follows it. -/
structure LmemRec where
  actor : Nat
  lo : Nat
  size : Nat
  sync : Bool
  blk : Bool
  template : BitVec 128
  whole : Bool
  deriving DecidableEq, Repr

/-- An actor declaration (R136, R197): its symbol NAME, and TMPL, which the translator writes. -/
structure PActor where
  name : Nat
  entry : Nat
  s : Nat
  v : Nat
  cls : Nat
  radius : Nat
  home : Nat
  nin : Nat
  nout : Nat
  tmpl : Nat
  rates : List Nat
  deriving DecidableEq, Repr

/-- A region reference (R198). -/
structure PRegion where
  sym : Nat
  pr : Bool
  pw : Bool
  fold : Bool
  breg : Nat
  hreg : Nat
  zero : Nat
  minsize : Nat
  deriving DecidableEq, Repr

/-- A channel declaration (R200). -/
structure PChannel where
  sym : Nat
  itemsz : Nat
  zero : Nat
  pactor : Nat
  pport : Nat
  cactor : Nat
  cport : Nat
  ref : Nat
  deriving DecidableEq, Repr

/-- An .actors record read (R197). -/
def actorRecord (w : Nat) : PActor :=
  { name := field w 0 32, entry := field w 32 32, s := field w 64 6, v := field w 70 6, cls := field w 76 2, radius := field w 78 7,
    home := field w 85 11, nin := field w 96 3, nout := field w 99 3, tmpl := field w 102 26,
    rates := (List.range 8).map fun k => field w (128 + 16 * k) 16 }

/-- A .regions record read (R198). -/
def regionRecord (w : Nat) : PRegion :=
  { sym := field w 0 32, pr := bit w 32, pw := bit w 33, fold := bit w 34, breg := field w 35 8, hreg := field w 43 8, zero := field w 51 13,
    minsize := field w 64 64 }

/-- A .channels record read (R200). -/
def channelRecord (w : Nat) : PChannel :=
  { sym := field w 0 32, itemsz := field w 32 16, zero := field w 48 16 + field w 106 22, pactor := field w 64 16, pport := field w 80 2,
    cactor := field w 82 16, cport := field w 98 2, ref := field w 100 6 }

/-- An .lmem record read (R199). -/
def lmemRecord (w template : Nat) (whole : Bool) : LmemRec :=
  { actor := field w 35 16, lo := field w 0 17, size := field w 17 18, sync := bit w 51, blk := bit w 52, template := BitVec.ofNat 128 template,
    whole := whole && field w 53 11 == 0 }

/-- The .lmem section read (R199): the two words after a record with BLK are its template. -/
def lmemRecords : List Nat → List LmemRec
  | [] => []
  | [w] => [lmemRecord w 0 (!bit w 52)]
  | [w, x] => [lmemRecord w 0 (!bit w 52), lmemRecord x 0 (!bit x 52)]
  | w :: a :: b :: rest =>
    if bit w 52 then lmemRecord w (a + 2 ^ 64 * b) true :: lmemRecords rest
    else lmemRecord w 0 true :: lmemRecords (a :: b :: rest)

/-! ## The object as the translator reads it -/

/-- A relocation of .text: its type, its place, the reference or actor that its symbol names, the symbol's value and the addend (R201,
R202). -/
structure TReloc where
  typ : Nat
  place : Nat
  sym : Nat
  value : Nat
  addend : Int
  deriving DecidableEq, Repr

/-- An object with the request to load it. -/
structure Obj where
  file : PFile
  text : List (BitVec 32)
  actors : List PActor
  lmem : List LmemRec
  regions : List PRegion
  channels : List PChannel
  /-- Trap numbers with their handlers' offsets, and whether the zero bits are zero. -/
  traps : List (Nat × Nat)
  trapsZero : Bool
  tensors : List Nat
  relocs : List TReloc
  binds : List PBind
  image : Nat
  tenant : Nat
  deriving DecidableEq, Repr

/-- The region reference that a symbol names (R196, R198, R201): by its .regions record, or 1 and 2 for .rodata and .data. -/
def PFile.refOf (f : PFile) (k : Nat) : Option Nat :=
  match f.symbols[k]? with
  | none => none
  | some y =>
    if y.typ = 13 then ((chunks 16 (f.sec .regions)).findIdx? fun w => (regionRecord w).sym == k).map (· + 3)
    else if some y.shndx = f.secIndex .rodata then some 1
    else if some y.shndx = f.secIndex .data then some 2
    else none

/-- The value of a symbol. -/
def PFile.symValue (f : PFile) (k : Nat) : Nat := ((f.symbols[k]?).map (·.value)).getD 0

/-- What the symbol of a relocation names: a reference, or for PLV_RECID64 an actor number; 0 for a check slot, whose symbol has no role
but before a flagged store. -/
def PFile.named (f : PFile) (r : PReloc) : Option Nat :=
  if r.typ = 5 then match f.symbols[r.sym]? with
    | some y => if y.typ = 14 then some y.value else none
    | none => none
  else if r.typ = 2 then some ((f.refOf r.sym).getD 0)
  else f.refOf r.sym

/-- The relocations of .text (R202). -/
def PFile.textRelocs (f : PFile) : List TReloc :=
  (f.relocs.filter fun r => some r.sec == f.secIndex .text).map fun r =>
    { typ := r.typ, place := r.place, sym := (f.named r).getD 0, value := f.symValue r.sym, addend := r.addend }

/-- An object read from its file. -/
def PFile.read (f : PFile) (binds : List PBind) (image tenant : Nat) : Obj :=
  let traps := chunks 8 (f.sec .traps)
  { file := f, text := (chunks 4 (f.sec .text)).map (BitVec.ofNat 32), actors := (chunks 32 (f.sec .actors)).map actorRecord,
    lmem := lmemRecords (chunks 8 (f.sec .lmem)), regions := (chunks 16 (f.sec .regions)).map regionRecord,
    channels := (chunks 16 (f.sec .channels)).map channelRecord, traps := traps.map fun w => (field w 0 16, field w 16 32),
    trapsZero := traps.all fun w => field w 48 16 == 0, tensors := chunks 64 (f.sec .tensors), relocs := f.textRelocs, binds := binds,
    image := image, tenant := tenant }

/-! ## The sweep of .text (R169, R170, R187) -/

/-- An instruction of a .text with its offset, and the REP that repeats it. -/
structure TInstr where
  off : Nat
  form : Form
  rep : Option POps
  deriving DecidableEq, Repr

/-- The 16 bytes at an offset of a .text (R169). -/
def textBits (text : List (BitVec 32)) (off : Nat) : BitVec 128 :=
  let w (k : Nat) : BitVec 32 := (text[off / 4 + k]?).getD 0
  w 3 ++ w 2 ++ w 1 ++ w 0

/-- The bytes by which the sweep passes over words that do not decode: what their LEN gives, and a word where it gives none (R170). -/
def skipBytes (w : BitVec 128) : Nat :=
  let len : BitVec 2 := w.extractLsb' 0 2
  if len = 0 then 4 else lengthOfLen len

/-- The instructions of a .text in order (R169, R170), and the offsets of those that meet items 1 to 6 or 9 of R171: the sweep goes on past
them, for R205 asks for FORMAT of the whole object first. -/
def sweepText (text : List (BitVec 32)) (rep : Option POps) : Nat → Nat → List TInstr × List Nat
  | 0, _ => ([], [])
  | fuel + 1, off =>
    if 4 * text.length ≤ off then ([], [])
    else
      let w := textBits text off
      if w.extractLsb' 0 32 = (0 : BitVec 32) then sweepText text none fuel ((off / 32 + 1) * 32)
      else match decodeAt off w with
        | .bad _ =>
          let r := sweepText text none fuel (off + skipBytes w)
          (r.1, off :: r.2)
        | .ok f =>
          let bad := f.staticItem.isSome || decide (4 * text.length < off + f.size) || match f with
            | .p _ p => match decodeAt (off + 8) (textBits text (off + 8)) with
              | .ok t => !repOk p t
              | .bad _ => true
            | _ => false
          let next := match f with
            | .p _ p => some p
            | _ => none
          let r := sweepText text next fuel (off + f.size)
          ({ off := off, form := f, rep := rep } :: r.1, if bad then off :: r.2 else r.2)

/-- The sweep of an object's .text. -/
def Obj.sweep (o : Obj) : List TInstr × List Nat := sweepText o.text none (o.text.length + 1) 0

/-- How often an instruction runs (R187). -/
def TInstr.reps (i : TInstr) : Nat :=
  match i.rep with
  | some p => p.count.toNat + 1
  | none => 1

/-- The form of repetition `j`. -/
def TInstr.at (i : TInstr) (j : Nat) : Form :=
  match i.rep with
  | some p => i.form.stepped p j
  | none => i.form

/-- What the offset of a repetition adds for each step (R187). -/
def TInstr.soff (i : TInstr) : Int :=
  match i.rep with
  | some p => p.soff.toInt
  | none => 0

/-- Every specifier position of every repetition: its place among DST, SA, SB, SC and FLAG, its role, and the specifier. -/
def TInstr.places (i : TInstr) : List (Nat × Role × Spec) :=
  (List.range i.reps).flatMap fun j => (i.at j).positions.zipIdx.map fun x => (x.2, x.1.1, x.1.2)

/-- Does an instruction write a register? -/
def TInstr.writes (i : TInstr) (sp : Spec) : Bool := i.places.any fun x => x.2.1.writes && x.2.2 == sp

/-- Do the repetitions before repetition `j` leave a register alone? -/
def TInstr.steady (i : TInstr) (j : Nat) (sp : Spec) : Bool :=
  (List.range j).all fun k => (i.at k).positions.all fun x => !(x.1.writes && x.2 == sp)

/-- Does an instruction read a register? -/
def TInstr.readsReg (i : TInstr) (sp : Spec) : Bool := i.places.any fun x => x.2.1.reads && x.2.2 == sp

/-- Is an instruction predicated? -/
def TInstr.predicated (i : TInstr) : Bool := i.form.pred.1 != 0 || i.form.pred.2

/-- What a memory form touches: its length, and whether it needs read and write permission (R205, item 10). -/
def touchOf (op : BitVec 9) : Option (Nat × Bool × Bool) :=
  let n := op.toNat
  if n < 0x040 then none
  else if n ≤ 0x046 then some ([1, 2, 4, 8, 1, 2, 4].getD (n - 0x040) 1, true, false)
  else if n ≤ 0x04A then some ([1, 2, 4, 8].getD (n - 0x047) 1, false, true)
  else if n ≤ 0x04F then some (if n = 0x04E ∨ n = 0x04F then 4 else 128, true, false)
  else if n ≤ 0x054 then some (if n = 0x053 ∨ n = 0x054 then 4 else 128, false, true)
  else if n ≤ 0x068 then some (if n % 2 = 1 then 4 else 8, true, true)
  else if n = 0x069 then some (4, true, true)
  else if n ≤ 0x070 then some ([4, 8, 4, 4, 8, 4, 8].getD (n - 0x06A) 4, false, true)
  else if n = 0x078 ∨ n = 0x079 ∨ n = 0x07A then some (8, true, false)
  else if n = 0x07B then some (16, false, true)
  else if n = 0x07C then some (16, true, false)
  else if n = 0x159 then some (2, false, true)
  else none

/-- A memory access of a .text: its operands, its length and the permissions it needs. -/
def TInstr.access (i : TInstr) : Option (BitVec 9 × MOps × Nat × Bool × Bool) :=
  match i.form with
  | .m op o => (touchOf op).map fun t => (op, o, t.1, t.2.1, t.2.2)
  | _ => none

/-- Is an access global (R175)? -/
def globalForm (o : MOps) : Bool := o.len == 3 || o.sa != 0

/-- Is SB an operand of the form, and no index (R175)? -/
def operandSb (op : BitVec 9) : Bool := decide (0x055 ≤ op.toNat)

/-- The relocation of a type at an offset. -/
def Obj.reloc (o : Obj) (off typ : Nat) : Option TReloc := o.relocs.find? fun r => r.place == off && r.typ == typ

/-- The instruction at an offset, past a PAD (R170). -/
def instrAt (is : List TInstr) (off : Nat) : Option TInstr :=
  match is.find? fun i => i.off == off with
  | some i => some i
  | none => is.find? fun i => i.off == (off / 32 + 1) * 32

/-- What a check slot guards (R202, R243). -/
inductive Slot where
  /-- An access, perhaps behind a REP. -/
  | access (t : TInstr)
  /-- The flag of a flagged store whose data the next slot guards. -/
  | flag (t : TInstr) (flag : Spec)
  deriving DecidableEq, Repr

/-- The instruction behind an offset, past a REP. -/
def behind (is : List TInstr) (off : Nat) : Option TInstr :=
  match instrAt is off with
  | some j => match j.form with
    | .p _ _ => instrAt is (j.off + 8)
    | _ => some j
  | none => none

/-- What a check slot guards. -/
def Obj.slotOf (o : Obj) (is : List TInstr) (i : TInstr) : Option Slot :=
  match behind is (i.off + i.form.size) with
  | none => none
  | some j =>
    if (o.reloc j.off 2).isNone then some (.access j)
    else match behind is (j.off + j.form.size) with
      | some t => match t.form with
        | .m _ m => if m.fl then some (.flag t m.flag) else none
        | _ => none
      | none => none

/-- Is an instruction a flagged store of the actor's own scratchpad (R93)? -/
def TInstr.localFlag (i : TInstr) : Option Spec :=
  match i.form with
  | .m _ m => if m.fl && !globalForm m then some m.flag else none
  | _ => none

/-- Do words that do not decode stand where a check slot's access should (R202, R205)?  That is a fault of DECODE, not of FORMAT. -/
def Obj.hidden (o : Obj) (is : List TInstr) (bad : List Nat) (i : TInstr) : Bool :=
  let at' (off : Nat) : Bool := bad.contains off || bad.contains ((off / 32 + 1) * 32)
  let past (j : TInstr) : Bool := match j.form with
    | .p _ _ => at' (j.off + 8)
    | _ => (o.reloc j.off 2).isSome && at' (j.off + j.form.size)
  at' (i.off + i.form.size) || match instrAt is (i.off + i.form.size) with
    | some j => past j || match instrAt is (j.off + j.form.size) with
      | some k => past k
      | none => false
    | none => false

/-! ## FORMAT (R205, item 1) -/

/-- Is an actor declaration well formed (R136, R197)? -/
def Obj.actorOk (o : Obj) (k : Nat) (a : PActor) : Bool :=
  a.entry % 4 == 0 && decide (a.entry < 4 * o.text.length) && decide (8 ≤ a.s) && decide (a.s ≤ 63) && decide (a.v ≤ 32)
    && decide (a.home < 1536) && decide (a.nin ≤ 4) && decide (a.nout ≤ 4) && a.tmpl == 0
    && (match o.file.symbols[a.name]? with
      | some y => y.typ == 14 && y.value == k
      | none => false)
    && (List.range 8).all fun k =>
      let r := (a.rates[k]?).getD 0
      if k < a.nin + a.nout then decide (1 ≤ r) else r == 0

/-- Is a footprint record well formed (R199)? -/
def Obj.lmemOk (o : Obj) (l : LmemRec) : Bool :=
  l.whole && decide (0x100 ≤ l.lo) && decide (l.lo + l.size ≤ 0x20000) && decide (l.actor < o.actors.length)
    && (!l.sync || (l.lo % 16 == 0 && l.size % 16 == 0)) && (!l.blk || l.lo % 16 == 0)

/-- Is a region reference well formed (R198)? -/
def Obj.regionOk (o : Obj) (r : PRegion) : Bool :=
  decide (1 ≤ r.breg) && decide (r.breg ≤ 0x3F) && decide (1 ≤ r.hreg) && decide (r.hreg ≤ 0x3F) && r.minsize % 16 == 0 && r.zero == 0
    && match o.file.symbols[r.sym]? with
      | some y => y.typ == 13 && y.value == 0
      | none => false

/-- Is a channel declaration well formed (R137, R200)? -/
def Obj.channelOk (o : Obj) (k : Nat) (c : PChannel) : Bool :=
  c.itemsz % 16 == 0 && decide (16 ≤ c.itemsz) && decide (c.itemsz ≤ 65520) && decide (3 ≤ c.ref) && decide (c.ref < 3 + o.regions.length)
    && c.zero == 0
    && (match o.file.symbols[c.sym]? with
      | some y => y.typ == 15 && y.value == k
      | none => false)
    && match o.actors[c.pactor]?, o.actors[c.cactor]? with
      | some p, some q => decide (c.pport < p.nout) && decide (c.cport < q.nin)
      | _, _ => false

/-- Is a symbol of a kind that R201 knows, and defined where it must be (R195)? -/
def PSymbol.ok (k : Nat) (y : PSymbol) : Bool :=
  k == 0 || ((decide (y.typ ≤ 2) || (decide (13 ≤ y.typ) && decide (y.typ ≤ 15))) && (y.shndx != 0 || y.typ == 13))

/-- Does the word of a relocation of .text stand where its type wants it (R202)? -/
def Obj.textRelocOk (o : Obj) (r : PReloc) : Bool :=
  let named := (o.file.named r).isSome
  match decodeAt r.place (textBits o.text r.place) with
  | .bad _ => false
  | .ok f =>
    if r.typ = 1 then named && match f with
      | .m op m => (touchOf op).isSome && m.len == 3
      | _ => false
    else if r.typ = 2 then decide (f.size = 8) && match f with
      | .c op _ => op == 0x03D
      | _ => false
    else if r.typ = 3 ∨ r.typ = 5 then named && match f with
      | .l _ _ => true
      | _ => false
    else if r.typ = 6 ∨ r.typ = 7 then named && match f with
      | .m op m => m.len == 3 && m.sa == 0 && m.sb == 0 && op == (if r.typ = 6 then 0x043 else 0x042)
      | _ => false
    else false

/-- Does a relocation of another section stand where its type wants it (R202)? -/
def PFile.dataRelocOk (f : PFile) (r : PReloc) : Bool :=
  if r.typ = 4 then some r.sec == f.secIndex .rodata && decide (r.place + 4 ≤ (f.sec .rodata).length)
    && ((f.symbols[r.sym]?).map (·.shndx)) == f.secIndex .text
  else if r.typ = 3 then (f.named r).isSome && match f.sections[r.sec - 1]? with
    | some x => decide (1 ≤ r.sec) && decide (r.place + 8 ≤ x.data.length)
    | none => false
  else false

/-- FORMAT: R195, R196, R202, and every record well formed. -/
def Obj.fileOk (o : Obj) : Bool :=
  o.file.portable && o.file.sections.all PSection.ok && o.file.symbols.zipIdx.all (fun x => PSymbol.ok x.2 x.1)
    && (o.file.sec .text).length % 4 == 0
    && o.actors.zipIdx.all (fun x => o.actorOk x.2 x.1) && o.lmem.all o.lmemOk && decide (o.regions.length ≤ 61) && o.regions.all o.regionOk
    && o.channels.zipIdx.all (fun x => o.channelOk x.2 x.1)
    && o.traps.all (fun t => decide (t.1 ≤ 4) && t.2 % 4 == 0 && decide (t.2 < 4 * o.text.length)) && o.trapsZero
    && o.tensors.all (fun t => decide (field t 32 32 < 3 + o.regions.length) && !Machine.tsrBad t && field t 20 4 == 0 && field t 480 32 == 0)
    && o.file.tables.all fun t => decide (t.1 + 4 * t.2 ≤ (o.file.sec .rodata).length)

/-- Does an instruction keep to the check slots of R202?  An access with %r has its slot directly before it, or before its REP, with its
length as addend; the flag of a store has one before the store's own slot (R28, R93); a slot guards an access with %r, the data of a
flagged store, or its flag.
(DEDUCED, log entry 36.) -/
def Obj.slotsOk (o : Obj) (is : List TInstr) (bad : List Nat) (i : TInstr) : Bool :=
  (match o.reloc i.off 1, i.access with
    | some _, some (_, _, len, _) => is.any fun x => match o.reloc x.off 2 with
      | some r => o.slotOf is x == some (.access i) && r.addend == (len : Int)
      | none => false
    | _, _ => true)
  && (match i.localFlag with
    | some flag => is.any fun x => (o.reloc x.off 2).isSome && o.slotOf is x == some (.flag i flag)
    | none => true)
  && match o.reloc i.off 2 with
    | none => true
    | some r => match o.slotOf is i with
      | some (.access t) => (o.reloc t.off 1).isSome || t.localFlag.isSome
      | some (.flag _ _) => r.addend == 8 || r.addend == 16
      | none => o.hidden is bad i

/-- The .text offset of the first failure of FORMAT, 0 where it lies elsewhere in the file. -/
def Obj.formatBad (o : Obj) (is : List TInstr) (bad : List Nat) : Option Nat :=
  let text := o.file.secIndex .text
  if !o.fileOk then some 0
  else match o.file.relocs.find? fun r => if some r.sec = text then !o.textRelocOk r else !o.file.dataRelocOk r with
    | some r => some (if some r.sec = text then r.place else 0)
    | none => (is.find? fun i => !o.slotsOk is bad i).map (·.off)

end Sys2Proof
end

