-- ==== Sys2Proof/Machine/Translate.lean ====
section
/-! DEFINITION. The Oluzer translator: the conditions of admission in their order, the proofs that elide a check, relocation, and the
sealed image (R28, R29, R195 to R214, R299, R302, R345). -/

namespace Sys2Proof

open Sys2Proof.Bits

/-! ## The flow of a .text (R205, R245, R247) -/

/-- The labels of the entry tables (R202, R203): what PLV_TEXTOFF32 writes in each of their words. -/
def Obj.labels (o : Obj) : List Nat :=
  (o.file.relocs.filter fun r => r.typ == 4 && o.file.tables.any fun t => decide (t.1 ≤ r.place) && decide (r.place < t.1 + 4 * t.2)).map
    fun r => ((o.file.symValue r.sym : Nat) + r.addend : Int).toNat

/-- The offset that a direct branch names. -/
def TInstr.target (i : TInstr) : Option Int :=
  match i.form with
  | .b op b => if op = 0x034 ∨ op = 0x036 ∨ op = 0x039 then some ((i.off : Int) + 4 * b.off.toInt) else none
  | _ => none

/-- Where calls return to: the instructions after them (R245). -/
def returns (is : List TInstr) : List Nat :=
  is.filterMap fun i => match i.form with
    | .b op _ => if op = 0x036 ∨ op = 0x037 then some (i.off + i.form.size) else none
    | _ => none

/-- Offsets of the instructions that may follow one (R245, R247): every entry of the tables follows BRI and CALLI, and every instruction
after a call follows RET. -/
def Obj.nexts (o : Obj) (is : List TInstr) (i : TInstr) : List Nat :=
  let after := i.off + i.form.size
  let direct := match i.target with
    | some t => if 0 ≤ t then [t.toNat] else []
    | none => []
  let fall := if i.predicated then [after] else []
  match i.form with
  | .b op _ =>
    if op = 0x034 then direct ++ fall
    else if op = 0x036 ∨ op = 0x039 then direct ++ [after]
    else if op = 0x037 then o.labels ++ [after]
    else if op = 0x035 then o.labels ++ fall
    else returns is ++ fall
  | .c op _ => if op = 0x03A ∨ op = 0x03B ∨ op = 0x185 ∨ op = 0x186 then fall else [after]
  | _ => [after]

/-- The instructions that some offsets reach, going on past those for which `go` holds. -/
def Obj.closure (o : Obj) (is : List TInstr) (go : TInstr → Bool) : Nat → List Nat → List Nat → List Nat
  | 0, seen, _ => seen
  | fuel + 1, seen, todo =>
    match todo with
    | [] => seen
    | x :: rest => match instrAt is x with
      | none => o.closure is go fuel seen rest
      | some i => if seen.contains i.off then o.closure is go fuel seen rest
        else o.closure is go fuel (i.off :: seen) ((if go i then o.nexts is i else []) ++ rest)

/-- The instructions that lie on a path from some offsets. -/
def Obj.from (o : Obj) (is : List TInstr) (go : TInstr → Bool) (starts : List Nat) : List TInstr :=
  let seen := o.closure is go ((is.length + 1) * (3 + o.labels.length + (returns is).length) + starts.length) [] starts
  is.filter fun i => seen.contains i.off

/-- The instructions that an actor reaches: from its entry, and from the trap handlers. -/
def Obj.reached (o : Obj) (is : List TInstr) (a : PActor) : List TInstr :=
  o.from is (fun _ => true) (a.entry :: o.traps.map (·.2))

/-- Offsets that control reaches other than from the instruction before: branch targets, entries, handlers and labels. -/
def Obj.joins (o : Obj) (is : List TInstr) : List Nat :=
  o.actors.map (·.entry) ++ o.traps.map (·.2) ++ o.labels ++ is.flatMap fun j => match j.form with
    | .b _ _ => o.nexts is j
    | _ => []

/-! ## Bounds of a register (R206) -/

/-- What a bound rests on: a constant, a dimension read from a TSR slot, a clamp, the counter of a LOOP, counted by a dimension or not,
or a sum of such coordinates. -/
inductive Basis where
  | const
  | dim
  | clamp
  | loop (dim : Bool)
  | sum
  deriving DecidableEq, Repr

/-- The values that a register can hold. -/
structure Bound where
  lo : Nat
  hi : Nat
  basis : Basis
  deriving DecidableEq, Repr

/-- The proof code of an index (R206), none where its bound is no proof. -/
def Basis.code : Basis → Option Nat
  | .loop _ => some 1
  | .sum => some 2
  | .clamp => some 3
  | _ => none

/-- A sum of two bounds: a constant added to a counter, or coordinates that dimensions bound. -/
def Bound.plus (a b : Bound) : Option Bound :=
  let r (basis : Basis) : Option Bound := some { lo := a.lo + b.lo, hi := a.hi + b.hi, basis := basis }
  match a.basis, b.basis with
  | .const, .const => r .const
  | .loop d, .const | .const, .loop d => r (.loop d)
  | .sum, .const | .const, .sum | .sum, .sum | .sum, .loop true | .loop true, .sum | .loop true, .loop true => r .sum
  | _, _ => none

/-- A bound times a constant. -/
def Bound.times (a : Bound) (k : Nat) : Option Bound :=
  match a.basis with
  | .const | .loop _ | .sum => some { a with lo := a.lo * k, hi := a.hi * k }
  | _ => none

/-- The bound of a constant. -/
def Bound.of (k : Nat) : Bound := { lo := k, hi := k, basis := .const }

/-- Does control not simply pass through an instruction, or does it change registers that it does not name? -/
def TInstr.barrier (i : TInstr) : Bool :=
  match i.form with
  | .b _ _ => true
  | .c op _ => op == 0x184 || op == 0x185 || op == 0x186 || op == 0x187 || op == 0x18A
  | .m op _ => op == 0x078
  | _ => false

/-- May a trap handler change a register beneath the code that it interrupts? -/
def Obj.handlersWrite (o : Obj) (is : List TInstr) (sp : Spec) : Bool :=
  !o.traps.isEmpty && (o.from is (fun _ => true) (o.traps.map (·.2))).any fun i => i.writes sp

/-- The last instruction that wrote a register before an offset, where every path to it passes that write. -/
def Obj.lastWrite (o : Obj) (is : List TInstr) (at' : Nat) (inner : Bool) (sp : Spec) : Option TInstr :=
  let joins := o.joins is
  let before := (is.filter fun j => decide (j.off < at')).reverse
  let since := before.takeWhile fun j => !j.writes sp
  let clean := (inner || !joins.contains at') && (since.all fun j => !joins.contains j.off && !j.barrier) && !o.handlersWrite is sp
  if clean then (before.drop since.length).head? else none

/-- The range of a dimension over the templates of the object, for the local load that reads it from a TSR slot (R46, R166). -/
def Obj.dimBound (o : Obj) (m : MOps) : Option Bound :=
  let la := (MOps.offset m).toInt.toNat
  let dims := o.tensors.map fun t => field t (128 + 32 * ((la % 64 - 16) / 4)) 32
  if m.len ≠ 3 ∧ m.sa = 0 ∧ m.sb = 0 ∧ 0 ≤ (MOps.offset m).toInt ∧ la < 0x100 ∧ 16 ≤ la % 64 ∧ la % 64 < 32 ∧ la % 4 = 0 then
    match dims with
    | [] => none
    | d :: ds => some { lo := ds.foldl min d, hi := ds.foldl max d, basis := .dim }
  else none

/-- The LOOP whose counter a register is at an instruction (R206, R245): the instruction lies between its target and it, nothing between
them writes the register or calls, and control enters only at the target. -/
def Obj.loopAt (o : Obj) (is : List TInstr) (i : TInstr) (sp : Spec) : Option (TInstr × Nat) :=
  is.findSome? fun l => match l.form, l.target with
    | .b op b, some t =>
      let top := t.toNat
      let body := is.filter fun j => decide (top ≤ j.off) && decide (j.off < l.off)
      let inside (j : TInstr) : Bool := decide (top ≤ j.off) && decide (j.off ≤ l.off)
      let entered := (is.filter fun j => !inside j).any fun j => match j.form with
        | .b _ _ => (o.nexts is j).any fun x => decide (top ≤ x) && decide (x ≤ l.off)
        | _ => false
      let outside := o.actors.map (·.entry) ++ o.traps.map (·.2) ++ o.labels
      let calls := body.any fun j => match j.form with
        | .b op _ => op != 0x034 && op != 0x039
        | _ => j.barrier
      if op = 0x039 ∧ b.dst = sp ∧ b.sa = sp ∧ !l.predicated ∧ 0 ≤ t ∧ body.contains i ∧ !(body.any fun j => j.writes sp) ∧ !entered
          ∧ !calls ∧ !(outside.any fun x => decide (top ≤ x) && decide (x ≤ l.off)) ∧ !o.handlersWrite is sp then some (l, top)
      else none
    | _, _ => none

/-- The values of a scalar specifier at an instruction (R206). -/
def Obj.bound (o : Obj) (is : List TInstr) : Nat → Nat → Bool → Option TInstr → Spec → Option Bound
  | 0, _, _, _, _ => none
  | fuel + 1, at', inner, i, sp =>
    if sp.isImm then (if 0 ≤ (immVal sp).toInt then some (Bound.of (immVal sp).toNat) else none)
    else if sp = 0 then some (Bound.of 0)
    else if !sp.isS then none
    else match o.lastWrite is at' inner sp with
      | some j =>
        let sub (x : Spec) : Option Bound := o.bound is fuel j.off false (some j) x
        let const (x : Spec) : Option Nat := (sub x).bind fun b => if b.lo = b.hi ∧ b.basis = .const then some b.lo else none
        if j.predicated ∨ j.rep.isSome then none
        else match j.form with
          | .i op x =>
            if x.imm.toNat < 2 ^ 31 then
              if op = 0x02D then some (Bound.of x.imm.toNat)
              else if op = 0x00D then some { lo := 0, hi := x.imm.toNat, basis := .clamp }
              else if op = 0x001 then (sub x.sa).bind fun b => b.plus (Bound.of x.imm.toNat)
              else if op = 0x005 then (sub x.sa).bind fun b => b.times x.imm.toNat
              else none
            else none
          | .l _ x => if x.imm.toNat < 2 ^ 45 ∧ (o.reloc j.off 3).isNone ∧ (o.reloc j.off 5).isNone then some (Bound.of x.imm.toNat) else none
          | .a op x =>
            if op = 0x02C then sub x.sa
            else if op = 0x01B then match const x.sb, const x.sc with
              | some lo, some hi => some { lo := min lo hi, hi := hi, basis := .clamp }
              | _, _ => none
            else if op = 0x00C then (const x.sb).map fun k => { lo := 0, hi := k, basis := .clamp }
            else if op = 0x000 then match sub x.sa, sub x.sb with
              | some a, some b => a.plus b
              | _, _ => none
            else if op = 0x004 then match sub x.sa, const x.sb with
              | some a, some k => a.times k
              | _, _ => none
            else if op = 0x012 then match sub x.sa, const x.sb with
              | some a, some k => if k < 32 then a.times (2 ^ k) else none
              | _, _ => none
            else none
          | .m op m => if op = 0x042 then o.dimBound m else none
          | _ => none
      | none => match i with
        | none => none
        | some i => match o.loopAt is i sp with
          | none => none
          | some (_, top) => match o.bound is fuel top true none sp with
            | some n => if 1 ≤ n.lo ∧ (n.basis = .const ∨ n.basis = .dim) then
                some { lo := 1, hi := n.hi, basis := .loop (n.basis == .dim) }
              else none
            | none => none

/-- The values of a specifier at an instruction. -/
def Obj.boundAt (o : Obj) (is : List TInstr) (i : TInstr) (sp : Spec) : Option Bound := o.bound is 12 i.off false (some i) sp

/-! ## The span of an access (R206) -/

/-- Where an access can reach: its first byte, its last byte plus one, and the proof code. -/
structure Span where
  first : Int
  last : Int
  code : Nat
  deriving DecidableEq, Repr

/-- The span of one repetition of an access, `at'` being its offset without an index (R206, R260): a strided access with the largest
stride, a skewed one with its tile. -/
def Obj.spanOne (o : Obj) (is : List TInstr) (i : TInstr) (op : BitVec 9) (sb : Spec) (at' : Int) (len : Nat) : Option Span :=
  let n := op.toNat
  let skew := n = 0x04C ∨ n = 0x04D ∨ n = 0x051 ∨ n = 0x052
  if n = 0x04F ∨ n = 0x054 then none
  else if n = 0x04E ∨ n = 0x053 then
    (o.boundAt is i sb).bind fun b => if b.basis = .const ∨ b.basis = .clamp then
      some { first := at', last := at' + 31 * (b.hi : Int) + 4, code := if b.basis = .const then 0 else 3 } else none
  else
    let part : Option (Int × Int × Nat) :=
      if operandSb op ∨ sb = 0 then some (at', at', 0)
      else if sb.isImm then some (at' + (immVal sb).toInt, at' + (immVal sb).toInt, 0)
      else (o.boundAt is i sb).bind fun b => b.basis.code.map fun c => (at' + b.lo, at' + b.hi, c)
    part.map fun x =>
      if skew then { first := x.1 / 128 * 128, last := x.2.1 / 128 * 128 + 4096, code := x.2.2 }
      else { first := x.1, last := x.2.1 + len, code := x.2.2 }

/-- The values of a specifier that repetition `j` of an instruction reads, none where an earlier repetition writes it. -/
def Obj.boundRep (o : Obj) (is : List TInstr) (i : TInstr) (j : Nat) (sp : Spec) : Option Bound :=
  if i.steady j sp then o.boundAt is i sp else none

/-- The span of an access over every repetition of its REP (R187, R206): no repetition writes the index of a later one. -/
def Obj.spanOf (o : Obj) (is : List TInstr) (i : TInstr) (base : Int) (len : Nat) : Option Span :=
  match i.access with
  | none => none
  | some (op, _, _) =>
    let one (j : Nat) : Option Span :=
      match i.at j with
      | .m _ m => if i.steady j m.sb then o.spanOne is i op m.sb (base + j * i.soff) len else none
      | _ => none
    ((List.range i.reps).drop 1).foldl (fun acc j => match acc, one j with
      | some a, some b => some { first := min a.first b.first, last := max a.last b.last, code := max a.code b.code }
      | _, _ => none) (one 0)

/-! ## References (R196, R198, R200, R204, R207) -/

/-- The references of the object. -/
def Obj.refs (o : Obj) : List Nat := List.range (3 + o.regions.length)

/-- The record of a declared reference. -/
def Obj.region (o : Obj) (ref : Nat) : Option PRegion := if 3 ≤ ref then o.regions[ref - 3]? else none

/-- The register that a reference's first binding load of a type writes. -/
def Obj.bindReg (o : Obj) (is : List TInstr) (ref typ : Nat) : Option Nat :=
  (o.relocs.find? fun r => r.typ == typ && r.sym == ref).bind fun r =>
    (is.find? fun i => i.off == r.place).bind fun i => match i.form with
      | .m _ m => some m.dst.toNat
      | _ => none

/-- BREG of a reference: its record's, or for regions 1 and 2 the register that its binding load writes. -/
def Obj.breg (o : Obj) (is : List TInstr) (ref : Nat) : Option Nat :=
  if 3 ≤ ref then (o.region ref).map (·.breg) else o.bindReg is ref 6

/-- HREG of a reference. -/
def Obj.hreg (o : Obj) (is : List TInstr) (ref : Nat) : Option Nat :=
  if 3 ≤ ref then (o.region ref).map (·.hreg) else o.bindReg is ref 7

/-- The permissions of a reference: region 1 is read-only, region 2 read-write. -/
def Obj.perms (o : Obj) (ref : Nat) : Bool × Bool :=
  if ref = 0 then (false, false) else if ref = 1 then (true, false) else if ref = 2 then (true, true)
  else match o.region ref with
    | some r => (r.pr, r.pw)
    | none => (false, false)

/-- What the runtime binds a reference to. -/
def Obj.bindOf (o : Obj) (ref : Nat) : Option PBind := o.binds.find? fun b => b.ref == ref

/-- Is a reference folded (R207)? -/
def Obj.folded (o : Obj) (ref : Nat) : Bool :=
  bit o.file.eflags.toNat 4 && o.binds.any (fun b => b.ref == ref && b.foldAsked) && match o.region ref with
    | some r => r.fold
    | none => false

/-- The number of an actor; past every actor's for none of the object's. -/
def Obj.numberOf (o : Obj) (a : PActor) : Nat := (o.actors.findIdx? fun b => b == a).getD o.actors.length

/-- The window registers of an actor with the reference that holds each port's ring (R144, R200). -/
def Obj.windows (o : Obj) (a : PActor) : List (Nat × Nat) :=
  let k := o.numberOf a
  o.channels.flatMap fun c =>
    (if c.cactor = k then [(1 + c.cport, c.ref)] else []) ++ (if c.pactor = k then [(1 + a.nin + c.pport, c.ref)] else [])

/-- Is a register the window register of a port of an actor whose ring a reference holds? -/
def Obj.windowReg (o : Obj) (a : PActor) (ref : Nat) (sp : Spec) : Bool := (o.windows a).any fun w => w == (sp.toNat, ref)

/-! ## FLOW, ADDR and the rest (R205) -/

/-- The references that must be bound: those that the code names, and for a binding load the constant region, which holds the block (R208). -/
def Obj.refsNamed (o : Obj) : List Nat :=
  let rs := o.relocs.filter fun r => r.typ == 1 || r.typ == 6 || r.typ == 7
  (rs.flatMap fun r => if r.typ = 1 then [r.sym] else [r.sym, 1]).eraseDups

/-- The first offset whose instruction fails a test. -/
def firstBad (is : List TInstr) (ok : TInstr → Bool) : Option Nat := (is.find? fun i => !ok i).map (·.off)

/-- The first offset that some actor reaches and whose instruction fails a test for it. -/
def Obj.firstBadFor (o : Obj) (is : List TInstr) (ok : PActor → TInstr → Bool) : Option Nat :=
  o.actors.findSome? fun a => firstBad (o.reached is a) (ok a)

/-- An actor without ports or registers of its own, for which code that no actor reaches is judged. -/
def PActor.nobody : PActor :=
  { name := 0, entry := 0, s := 0, v := 0, cls := 0, radius := 0, home := 0, nin := 0, nout := 0, tmpl := 0, rates := [] }

/-- The first offset that fails a test which every instruction of .text must meet (R28, R29, R204): for each actor that reaches it, and where
none does, for some actor or for none. -/
def Obj.firstBadAll (o : Obj) (is : List TInstr) (ok : PActor → TInstr → Bool) : Option Nat :=
  match o.firstBadFor is ok with
  | some x => some x
  | none =>
    let seen := o.actors.flatMap fun a => o.reached is a
    firstBad is fun i => seen.contains i || (PActor.nobody :: o.actors).any fun a => ok a i

/-- Does a register come from a load of an entry table whose index is bounded (R205, R206)? -/
def Obj.fromTable (o : Obj) (is : List TInstr) (i : TInstr) (sp : Spec) : Bool :=
  match o.lastWrite is i.off false sp with
  | some j => !j.predicated && j.rep.isNone && match j.form, o.reloc j.off 1 with
    | .m op m, some r => op == 0x042 && r.sym == 1 && match o.spanOf is j (r.addend + m.off.toInt) 4 with
      | some x => o.file.tables.any fun t => decide ((t.1 : Int) ≤ x.first) && decide (x.last ≤ t.1 + 4 * t.2)
      | none => false
    | _, _ => false
  | none => false

/-- FLOW (R205, item 4): direct targets are instruction starts, and table branches have a bounded table load. -/
def Obj.flowOk (o : Obj) (is : List TInstr) (i : TInstr) : Bool :=
  match i.form with
  | .b op b =>
    (match i.target with
      | some t => decide (0 ≤ t) && is.any fun j => (j.off : Int) == t
      | none => true)
    && (!(op == 0x035 || op == 0x037) || ((o.labels.all fun x => is.any fun j => j.off == x) && o.fromTable is i b.sa))
  | _ => true

/-- The reference that an instruction is the binding load of, for a type, where it writes that reference's own register (R202, R204). -/
def Obj.isBind (o : Obj) (is : List TInstr) (i : TInstr) (typ : Nat) : Option Nat :=
  match i.form, o.reloc i.off typ with
  | .m _ m, some r =>
    if (if typ = 6 then o.breg is r.sym else o.hreg is r.sym) = some m.dst.toNat ∧ !i.predicated ∧ i.rep.isNone then some r.sym else none
  | _, _ => none

/-- The references whose regions some instructions access. -/
def Obj.refsUsed (o : Obj) (is : List TInstr) : List Nat := (is.filterMap fun i => (o.reloc i.off 1).map (·.sym)).eraseDups

/-- Do the binding loads of every reference that an actor uses stand at an offset (R204)?  A reference that the actor reaches only through
window registers has those for its base. -/
def Obj.bindsAt (o : Obj) (is : List TInstr) (a : PActor) (off : Nat) : Bool :=
  let run := (is.filter fun i => decide (off ≤ i.off)).takeWhile fun i => (o.isBind is i 6).isSome || (o.isBind is i 7).isSome
  let direct (ref : Nat) : Bool := (o.reached is a).any fun i => match i.form, o.reloc i.off 1 with
    | .m _ m, some r => r.sym == ref && !o.windowReg a ref m.sa
    | _, _ => false
  (o.refsUsed (o.reached is a)).all fun ref =>
    run.any (fun i => o.isBind is i 7 == some ref) && (!direct ref || run.any fun i => o.isBind is i 6 == some ref)

/-- Is a form a CHKR? -/
def isChkrForm (f : Form) : Bool :=
  match f with
  | .a op _ => op == 0x031 || op == 0x032 || op == 0x033
  | _ => false

/-- The port of a CHWIN or CHSTAT, and the register that a CHWIN writes (R345). -/
def portOf (f : Form) : Option (Nat × Option Spec) :=
  match f with
  | .e op e => if op = 0x15B then some (e.ke.toNat, some e.dst) else if op = 0x15C then some (e.ke.toNat, none) else none
  | _ => none

/-- Does an instruction name only ports that the actor declares (R205, FORMAT; R345)? -/
def portOk (a : PActor) (i : TInstr) : Bool :=
  match portOf i.form with
  | some (p, _) => decide (p < a.nin + a.nout)
  | none => true

/-- May an instruction write a base or window register (R29, R204, R345)? -/
def Obj.writesBase (o : Obj) (is : List TInstr) (a : PActor) (i : TInstr) : Bool :=
  let wrong (r : Nat) (own : Bool) : Bool := !own && i.writes (BitVec.ofNat 8 r)
  (o.refs.any fun ref => (o.breg is ref).any (fun r => wrong r (o.isBind is i 6 == some ref))
      || (o.hreg is ref).any fun r => wrong r (o.isBind is i 7 == some ref))
    || (o.windows a).any fun w => match portOf i.form with
      | some (p, some sp) => wrong w.1 (sp.toNat == p + 1 && sp.toNat == w.1)
      | _ => wrong w.1 false

/-- Does an instruction show a GA of a bound region elsewhere than in the base of an access or of a CHKR (R29, R204)?  `y` says that y0 may
hold one. -/
def Obj.showsBase (o : Obj) (is : List TInstr) (a : PActor) (y : Bool) (i : TInstr) : Bool :=
  let base (sp : Spec) : Bool := sp.isS && (o.refs.any (fun ref => o.breg is ref == some sp.toNat) || (o.windows a).any fun w => w.1 == sp.toNat)
  i.places.any fun x => x.2.1.reads && ((base x.2.2 && !(x.1 == 1 && (isChkrForm i.form || (o.reloc i.off 1).isSome)))
    || (y && x.2.2 == specY0))

/-- The instructions before which y0 may hold a base: those that a binding load of a base or a CHWIN reaches before another scalar result
(R182). -/
def Obj.basesInY0 (o : Obj) (is : List TInstr) : List TInstr :=
  let result (i : TInstr) : Bool := !i.predicated && i.places.any fun x => x.2.1 == .sDst || x.2.1 == .sBoth
  let starts := is.flatMap fun i => if (o.reloc i.off 6).isSome || ((portOf i.form).map (·.2.isSome)) == some true then o.nexts is i else []
  o.from is (fun i => !result i) starts

/-- Does a global access have the form of R204?  M128 with %r, its base the reference's BREG or a port's window register, in every
repetition; its index s0 or a scalar register. -/
def Obj.formed (o : Obj) (is : List TInstr) (a : PActor) (i : TInstr) : Bool :=
  match i.access with
  | none => true
  | some (op, m, _) =>
    !globalForm m || (o.isBind is i 6).isSome || (o.isBind is i 7).isSome || match o.reloc i.off 1 with
      | none => false
      | some r => m.len == 3 && (List.range i.reps).all fun j => match i.at j with
        | .m _ mj => (operandSb op || mj.sb.isS || op == 0x04F || op == 0x054)
          && (o.breg is r.sym == some mj.sa.toNat || o.windowReg a r.sym mj.sa)
        | _ => false

/-- ADDR (R29, R204, R205, item 5) for one instruction of an actor; a binding load of another register is none. -/
def Obj.addrOk (o : Obj) (is : List TInstr) (a : PActor) (i : TInstr) : Bool :=
  ((o.reloc i.off 6).isNone || (o.isBind is i 6).isSome) && ((o.reloc i.off 7).isNone || (o.isBind is i 7).isSome)
    && !o.writesBase is a i && !o.showsBase is a ((o.basesInY0 is).contains i) i && o.formed is a i
    && (List.range i.reps).all fun j => match portOf (i.at j) with
      | some (p, some sp) => sp.toNat == p + 1
      | _ => true

/-- The first place where an actor's binding loads are missing (R204): its entry, or behind a WAITV. -/
def Obj.unbound (o : Obj) (is : List TInstr) (a : PActor) : Option Nat :=
  if (instrAt is a.entry).isNone ∨ !o.bindsAt is a a.entry then some a.entry
  else (firstBad (o.reached is a) fun i => match i.form with
    | .m op _ => op != 0x078 || o.bindsAt is a (i.off + i.form.size)
    | _ => true)

/-- The bytes of an actor's footprint as (first, length) ranges (R199). -/
def Obj.footprint (o : Obj) (k : Nat) : List (Nat × Nat) := (o.lmem.filter fun l => l.actor == k).map fun l => (l.lo, l.size)

/-- Does a footprint hold every byte from one LA to another? -/
def withinRanges (fp : List (Nat × Nat)) (lo hi : Nat) : Bool :=
  (List.range (hi - lo)).all fun d => fp.any fun r => decide (r.1 ≤ lo + d) && decide (lo + d < r.1 + r.2)

/-- The bytes that a matrix form reaches from its LA (R302, R303, R315, R317): a header, MXST's rows, or an image. -/
def matrixReach (op : BitVec 9) (o : AOps) : Option Nat :=
  let n := op.toNat
  if 0x103 ≤ n ∧ n ≤ 0x10F then some 16
  else if 0x115 ≤ n ∧ n ≤ 0x11C then
    some ((o.kb.toNat + 1) * 32 * ([32, 16, 16, 8, 32, 8, 8, 4].getD (n - 0x115) 8) / 8)
  else if n = 0x11F ∨ n = 0x120 then some 8208
  else none

/-- LOCAL (R205, item 6; R302, R326) for one instruction and an actor: a copy or a collective loads its command block. -/
def Obj.localOk (o : Obj) (is : List TInstr) (a : PActor) (i : TInstr) : Bool :=
  let fp := o.footprint (o.numberOf a)
  let held (len : Nat) (j : Nat) (sp : Spec) : Bool := match o.boundRep is i j sp with
    | some b => withinRanges fp b.lo (b.hi + len)
    | none => false
  match i.form, i.access with
  | .a op x, _ => match matrixReach op x with
    | none => true
    | some len => (List.range i.reps).all fun j => match i.at j with
      | .a _ y => held len j y.sa
      | _ => false
  | .e op _, _ =>
    !(decide (0x140 ≤ op.toNat) && decide (op.toNat ≤ 0x14F)) || (List.range i.reps).all fun j => match i.at j with
      | .e _ y => held 64 j y.sa
      | _ => false
  | _, some (_, m, len, _, writes) =>
    if globalForm m then true
    else match o.spanOf is i (MOps.offset m).toInt len with
      | none => false
      | some e => decide (0 ≤ e.first)
        && (withinRanges fp e.first.toNat e.last.toNat || (!writes && decide (e.last ≤ 0x100)))
  | _, none => true

/-- SYNCW (R52, R205, item 7): the sync words that the object declares are those of every actor; every scalar or vector store counts as
plain.
(DESIGN CHOICE, log entry 99.) -/
def Obj.syncOk (o : Obj) (is : List TInstr) (i : TInstr) : Bool :=
  match i.access with
  | none => true
  | some (op, m, len, _, _) =>
    let plain := (0x047 ≤ op.toNat ∧ op.toNat ≤ 0x04A) ∨ (0x050 ≤ op.toNat ∧ op.toNat ≤ 0x054)
    if globalForm m ∨ ¬plain then true
    else match o.spanOf is i (MOps.offset m).toInt len with
      | none => false
      | some e => !((o.lmem.filter (·.sync)).map fun l => (l.lo, l.size)).any fun (r : Nat × Nat) => decide ((r.1 : Int) < e.last) && decide (e.first < (r.1 + r.2 : Nat))

/-- CSR (R205, item 8). -/
def csrFormOk (i : TInstr) : Bool :=
  match i.form with
  | .c op b =>
    let n := b.imm.toNat
    if op = 0x180 then csrListed n
    else if op = 0x181 ∨ op = 0x182 ∨ op = 0x183 then csrListed n && n != 0x006 && n != 0x011
    else true
  | _ => true

/-- PERM (R205, item 10). -/
def Obj.permOk (o : Obj) (i : TInstr) : Bool :=
  match i.access, o.reloc i.off 1 with
  | some (_, _, _, r, w), some x =>
    let p := o.perms x.sym
    (!r || p.1) && (!w || p.2)
  | _, _ => true

/-- CAP (R205, item 12): the target core of an MXCMD is a constant that a .cap names (R318). -/
def Obj.capOk (o : Obj) (is : List TInstr) (i : TInstr) : Bool :=
  match i.form with
  | .a op _ =>
    op != 0x11E || (List.range i.reps).all fun j => match i.at j with
      | .a _ x => match o.boundRep is i j x.sc with
        | some b => b.lo == b.hi && o.file.caps.any fun c => c.1 == field b.lo 32 11
        | none => false
      | _ => false
  | _ => true

/-- A CHKR word (R242). -/
def chkrWord (write : Bool) (sa sb handle : Spec) (len : Nat) : Form :=
  .a (if write then 0x032 else 0x031)
    { dst := 0, sa := sa, sb := sb, pred := 0, sc := handle, et := 0, ka := BitVec.ofNat 6 len, kb := BitVec.ofNat 6 (len / 64), pn := false }

/-- The GA of a reference's entry in the binding block (R208). -/
def Obj.entryGa (o : Obj) (bindOff ref : Nat) : Word :=
  ((o.bindOf 1).map (·.base)).getD 0 + BitVec.ofNat 64 (bindOff + 16 * ref)

/-- The value of a relocation's symbol and addend. -/
def TReloc.sum (r : TReloc) : Word := BitVec.ofInt 64 (r.value + r.addend)

/-- Some bytes laid over others at an offset. -/
def overlay (bs : List Byte) (off : Nat) (x : List Byte) : List Byte := bs.take off ++ x ++ bs.drop (off + x.length)

/-- A section other than .text with its relocations applied (R202). -/
def PFile.relocated (f : PFile) (n : SecName) : List Byte :=
  (f.relocs.filter fun r => some r.sec == f.secIndex n).foldl (fun bs r =>
    overlay bs r.place (bytesOf (if r.typ = 4 then 4 else 8) (BitVec.ofInt 64 (f.symValue r.sym + r.addend)).toNat)) (f.sec n)

/-! ## The constant region (R197, R199, R200, R208) -/

/-- Bytes padded to a multiple. -/
def padTo (n : Nat) (bs : List Byte) : List Byte := bs ++ List.replicate ((n - bs.length % n) % n) 0

/-- A TSR template with the reference's handle in place of its number (R200). -/
def Obj.tensorOf (o : Obj) (t : Nat) : Nat := setField t 32 32 (((o.bindOf (field t 32 32)).map (·.handle.toNat)).getD 0)

/-- The block-template list of an actor (R199): 32 bytes an entry, the last one marked. -/
def Obj.templateList (o : Obj) (k : Nat) : List Byte :=
  let ts := o.lmem.filter fun l => l.actor == k && l.blk
  ts.zipIdx.flatMap fun x => bytesOf 32 (x.1.lo + 2 ^ 32 * ofBool (x.2 + 1 == ts.length) + 2 ^ 128 * x.1.template.toNat)

/-- The constant region before its template lists: .rodata, and the tensor templates at a multiple of 64 bytes; 16 bytes of zeros where it
has neither and a list follows, so that no list lies at offset 0, which TMPL names for none (R197). -/
def Obj.constHead (o : Obj) : List Byte :=
  let head := padTo 16 (padTo 64 (o.file.relocated .rodata) ++ o.tensors.flatMap fun t => bytesOf 64 (o.tensorOf t))
  if head.isEmpty && o.lmem.any (·.blk) then List.replicate 16 0 else head

/-- TMPL of an actor (R197): the place of its list divided by 16, 0 for none. -/
def Obj.tmplOf (o : Obj) (k : Nat) : Nat :=
  if (o.templateList k).isEmpty then 0
  else (o.constHead.length + ((List.range k).map fun j => (o.templateList j).length).foldl (· + ·) 0) / 16

/-- The constant region up to the binding block. -/
def Obj.constBytes (o : Obj) : List Byte := o.constHead ++ (List.range o.actors.length).flatMap o.templateList

/-- BINDOFF (R208): the translator puts the block last. -/
def Obj.bindOff (o : Obj) : Nat := o.constBytes.length

/-- The binding block (R208): for each reference its base, 0 where it is folded, and its handle. -/
def Obj.bindingBlock (o : Obj) (base : Nat) : List (Nat × Byte) :=
  o.binds.flatMap fun b =>
    let v := (if o.folded b.ref then 0 else b.base.toNat) + 2 ^ 64 * b.handle.toNat
    (bytesOf 16 v).zipIdx.map fun x => (base + o.bindOff + 16 * b.ref + x.2, x.1)

/-! ## The sealed file (R195, R209, R210) -/

/-- A binding record of the seal (R209). -/
def Obj.bindingRecord (o : Obj) (b : PBind) : Nat :=
  let fold := o.folded b.ref
  b.ref % 64 + 2 ^ 6 * ofBool fold + 2 ^ 32 * b.handle.toNat + 2 ^ 64 * (if fold then b.base.toNat else 0)

/-- The header of the seal: its fields before HASH, HASH, and the zeros after it (R209). -/
def sealHeader (image igen tver tenant nbind nelide bindOff : Nat) (hash : BitVec 512) : List Byte :=
  bytesOf 32 (0x4C414553 + 2 ^ 32 * (image % 2 ^ 16) + 2 ^ 48 * (igen % 2 ^ 12) + 2 ^ 64 * (tver % 2 ^ 32)
    + 2 ^ 96 * (tenant % 2 ^ 12) + 2 ^ 128 * (nbind % 2 ^ 32) + 2 ^ 160 * (nelide % 2 ^ 32) + 2 ^ 192 * (bindOff % 2 ^ 32))
    ++ bytesOf 64 hash.toNat ++ List.replicate 32 0

/-- Bytes of the signature (R209). -/
def sigBytes : Nat := 3309

/-- The file as bytes: the ELF64 header, a header for each section, and the contents.
(DESIGN CHOICE, log entry 37.) -/
def PFile.bytes (f : PFile) : List Byte :=
  let ident := 0x464C457F + 2 ^ 32 * f.eclass + 2 ^ 40 * f.edata + 2 ^ 48 + 2 ^ 56 * f.osabi
  let head := bytesOf 16 ident ++ bytesOf 2 f.etype ++ bytesOf 2 f.machine ++ bytesOf 4 1 ++ bytesOf 8 f.eentry ++ bytesOf 8 0 ++ bytesOf 8 64
    ++ bytesOf 4 f.eflags.toNat ++ bytesOf 2 64 ++ bytesOf 6 0 ++ bytesOf 2 64 ++ bytesOf 2 f.sections.length ++ bytesOf 2 0
  head ++ f.sections.flatMap (fun x => bytesOf 4 0 ++ bytesOf 4 x.typ ++ bytesOf 8 x.flags ++ bytesOf 16 0 ++ bytesOf 8 x.data.length
    ++ bytesOf 16 0 ++ bytesOf 8 x.entsize) ++ f.sections.flatMap (·.data)

/-- The file with HASH and the signature of its .seal taken as zeros; the block it names holds zeros in the file (R208, R209).
(DESIGN CHOICE, log entry 37.) -/
def PFile.unsigned (f : PFile) : PFile :=
  { f with sections := f.sections.map fun x => if x.name = .seal then
      { x with data := overlay (overlay x.data 32 (List.replicate 64 0)) (x.data.length - sigBytes) (List.replicate sigBytes 0) } else x }

/-- HASH of a file (R209). -/
def PFile.digest (f : PFile) : BitVec 512 := Config.shake f.unsigned.bytes

/-- Does a sealed image's signature verify against its HASH (R210)? -/
def PFile.verifies (f : PFile) : Bool :=
  let x := f.sec .seal
  let hash : BitVec 512 := BitVec.ofNat 512 (valOf ((x.drop 32).take 64))
  hash == f.digest && x.drop (x.length - sigBytes) == bytesOf sigBytes (Config.sign (bytesOf 64 hash.toNat))

/-- The records of .actors with TMPL written (R197). -/
def Obj.actorBytes (o : Obj) : List Byte :=
  (chunks 32 (o.file.sec .actors)).zipIdx.flatMap fun x => bytesOf 32 (setField x.1 102 26 (o.tmplOf x.2))

/-- An actor of the image (R197, R199). -/
def Obj.actorOf (o : Obj) (k : Nat) (a : PActor) : Machine.Actor :=
  { entry := a.entry, s := a.s, v := a.v, cls := a.cls, radius := a.radius, home := a.home, nin := a.nin, nout := a.nout,
    rates := a.rates, footprint := o.footprint k, tmpl := o.tmplOf k }

/-- The device offset of the region that a reference is bound to. -/
def Obj.placeOf (o : Obj) (ref : Nat) : Nat := Machine.gaOff (((o.bindOf ref).map (·.base.toNat)).getD 0)

/-- The capability granted for a .cap declaration (R203, R299): the core and the rights it names, the loading tenant, and the runtime's
NONCE. -/
def capWord (core rights tenant nonce : Nat) : Word :=
  BitVec.ofNat 64 (core % 2 ^ 10 + 2 ^ 10 * (tenant % 2 ^ 12) + 2 ^ 22 * (rights % 2 ^ 4) + 2 ^ 26 * nonce)

end Sys2Proof

namespace Sys2Proof.Machine

open Sys2Proof.Bits

/-! ## Binding (R205 item 11, R206, R207, R208) -/

/-- The descriptor that a binding's handle names. -/
def State.bindDesc (s : State) (b : PBind) : Desc := s.descAt (hIndex b.handle)

/-- MINSIZE of a reference; regions 1 and 2 have none and rely on what they are bound to. -/
def State.minsizeOf (s : State) (o : Obj) (ref : Nat) : Nat :=
  match o.region ref, o.bindOf ref with
  | some r, _ => r.minsize
  | none, some b => dSize (s.bindDesc b)
  | none, none => 0

/-- BIND (R205, item 11). -/
def State.bindOk (s : State) (o : Obj) (b : PBind) : Bool :=
  let d := s.bindDesc b
  let p := o.perms b.ref
  hIndex b.handle != 0 && decide (s.minsizeOf o b.ref ≤ dSize d) && (!p.1 || dPermits d .read) && (!p.2 || dPermits d .write)
    && dTenant d == o.tenant

/-- Does a bound region reach the control block (R13, R205, item 9)? -/
def State.reachesControl (s : State) (b : PBind) : Bool :=
  let d := s.bindDesc b
  decide (Config.controlBase < dOff d + dSize d) && decide (dOff d < Config.controlBase + Config.controlSize)

/-- CTRL (R13, R205, item 9). -/
def State.ctrlOk (s : State) (o : Obj) (i : TInstr) : Bool :=
  match o.reloc i.off 1 with
  | some r => match o.bindOf r.sym with
    | some b => !s.reachesControl b
    | none => true
  | none => true

/-- The reason and .text offset for which an object is rejected: the first condition of R205 that fails.
(DEDUCED, log entry 36.) -/
def State.rejection (s : State) (o : Obj) : Option (Nat × Nat) :=
  let sw := o.sweep
  let is := sw.1
  let steps : List (Option (Nat × Nat)) :=
    [ (o.formatBad is sw.2).map fun x => (1, x),
      (o.firstBadFor is portOk).map fun x => (1, x),
      sw.2.head?.map fun x => (2, x),
      (o.firstBadFor is fun a i => (List.range i.reps).all fun j => (i.at j).allocated a.s a.v true).map fun x => (3, x),
      (firstBad is fun i => o.flowOk is i).map fun x => (4, x),
      (o.firstBadAll is fun a i => o.addrOk is a i).map fun x => (5, x),
      (o.actors.findSome? fun a => o.unbound is a).map fun x => (5, x),
      (o.firstBadFor is fun a i => o.localOk is a i).map fun x => (6, x),
      (o.firstBadFor is fun _ i => o.syncOk is i).map fun x => (7, x),
      (firstBad is csrFormOk).map fun x => (8, x),
      (firstBad is fun i => s.ctrlOk o i).map fun x => (9, x),
      (firstBad is fun i => o.permOk i).map fun x => (10, x),
      if o.binds.all (s.bindOk o) ∧ o.refsNamed.all (fun ref => (o.bindOf ref).isSome) then none else some (11, 0),
      (firstBad is fun i => o.capOk is i).map fun x => (12, x) ]
  steps.findSome? id

/-! ## Check slots and relocation (R202, R206, R207, R243) -/

/-- The reference, span and proof code of a slot whose check is elided (R206): one whose reference is bound on the loading device, and
whose access no proof lets pass MINSIZE.
(DEDUCED, log entry 36.) -/
def State.elision (s : State) (o : Obj) (is : List TInstr) (i : TInstr) (len : Nat) : Option (Nat × Nat × Nat) :=
  match o.slotOf is i with
  | some (.access t) => match t.form, o.reloc t.off 1 with
    | .m _ m, some r =>
      let here := match o.bindOf r.sym with
        | some b => dDev (s.bindDesc b) == s.devNum
        | none => false
      match o.spanOf is t (r.addend + m.off.toInt) len with
      | some x => if here && decide (0 ≤ x.first) && decide (x.last ≤ (s.minsizeOf o r.sym : Int)) then some (r.sym, x.last.toNat, x.code) else none
      | none => none
    | _, _ => none
  | _ => none

/-- The word that a check slot gets (R202, R206, R243): a CHKR of the needed kind with the access's own base and index, s0 where SB is no
index or the lanes are checked one by one; a CHKR of a flag; or its NOP. -/
def State.slotForm (s : State) (o : Obj) (is : List TInstr) (i : TInstr) (r : TReloc) : Form :=
  let handle (ref : Nat) : Spec := BitVec.ofNat 8 ((o.hreg is ref).getD 0)
  let len := r.addend.toNat
  match o.slotOf is i with
  | none => i.form
  | some (.flag _ flag) => chkrWord true flag 0 (handle r.sym) len
  | some (.access t) =>
    if (s.elision o is i len).isSome then i.form
    else match t.access, o.reloc t.off 1 with
      | some (op, m, _, _, w), some x =>
        let lanes := op = 0x04E ∨ op = 0x04F ∨ op = 0x053 ∨ op = 0x054
        chkrWord w m.sa (if lanes ∨ operandSb op then 0 else m.sb) (handle x.sym) (if lanes then 4 else len)
      | _, _ => i.form

/-- The generation that a sealing gets (R211). -/
def State.nextGen (s : State) (image : Nat) : Nat := s.listGen image + 1

/-- One instruction as the translator writes it (R202, R207). -/
def State.relocated (s : State) (o : Obj) (is : List TInstr) (bindOff : Nat) (i : TInstr) : Form :=
  let add (r : TReloc) : Word := BitVec.ofInt 64 r.addend
  match o.reloc i.off 2, o.reloc i.off 1, o.reloc i.off 6, o.reloc i.off 7, i.form with
  | some r, _, _, _, _ => s.slotForm o is i r
  | none, some r, _, _, .m op m =>
    if o.folded r.sym then .m op { m with sa := 0, disp := ((o.bindOf r.sym).map (·.base)).getD 0 + add r } else .m op { m with disp := add r }
  | none, none, some r, _, .m op m =>
    if o.folded r.sym then .l 0x02E { dst := m.dst, sa := 0, pred := 0, sc := 0, et := 0, ka := 0, kb := 0, pn := false, imm := 0 }
    else .m op { m with disp := o.entryGa bindOff r.sym }
  | none, none, none, some r, .m op m => .m op { m with disp := o.entryGa bindOff r.sym + 8 }
  | none, none, none, none, .l op l => match o.reloc i.off 3, o.reloc i.off 5 with
    | some r, _ => .l op { l with imm := r.sum }
    | none, some r => .l op { l with imm := BitVec.ofNat 64 (r.sym % 2 ^ 16 + 2 ^ 16 * (o.image % 2 ^ 16) + 2 ^ 32 * s.nextGen o.image) }
    | none, none => i.form
  | _, _, _, _, f => f

/-- The bytes of the image's .text. -/
def State.sealedText (s : State) (o : Obj) (is : List TInstr) (bindOff : Nat) : List Byte :=
  is.foldl (fun bs i =>
    let f := s.relocated o is bindOff i
    overlay bs i.off (bytesOf f.size f.bits.toNat)) (o.file.sec .text)

/-! ## The sealed image (R195, R209, R210) -/

/-- The elision records of the seal (R209). -/
def State.elisionRecords (s : State) (o : Obj) (is : List TInstr) : List Nat :=
  is.filterMap fun i => match o.reloc i.off 2 with
    | none => none
    | some r => (s.elision o is i r.addend.toNat).map fun e => i.off + 2 ^ 32 * (e.1 % 64) + 2 ^ 38 * e.2.2 + 2 ^ 64 * e.2.1

/-- The sealed file of an object (R195, R196, R209): the sections of R196, .rodata with what the translator adds to the constant region. -/
def State.sealedFile (s : State) (o : Obj) (is : List TInstr) : PFile :=
  let elided := s.elisionRecords o is
  let data (n : SecName) : List Byte := match n with
    | .text => s.sealedText o is o.bindOff
    | .rodata => o.constBytes ++ List.replicate 1024 0
    | .actors => o.actorBytes
    | n => o.file.relocated n
  let header (hash : BitVec 512) : List Byte :=
    sealHeader o.image (s.nextGen o.image) s.control.measures.tver.toNat o.tenant o.binds.length elided.length o.bindOff hash
  let records := o.binds.flatMap (fun b => bytesOf 16 (o.bindingRecord b)) ++ elided.flatMap fun e => bytesOf 16 e
  let sealSec (head sig : List Byte) : PSection := { name := .seal, typ := 0x70000007, flags := 0, entsize := 0, data := head ++ records ++ sig }
  let kept := (o.file.sections.filter fun x => x.name != .other && x.name != .seal).map fun x => { x with data := data x.name }
  let bare : PFile := { o.file with
    etype := 2, eflags := o.file.eflags ||| 0x20, relocs := [], sections := kept ++ [sealSec (header 0) (List.replicate sigBytes 0)] }
  let hash := bare.digest
  { bare with sections := kept ++ [sealSec (header hash) (bytesOf sigBytes (Config.sign (bytesOf 64 hash.toNat)))] }

/-- The object that a request names: its own, or the kept one of the image (R210, R214). -/
def State.objectOf (s : State) (r : PObject) : Option PFile :=
  match r.file with
  | some f => some f
  | none => (s.sched.images.find? fun i => i.id == r.image).map (·.object)

/-- An admitted object sealed, and placed where its signature verifies (R210): the code, the constant region with the binding block, and on a
first load the data region. -/
def State.seal (s : State) (r : PObject) (o : Obj) : State :=
  let is := o.sweep.1
  let file := s.sealedFile o is
  let text := file.sec .text
  let code : Code :=
    { image := o.image, igen := s.nextGen o.image, tver := s.control.measures.tver.toNat, base := o.placeOf 0, len := text.length,
      traps := o.traps, binds := o.binds.map (·.handle) }
  let i : Image :=
    { id := o.image, code := code, actors := o.actors.zipIdx.map (fun x => o.actorOf x.2 x.1), constBase := o.placeOf 1, tenant := o.tenant,
      hash := file.digest, object := o.file,
      grants := (o.file.caps.zip r.nonces).map fun x => (x.1.1, capWord x.1.1 x.1.2 o.tenant x.2) }
  let s1 := s.send (.sealed o.image file)
  if !(file.image (bit o.file.eflags.toNat 4) && file.verifies) then s1
  else
    let m1 := if (o.bindOf 0).isSome then s1.mem.write (o.placeOf 0) text else s1.mem
    let m2 := if (o.bindOf 1).isSome then (m1.write (o.placeOf 1) o.constBytes).writeEach (o.bindingBlock (o.placeOf 1)) else m1
    let m3 := if r.file.isSome ∧ (o.bindOf 2).isSome then m2.write (o.placeOf 2) (o.file.relocated .data) else m2
    { s1 with
      mem := m3,
      sched := { s1.sched with images := i :: s1.sched.images.filter fun x => !(x.id == o.image && x.code.igen == s.nextGen o.image) } }

/-- OBJECT_TRANSLATE (R28, R29, R195 to R214, R299): a rejected object changes nothing, and the runtime learns the reason and the offset; an
admitted one is sealed as the next generation of its image.  An entry at its last generation is given none (R211). -/
def execObjectTranslate (o : PObject) (s : State) : Result :=
  .next <| match s.objectOf o with
    | none => s
    | some f =>
      let x := f.read o.binds o.image o.tenant
      match s.rejection x with
      | some r => s.send (.rejected o.image r.1 r.2)
      | none => if s.listGen o.image = 0xFFF then s else s.seal o x

end Sys2Proof.Machine
end

