-- ==== Sys2Proof/Machine/Dispatch.lean ====
section
/-! DEFINITION. The dispatch: one arm per constructor, each a direct call of its meaning. -/

namespace Sys2Proof.Machine

def exec (i : Instr) (s : State) : Host.Outcome State Fault Refusal :=
  match i with
  | .padSkip => Sys2Proof.Machine.execPadSkip s
  | .runtimePortAccess k r => Sys2Proof.Machine.execRuntimePortAccess k r s
  | .controlBlockWrite off mask val => Sys2Proof.Machine.execControlBlockWrite off mask val s
  | .regionUpdate index => Sys2Proof.Machine.execRegionUpdate index s
  | .regionUpdateComplete => Sys2Proof.Machine.execRegionUpdateComplete s
  | .regionInvalidation core index gen => Sys2Proof.Machine.execRegionInvalidation core index gen s
  | .descriptorFetchReturn ctx => Sys2Proof.Machine.execDescriptorFetchReturn ctx s
  | .ownerMapUpdate granule => Sys2Proof.Machine.execOwnerMapUpdate granule s
  | .ownerMapUpdateComplete => Sys2Proof.Machine.execOwnerMapUpdateComplete s
  | .ownerEntryFetchReturn slice granule => Sys2Proof.Machine.execOwnerEntryFetchReturn slice granule s
  | .homeSliceRequest r => Sys2Proof.Machine.execHomeSliceRequest r s
  | .windowRequest r => Sys2Proof.Machine.execWindowRequest r s
  | .loadReply ctx dev cmd r => Sys2Proof.Machine.execLoadReply ctx dev cmd r s
  | .splitRequest ctx => Sys2Proof.Machine.execSplitRequest ctx s
  | .reorderWindowGrant ctx strm dev => Sys2Proof.Machine.execReorderWindowGrant ctx strm dev s
  | .streamStoreArrival st => Sys2Proof.Machine.execStreamStoreArrival st s
  | .storeAck ctx strm dev seq refused => Sys2Proof.Machine.execStoreAck ctx strm dev seq refused s
  | .fabricRequestArrival p => Sys2Proof.Machine.execFabricRequestArrival p s
  | .fabricForward p => Sys2Proof.Machine.execFabricForward p s
  | .remoteMovingRetry k => Sys2Proof.Machine.execRemoteMovingRetry k s
  | .batchCloseArrival dev ctx tag => Sys2Proof.Machine.execBatchCloseArrival dev ctx tag s
  | .batchCloseReply ctx tag dev refused reasons => Sys2Proof.Machine.execBatchCloseReply ctx tag dev refused reasons s
  | .linkTimeout dev => Sys2Proof.Machine.execLinkTimeout dev s
  | .bundlePrepare p => Sys2Proof.Machine.execBundlePrepare p s
  | .prepareAck ctx ident comp refused => Sys2Proof.Machine.execPrepareAck ctx ident comp refused s
  | .bundleFinal slice ident comps => Sys2Proof.Machine.execBundleFinal slice ident comps s
  | .finalReply ctx dev slice ans => Sys2Proof.Machine.execFinalReply ctx dev slice ans s
  | .bundleDecide ident m => Sys2Proof.Machine.execBundleDecide ident m s
  | .bundleCommit slice ident c => Sys2Proof.Machine.execBundleCommit slice ident c s
  | .commitAck ident dev slice => Sys2Proof.Machine.execCommitAck ident dev slice s
  | .bundleAbort slice ident => Sys2Proof.Machine.execBundleAbort slice ident s
  | .fateQuestion ident t slice asker => Sys2Proof.Machine.execFateQuestion ident t slice asker s
  | .fateReply slice ident answer => Sys2Proof.Machine.execFateReply slice ident answer s
  | .groupLoadServe dev ctx h parts t => Sys2Proof.Machine.execGroupLoadServe dev ctx h parts t s
  | .landing core la n => Sys2Proof.Machine.execLanding core la n s
  | .dectApply part rc c n => Sys2Proof.Machine.execDectApply part rc c n s
  | .dispatchPacket part rc => Sys2Proof.Machine.execDispatchPacket part rc s
  | .packetReturn part rc cluster => Sys2Proof.Machine.execPacketReturn part rc cluster s
  | .freeNote core cluster => Sys2Proof.Machine.execFreeNote core cluster s
  | .chainClaim part rc => Sys2Proof.Machine.execChainClaim part rc s
  | .displacement part rc => Sys2Proof.Machine.execDisplacement part rc s
  | .firingStart part rc seats => Sys2Proof.Machine.execFiringStart part rc seats s
  | .launchScan slot => Sys2Proof.Machine.execLaunchScan slot s
  | .launchComplete slot => Sys2Proof.Machine.execLaunchComplete slot s
  | .hostLaunchMessage part index => Sys2Proof.Machine.execHostLaunchMessage part index s
  | .hostServiceMessage fn data => Sys2Proof.Machine.execHostServiceMessage fn data s
  | .waitEnqueue part rc off val => Sys2Proof.Machine.execWaitEnqueue part rc off val s
  | .noteWake off all => Sys2Proof.Machine.execNoteWake off all s
  | .overflowRecheck slice => Sys2Proof.Machine.execOverflowRecheck slice s
  | .chainStallTimeout id => Sys2Proof.Machine.execChainStallTimeout id s
  | .imageGenRewrite => Sys2Proof.Machine.execImageGenRewrite s
  | .imageGenRewriteComplete => Sys2Proof.Machine.execImageGenRewriteComplete s
  | .objectTranslate o => Sys2Proof.Machine.execObjectTranslate o s
  | .copyAccept e ctx vq num => Sys2Proof.Machine.execCopyAccept e ctx vq num s
  | .commandStart e place => Sys2Proof.Machine.execCommandStart e place s
  | .commandComplete e ctx vq num => Sys2Proof.Machine.execCommandComplete e ctx vq num s
  | .copyQuiesceDone id => Sys2Proof.Machine.execCopyQuiesceDone id s
  | .collContribution c => Sys2Proof.Machine.execCollContribution c s
  | .collSlotDeadline tenant group seq => Sys2Proof.Machine.execCollSlotDeadline tenant group seq s
  | .collResult ctx vq num status arrived flags missing data => Sys2Proof.Machine.execCollResult ctx vq num status arrived flags missing data s
  | .messageLand net core => Sys2Proof.Machine.execMessageLand net core s
  | .mxcmdArrival core => Sys2Proof.Machine.execMxcmdArrival core s
  | .mxcmdReply ctx num status cause => Sys2Proof.Machine.execMxcmdReply ctx num status cause s
  | .sequencerCommand core pick start => Sys2Proof.Machine.execSequencerCommand core pick start s
  | .kstep core => Sys2Proof.Machine.execKstep core s
  | .sliceBoundary => Sys2Proof.Machine.execSliceBoundary s
  | .scratchpadSwap core => Sys2Proof.Machine.execScratchpadSwap core s
  | .yieldBudgetOverrun id => Sys2Proof.Machine.execYieldBudgetOverrun id s
  | .forcedSaveComplete id => Sys2Proof.Machine.execForcedSaveComplete id s
  | .contextResume ctxs seats => Sys2Proof.Machine.execContextResume ctxs seats s
  | .impreciseFaultDelivery ctx => Sys2Proof.Machine.execImpreciseFaultDelivery ctx s
  | .kill => Sys2Proof.Machine.execKill s
  | .killDiscardWindowEnd core => Sys2Proof.Machine.execKillDiscardWindowEnd core s
  | .killConfirm => Sys2Proof.Machine.execKillConfirm s
  | .partitionForm => Sys2Proof.Machine.execPartitionForm s
  | .partitionRelease => Sys2Proof.Machine.execPartitionRelease s
  | .partitionReslot => Sys2Proof.Machine.execPartitionReslot s
  | .partcmdComplete => Sys2Proof.Machine.execPartcmdComplete s
  | .slicectlWrite val => Sys2Proof.Machine.execSlicectlWrite val s
  | .modeReset => Sys2Proof.Machine.execModeReset s
  | .modeResetBootDone => Sys2Proof.Machine.execModeResetBootDone s
  | .keyRotation => Sys2Proof.Machine.execKeyRotation s
  | .keyRotationComplete => Sys2Proof.Machine.execKeyRotationComplete s
  | .attestationRequest part nonce => Sys2Proof.Machine.execAttestationRequest part nonce s
  | .firmwareActivationComplete m => Sys2Proof.Machine.execFirmwareActivationComplete m s
  | .linkUp port peer => Sys2Proof.Machine.execLinkUp port peer s
  | .linkDown port => Sys2Proof.Machine.execLinkDown port s
  | .flitRetry port => Sys2Proof.Machine.execFlitRetry port s
  | .peerReadmit answers => Sys2Proof.Machine.execPeerReadmit answers s
  | .peerMarklost => Sys2Proof.Machine.execPeerMarklost s
  | .peerRetrain => Sys2Proof.Machine.execPeerRetrain s
  | .peercmdComplete => Sys2Proof.Machine.execPeercmdComplete s
  | .scaleoutWorkRequest w => Sys2Proof.Machine.execScaleoutWorkRequest w s
  | .scaleoutPacket tenant keyGen tagOk w => Sys2Proof.Machine.execScaleoutPacket tenant keyGen tagOk w s
  | .hostLinkReset => Sys2Proof.Machine.execHostLinkReset s
  | .vfReset fn => Sys2Proof.Machine.execVfReset fn s
  | .hostDma a => Sys2Proof.Machine.execHostDma a s
  | .powerStep pins => Sys2Proof.Machine.execPowerStep pins s
  | .i3cPowerLevel data => Sys2Proof.Machine.execI3cPowerLevel data s
  | .powerCapWrite val => Sys2Proof.Machine.execPowerCapWrite val s
  | .powerSample watts => Sys2Proof.Machine.execPowerSample watts s
  | .powerFail => Sys2Proof.Machine.execPowerFail s
  | .flashDrainDone => Sys2Proof.Machine.execFlashDrainDone s
  | .powerFailRestore sigOk accept => Sys2Proof.Machine.execPowerFailRestore sigOk accept s
  | .rowFlush => Sys2Proof.Machine.execRowFlush s
  | .rowFlushComplete => Sys2Proof.Machine.execRowFlushComplete s
  | .uncorrectableError e => Sys2Proof.Machine.execUncorrectableError e s
  | .correctedError core => Sys2Proof.Machine.execCorrectedError core s
  | .deviceReset failed => Sys2Proof.Machine.execDeviceReset failed s
  | .ecallAnswer ctx val => Sys2Proof.Machine.execEcallAnswer ctx val s
  | .waittExpiry id => Sys2Proof.Machine.execWaittExpiry id s
  | .unassignedOpValue item bits => Sys2Proof.Machine.execUnassignedOpValue item bits s
  | .clusterUnitAtomic scope r => Sys2Proof.Machine.execClusterUnitAtomic scope r s
  | .linkTrainingFailure port => Sys2Proof.Machine.execLinkTrainingFailure port s
  | .linkDownReplreqTimeout port => Sys2Proof.Machine.execLinkDownReplreqTimeout port s
  | .firmwareActivationStart => Sys2Proof.Machine.execFirmwareActivationStart s
  | .ieee1588TimeSync t => Sys2Proof.Machine.execIeee1588TimeSync t s
  | .add o => Sys2Proof.Machine.execAdd o s
  | .addImm o => Sys2Proof.Machine.execAddImm o s
  | .sub o => Sys2Proof.Machine.execSub o s
  | .subImm o => Sys2Proof.Machine.execSubImm o s
  | .mul o => Sys2Proof.Machine.execMul o s
  | .mulImm o => Sys2Proof.Machine.execMulImm o s
  | .mulhS o => Sys2Proof.Machine.execMulhS o s
  | .mulhU o => Sys2Proof.Machine.execMulhU o s
  | .divS o => Sys2Proof.Machine.execDivS o s
  | .divU o => Sys2Proof.Machine.execDivU o s
  | .remS o => Sys2Proof.Machine.execRemS o s
  | .remU o => Sys2Proof.Machine.execRemU o s
  | .and o => Sys2Proof.Machine.execAnd o s
  | .andImm o => Sys2Proof.Machine.execAndImm o s
  | .or o => Sys2Proof.Machine.execOr o s
  | .orImm o => Sys2Proof.Machine.execOrImm o s
  | .xor o => Sys2Proof.Machine.execXor o s
  | .xorImm o => Sys2Proof.Machine.execXorImm o s
  | .shl o => Sys2Proof.Machine.execShl o s
  | .shrL o => Sys2Proof.Machine.execShrL o s
  | .shrA o => Sys2Proof.Machine.execShrA o s
  | .rot o => Sys2Proof.Machine.execRot o s
  | .minS o => Sys2Proof.Machine.execMinS o s
  | .minU o => Sys2Proof.Machine.execMinU o s
  | .maxS o => Sys2Proof.Machine.execMaxS o s
  | .maxU o => Sys2Proof.Machine.execMaxU o s
  | .clampS o => Sys2Proof.Machine.execClampS o s
  | .clampU o => Sys2Proof.Machine.execClampU o s
  | .abs o => Sys2Proof.Machine.execAbs o s
  | .clz o => Sys2Proof.Machine.execClz o s
  | .popc o => Sys2Proof.Machine.execPopc o s
  | .sext o => Sys2Proof.Machine.execSext o s
  | .extS o => Sys2Proof.Machine.execExtS o s
  | .extU o => Sys2Proof.Machine.execExtU o s
  | .ins o => Sys2Proof.Machine.execIns o s
  | .mad o => Sys2Proof.Machine.execMad o s
  | .sel o => Sys2Proof.Machine.execSel o s
  | .cmpEq o => Sys2Proof.Machine.execCmpEq o s
  | .cmpNe o => Sys2Proof.Machine.execCmpNe o s
  | .cmpLt o => Sys2Proof.Machine.execCmpLt o s
  | .cmpGe o => Sys2Proof.Machine.execCmpGe o s
  | .cmpLtu o => Sys2Proof.Machine.execCmpLtu o s
  | .cmpGeu o => Sys2Proof.Machine.execCmpGeu o s
  | .mlog o => Sys2Proof.Machine.execMlog o s
  | .mov o => Sys2Proof.Machine.execMov o s
  | .moviW o => Sys2Proof.Machine.execMoviW o s
  | .moviD o => Sys2Proof.Machine.execMoviD o s
  | .gaMk o => Sys2Proof.Machine.execGaMk o s
  | .gaDev o => Sys2Proof.Machine.execGaDev o s
  | .chkrR o => Sys2Proof.Machine.execChkrR o s
  | .chkrW o => Sys2Proof.Machine.execChkrW o s
  | .chkrX o => Sys2Proof.Machine.execChkrX o s
  | .br o => Sys2Proof.Machine.execBr o s
  | .bri o => Sys2Proof.Machine.execBri o s
  | .call o => Sys2Proof.Machine.execCall o s
  | .calli o => Sys2Proof.Machine.execCalli o s
  | .ret o => Sys2Proof.Machine.execRet o s
  | .loop o => Sys2Proof.Machine.execLoop o s
  | .endF o => Sys2Proof.Machine.execEndF o s
  | .endRe o => Sys2Proof.Machine.execEndRe o s
  | .rep o => Sys2Proof.Machine.execRep o s
  | .nop o => Sys2Proof.Machine.execNop o s
  | .ldB o => Sys2Proof.Machine.execLdB o s
  | .ldH o => Sys2Proof.Machine.execLdH o s
  | .ldW o => Sys2Proof.Machine.execLdW o s
  | .ldD o => Sys2Proof.Machine.execLdD o s
  | .ldBs o => Sys2Proof.Machine.execLdBs o s
  | .ldHs o => Sys2Proof.Machine.execLdHs o s
  | .ldWs o => Sys2Proof.Machine.execLdWs o s
  | .stB o => Sys2Proof.Machine.execStB o s
  | .stH o => Sys2Proof.Machine.execStH o s
  | .stW o => Sys2Proof.Machine.execStW o s
  | .stD o => Sys2Proof.Machine.execStD o s
  | .vldL o => Sys2Proof.Machine.execVldL o s
  | .vldR o => Sys2Proof.Machine.execVldR o s
  | .vldC o => Sys2Proof.Machine.execVldC o s
  | .vlds o => Sys2Proof.Machine.execVlds o s
  | .vldx o => Sys2Proof.Machine.execVldx o s
  | .vstL o => Sys2Proof.Machine.execVstL o s
  | .vstR o => Sys2Proof.Machine.execVstR o s
  | .vstC o => Sys2Proof.Machine.execVstC o s
  | .vsts o => Sys2Proof.Machine.execVsts o s
  | .vstx o => Sys2Proof.Machine.execVstx o s
  | .aaddW o => Sys2Proof.Machine.execAaddW o s
  | .aaddD o => Sys2Proof.Machine.execAaddD o s
  | .aandW o => Sys2Proof.Machine.execAandW o s
  | .aandD o => Sys2Proof.Machine.execAandD o s
  | .aorW o => Sys2Proof.Machine.execAorW o s
  | .aorD o => Sys2Proof.Machine.execAorD o s
  | .axorW o => Sys2Proof.Machine.execAxorW o s
  | .axorD o => Sys2Proof.Machine.execAxorD o s
  | .aminsW o => Sys2Proof.Machine.execAminsW o s
  | .aminsD o => Sys2Proof.Machine.execAminsD o s
  | .aminuW o => Sys2Proof.Machine.execAminuW o s
  | .aminuD o => Sys2Proof.Machine.execAminuD o s
  | .amaxsW o => Sys2Proof.Machine.execAmaxsW o s
  | .amaxsD o => Sys2Proof.Machine.execAmaxsD o s
  | .amaxuW o => Sys2Proof.Machine.execAmaxuW o s
  | .amaxuD o => Sys2Proof.Machine.execAmaxuD o s
  | .axchgW o => Sys2Proof.Machine.execAxchgW o s
  | .axchgD o => Sys2Proof.Machine.execAxchgD o s
  | .acasW o => Sys2Proof.Machine.execAcasW o s
  | .acasD o => Sys2Proof.Machine.execAcasD o s
  | .afaddW o => Sys2Proof.Machine.execAfaddW o s
  | .raddW o => Sys2Proof.Machine.execRaddW o s
  | .raddD o => Sys2Proof.Machine.execRaddD o s
  | .rfaddW o => Sys2Proof.Machine.execRfaddW o s
  | .rmaxsW o => Sys2Proof.Machine.execRmaxsW o s
  | .rmaxsD o => Sys2Proof.Machine.execRmaxsD o s
  | .rmaxuW o => Sys2Proof.Machine.execRmaxuW o s
  | .rmaxuD o => Sys2Proof.Machine.execRmaxuD o s
  | .fence o => Sys2Proof.Machine.execFence o s
  | .fwait o => Sys2Proof.Machine.execFwait o s
  | .batchc o => Sys2Proof.Machine.execBatchc o s
  | .bopen o => Sys2Proof.Machine.execBopen o s
  | .bclose o => Sys2Proof.Machine.execBclose o s
  | .rgopen o => Sys2Proof.Machine.execRgopen o s
  | .rgclose o => Sys2Proof.Machine.execRgclose o s
  | .waitv o => Sys2Proof.Machine.execWaitv o s
  | .noteOne o => Sys2Proof.Machine.execNoteOne o s
  | .noteAll o => Sys2Proof.Machine.execNoteAll o s
  | .swset o => Sys2Proof.Machine.execSwset o s
  | .swwait o => Sys2Proof.Machine.execSwwait o s
  | .tlwait o => Sys2Proof.Machine.execTlwait o s
  | .tlread o => Sys2Proof.Machine.execTlread o s
  | .vaddI o => Sys2Proof.Machine.execVaddI o s
  | .vaddIZ o => Sys2Proof.Machine.execVaddIZ o s
  | .vaddIs o => Sys2Proof.Machine.execVaddIs o s
  | .vaddIsZ o => Sys2Proof.Machine.execVaddIsZ o s
  | .vaddNs o => Sys2Proof.Machine.execVaddNs o s
  | .vaddNsZ o => Sys2Proof.Machine.execVaddNsZ o s
  | .vaddF o => Sys2Proof.Machine.execVaddF o s
  | .vaddFZ o => Sys2Proof.Machine.execVaddFZ o s
  | .vsubI o => Sys2Proof.Machine.execVsubI o s
  | .vsubIZ o => Sys2Proof.Machine.execVsubIZ o s
  | .vsubIs o => Sys2Proof.Machine.execVsubIs o s
  | .vsubIsZ o => Sys2Proof.Machine.execVsubIsZ o s
  | .vsubNs o => Sys2Proof.Machine.execVsubNs o s
  | .vsubNsZ o => Sys2Proof.Machine.execVsubNsZ o s
  | .vsubF o => Sys2Proof.Machine.execVsubF o s
  | .vsubFZ o => Sys2Proof.Machine.execVsubFZ o s
  | .vmulI o => Sys2Proof.Machine.execVmulI o s
  | .vmulIZ o => Sys2Proof.Machine.execVmulIZ o s
  | .vmulIh o => Sys2Proof.Machine.execVmulIh o s
  | .vmulIhZ o => Sys2Proof.Machine.execVmulIhZ o s
  | .vmulNh o => Sys2Proof.Machine.execVmulNh o s
  | .vmulNhZ o => Sys2Proof.Machine.execVmulNhZ o s
  | .vmulF o => Sys2Proof.Machine.execVmulF o s
  | .vmulFZ o => Sys2Proof.Machine.execVmulFZ o s
  | .vfmaI o => Sys2Proof.Machine.execVfmaI o s
  | .vfmaIZ o => Sys2Proof.Machine.execVfmaIZ o s
  | .vfmaF o => Sys2Proof.Machine.execVfmaF o s
  | .vfmaFZ o => Sys2Proof.Machine.execVfmaFZ o s
  | .vdivF o => Sys2Proof.Machine.execVdivF o s
  | .vdivFZ o => Sys2Proof.Machine.execVdivFZ o s
  | .vsqrtF o => Sys2Proof.Machine.execVsqrtF o s
  | .vsqrtFZ o => Sys2Proof.Machine.execVsqrtFZ o s
  | .vminI o => Sys2Proof.Machine.execVminI o s
  | .vminIZ o => Sys2Proof.Machine.execVminIZ o s
  | .vminN o => Sys2Proof.Machine.execVminN o s
  | .vminNZ o => Sys2Proof.Machine.execVminNZ o s
  | .vminF o => Sys2Proof.Machine.execVminF o s
  | .vminFZ o => Sys2Proof.Machine.execVminFZ o s
  | .vmaxI o => Sys2Proof.Machine.execVmaxI o s
  | .vmaxIZ o => Sys2Proof.Machine.execVmaxIZ o s
  | .vmaxN o => Sys2Proof.Machine.execVmaxN o s
  | .vmaxNZ o => Sys2Proof.Machine.execVmaxNZ o s
  | .vmaxF o => Sys2Proof.Machine.execVmaxF o s
  | .vmaxFZ o => Sys2Proof.Machine.execVmaxFZ o s
  | .vabsI o => Sys2Proof.Machine.execVabsI o s
  | .vabsIZ o => Sys2Proof.Machine.execVabsIZ o s
  | .vabsF o => Sys2Proof.Machine.execVabsF o s
  | .vabsFZ o => Sys2Proof.Machine.execVabsFZ o s
  | .vnegI o => Sys2Proof.Machine.execVnegI o s
  | .vnegIZ o => Sys2Proof.Machine.execVnegIZ o s
  | .vnegF o => Sys2Proof.Machine.execVnegF o s
  | .vnegFZ o => Sys2Proof.Machine.execVnegFZ o s
  | .vand o => Sys2Proof.Machine.execVand o s
  | .vor o => Sys2Proof.Machine.execVor o s
  | .vxor o => Sys2Proof.Machine.execVxor o s
  | .vshl o => Sys2Proof.Machine.execVshl o s
  | .vshrL o => Sys2Proof.Machine.execVshrL o s
  | .vshrA o => Sys2Proof.Machine.execVshrA o s
  | .vcmpEq o => Sys2Proof.Machine.execVcmpEq o s
  | .vcmpNe o => Sys2Proof.Machine.execVcmpNe o s
  | .vcmpLt o => Sys2Proof.Machine.execVcmpLt o s
  | .vcmpLe o => Sys2Proof.Machine.execVcmpLe o s
  | .vcmpUn o => Sys2Proof.Machine.execVcmpUn o s
  | .vsel o => Sys2Proof.Machine.execVsel o s
  | .vpermX o => Sys2Proof.Machine.execVpermX o s
  | .vpermR o => Sys2Proof.Machine.execVpermR o s
  | .vpermQ o => Sys2Proof.Machine.execVpermQ o s
  | .vbcastS o => Sys2Proof.Machine.execVbcastS o s
  | .vbcastL o => Sys2Proof.Machine.execVbcastL o s
  | .vins o => Sys2Proof.Machine.execVins o s
  | .vext o => Sys2Proof.Machine.execVext o s
  | .vredAddi o => Sys2Proof.Machine.execVredAddi o s
  | .vredAddf o => Sys2Proof.Machine.execVredAddf o s
  | .vredMin o => Sys2Proof.Machine.execVredMin o s
  | .vredMax o => Sys2Proof.Machine.execVredMax o s
  | .vredMinn o => Sys2Proof.Machine.execVredMinn o s
  | .vredMaxn o => Sys2Proof.Machine.execVredMaxn o s
  | .vredAmax o => Sys2Proof.Machine.execVredAmax o s
  | .vredAmaxn o => Sys2Proof.Machine.execVredAmaxn o s
  | .vcvtI8 o => Sys2Proof.Machine.execVcvtI8 o s
  | .vcvtN8 o => Sys2Proof.Machine.execVcvtN8 o s
  | .vcvtI16 o => Sys2Proof.Machine.execVcvtI16 o s
  | .vcvtN16 o => Sys2Proof.Machine.execVcvtN16 o s
  | .vcvtI32 o => Sys2Proof.Machine.execVcvtI32 o s
  | .vcvtN32 o => Sys2Proof.Machine.execVcvtN32 o s
  | .vcvtF16 o => Sys2Proof.Machine.execVcvtF16 o s
  | .vcvtBf16 o => Sys2Proof.Machine.execVcvtBf16 o s
  | .vcvtF32 o => Sys2Proof.Machine.execVcvtF32 o s
  | .vcvtT8 o => Sys2Proof.Machine.execVcvtT8 o s
  | .vcvtO8 o => Sys2Proof.Machine.execVcvtO8 o s
  | .vcvtO4 o => Sys2Proof.Machine.execVcvtO4 o s
  | .vscale o => Sys2Proof.Machine.execVscale o s
  | .vmov o => Sys2Proof.Machine.execVmov o s
  | .mxbegin o => Sys2Proof.Machine.execMxbegin o s
  | .mxend o => Sys2Proof.Machine.execMxend o s
  | .mxzero o => Sys2Proof.Machine.execMxzero o s
  | .mxldwD o => Sys2Proof.Machine.execMxldwD o s
  | .mxldwS o => Sys2Proof.Machine.execMxldwS o s
  | .mxldwT o => Sys2Proof.Machine.execMxldwT o s
  | .mxmacT8 o => Sys2Proof.Machine.execMxmacT8 o s
  | .mxmacI8 o => Sys2Proof.Machine.execMxmacI8 o s
  | .mxmacO8 o => Sys2Proof.Machine.execMxmacO8 o s
  | .mxmacI8o8 o => Sys2Proof.Machine.execMxmacI8o8 o s
  | .mxmacO8i8 o => Sys2Proof.Machine.execMxmacO8i8 o s
  | .mxmacO4 o => Sys2Proof.Machine.execMxmacO4 o s
  | .mxmacO4o8 o => Sys2Proof.Machine.execMxmacO4o8 o s
  | .mxmacO8o4 o => Sys2Proof.Machine.execMxmacO8o4 o s
  | .mxmacF16 o => Sys2Proof.Machine.execMxmacF16 o s
  | .mxmacBf16 o => Sys2Proof.Machine.execMxmacBf16 o s
  | .mxrdF o => Sys2Proof.Machine.execMxrdF o s
  | .mxrdI o => Sys2Proof.Machine.execMxrdI o s
  | .mxrdSc o => Sys2Proof.Machine.execMxrdSc o s
  | .mxwrF o => Sys2Proof.Machine.execMxwrF o s
  | .mxwrI o => Sys2Proof.Machine.execMxwrI o s
  | .mxstF32 o => Sys2Proof.Machine.execMxstF32 o s
  | .mxstBf16 o => Sys2Proof.Machine.execMxstBf16 o s
  | .mxstF16 o => Sys2Proof.Machine.execMxstF16 o s
  | .mxstT8 o => Sys2Proof.Machine.execMxstT8 o s
  | .mxstI32 o => Sys2Proof.Machine.execMxstI32 o s
  | .mxstI8 o => Sys2Proof.Machine.execMxstI8 o s
  | .mxstO8 o => Sys2Proof.Machine.execMxstO8 o s
  | .mxstO4 o => Sys2Proof.Machine.execMxstO4 o s
  | .mxwait o => Sys2Proof.Machine.execMxwait o s
  | .mxcmd o => Sys2Proof.Machine.execMxcmd o s
  | .mxsave o => Sys2Proof.Machine.execMxsave o s
  | .mxload o => Sys2Proof.Machine.execMxload o s
  | .copyG o => Sys2Proof.Machine.execCopyG o s
  | .copyT o => Sys2Proof.Machine.execCopyT o s
  | .copyC o => Sys2Proof.Machine.execCopyC o s
  | .copyS o => Sys2Proof.Machine.execCopyS o s
  | .copyx o => Sys2Proof.Machine.execCopyx o s
  | .fillW o => Sys2Proof.Machine.execFillW o s
  | .fillD o => Sys2Proof.Machine.execFillD o s
  | .collSum o => Sys2Proof.Machine.execCollSum o s
  | .collMax o => Sys2Proof.Machine.execCollMax o s
  | .collAmax o => Sys2Proof.Machine.execCollAmax o s
  | .collMin o => Sys2Proof.Machine.execCollMin o s
  | .cbcast o => Sys2Proof.Machine.execCbcast o s
  | .cgath o => Sys2Proof.Machine.execCgath o s
  | .cscatSum o => Sys2Proof.Machine.execCscatSum o s
  | .cscatMax o => Sys2Proof.Machine.execCscatMax o s
  | .cscatAmax o => Sys2Proof.Machine.execCscatAmax o s
  | .cscatMin o => Sys2Proof.Machine.execCscatMin o s
  | .cgrpA o => Sys2Proof.Machine.execCgrpA o s
  | .cgrpF o => Sys2Proof.Machine.execCgrpF o s
  | .sendRq o => Sys2Proof.Machine.execSendRq o s
  | .sendRp o => Sys2Proof.Machine.execSendRp o s
  | .recvRq o => Sys2Proof.Machine.execRecvRq o s
  | .recvRp o => Sys2Proof.Machine.execRecvRp o s
  | .mbsetRq o => Sys2Proof.Machine.execMbsetRq o s
  | .mbsetRp o => Sys2Proof.Machine.execMbsetRp o s
  | .dect o => Sys2Proof.Machine.execDect o s
  | .launch o => Sys2Proof.Machine.execLaunch o s
  | .chwin o => Sys2Proof.Machine.execChwin o s
  | .chstat o => Sys2Proof.Machine.execChstat o s
  | .qset o => Sys2Proof.Machine.execQset o s
  | .qstat o => Sys2Proof.Machine.execQstat o s
  | .taskrd o => Sys2Proof.Machine.execTaskrd o s
  | .csrr o => Sys2Proof.Machine.execCsrr o s
  | .csrw o => Sys2Proof.Machine.execCsrw o s
  | .csrbS o => Sys2Proof.Machine.execCsrbS o s
  | .csrbC o => Sys2Proof.Machine.execCsrbC o s
  | .trap o => Sys2Proof.Machine.execTrap o s
  | .tret o => Sys2Proof.Machine.execTret o s
  | .yret o => Sys2Proof.Machine.execYret o s
  | .yield o => Sys2Proof.Machine.execYield o s
  | .timeS o => Sys2Proof.Machine.execTimeS o s
  | .timeC o => Sys2Proof.Machine.execTimeC o s
  | .ecall o => Sys2Proof.Machine.execEcall o s
  | .brk o => Sys2Proof.Machine.execBrk o s
  | .waitt o => Sys2Proof.Machine.execWaitt o s

end Sys2Proof.Machine
end

