-- ==== Sys2Proof/Machine/Timing.lean ====
section
/-! DEFINITION. Time: what its passing charges and which steps it makes the device owe; the seal words that a step in confidential mode
writes (R32, R150, R152, R161, R335, R349, R364, R374, R384, R391, R392, R410, R417, R418). -/

namespace Sys2Proof.Machine

open Sys2Proof.Bits

/-! ## Steps that fall due -/

/-- Owe a step that is not owed already.
(DESIGN CHOICE, log entry 3.) -/
def State.oweOnce (s : State) (i : Instr) : State := if s.pend.contains i then s else s.owe i

/-- Owe some steps, each once. -/
def State.oweAll (s : State) (is : List Instr) : State := is.foldl (fun s i => s.oweOnce i) s

/-- What falls due at a seat: a chain stall, a WAITT or a yield budget that has run out. -/
def seatDue (s : State) (id : SeatId) (c : Ctx) : List Instr :=
  (match c.stall with
    | some (.chain _ _) => if c.chainOverdue then [.chainStallTimeout id] else []
    | some (.time t) => if 0 < t ∧ t ≤ s.time then [.waittExpiry id] else []
    | _ => [])
  ++ (if c.phase = .handler ∧ c.inYield ∧ c.budgetEnd ≤ c.cycles then [.yieldBudgetOverrun id] else [])

/-- Slices with records on their overflow lists (R150). -/
def State.overflowSlices (s : State) : List Nat := ((s.slices.waiters.filter (·.overflow)).map fun w => homeSlice w.off).eraseDups

/-- What falls due in the whole device; `was` is the time before. -/
def State.dueNow (s : State) (was : Nat) : List Instr :=
  (s.running.flatMap fun p => seatDue s p.1 p.2)
  ++ (if s.boundaryDue.isSome then [.sliceBoundary] else [])
  ++ ((s.fabric.slots.filter fun r => decide (r.deadline ≤ s.time)).map fun r => .collSlotDeadline r.tenant r.group r.seq)
  ++ ((s.fabric.queued.filter fun q => decide (q.2 ≤ s.time)).map fun q => .collSlotDeadline q.1.tenant q.1.group q.1.seq)
  ++ (if was / 10000 = s.time / 10000 then [] else s.overflowSlices.map .overflowRecheck)
  ++ (if was / 1000 = s.time / 1000 then [] else (List.range s.fabric.retries.length).reverse.map .remoteMovingRetry)
  ++ ((s.sched.ready.filter fun r => s.scheduled r.1 && s.recClass r.1 r.2.1 == 0 && decide (r.2.2 + s.displaceAfter ≤ s.time)).map fun r =>
      .displacement r.1 r.2.1)
  ++ (if s.control.purges.any fun d => !d.cores.isEmpty && decide (d.clock + purgeCycles ≤ s.clock) then
        allCores.map .killDiscardWindowEnd else [])
  ++ ((s.fabric.retrains.filter fun r => !s.portUp r.1 && decide (3 ≤ r.2.1) && decide (r.2.2 + 1000000000 < s.time)).map fun r =>
      .linkDownReplreqTimeout r.1)

/-- Quarters of 1.75 GHz at which the cores' arithmetic clock runs (R410). -/
def State.coreQuarters (s : State) : Nat :=
  let st := s.control.power.stage
  if st = 13 then 3 else if st = 14 then 2 else if 15 ≤ st then 1 else 4

/-- Cycles on a seat, `cycles` at 1.75 GHz and `core` of the core's clock: the static energy of each 64 of the first (R418).
(DESIGN CHOICE, log entry 6.) -/
def Ctx.pass (c : Ctx) (cycles core : Nat) : Ctx :=
  let n := c.held + cycles
  (if c.held / 64 = n / 64 then c else c.charge (1488 * (n / 64 - c.held / 64))) |> fun d => { d with held := n, cycles := c.cycles + core }

/-- Does a step end the window of a kill, which goes on through a power failure (R412)? -/
def endsPurge : Instr → Bool
  | .killDiscardWindowEnd _ => true
  | _ => false

/-- Time passes: nanoseconds of the synchronised time, and cycles of the 1.75 GHz clock, of which a core counts those that its stage
leaves it (R410).
(DESIGN CHOICE, log entry 6.) -/
def State.elapse (s : State) (ns cycles : Nat) : State :=
  let core := (s.clock + cycles) * s.coreQuarters / 4 - s.clock * s.coreQuarters / 4
  let s1 : State := { s with
    time := s.time + ns, clock := s.clock + cycles,
    cx := s.cx.map fun c => c.pass cycles core,
    seats := s.seats.map fun (p : SeatId × Ctx) => (p.1, p.2.pass cycles core) }
  let due := s1.dueNow s.time
  s1.oweAll (if s1.deaf then due.filter endsPurge else due)

/-! ## Seal words (R391, R392) -/

/-- MAC blocks whose bytes differ between two memories.
(DESIGN CHOICE, log entry 15.) -/
def changedBlocks (old new : Memory) : List Nat :=
  if old = new then []
  else (((old.filter fun c => !new.contains c) ++ new.filter fun c => !old.contains c).filter fun c =>
    decide (c.1 < sealedTop)).map (fun c => c.1 / 512) |>.eraseDups

/-- The seal words after a step in confidential mode: a written block is sealed under the current generation of its world, and its
WCOUNT rises from the second write on; an owner-map update that made a block unwritten stands.
(DESIGN CHOICE, log entry 15.) -/
def State.sealAfter (new old : State) : State :=
  if !new.confidential ∨ !old.confidential then new
  else
    let write (ss : List (Nat × Nat × Nat)) (b : Nat) : List (Nat × Nat × Nat) :=
      match look old.control.seals b, look ss b with
      | some _, none => ss
      | _, some w => put ss b ((w.1 + 1) % 2 ^ 56, new.worldGen (new.worldOf b))
      | none, none => put ss b (0, new.worldGen (new.worldOf b))
    { new with control := { new.control with seals := (changedBlocks old.mem new.mem).foldl write new.control.seals } }

/-! ## Where a step comes from -/

/-- Steps that something outside the device begins, or that hardware takes of its own accord: another device, the host, the system images,
Dentan and the board, an error, a link, a cache that fills. -/
def fromOutside : Instr → Bool
  | .runtimePortAccess .. | .controlBlockWrite .. | .ownerEntryFetchReturn .. | .loadReply .. => true
  | .reorderWindowGrant .. | .storeAck .. | .fabricRequestArrival .. | .batchCloseReply .. => true
  | .linkTimeout .. | .bundlePrepare .. | .prepareAck .. | .bundleFinal .. | .finalReply .. | .bundleCommit .. => true
  | .commitAck .. | .bundleAbort .. | .fateQuestion .. | .fateReply .. | .hostLaunchMessage .. => true
  | .hostServiceMessage .. | .objectTranslate .. | .collContribution .. | .collResult .. => true
  | .attestationRequest .. | .firmwareActivationStart | .firmwareActivationComplete .. | .linkUp .. | .linkDown .. => true
  | .flitRetry .. | .linkTrainingFailure .. | .peerReadmit .. | .scaleoutWorkRequest .. | .scaleoutPacket .. => true
  | .hostLinkReset | .vfReset .. | .hostDma .. | .powerStep .. | .i3cPowerLevel .. | .powerSample .. => true
  | .powerFail | .flashDrainDone | .powerFailRestore .. | .uncorrectableError .. | .correctedError .. => true
  | .deviceReset .. | .ecallAnswer .. | .ieee1588TimeSync .. | .clusterUnitAtomic .. => true
  | _ => false

/-- The step owed for a step taken: the sequencer owes its turn, and R308 leaves it the command and the first k-step. -/
def owedAs : Instr → Instr
  | .sequencerCommand core _ _ => .sequencerCommand core 0 0
  | i => i

/-- Steps that the device owes and that look again later when what they wait for has not come. -/
def patient : Instr → Bool
  | .regionUpdateComplete | .launchComplete _ | .runtimePortAccess .. => true
  | _ => false

/-- Does a powered-down machine take a step (R412, R414)?  Only the reset that follows the return of power.
(DESIGN CHOICE, log entry 7.) -/
def wakes : Agenda → Bool
  | .event (.deviceReset _) => true
  | _ => false

end Sys2Proof.Machine
end

