-- ==== Sys2Proof/Machine/Step.lean ====
section
/-! DEFINITION. One step of the machine: what the agenda names, or else what the device owes, or else the seat in focus; and a
state that fetches a given instruction next. -/

namespace Sys2Proof.Machine

open Sys2Proof.Bits

/-- Take the k-th step that the device owes. -/
def State.deliver (s : State) (k : Nat) : Result :=
  match s.pend[k]? with
  | none => .next s
  | some i => exec i { s with pend := s.pend.eraseIdx k }

/-- A step of another part: one from outside, or one that the device owes.
(DESIGN CHOICE, log entry 3.) -/
def State.event (s : State) (i : Instr) : Result :=
  if fromOutside i then exec i s
  else match indexOf (· == owedAs i) s.pend with
    | some k => exec i { s with pend := s.pend.eraseIdx k }
    | none => .next s

/-- With no choice left on the agenda: what is owed in its order, then the seat in focus, then what waits for something.
(DESIGN CHOICE, log entry 2.) -/
def State.auto (s : State) : Result :=
  match indexOf (fun i => !patient i) s.pend with
  | some k => s.deliver k
  | none => if s.cx.any Ctx.mayRun then s.seatStep else s.deliver 0

/-- Take one item of the agenda.
(DESIGN CHOICE, log entry 1.)
(DESIGN CHOICE, log entry 2.) -/
def State.act (s : State) : Agenda → Result
  | .seat id => (s.focus id).seatStep
  | .event i => s.event i
  | .deliver k => s.deliver k
  | .elapse ns cycles => .next (s.elapse ns cycles)

/-- The seal words that a step leaves. -/
def sealed (s : State) : Result → Result
  | .next t => .next (t.sealAfter s)
  | r => r

/-- ONE STEP.  The agenda, plain data of the state, makes the choices that the manual leaves to timing and to the device's
environment; a machine that has lost its power takes only the reset that follows.
(DESIGN CHOICE, log entry 7.) -/
def step (s : State) : Host.Outcome State Fault Refusal :=
  match s.agenda with
  | a :: rest =>
    if s.control.drained && !wakes a then .fault .poweredDown
    else sealed s (({ s with agenda := rest } : State).act a)
  | [] => if s.control.drained then .fault .poweredDown else sealed s s.auto

/-- HBM offset of the code of a state that fetches a given word.
(PRESUMED, log entry 8.) -/
def probeBase : Nat := 0x10000

/-- `s` with an instruction stored where the seat in focus fetches next, and that seat next on the agenda: the words lowest first,
zeros above `nbits` up to four words.  With no context in focus a context of tenant 0 is put there.
(PRESUMED, log entry 8.) -/
def State.withFetchWord (s : State) (nbits w : Nat) : State :=
  let c := match s.cx with
    | some c => c
    | none => { Ctx.fresh 0 s.cur with sRegs := 63, vRegs := 32, code := { Code.none with base := probeBase, len := 0x100 } }
  let pc := c.pc.toNat / 32 * 32
  let rep := BitVec.ofNat 64 (setField c.csrs.repst.toNat 18 1 0)
  let c1 : Ctx :=
    { c with pc := BitVec.ofNat 32 pc, phase := .running, stall := none, fault := none, coverLost := false,
             csrs := { c.csrs with repst := rep }, code := { c.code with len := max c.code.len (pc + 0x100) } }
  { s with
    cx := some c1, mem := s.mem.writeNat (c.code.base + pc) 16 (w % 2 ^ nbits), agenda := .seat s.cur :: s.agenda,
    control := { s.control with drained := false } }

end Sys2Proof.Machine
end

