-- ==== Sys2Proof/Safety.lean ====
section
/-! DEFINITION. The terms that claims are stated in: when an instruction of a seat is ready to have its effect, what its results
change, and what every other part of the machine keeps. -/

namespace Sys2Proof

/-- Is `i` an instruction with an encoding of its own format: neither PAD nor a step of the device? -/
def Instr.encoded (i : Instr) : Bool := match i.form with
  | .pad => false
  | .event => false
  | _ => true

end Sys2Proof

namespace Sys2Proof.Machine

open Sys2Proof.Bits

/-! ## Ready -/

/-- The instruction in focus has its own effect now: the context decodes it (R171), its predicate holds (R184), no register it reads
is still owed a value (R97, R318), and the neighbour channels have what it takes and room for what it gives (R152, R185). -/
structure Ready (s : State) (c : Ctx) (f : Form) : Prop where
  seat : s.cx = some c
  decodes : c.decodeItem f = none
  predicate : c.predFalse f = false
  free : (c.order.owed.any fun sp => f.uses sp) = false
  channel : f.pvCount ≤ c.pv.length
  room : f.nxCount ≠ 0 → s.nxFull c = false

/-! ## What stays -/

/-- Nothing of the machine outside its contexts changes: no byte of memory or of the control block, no core, home slice, message,
record or key, and nothing is owed or sent. -/
structure Quiet (s t : State) : Prop where
  bytes : ∀ a, t.byteAt a = s.byteAt a
  control : ∀ off, t.dcbGet off = s.dcbGet off
  cores : t.cores = s.cores
  slices : t.slices = s.slices
  sched : t.sched = s.sched
  fabric : t.fabric = s.fabric
  complex : t.control = s.control
  clocks : t.time = s.time ∧ t.clock = s.clock ∧ t.devNum = s.devNum
  owes : t.pend = s.pend
  sent : t.sent = s.sent

/-- Every context but the one in focus keeps all its state, but for the channel entry that an nx result gives to the successor
(R152, R185). -/
def OthersKeep (s t : State) (c : Ctx) (out : Option Vec) : Prop :=
  ∀ n, n ≠ c.num → t.findCtx n = (s.findCtx n).map fun e =>
    match out with
    | some w => if c.nextMember = some n then { e with pv := e.pv ++ [w] } else e
    | none => e

/-! ## Where the program counter goes -/

/-- The program counter of the next instruction: the next in .text, or during a REP the REP again until its last repetition, and then
the instruction after the target (R187). -/
def Ctx.nextPc (c : Ctx) (f : Form) : BitVec 32 :=
  if !c.repActive then c.pc + BitVec.ofNat 32 f.size
  else if c.repTotal ≤ c.repDone + 1 then c.pc + 8 + BitVec.ofNat 32 f.size
  else c.pc

/-- REPST after a retired instruction: changed only while a REP is active, to count the repetition (R187). -/
def Ctx.nextRepst (c : Ctx) : Word :=
  if c.repActive then repstOf (c.repDone + 1) c.repTotal (decide (c.repDone + 1 < c.repTotal)) else c.csrs.repst

/-- The context in focus keeps everything but the registers, the CSRs named here, the program counter, the marks of the seat and
the cover of a CHKR, what its registers were still owed, and the pv entries that it reads; `fl` are the FSTAT flags that the instruction
raises. -/
structure Advances (c d : Ctx) (f : Form) (fl : BitVec 7) (pc : BitVec 32) : Prop where
  pc : d.pc = pc
  csrs : d.csrs = { c.csrs with energy := (c.charge f.energy).csrs.energy, repst := c.nextRepst,
                                fstat := c.csrs.fstat ||| fl.setWidth 64 }
  rest : d = { c with regs := d.regs, csrs := d.csrs, pc := d.pc, lastPc := c.pc, stall := none, chainStall := d.chainStall, retires := c.retires + 1, chkr := d.chkr,
                      coverLost := d.coverLost, handle := d.handle, flagHandle := d.flagHandle, pv := d.pv, order := d.order }
  order : d.order = { c.order with late := d.order.late }
  channel : c.nextMember ≠ some c.num → d.pv = c.pv.drop f.pvCount

/-! ## Register results -/

/-- A scalar result `w` for DST (R179, R182, R183): the register that DST names and y0 take it, an o register zero-extended; a write
of s0 is discarded; every other register stays. -/
structure ScalarRegs (a b : Regs) (dst : Spec) (w : Word) : Prop where
  y0 : b.y0 = w
  y1 : b.y1 = a.y1
  masks : b.m = a.m
  vectors : b.v = a.v
  scalars : ∀ n < 64, b.getS n = if dst.toNat = n ∧ n ≠ 0 then w else a.getS n
  operands : ∀ n < 8, b.getO n = if dst.toNat = 0x60 + n then w.setWidth 1024 else a.getO n

/-- A vector result `w` for DST (R179, R182, R183): the register that DST names and y1 take it; every other register stays. -/
structure VectorRegs (a b : Regs) (dst : Spec) (w : Vec) : Prop where
  y1 : b.y1 = w
  y0 : b.y0 = a.y0
  masks : b.m = a.m
  scalars : b.s = a.s
  vectors : ∀ n < 32, b.getV n = if dst.toNat = 0x40 + n then w else a.getV n
  operands : ∀ n < 8, b.getO n = if dst.toNat = 0x60 + n then w else a.getO n

/-- A mask result `w` for DST (R179, R182, R184): the mask register takes it, m0 stays all ones; every other register stays, y0 and
y1 among them. -/
structure MaskRegs (a b : Regs) (dst : Spec) (w : Mask) : Prop where
  masks : ∀ n < 8, b.getM n = if dst.toNat = n ∧ n ≠ 0 then w else a.getM n
  scalars : b.s = a.s
  vectors : b.v = a.v
  operands : b.o = a.o
  results : b.y0 = a.y0 ∧ b.y1 = a.y1

/-! ## Completion -/

/-- From every state where it is ready, `i` completes with a scalar result for `dst`, and changes nothing else. -/
def GivesScalar (i : Instr) (dst : Spec) (w : State → Ctx → Word) : Prop :=
  ∀ s c, Ready s c i.form → ∃ t d, exec i s = .next t ∧ t.cx = some d ∧ ScalarRegs c.regs d.regs dst (w s c)
    ∧ Advances c d i.form 0 (c.nextPc i.form) ∧ Quiet s t
    ∧ OthersKeep s t c (if dst = specNx then some ((w s c).setWidth 1024) else none)

/-- From every state where it is ready, `i` completes with a scalar result for `dst`, raises the flags that it gives, and changes
nothing else. -/
def GivesScalarFlags (i : Instr) (dst : Spec) (w : Ctx → Word × BitVec 7) : Prop :=
  ∀ s c, Ready s c i.form → ∃ t d, exec i s = .next t ∧ t.cx = some d ∧ ScalarRegs c.regs d.regs dst (w c).1
    ∧ Advances c d i.form (w c).2 (c.nextPc i.form) ∧ Quiet s t
    ∧ OthersKeep s t c (if dst = specNx then some ((w c).1.setWidth 1024) else none)

/-- From every state where it is ready, `i` completes with a vector result for `dst`, raises the flags that it gives, and changes
nothing else. -/
def GivesVector (i : Instr) (dst : Spec) (w : Ctx → Vec) (fl : Ctx → BitVec 7) : Prop :=
  ∀ s c, Ready s c i.form → ∃ t d, exec i s = .next t ∧ t.cx = some d ∧ VectorRegs c.regs d.regs dst (w c)
    ∧ Advances c d i.form (fl c) (c.nextPc i.form) ∧ Quiet s t
    ∧ OthersKeep s t c (if dst = specNx then some (w c) else none)

/-- From every state where it is ready, `i` completes with a mask result for `dst`, raises the flags that it gives, and changes
nothing else. -/
def GivesMask (i : Instr) (dst : Spec) (w : Ctx → Mask) (fl : Ctx → BitVec 7) : Prop :=
  ∀ s c, Ready s c i.form → ∃ t d, exec i s = .next t ∧ t.cx = some d ∧ MaskRegs c.regs d.regs dst (w c)
    ∧ Advances c d i.form (fl c) (c.nextPc i.form) ∧ Quiet s t ∧ OthersKeep s t c none

/-- The flags of the lanes below `n`, together (R280). -/
def orLanes (n : Nat) (fl : Nat → BitVec 7) : BitVec 7 := (List.range n).foldl (fun a k => a ||| fl k) 0

/-- From every state where it is ready, `i` completes with a vector result for `dst` of `n` lanes of `w` bits, lane by lane a code
with the flags that it raises, and changes nothing else. -/
def GivesLanes (i : Instr) (dst : Spec) (w n : Nat) (lanes : Ctx → Nat → Nat × BitVec 7) : Prop :=
  ∀ s c, Ready s c i.form → ∃ t d v, exec i s = .next t ∧ t.cx = some d ∧ VectorRegs c.regs d.regs dst v
    ∧ (∀ k < n, lane w v k = (lanes c k).1 % 2 ^ w)
    ∧ Advances c d i.form (orLanes n fun k => (lanes c k).2) (c.nextPc i.form) ∧ Quiet s t
    ∧ OthersKeep s t c (if dst = specNx then some v else none)

/-- From every state where it is ready, a vector compare completes with a mask result for `dst` of `n` lanes: `lanes` tells of each whether
it is active, and how it compares with the flags that it raises; inactive lanes keep their bit, the bits above the lanes are cleared, and
nothing else changes. -/
def GivesCompare (i : Instr) (dst : Spec) (n : Nat) (active : Ctx → Nat → Bool) (lanes : Ctx → Nat → Bool × BitVec 7) : Prop :=
  ∀ s c, Ready s c i.form → ∃ t d m, exec i s = .next t ∧ t.cx = some d ∧ MaskRegs c.regs d.regs dst m
    ∧ (∀ k < 128, maskBit m k =
        if n ≤ k then false else if active c k then (lanes c k).1 else maskBit (c.regs.getM dst.toNat) k)
    ∧ Advances c d i.form (orLanes n fun k => if active c k then (lanes c k).2 else 0) (c.nextPc i.form) ∧ Quiet s t
    ∧ OthersKeep s t c none

/-- From every state where it is ready, `i` completes at another program counter, with a scalar result where it has one, and changes
nothing else. -/
def GivesBranch (i : Instr) (link : Option (Spec × (Ctx → Word))) (pc : Ctx → BitVec 32) : Prop :=
  ∀ s c, Ready s c i.form → ∃ t d, exec i s = .next t ∧ t.cx = some d ∧ Advances c d i.form 0 (pc c) ∧ Quiet s t
    ∧ match link with
      | none => d.regs = c.regs ∧ OthersKeep s t c none
      | some (dst, w) => ScalarRegs c.regs d.regs dst (w c)
        ∧ OthersKeep s t c (if dst = specNx then some ((w c).setWidth 1024) else none)

/-- From every state where it is ready, `i` completes and changes no register and nothing else. -/
def GivesNothing (i : Instr) : Prop :=
  ∀ s c, Ready s c i.form → ∃ t d, exec i s = .next t ∧ t.cx = some d ∧ d.regs = c.regs
    ∧ Advances c d i.form 0 (c.nextPc i.form) ∧ Quiet s t ∧ OthersKeep s t c none

/-! ## Changes of the context and of what the device owes -/

/-- Nothing outside the contexts changes, but that the device owes these steps more. -/
def Owes (is : List Instr) (s t : State) : Prop := t.pend = s.pend ++ is ∧ Quiet s { t with pend := s.pend }

/-- Nothing outside the contexts changes, but that the device owes a step more for an access that was checked under a handle (R23). -/
def OwesChecked (h : BitVec 32) (i : Instr) (s t : State) : Prop :=
  t.pend = s.pend ++ [i] ∧ t.sched = (s.noteChecked h (.here i)).sched ∧ Quiet s { t with pend := s.pend, sched := s.sched }

/-- Nothing outside the contexts changes, but that the device has sent these, the last one first. -/
def Sends (xs : List Sent) (s t : State) : Prop := t.sent = xs ++ s.sent ∧ Quiet s { t with sent := s.sent }

/-- From every state where it is ready and `pre` holds, `i` completes: `change` is what it makes of the context beside the seat's own
advance, `out` its scalar result, if it has one, `frame` what else changes, and every other context stays. -/
def Gives (i : Instr) (pre : State → Ctx → Prop) (change : State → Ctx → Ctx) (out : Option (Spec × (State → Ctx → Word)))
    (frame : State → Ctx → State → Prop := fun s _ t => Quiet s t) : Prop :=
  ∀ s c, Ready s c i.form → pre s c → ∃ t d, exec i s = .next t ∧ t.cx = some d
    ∧ Advances (change s c) d i.form 0 (c.nextPc i.form) ∧ frame s c t
    ∧ match out with
      | none => d.regs = c.regs ∧ OthersKeep s t c none
      | some (dst, w) => ScalarRegs c.regs d.regs dst (w s c)
        ∧ OthersKeep s t c (if dst = specNx then some ((w s c).setWidth 1024) else none)

/-- The end of a sync region outside the context (R54, R67, R76): the records of its accesses go, here and at other devices, and an
acquire empties the core's read cache, and what is on its way there. -/
structure RegionEnds (acquires : Bool) (s : State) (c : Ctx) (t : State) : Prop where
  bytes : ∀ a, t.byteAt a = s.byteAt a
  control : ∀ off, t.dcbGet off = s.dcbGet off
  races : t.slices = (s.clearRaces c.num).slices
  cores : ∀ k, t.core k = if acquires = true ∧ k = s.cur.core then { s.core k with lines := [], arriving := [] } else s.core k
  sched : t.sched = s.sched
  fabric : t.fabric = s.fabric
  complex : t.control = s.control
  clocks : t.time = s.time ∧ t.clock = s.clock ∧ t.devNum = s.devNum
  owes : t.pend = s.pend
  sent : t.sent = ((s.farRecords c).foldl (fun s d => s.packet c d (.regionEnd c.num)) s).sent

/-- A context whose next sync region has begun (R67). -/
def Ctx.newRegion (c : Ctx) : Ctx := { c with order := { c.order with lines := [], conflict := none, more := 0 } }

/-- A context with other engine queues, matrix state, or ordering state. -/
def Ctx.withOrder (c : Ctx) (g : Order → Order) : Ctx := { c with order := g c.order }

/-! ## Memory -/

/-- The context in focus keeps everything but what `Advances` names and the records of its open sync region (R67, R70, R73). -/
structure Passes (c d : Ctx) (f : Form) (fl : BitVec 7) (pc : BitVec 32) : Prop where
  pc : d.pc = pc
  csrs : d.csrs = { c.csrs with energy := (c.charge f.energy).csrs.energy, repst := c.nextRepst,
                                fstat := c.csrs.fstat ||| fl.setWidth 64 }
  rest : d = { c with regs := d.regs, csrs := d.csrs, pc := d.pc, lastPc := c.pc, stall := none, chainStall := d.chainStall, retires := c.retires + 1, chkr := d.chkr,
                      coverLost := d.coverLost, handle := d.handle, flagHandle := d.flagHandle, pv := d.pv, order := d.order }
  order : d.order = { c.order with late := d.order.late, lines := d.order.lines,
                                   conflict := d.order.conflict, more := d.order.more }
  channel : c.nextMember ≠ some c.num → d.pv = c.pv.drop f.pvCount

/-- EVERY BYTE of HBM and of the scratchpads but those listed reads as before, and so does every control block register but the
TARNSTAT that counts versions (R59); no record, message, key or clock of the device changes. -/
structure WritesOnly (s t : State) (written : List Nat) : Prop where
  bytes : ∀ a, a ∉ written → t.mem.get a = s.mem.get a
  control : ∀ off, (∀ h, off ≠ tarnstat h) → t.dcbGet off = s.dcbGet off
  sched : t.sched = s.sched
  fabric : t.fabric = s.fabric
  complex : t.control = s.control
  clocks : t.time = s.time ∧ t.clock = s.clock ∧ t.devNum = s.devNum
  owes : t.pend = s.pend

/-- An access of `len` bytes at an address passes the tests of R253: it is mapped, inside one range, and aligned. -/
def State.reaches (s : State) (a : Addr) (len align : Nat) (t : Tgt) : Prop := s.testAddr a len = .inr t ∧ t.off % align = 0

/-- The open sync region can end with no exception: it holds no conflict, and every verdict of its read-cache hits has come (R67, R71). -/
structure Settled (s : State) (c : Ctx) : Prop where
  clean : c.order.conflict = none
  verdicts : s.hitsOut c = []

/-- A detected access to lines of this device, by their keys, can go on: no reduction that acquires stands before it (R76), the coherence points have room
for its records, and its region can make the split that its own records may need (R73). -/
structure PlainReady (s : State) (c : Ctx) (lines : List Nat) : Prop where
  settled : Settled s c
  acquires : s.acquiring c = []
  room : s.crowded lines = none

/-- No earlier access of the context stands in the way of a synchronising access with this ORD for this device (R76 to R79), its region
can end (R67), and the access itself meets no conflict (R72). -/
structure SyncReady (s : State) (c : Ctx) (ord : BitVec 3) (store : Bool) (lines : List Nat) : Prop where
  settled : Settled s c
  acquires : s.acquiring c = []
  earlier : s.unperformed c.order.syncOuts = []
  release : ord = 2 ∨ ord = 3 → s.relWaits c s.devNum = []
  cumulative : ord = 4 → c.order.outs = [] ∧ s.lost s.devNum = false
  verdict : ∀ l ∈ lines, (s.clearRaces c.num).verdict l (s.party c) store = none

/-- The bytes that a load of this device returns of some offsets, each held at its place (R258): a plain one those of its context's open
bundle, the read cache or the coherence point; an acquire those of its open bundle or the coherence point. -/
def State.loaded (s : State) (c : Ctx) (o : MOps) (offs held : List Nat) : List Byte :=
  if o.ord = 0 then s.plainBytes c offs held else s.readBytes c.openBundle held

/-- A load of `w` bytes of this device completes with the value that R258 chooses, extended, and writes no byte. -/
def LoadsHere (i : Instr) (o : MOps) (w : Nat) (extend : Nat → Word) : Prop :=
  ∀ s c t held, Ready s c i.form → o.grp = false → s.reaches (c.addrIx o) w w t → t.dev = s.devNum
    → s.heldSeat c.tenant (t.bytes w) = .inl held
    → (o.ord = 0 ∧ PlainReady s c (s.raceLines c.tenant (t.bytes w)) ∨ o.ord = 1 ∧ SyncReady s c 1 false (s.raceLines c.tenant (t.bytes w)))
    → ∃ u d, exec i s = .next u ∧ u.cx = some d
      ∧ ScalarRegs c.regs d.regs o.dst
          (extend (valOf (s.loaded c o (t.bytes w) held)))
      ∧ Passes c d i.form 0 (c.nextPc i.form) ∧ WritesOnly s u []
      ∧ OthersKeep s u c (if o.dst = specNx then some
          ((extend (valOf (s.loaded c o (t.bytes w) held))).setWidth 1024) else none)

/-- Every active lane of a vector access has its place: it passes the tests of R253, all lie in one mapped range of one device, and the
lane, and for the skew forms the tile, is aligned and inside (R45, R254, R260, R261). -/
structure LanesPlaced (s : State) (c : Ctx) (sh : VShape) (o : MOps) (place : Nat → Tgt) : Prop where
  each : ∀ i ∈ c.activeLanes o, s.reaches (c.laneAddr sh o i) 4 4 (place i)
  one : ∀ i ∈ c.activeLanes o, ∀ j ∈ c.activeLanes o,
    (place i).dev = (place j).dev ∧ s.place (place i).dev (place i).off = s.place (place j).dev (place j).off
  tile : c.skewFault sh o = none

/-- A vector load of this device completes: active lanes take their words, inactive ones keep their value, and y1 the whole. -/
def LoadsLanes (i : Instr) (o : MOps) (sh : VShape) : Prop :=
  ∀ s c place held, Ready s c i.form → o.grp = false → LanesPlaced s c sh o place
    → (∀ k ∈ c.activeLanes o, (place k).dev = s.devNum)
    → let offs := (c.activeLanes o).flatMap fun k => (place k).bytes 4
      s.heldSeat c.tenant offs = .inl held
    → (o.ord = 0 ∧ PlainReady s c (s.raceLines c.tenant offs) ∨ o.ord = 1 ∧ SyncReady s c 1 false (s.raceLines c.tenant offs))
    → ∃ u d v, exec i s = .next u ∧ u.cx = some d ∧ VectorRegs c.regs d.regs o.dst v
      ∧ (∀ k < 32, k ∉ c.activeLanes o → lane 32 v k = lane 32 (c.oldV o.dst) k)
      ∧ (∀ m k, (c.activeLanes o)[m]? = some k →
          lane 32 v k = valOf (((s.loaded c o offs held).drop (4 * m)).take 4))
      ∧ Passes c d i.form 0 (c.nextPc i.form) ∧ WritesOnly s u [] ∧ OthersKeep s u c (if o.dst = specNx then some v else none)

/-- What a store to HBM or a scratchpad of this device leaves: the bytes where they are held, no register, and nothing else. -/
def StoredHere (s u : State) (c : Ctx) (f : Form) (held : List Nat) (data : List Byte) : Prop :=
  ∃ d, u.cx = some d ∧ d.regs = c.regs ∧ (∀ p ∈ held.zip data, u.mem.get p.1 = p.2) ∧ WritesOnly s u held
    ∧ Passes c d f 0 (c.nextPc f) ∧ OthersKeep s u c none

/-- A store of `w` bytes to this device without a flag completes: its bytes stand where the address names them, and no other byte
changes. -/
def StoresHere (i : Instr) (o : MOps) (w : Nat) : Prop :=
  ∀ s c t held, Ready s c i.form → o.bnd = false → o.fl = false → s.reaches (c.addrIx o) w w t → t.dev = s.devNum
    → launchArea t.off = false → s.heldSeat c.tenant (t.bytes w) = .inl held
    → s.touchesRecord held = false → (∀ x ∈ held, inControl x = false)
    → (o.ord = 0 ∧ PlainReady s c (s.raceLines c.tenant (t.bytes w)) ∨ o.ord ≠ 0 ∧ SyncReady s c o.ord true (s.raceLines c.tenant (t.bytes w)))
    → ∃ u, exec i s = .next u ∧ StoredHere s u c i.form held (bytesOf w (c.srcS [o.sa, o.sb] o.dst).toNat)

/-- A vector store to this device without a flag completes: of the lanes that write one word, the highest-numbered stays (R44); with no
active lane it is a zero-byte store (R100). -/
def StoresLanes (i : Instr) (o : MOps) (sh : VShape) : Prop :=
  (∀ s c place held, Ready s c i.form → o.bnd = false → o.fl = false → LanesPlaced s c sh o place → c.activeLanes o ≠ []
    → (∀ k ∈ c.activeLanes o, (place k).dev = s.devNum ∧ launchArea (place k).off = false)
    → let last := (c.activeLanes o).filter fun k => !(c.activeLanes o).any fun j => decide (k < j) && (place j).off == (place k).off
      let offs := last.flatMap fun k => (place k).bytes 4
      s.heldSeat c.tenant offs = .inl held
    → s.touchesRecord held = false → (∀ x ∈ held, inControl x = false)
    → (o.ord = 0 ∧ PlainReady s c (s.raceLines c.tenant offs) ∨ o.ord ≠ 0 ∧ SyncReady s c o.ord true (s.raceLines c.tenant offs))
    → ∃ u, exec i s = .next u
      ∧ StoredHere s u c i.form held (last.flatMap fun k => bytesOf 4 (lane 32 (c.srcV [o.sa, o.sb] o.dst) k)))
  ∧ ∀ s c t, Ready s c i.form → o.bnd = false → o.fl = false → c.activeLanes o = [] → s.reaches (c.vBase sh o) 0 4 t
    → t.dev = s.devNum → (o.ord = 0 ∧ PlainReady s c [] ∨ o.ord ≠ 0 ∧ SyncReady s c o.ord true [])
    → ∃ u, exec i s = .next u ∧ StoredHere s u c i.form [] []

/-- The conditions under which an atomic or reduction of `w` bytes acts on this device at once (R263, R264, R266); none that was sent
before awaits its reply there. -/
structure AtomReady (s : State) (c : Ctx) (i : Instr) (o : MOps) (w : Nat) (t : Tgt) (held : List Nat) : Prop where
  ready : Ready s c i.form
  place : s.reaches (c.addr o 0) w w t
  here : t.dev = s.devNum
  open' : launchArea t.off = false ∧ ∀ x ∈ held, inControl x = false
  owned : s.heldSeat c.tenant (t.bytes w) = .inl held
  free : s.touchesRecord held = false
  sync : SyncReady s c o.ord true []
  fresh : c.await = none

/-- An atomic of `w` bytes on this device: DST and y0 take the old value zero-extended, the word the new one, and nothing else
changes; `new` gives the new value and the flags that are raised. -/
def AtomicHere (i : Instr) (o : MOps) (w : Nat) (new : Ctx → Nat → Nat → Nat × BitVec 7) : Prop :=
  ∀ s c t held, AtomReady s c i o w t held →
    let old := valOf (s.readBytes none held)
    let b := (c.valB o.sa o.sb).toNat % 2 ^ (8 * w)
    ∃ u d, exec i s = .next u ∧ u.cx = some d ∧ ScalarRegs c.regs d.regs o.dst (BitVec.ofNat 64 old)
      ∧ valOf (u.readBytes none held) = (new c old b).1 ∧ WritesOnly s u held
      ∧ Passes c d i.form (new c old b).2 (c.nextPc i.form)
      ∧ OthersKeep s u c (if o.dst = specNx then some ((BitVec.ofNat 64 old).setWidth 1024) else none)

/-- A reduction of `w` bytes on this device: the word takes the new value, no register changes, and nothing else. -/
def ReductionHere (i : Instr) (o : MOps) (w : Nat) (new : Ctx → Nat → Nat → Nat) : Prop :=
  ∀ s c t held, AtomReady s c i o w t held →
    let old := valOf (s.readBytes none held)
    let b := (c.valB o.sa o.sb).toNat % 2 ^ (8 * w)
    ∃ u d, exec i s = .next u ∧ u.cx = some d ∧ d.regs = c.regs ∧ valOf (u.readBytes none held) = new c old b
      ∧ WritesOnly s u held ∧ Passes c d i.form 0 (c.nextPc i.form) ∧ OthersKeep s u c none

/-! ## Steps of the device -/

/-- No context changes, on a seat, saved or ended, and no core. -/
structure ContextsKeep (s t : State) : Prop where
  focus : t.cur = s.cur ∧ t.cx = s.cx
  seats : t.seats = s.seats
  saved : t.saved = s.saved ∧ t.ended = s.ended
  cores : t.cores = s.cores

/-- One context changes as told, and nothing outside the contexts. -/
structure ContextBecomes (s t : State) (n : Nat) (d : Ctx) : Prop where
  there : t.findCtx n = some d
  others : ∀ k, k ≠ n → t.findCtx k = s.findCtx k
  quiet : Quiet s t

/-- The control block and memory change only in these registers, and no context, record, message, key or clock. -/
structure RegistersOnly (s t : State) (regs : List Nat) : Prop where
  mem : t.mem = s.mem
  control : ∀ off, off ∉ regs → t.dcbGet off = s.dcbGet off
  contexts : ContextsKeep s t
  slices : t.slices = s.slices
  sched : t.sched = s.sched
  fabric : t.fabric = s.fabric
  clocks : t.time = s.time ∧ t.clock = s.clock ∧ t.devNum = s.devNum

/-- A firing may end now: no conflict in its region, no fault on its way, no access to its own device left to perform, every engine command accepted, no bundle open, and it is a
single firing of a live record (R145, R247, R248). -/
structure MayEnd (s : State) (c : Ctx) (f : Form) : Prop where
  ready : Ready s c f
  settled : Settled s c
  sound : c.fault = none
  accepted : ∀ q ∈ c.queues, ∀ k ∈ q.cmds, k.phase ≠ .issued
  closed : c.order.bundle = none
  single : c.chain = []
  waits : c.stall = none
  here : s.ownOut c = false
  live : s.recLive c.part c.record = true

/-- A queued matrix form of the unit's owner, with room in its queue: `k` joins the queue, the issue view becomes `view`, and the
sequencer is owed its turn where the queue was empty (R294, R295, R300). -/
def QueuesMx (i : Instr) (pre : State → Ctx → Prop) (k : State → Ctx → MxCmd) (view : State → Ctx → Matrix) : Prop :=
  Gives i (fun s c => (s.core s.cur.core).mxOwner = some c.num ∧ c.mx.queue.length < 8 ∧ pre s c)
    (fun s c => { c with mx := { view s c with queue := c.mx.queue ++ [k s c], acc := c.mx.acc } }) none
    (fun s c t => Owes (if c.mx.queue.isEmpty then [.sequencerCommand s.cur.core 0 0] else []) s t)

/-- A copy or collective command of a seat issues (R323, R326, R334): the 64 bytes of its block are read as a plain load, the queue numbers it, DST
takes the number, and its acceptance is owed. -/
def IssuesCommand (i : Instr) (o : EOps) (op : BitVec 9) (coll : Bool) : Prop :=
  ∀ s c held, Ready s c i.form → isPort c.num = false →
    let la := (c.srcS [] o.sa).toNat % 2 ^ 17
    let qi := (if coll then 4 else 0) + o.vq.toNat
    let slot := o.ke.toNat % 4
    let bound := (c.gbinds[slot]?).getD none
    la % 64 = 0 → 0x100 ≤ la → la ≤ 0x1FFC0 → (coll = true → bound.isSome = true) → (c.vq qi).cmds.length < 16 →
    let offs := (List.range 64).map fun j => padOff s.cur.core (la + j)
    PlainReady s c (s.raceLines c.tenant offs) → s.heldSeat c.tenant offs = .inl held →
    ∃ u d k, exec i s = .next u ∧ u.cx = some d
      ∧ ScalarRegs c.regs d.regs o.dst (BitVec.ofNat 64 ((c.vq qi).issued + 1))
      ∧ k.num = (c.vq qi).issued + 1 ∧ k.op = op ∧ k.block = BitVec.ofNat 512 (valOf (s.plainBytes c offs held)) ∧ k.et = o.et
      ∧ k.ke = o.ke ∧ k.pattern = c.srcS [o.sa] o.sb ∧ k.rm = c.rm ∧ k.phase = .issued ∧ k.born = c.retires
      ∧ (coll = true → some k.bind = bound.map (·.word) ∧ some k.inst = bound.map (·.seq))
      ∧ (let e := c.mapVq qi fun q => { q with issued := q.issued + 1, cmds := q.cmds ++ [k] }
         let counted := setAt c.gbinds slot (bound.map fun g => { g with seq := (g.seq + 1) % 65536 })
         Passes { e with gbinds := if coll then counted else c.gbinds } d i.form 0 (c.nextPc i.form))
      ∧ WritesOnly s { u with pend := s.pend } []
      ∧ u.pend = s.pend ++ [.copyAccept (if coll then .coll else .copy) c.num o.vq.toNat ((c.vq qi).issued + 1)]
      ∧ OthersKeep s u c (if o.dst = specNx then some ((BitVec.ofNat 64 ((c.vq qi).issued + 1)).setWidth 1024) else none)

/-- A runtime port's request passes at its coherence point (R34, R72, R139): its bytes are owned and held apart, in no live task record and
not in the control block, and it meets no record of another context's accesses. -/
structure PortMay (s : State) (r : MemReq) (k : Nat) (held : List Nat) : Prop where
  origin : r.origin = .port k
  owned : s.heldAll r.tenant r.offs = .inl held
  plain : (∀ x ∈ held, inControl x = false) ∧ held.Nodup
  free : s.touchesRecord held = false
  races : s.portConflict r = false

/-- A step serves a port's loads and stores where `here` holds, and answers the port; one that is refused moves nothing (R2, R34). -/
def ServesPorts (i : MemReq → Instr) (here : State → Nat → Prop) : Prop :=
  (∀ s r k held, here s r.off → PortMay s r k held →
    (r.op = .load → ∃ t, exec (i r) s = .next t ∧ WritesOnly s t [] ∧ ContextsKeep s t
      ∧ t.sent = .portReply k 0 (s.readBytes none held) :: s.sent)
    ∧ ∀ bytes, r.op = .store bytes none → (∀ x ∈ r.offs, launchArea x = false) → ∃ t, exec (i r) s = .next t
      ∧ (∀ p ∈ held.zip (bytes.map (·.2)), t.mem.get p.1 = p.2) ∧ WritesOnly s t held ∧ ContextsKeep s t
      ∧ t.sent = .portReply k 0 [] :: s.sent)
  ∧ ∀ s r k, here s r.off → r.origin = .port k →
    ((∃ d, s.heldAll r.tenant r.offs = .inr d) ∨ (r.op ≠ .load ∧ ∃ x ∈ r.offs, launchArea x = true) ∨ s.portConflict r = true) →
    exec (i r) s = .next (s.send (.portReply k 0 []))

/-- A context that has taken a late result (R97, R182, R318): the register that still awaits it, y0 where no later result stands there, and
nothing is owed by it any more. -/
def Ctx.takesLate (c : Ctx) (r : Late) (w : Word) : Ctx :=
  let g := if r.writes then c.regs.putS r.dst w else c.regs
  { c with regs := if r.y0 then { g with y0 := w } else g,
           order := { c.order with late := c.order.late.filter fun x => x.num != r.num } }

/-- What a store of another device leaves where it performs (R64, R90, R94): its bytes, its acknowledgement, and nothing else but the
sequence state of its stream. -/
def Performed (s t : State) (st : StreamStore) (held : List Nat) : Prop :=
  (∀ p ∈ held.zip (st.bytes.map (·.2)), t.mem.get p.1 = p.2) ∧ WritesOnly s { t with fabric := s.fabric } held ∧ ContextsKeep s t
  ∧ t.sent = s.sealFor st.tenant (.ack st.src st.seq none) :: s.sent

/-- A packet that a port opens, and that no sweep discards (R374, R393). -/
structure Opens (s : State) (p : Packet) : Prop where
  up : s.deaf = false
  here : p.dst = s.devNum
  authentic : s.confidential = false ∨ p.tagOk = true ∧ s.opensGen p.tenant p.keyGen = true
  kept : s.purging p.tenant none = false

/-- The steps owed, without the stores of a device that have not performed (R92, R102). -/
def withoutStores (dev : Nat) (is : List Instr) : List Instr := is.filter fun i => match i with
  | .streamStoreArrival st => st.src.dev != dev
  | _ => true

/-- No context is on a seat or saved, and nothing of an ended one goes on. -/
structure NothingRuns (s : State) : Prop where
  seats : s.cx = none ∧ s.seats = []
  saved : s.saved = [] ∧ s.ended = []

/-- A READY record that nothing stands in the way of: not queued or starting already, dispatched without fault, and in its slice, its
class not paused, its regions in place (R30, R142, R157, R159, R211). -/
structure MayGo (s : State) (p idx : Nat) : Prop where
  ready : s.isReady p idx = true
  fresh : s.queued p idx = false ∧ s.starting p idx = false
  sound : s.dispatchFaultOf p idx = none
  now : s.mayDispatch p idx = true

/-- No bundle holds the line of a record pending, so no write of the record discards a version (R116). -/
def State.unbundled (s : State) (p idx : Nat) : Prop := ∀ v, s.version (s.recAddr p idx / 64 * 64) = some v → v.pending = none

/-- No byte of memory changes outside a record. -/
def OnlyRecord (s t : State) (p idx : Nat) : Prop :=
  ∀ a, (a < s.recAddr p idx ∨ s.recAddr p idx + 64 ≤ a) → t.mem.get a = s.mem.get a

/-- A launch entry stands alone in the table, and its DONEGA names a word of HBM (R162, R165). -/
structure OneLaunch (s : State) (l : Launch) : Prop where
  only : s.sched.launches = [l]
  word : l.doneOff + 8 ≤ s.hbmEnd

/-- What the end of a launch entry leaves (R164, R165): DONEGA raised by `n`, NOTE.ALL owed on it, the entry free. -/
def LaunchEnds (s t : State) (l : Launch) (n : Nat) : Prop :=
  t.mem.readNat l.doneOff 8 = (s.mem.readNat l.doneOff 8 + n) % 2 ^ 64 ∧ t.sched.launches = []
  ∧ (∀ a, (a < l.doneOff ∨ l.doneOff + 8 ≤ a) → t.mem.get a = s.mem.get a) ∧ t.pend = s.pend ++ [.noteWake l.doneOff true]
  ∧ ContextsKeep s t

/-- Two ranges of bytes apart. -/
def Apart (a n b m : Nat) : Prop := a + n ≤ b ∨ b + m ≤ a

/-- A scale-out port's RDMA request passes (R31, R34, R407): the partition is live, the handle checks, and its bytes are owned, apart,
and in no live record. -/
structure WorkMay (s : State) (w : WorkReq) (n : Nat) (held : List Nat) : Prop where
  port : w.port < 2 ∧ w.part < 64 ∧ s.partLive w.part = true
  checked : s.portCheck (s.partTenant w.part) w.handle (dBase (s.descAt (hIndex w.handle)) + w.off) n
    (if w.write.isSome then .write else .read) = none
  here : field (dBase (s.descAt (hIndex w.handle)) + w.off) 45 12 = s.devNum
    ∧ gaOff (dBase (s.descAt (hIndex w.handle)) + w.off) + n ≤ s.hbmEnd
  owned : s.heldAll (s.partTenant w.part) ((List.range n).map (gaOff (dBase (s.descAt (hIndex w.handle)) + w.off) + ·)) = .inl held
  free : s.touchesRecord held = false

end Sys2Proof.Machine
end

