-- ==== Sys2Proof/Certificates/Slice0/Obligations.lean ====
section
/-! DEFINITION. The statements for the provers, one for each group of rules, in the terms of Safety.lean. -/

open Sys2Proof Sys2Proof.Machine Sys2Proof.Bits

/-! ## Scalar instructions -/

/-- R235 but for the divisions: the two-source forms, and their format I variants, whose IMM32 takes the place of SB (R234).  R235: shifts and rotation by b mod 64, the lesser and the greater by integer value, and sign extension from bit b mod 64. -/
def Obligations.IntegerTwoSource : Prop :=
  ((∀ o : AOps,
    GivesScalar (.add o) o.dst (fun _ c => c.valA o.sa + c.valB o.sa o.sb)
    ∧ GivesScalar (.sub o) o.dst (fun _ c => c.valA o.sa - c.valB o.sa o.sb)
    ∧ GivesScalar (.mul o) o.dst (fun _ c => c.valA o.sa * c.valB o.sa o.sb)
    ∧ GivesScalar (.mulhS o) o.dst (fun _ c =>
        ((c.valA o.sa).signExtend 128 * (c.valB o.sa o.sb).signExtend 128).extractLsb' 64 64)
    ∧ GivesScalar (.mulhU o) o.dst (fun _ c =>
        ((c.valA o.sa).setWidth 128 * (c.valB o.sa o.sb).setWidth 128).extractLsb' 64 64)
    ∧ GivesScalar (.and o) o.dst (fun _ c => c.valA o.sa &&& c.valB o.sa o.sb)
    ∧ GivesScalar (.or o) o.dst (fun _ c => c.valA o.sa ||| c.valB o.sa o.sb)
    ∧ GivesScalar (.xor o) o.dst (fun _ c => c.valA o.sa ^^^ c.valB o.sa o.sb))
  ∧ ∀ o : IOps,
    GivesScalar (.addImm o) o.dst (fun _ c => c.valA o.sa + o.imm.signExtend 64)
    ∧ GivesScalar (.subImm o) o.dst (fun _ c => c.valA o.sa - o.imm.signExtend 64)
    ∧ GivesScalar (.mulImm o) o.dst (fun _ c => c.valA o.sa * o.imm.signExtend 64)
    ∧ GivesScalar (.andImm o) o.dst (fun _ c => c.valA o.sa &&& o.imm.signExtend 64)
    ∧ GivesScalar (.orImm o) o.dst (fun _ c => c.valA o.sa ||| o.imm.signExtend 64)
    ∧ GivesScalar (.xorImm o) o.dst (fun _ c => c.valA o.sa ^^^ o.imm.signExtend 64))
  ∧ (∀ o : AOps,
    GivesScalar (.shl o) o.dst (fun _ c => c.valA o.sa <<< ((c.valB o.sa o.sb).toNat % 64))
    ∧ GivesScalar (.shrL o) o.dst (fun _ c => c.valA o.sa >>> ((c.valB o.sa o.sb).toNat % 64))
    ∧ GivesScalar (.shrA o) o.dst (fun _ c => (c.valA o.sa).sshiftRight ((c.valB o.sa o.sb).toNat % 64))
    ∧ GivesScalar (.rot o) o.dst (fun _ c => (c.valA o.sa).rotateLeft ((c.valB o.sa o.sb).toNat % 64))
    ∧ GivesScalar (.minS o) o.dst (fun _ c => BitVec.ofInt 64 (min (c.valA o.sa).toInt (c.valB o.sa o.sb).toInt))
    ∧ GivesScalar (.minU o) o.dst (fun _ c => BitVec.ofNat 64 (min (c.valA o.sa).toNat (c.valB o.sa o.sb).toNat))
    ∧ GivesScalar (.maxS o) o.dst (fun _ c => BitVec.ofInt 64 (max (c.valA o.sa).toInt (c.valB o.sa o.sb).toInt))
    ∧ GivesScalar (.maxU o) o.dst (fun _ c => BitVec.ofNat 64 (max (c.valA o.sa).toNat (c.valB o.sa o.sb).toNat))
    ∧ GivesScalar (.sext o) o.dst (fun _ c =>
        BitVec.ofInt 64 ((c.valA o.sa).toInt.bmod (2 ^ ((c.valB o.sa o.sb).toNat % 64 + 1)))))

/-- R236: division never traps; the four columns of its table, in its three rows. -/
def Obligations.Division : Prop :=
  ∀ o : AOps,
    GivesScalar (.divS o) o.dst (fun _ c =>
      let a := c.valA o.sa
      let b := c.valB o.sa o.sb
      if b = 0 then 0xFFFFFFFFFFFFFFFF
      else if a = 0x8000000000000000 ∧ b = 0xFFFFFFFFFFFFFFFF then 0x8000000000000000
      else BitVec.ofInt 64 (a.toInt.tdiv b.toInt))
    ∧ GivesScalar (.divU o) o.dst (fun _ c =>
      let a := c.valA o.sa
      let b := c.valB o.sa o.sb
      if b = 0 then 0xFFFFFFFFFFFFFFFF else BitVec.ofNat 64 (a.toNat / b.toNat))
    ∧ GivesScalar (.remS o) o.dst (fun _ c =>
      let a := c.valA o.sa
      let b := c.valB o.sa o.sb
      if b = 0 then a
      else if a = 0x8000000000000000 ∧ b = 0xFFFFFFFFFFFFFFFF then 0
      else BitVec.ofInt 64 (a.toInt - b.toInt * a.toInt.tdiv b.toInt))
    ∧ GivesScalar (.remU o) o.dst (fun _ c =>
      let a := c.valA o.sa
      let b := c.valB o.sa o.sb
      if b = 0 then a else BitVec.ofNat 64 (a.toNat % b.toNat))

/-- R237: the one-source, bit-field and three-source forms; the width is KB, and 64 when KB is 0. -/
def Obligations.BitFieldForms : Prop :=
  ∀ o : AOps,
    let w := if o.kb = 0 then 64 else o.kb.toNat
    GivesScalar (.abs o) o.dst (fun _ c => BitVec.ofInt 64 (c.valA o.sa).toInt.natAbs)
    ∧ GivesScalar (.clz o) o.dst (fun _ c =>
        BitVec.ofNat 64 (if c.valA o.sa = 0 then 64 else 63 - (c.valA o.sa).toNat.log2))
    ∧ GivesScalar (.popc o) o.dst (fun _ c =>
        BitVec.ofNat 64 ((List.range 64).filter fun k => (c.valA o.sa).getLsbD k).length)
    ∧ GivesScalar (.extU o) o.dst (fun _ c =>
        BitVec.ofNat 64 ((c.valA o.sa >>> ((c.valB o.sa o.sb).toNat % 64)).toNat % 2 ^ w))
    ∧ GivesScalar (.extS o) o.dst (fun _ c =>
        BitVec.ofInt 64 (((c.valA o.sa).sshiftRight ((c.valB o.sa o.sb).toNat % 64)).toInt.bmod (2 ^ w)))
    ∧ GivesScalar (.ins o) o.dst (fun _ c =>
        let p := (c.valC o.sa o.sb o.sc).toNat % 64
        let ones : Word := BitVec.ofNat 64 (2 ^ w - 1)
        (c.valA o.sa &&& ~~~(ones <<< p)) ||| ((c.valB o.sa o.sb &&& ones) <<< p))
    ∧ GivesScalar (.mad o) o.dst (fun _ c => c.valA o.sa * c.valB o.sa o.sb + c.valC o.sa o.sb o.sc)
    ∧ GivesScalar (.clampS o) o.dst (fun _ c =>
        BitVec.ofInt 64 (min (max (c.valA o.sa).toInt (c.valB o.sa o.sb).toInt) (c.valC o.sa o.sb o.sc).toInt))
    ∧ GivesScalar (.clampU o) o.dst (fun _ c =>
        BitVec.ofNat 64 (min (max (c.valA o.sa).toNat (c.valB o.sa o.sb).toNat) (c.valC o.sa o.sb o.sc).toNat))
    ∧ GivesScalar (.sel o) o.dst (fun _ c =>
        if (c.regs.getM o.sc.toNat).getLsbD 0 then c.valA o.sa else c.valB o.sa o.sb)

/-- R238: a compare writes every bit of its mask, and no y0.  R239 to R241: mask logic by a truth table, the moves, and the address-building forms. -/
def Obligations.ScalarComparesAndMoves : Prop :=
  (∀ o : AOps,
    let all (b : Bool) : Mask := if b then BitVec.allOnes 128 else 0
    GivesMask (.cmpEq o) o.dst (fun c => all (decide (c.valA o.sa = c.valB o.sa o.sb))) (fun _ => 0)
    ∧ GivesMask (.cmpNe o) o.dst (fun c => all (decide (c.valA o.sa ≠ c.valB o.sa o.sb))) (fun _ => 0)
    ∧ GivesMask (.cmpLt o) o.dst (fun c => all (decide ((c.valA o.sa).toInt < (c.valB o.sa o.sb).toInt))) (fun _ => 0)
    ∧ GivesMask (.cmpGe o) o.dst (fun c => all (decide ((c.valA o.sa).toInt ≥ (c.valB o.sa o.sb).toInt))) (fun _ => 0)
    ∧ GivesMask (.cmpLtu o) o.dst (fun c => all (decide ((c.valA o.sa).toNat < (c.valB o.sa o.sb).toNat))) (fun _ => 0)
    ∧ GivesMask (.cmpGeu o) o.dst (fun c => all (decide ((c.valA o.sa).toNat ≥ (c.valB o.sa o.sb).toNat))) (fun _ => 0))
  ∧ ((∀ o : AOps, ∀ s c, Ready s c (Instr.mlog o).form → ∃ t d m, exec (.mlog o) s = .next t ∧ t.cx = some d
    ∧ MaskRegs c.regs d.regs o.dst m
    ∧ (∀ k < 128, m.getLsbD k = o.ka.getLsbD
        (2 * ((c.regs.getM o.sc.toNat).getLsbD k).toNat + ((c.regs.getM (o.kb.toNat % 8)).getLsbD k).toNat))
    ∧ Advances c d (Instr.mlog o).form 0 (c.nextPc (Instr.mlog o).form) ∧ Quiet s t ∧ OthersKeep s t c none)
  ∧ (∀ o : AOps,
    GivesScalar (.mov o) o.dst (fun _ c => c.valA o.sa)
    ∧ GivesScalar (.gaMk o) o.dst (fun _ c =>
        BitVec.ofNat 64 ((c.valA o.sa).toNat % 2 ^ 12 * 2 ^ 45 + (c.valB o.sa o.sb).toNat % 2 ^ 45))
    ∧ GivesScalar (.gaDev o) o.dst (fun s c =>
        let d := ((c.valA o.sa).extractLsb' 45 12).toNat
        BitVec.ofNat 64 (if d = 0xFFF then s.devNum else d)))
  ∧ (∀ o : IOps, GivesScalar (.moviW o) o.dst (fun _ _ => o.imm.signExtend 64))
  ∧ ∀ o : LOps, GivesScalar (.moviD o) o.dst (fun _ _ => o.imm))

/-! ## Control -/

/-- R245: the branches, calls and LOOP, relative to the instruction's own address or to a register; a branch writes no register
but the link and the counter. -/
def Obligations.Branches : Prop :=
  ∀ o : BOps,
    let target (c : Ctx) : BitVec 32 := c.pc + 4 * o.off.signExtend 32
    let next (c : Ctx) : Word := (c.pc + 8).setWidth 64
    GivesBranch (.br o) none target
    ∧ GivesBranch (.bri o) none (fun c => (c.valA o.sa).setWidth 32)
    ∧ GivesBranch (.call o) (some (o.dst, next)) target
    ∧ GivesBranch (.calli o) (some (o.dst, next)) (fun c => (c.valA o.sa).setWidth 32)
    ∧ GivesBranch (.ret o) none (fun c => (c.valA o.sa).setWidth 32)
    ∧ GivesBranch (.loop o) (some (o.dst, fun c => c.valA o.sa - 1))
        (fun c => if c.valA o.sa = 1 then c.pc + 8 else target c)

/-! ## Vector instructions -/

/-- R280 to R282: the wrapping integer lane forms.  Active lanes take the result modulo 2^w, inactive ones keep their value, and in
the .Z variants become zero.  R282: the saturating integer lane forms.  The result is limited to the range of the lane's type, and SAT is set exactly when an
active lane was limited. -/
def Obligations.VectorInteger : Prop :=
  (∀ o : AOps,
    let w := Flt.etWidth o.et
    let A (c : Ctx) (k : Nat) : Int := laneInt o.et (lane w (c.srcV [] o.sa) k)
    let B (c : Ctx) (k : Nat) : Int := laneInt o.et (c.srcLane [o.sa] o.sb w k)
    let C (c : Ctx) (k : Nat) : Int := laneInt o.et (lane w (c.srcV [o.sa, o.sb] o.sc) k)
    let lanes (z : Bool) (g : Int → Int → Int → Int) (c : Ctx) (k : Nat) : Nat × BitVec 7 :=
      (if maskBit (c.predicate o.pred o.pn) k then (g (A c k) (B c k) (C c k) % ((2 ^ w : Nat) : Int)).toNat
       else if z then 0 else lane w (c.oldV o.dst) k, 0)
    let both (i iz : Instr) (g : Int → Int → Int → Int) : Prop :=
      GivesLanes i o.dst w (Flt.etLanes o.et) (lanes false g) ∧ GivesLanes iz o.dst w (Flt.etLanes o.et) (lanes true g)
    both (.vaddI o) (.vaddIZ o) (fun a b _ => a + b)
    ∧ both (.vsubI o) (.vsubIZ o) (fun a b _ => a - b)
    ∧ both (.vmulI o) (.vmulIZ o) (fun a b _ => a * b)
    ∧ both (.vmulIh o) (.vmulIhZ o) (fun a b _ => a * b / ((2 ^ w : Nat) : Int))
    ∧ both (.vmulNh o) (.vmulNhZ o) (fun a b _ => a * b / ((2 ^ w : Nat) : Int))
    ∧ both (.vfmaI o) (.vfmaIZ o) (fun a b c => a * b + c)
    ∧ both (.vminI o) (.vminIZ o) (fun a b _ => if b < a then b else a)
    ∧ both (.vminN o) (.vminNZ o) (fun a b _ => if b < a then b else a)
    ∧ both (.vmaxI o) (.vmaxIZ o) (fun a b _ => if a < b then b else a)
    ∧ both (.vmaxN o) (.vmaxNZ o) (fun a b _ => if a < b then b else a)
    ∧ both (.vabsI o) (.vabsIZ o) (fun a _ _ => if a < 0 then -a else a)
    ∧ both (.vnegI o) (.vnegIZ o) (fun a _ _ => 0 - a))
  ∧ (∀ o : AOps,
    let w := Flt.etWidth o.et
    let A (c : Ctx) (k : Nat) : Int := laneInt o.et (lane w (c.srcV [] o.sa) k)
    let B (c : Ctx) (k : Nat) : Int := laneInt o.et (c.srcLane [o.sa] o.sb w k)
    let lanes (z sg : Bool) (g : Int → Int → Int) (c : Ctx) (k : Nat) : Nat × BitVec 7 :=
      let lo : Int := if sg then -((2 ^ (w - 1) : Nat) : Int) else 0
      let hi : Int := if sg then ((2 ^ (w - 1) : Nat) : Int) - 1 else ((2 ^ w : Nat) : Int) - 1
      let x := g (A c k) (B c k)
      if maskBit (c.predicate o.pred o.pn) k then
        ((max lo (min hi x) % ((2 ^ w : Nat) : Int)).toNat, if lo ≤ x ∧ x ≤ hi then 0 else 0x20)
      else (if z then 0 else lane w (c.oldV o.dst) k, 0)
    let both (sg : Bool) (i iz : Instr) (g : Int → Int → Int) : Prop :=
      GivesLanes i o.dst w (Flt.etLanes o.et) (lanes false sg g) ∧ GivesLanes iz o.dst w (Flt.etLanes o.et) (lanes true sg g)
    both true (.vaddIs o) (.vaddIsZ o) (fun a b => a + b)
    ∧ both false (.vaddNs o) (.vaddNsZ o) (fun a b => a + b)
    ∧ both true (.vsubIs o) (.vsubIsZ o) (fun a b => a - b)
    ∧ both false (.vsubNs o) (.vsubNsZ o) (fun a b => a - b))

/-- R283, R284: the floating-point lane forms, by the arithmetic of the lane's format under FMODE.RM; the flags of the active lanes
are raised together. -/
def Obligations.VectorFloat : Prop :=
  ∀ o : AOps,
    let w := Flt.etWidth o.et
    let f := Flt.fmtOf o.et
    let lanes (z : Bool) (g : BitVec 2 → Nat → Nat → Nat → Nat × BitVec 7) (c : Ctx) (k : Nat) : Nat × BitVec 7 :=
      if maskBit (c.predicate o.pred o.pn) k then
        g c.rm (lane w (c.srcV [] o.sa) k) (c.srcLane [o.sa] o.sb w k) (lane w (c.srcV [o.sa, o.sb] o.sc) k)
      else (if z then 0 else lane w (c.oldV o.dst) k, 0)
    let both (i iz : Instr) (g : BitVec 2 → Nat → Nat → Nat → Nat × BitVec 7) : Prop :=
      GivesLanes i o.dst w (Flt.etLanes o.et) (lanes false g) ∧ GivesLanes iz o.dst w (Flt.etLanes o.et) (lanes true g)
    both (.vaddF o) (.vaddFZ o) (fun rm a b _ => Flt.addF f rm a b)
    ∧ both (.vsubF o) (.vsubFZ o) (fun rm a b _ => Flt.subF f rm a b)
    ∧ both (.vmulF o) (.vmulFZ o) (fun rm a b _ => Flt.mulF f rm a b)
    ∧ both (.vfmaF o) (.vfmaFZ o) (fun rm a b c => Flt.fmaF f rm a b c)
    ∧ both (.vdivF o) (.vdivFZ o) (fun rm a b _ => Flt.divF f rm a b)
    ∧ both (.vsqrtF o) (.vsqrtFZ o) (fun rm a _ _ => Flt.sqrtF f rm a)
    ∧ both (.vminF o) (.vminFZ o) (fun _ a b _ => Flt.minMaxF f false a b)
    ∧ both (.vmaxF o) (.vmaxFZ o) (fun _ a b _ => Flt.minMaxF f true a b)
    ∧ both (.vabsF o) (.vabsFZ o) (fun _ a _ _ => Flt.signF f false a)
    ∧ both (.vnegF o) (.vnegFZ o) (fun _ a _ _ => Flt.signF f true a)

/-- R217: every NaN result is the canonical NaN of the format, and NV is set exactly when an operand is a signalling NaN (or, for
VFMA.F, when infinity times zero was added to a NaN). -/
def Obligations.FloatNaN : Prop :=
  ∀ (f : Flt.Fmt) (rm : BitVec 2) (a b c : Nat),
    let va := Flt.decodeBin f a
    let vb := Flt.decodeBin f b
    let vc := Flt.decodeBin f c
    let nv (p : Bool) : BitVec 7 := if p then 1 else 0
    (va.isNan = true ∨ vb.isNan = true →
      Flt.addF f rm a b = (f.canon, nv (va.isSnan || vb.isSnan))
      ∧ Flt.subF f rm a b = (f.canon, nv (va.isSnan || vb.isSnan))
      ∧ Flt.mulF f rm a b = (f.canon, nv (va.isSnan || vb.isSnan))
      ∧ Flt.divF f rm a b = (f.canon, nv (va.isSnan || vb.isSnan))
      ∧ (∀ g, Flt.minMaxF f g a b = (f.canon, nv (va.isSnan || vb.isSnan)))
      ∧ Flt.fmaF f rm a b c = (f.canon, nv (va.isSnan || vb.isSnan || vc.isSnan)))
    ∧ (va.isNan = true → Flt.sqrtF f rm a = (f.canon, nv va.isSnan) ∧ ∀ g, Flt.signF f g a = (f.canon, nv va.isSnan))
    ∧ (vc.isNan = true → (Flt.fmaF f rm a b c).1 = f.canon)

/-- R225: a magnitude m × 2^e that is no multiple of the quantum 2^q is rounded to one of the two multiples that bracket it, by the
mode: to the nearer, on a tie the even one, toward zero, up, or down. -/
def Obligations.RoundingModes : Prop :=
  ∀ (rm : BitVec 2) (neg : Bool) (m : Nat) (e q : Int),
    let unit := 2 ^ (q - e).toNat
    let lower := m / unit
    let r := Flt.roundMag rm neg m e q
    (q ≤ e → r = (m * 2 ^ (e - q).toNat, false))
    ∧ (e < q →
        (m % unit = 0 → r = (lower, false))
        ∧ (m % unit ≠ 0 → r.2 = true
          ∧ (rm = 0 → (2 * (m % unit) < unit → r.1 = lower) ∧ (unit < 2 * (m % unit) → r.1 = lower + 1)
              ∧ (2 * (m % unit) = unit → r.1 % 2 = 0 ∧ (r.1 = lower ∨ r.1 = lower + 1)))
          ∧ (rm = 1 → r.1 = lower)
          ∧ (rm = 2 → r.1 = if neg then lower else lower + 1)
          ∧ (rm = 3 → r.1 = if neg then lower + 1 else lower)))

/-- R285 to R289: the bitwise and shift forms, the selections, permutes, broadcasts, the insertion of a lane and its extraction.  No
flag is raised; inactive lanes keep their value. -/
def Obligations.VectorMoves : Prop :=
  ∀ o : AOps,
    let w := Flt.etWidth o.et
    let n := Flt.etLanes o.et
    let A (c : Ctx) (k : Nat) : Nat := lane w (c.srcV [] o.sa) k
    let B (c : Ctx) (k : Nat) : Nat := c.srcLane [o.sa] o.sb w k
    let VB (c : Ctx) (k : Nat) : Nat := lane w (c.srcV [o.sa] o.sb) k
    let b (c : Ctx) : Nat := (c.valB o.sa o.sb).toNat % n
    let old (c : Ctx) (k : Nat) : Nat := lane w (c.oldV o.dst) k
    let gives (i : Instr) (g : Ctx → Nat → Nat) : Prop :=
      GivesLanes i o.dst w n fun c k => (if maskBit (c.predicate o.pred o.pn) k then g c k else old c k, 0)
    gives (.vand o) (fun c k => A c k &&& B c k)
    ∧ gives (.vor o) (fun c k => A c k ||| B c k)
    ∧ gives (.vxor o) (fun c k => A c k ^^^ B c k)
    ∧ gives (.vshl o) (fun c k => A c k * 2 ^ (B c k % w))
    ∧ gives (.vshrL o) (fun c k => A c k / 2 ^ (B c k % w))
    ∧ gives (.vshrA o) (fun c k => (signed w (A c k) / ((2 ^ (B c k % w) : Nat) : Int) % ((2 ^ w : Nat) : Int)).toNat)
    ∧ gives (.vsel o) (fun c k => if maskBit (c.regs.getM o.sc.toNat) k then A c k else B c k)
    ∧ gives (.vmov o) A
    ∧ gives (.vpermX o) (fun c k => A c (VB c k % n))
    ∧ gives (.vpermR o) (fun c k => A c ((k + b c) % n))
    ∧ gives (.vpermQ o) (fun c k =>
        match o.ka.toNat with
        | 0 => if k % 2 = 0 then A c (k / 2) else VB c (k / 2)
        | 1 => if k % 2 = 0 then A c (n / 2 + k / 2) else VB c (n / 2 + k / 2)
        | 2 => if k < n / 2 then A c (2 * k) else VB c (2 * (k - n / 2))
        | _ => if k < n / 2 then A c (2 * k + 1) else VB c (2 * (k - n / 2) + 1))
    ∧ gives (.vbcastS o) (fun c _ => (c.valA o.sa).toNat % 2 ^ w)
    ∧ gives (.vbcastL o) (fun c _ => A c (b c))
    ∧ GivesLanes (.vins o) o.dst w n (fun c k => (if k = b c then (c.valA o.sa).toNat % 2 ^ w else old c k, 0))
    ∧ GivesScalar (.vext o) o.dst (fun _ c =>
        if Flt.etSigned o.et then BitVec.ofInt 64 (signed w (A c (b c))) else BitVec.ofNat 64 (A c (b c)))

/-- R286: a vector compare writes bit k of its mask for each active lane, keeps the bit of an inactive one, and clears the bits at and
above the lane count; the flags are those of the active lanes.  R286: how lanes compare: integers by value, floats by their order with +0 equal to −0, a NaN unordered; LT and LE set NV for any
NaN, EQ, NE and UN only for a signalling one. -/
def Obligations.VectorCompares : Prop :=
  (∀ o : AOps,
    let w := Flt.etWidth o.et
    let n := Flt.etLanes o.et
    let on (c : Ctx) (k : Nat) : Bool := maskBit (c.predicate o.pred o.pn) k
    let cmp (r : Flt.Rel) (c : Ctx) (k : Nat) : Bool × BitVec 7 :=
      Flt.cmpLane r o.et (lane w (c.srcV [] o.sa) k) (c.srcLane [o.sa] o.sb w k)
    GivesCompare (.vcmpEq o) o.dst n on (cmp .eq) ∧ GivesCompare (.vcmpNe o) o.dst n on (cmp .ne)
    ∧ GivesCompare (.vcmpLt o) o.dst n on (cmp .lt) ∧ GivesCompare (.vcmpLe o) o.dst n on (cmp .le)
    ∧ GivesCompare (.vcmpUn o) o.dst n on (cmp .un))
  ∧ ((∀ (r : Flt.Rel) (et : BitVec 4) (a b : Nat), Flt.etInt et = true →
    Flt.cmpLane r et a b = (match r with
      | .eq => decide (laneInt et a = laneInt et b)
      | .ne => decide (laneInt et a ≠ laneInt et b)
      | .lt => decide (laneInt et a < laneInt et b)
      | .le => decide (laneInt et a ≤ laneInt et b)
      | .un => false, 0))
  ∧ ∀ (et : BitVec 4) (a b : Nat), Flt.etInt et = false →
    let va := Flt.decodeBin (Flt.fmtOf et) a
    let vb := Flt.decodeBin (Flt.fmtOf et) b
    let sn : BitVec 7 := if va.isSnan || vb.isSnan then 1 else 0
    (va.isNan = true ∨ vb.isNan = true →
      Flt.cmpLane .eq et a b = (false, sn) ∧ Flt.cmpLane .ne et a b = (true, sn) ∧ Flt.cmpLane .un et a b = (true, sn)
      ∧ Flt.cmpLane .lt et a b = (false, 1) ∧ Flt.cmpLane .le et a b = (false, 1))
    ∧ (va.isNan = false ∧ vb.isNan = false →
      Flt.cmpLane .un et a b = (false, 0)
      ∧ (Flt.cmpLane .ne et a b).1 = !(Flt.cmpLane .eq et a b).1
      ∧ (Flt.cmpLane .le et a b).1 = ((Flt.cmpLane .lt et a b).1 || (Flt.cmpLane .eq et a b).1)
      ∧ (Flt.cmpLane .le et b a).1 = !(Flt.cmpLane .lt et a b).1
      ∧ (va.isZero = true ∧ vb.isZero = true → (Flt.cmpLane .eq et a b).1 = true)))

/-- R290, R291: the reductions write their scalar result to DST and y0 and raise their flags; an integer sum is exact modulo 2^64.  R291: what the choosing reductions choose: a lane of the set, no lane less (or greater) than it, and NaN lanes decide or are
ignored. -/
def Obligations.VectorReductions : Prop :=
  (∀ o : AOps,
    let w := Flt.etWidth o.et
    let S (c : Ctx) : List Nat :=
      ((List.range (Flt.etLanes o.et)).filter fun k => maskBit (c.predicate o.pred o.pn) k).map fun k => lane w (c.srcV [] o.sa) k
    GivesScalarFlags (.vredAddi o) o.dst (fun c => (BitVec.ofInt 64 ((S c).map fun x => laneInt o.et x).sum, 0))
    ∧ GivesScalarFlags (.vredAddf o) o.dst (fun c => Flt.redAddF o.et c.rm (S c))
    ∧ GivesScalarFlags (.vredMin o) o.dst (fun c => Flt.redPick .min false o.et (S c))
    ∧ GivesScalarFlags (.vredMax o) o.dst (fun c => Flt.redPick .max false o.et (S c))
    ∧ GivesScalarFlags (.vredMinn o) o.dst (fun c => Flt.redPick .min true o.et (S c))
    ∧ GivesScalarFlags (.vredMaxn o) o.dst (fun c => Flt.redPick .max true o.et (S c))
    ∧ GivesScalarFlags (.vredAmax o) o.dst (fun c => Flt.redPick .amax false o.et (S c))
    ∧ GivesScalarFlags (.vredAmaxn o) o.dst (fun c => Flt.redPick .amax true o.et (S c)))
  ∧ (∀ (et : BitVec 4) (xs : List Nat), xs ≠ [] →
    let sg (x : Nat) : Word := if Flt.etSigned et then BitVec.ofInt 64 (signed (Flt.etWidth et) x)
      else BitVec.ofNat 64 (x % 2 ^ Flt.etWidth et)
    let rest := xs.filter fun x => !Flt.isNanCode et x
    (rest.length < xs.length → ∀ p, (Flt.redPick p false et xs).1 = BitVec.ofNat 64 (Flt.canonOf et)
      ∧ (Flt.redPick p false et xs).2 &&& 0x40 = 0x40)
    ∧ (rest = [] → ∀ p, (Flt.redPick p true et xs).1 = BitVec.ofNat 64 (Flt.canonOf et)
      ∧ (Flt.redPick p true et xs).2 &&& 0x40 = 0x40)
    ∧ (rest ≠ [] →
      (∃ x ∈ rest, (Flt.redPick .min true et xs).1 = sg x ∧ ∀ y ∈ rest, Flt.pickKey .min et x ≤ Flt.pickKey .min et y)
      ∧ (∃ x ∈ rest, (Flt.redPick .max true et xs).1 = sg x ∧ ∀ y ∈ rest, Flt.pickKey .max et y ≤ Flt.pickKey .max et x)
      ∧ (Flt.redPick .min true et xs).2 &&& 0x40 = 0)
    ∧ (rest.length = xs.length → ∀ p, Flt.redPick p false et xs = Flt.redPick p true et xs))

/-- R292: with no active lane, each reduction writes its identity and raises no flag. -/
def Obligations.EmptyReductions : Prop :=
  ∀ (o : AOps) (s : State) (c : Ctx),
    (∀ k < Flt.etLanes o.et, maskBit (c.predicate o.pred o.pn) k = false) →
    let w := Flt.etWidth o.et
    let ends (i : Instr) (v : Word) : Prop :=
      Ready s c i.form → ∃ t d, exec i s = .next t ∧ t.cx = some d ∧ ScalarRegs c.regs d.regs o.dst v ∧ d.csrs.fstat = c.csrs.fstat
    let least : Word :=
      if o.et = 11 then 0xFF else if o.et = 8 then 0xFC00 else if o.et = 9 then 0xFF80 else if o.et = 10 then 0xFF800000
      else if Flt.etSigned o.et then BitVec.ofInt 64 (-((2 ^ (w - 1) : Nat) : Int)) else 0
    let largest : Word :=
      if o.et = 11 then 0x7F else if o.et = 8 then 0x7C00 else if o.et = 9 then 0x7F80 else if o.et = 10 then 0x7F800000
      else if Flt.etSigned o.et then BitVec.ofNat 64 (2 ^ (w - 1) - 1) else BitVec.ofNat 64 (2 ^ w - 1)
    ends (.vredAddi o) 0 ∧ ends (.vredAddf o) 0 ∧ ends (.vredMin o) largest ∧ ends (.vredMinn o) largest
    ∧ ends (.vredMax o) least ∧ ends (.vredMaxn o) least ∧ ends (.vredAmax o) 0 ∧ ends (.vredAmaxn o) 0

/-- R228 to R230: VCVT to each of the twelve targets: the lanes of the window of PART are decoded exactly and encoded, or wrapped; the
other lanes, and the inactive ones, keep their values. -/
def Obligations.Conversions : Prop :=
  ∀ o : AOps,
    let converts (i : Instr) (t : BitVec 4) : Prop :=
      let ls := Flt.etLanes o.et
      let ld := Flt.etLanes t
      let N := min ls ld
      let part := o.ka.toNat
      GivesLanes i o.dst (Flt.etWidth t) ld fun c j =>
        let inside := if ld < ls then j < N else if ls < ld then part * N ≤ j ∧ j < part * N + N else True
        let k := if ld < ls then part * N + j else if ls < ld then j - part * N else j
        let zp := if o.et = 12 ∨ t = 12 then (c.valB o.sa o.sb).toNat % 256
          else if o.et = 13 ∨ t = 13 then (c.valB o.sa o.sb).toNat % 16 else 0
        let code := lane (Flt.etWidth o.et) (c.srcV [] o.sa) k
        if inside ∧ maskBit (c.predicate o.pred o.pn) (if t = 13 then j / 2 else j) then
          (if o.kb = 1 then ((laneInt o.et code % ((2 ^ Flt.etWidth t : Nat) : Int)).toNat, 0)
           else Flt.encode t c.rm zp (Flt.decode o.et zp code))
        else (lane (Flt.etWidth t) (c.oldV o.dst) j, 0)
    converts (.vcvtI8 o) 0 ∧ converts (.vcvtN8 o) 1 ∧ converts (.vcvtI16 o) 2 ∧ converts (.vcvtN16 o) 3
    ∧ converts (.vcvtI32 o) 4 ∧ converts (.vcvtN32 o) 5 ∧ converts (.vcvtF16 o) 8 ∧ converts (.vcvtBf16 o) 9
    ∧ converts (.vcvtF32 o) 10 ∧ converts (.vcvtT8 o) 11 ∧ converts (.vcvtO8 o) 12 ∧ converts (.vcvtO4 o) 13

/-- R232: VSCALE multiplies each active lane by the power of two that one or two block scales give; a NaN scale makes every active lane
the canonical NaN and sets NV. -/
def Obligations.BlockScale : Prop :=
  ∀ o : AOps,
    let w := Flt.etWidth o.et
    let f := Flt.fmtOf o.et
    GivesLanes (.vscale o) o.dst w (Flt.etLanes o.et) fun c k =>
      let ea := (c.valB o.sa o.sb).toNat % 256
      let eb := (c.valC o.sa o.sb o.sc).toNat % 256
      let x := Flt.decodeBin f (lane w (c.srcV [] o.sa) k)
      if maskBit (c.predicate o.pred o.pn) k then
        (if ea = 255 ∨ o.ka = 1 ∧ eb = 255 then (f.canon, 1)
         else Flt.encodeBin f c.rm (x.scale (if o.ka = 1 then (ea : Int) + eb - 254 else (ea : Int) - 127)))
      else (lane w (c.oldV o.dst) k, 0)

/-! ## Memory instructions on this device -/

/-- R257, R258: the seven scalar loads, plain and acquire, zero-extended and sign-extended.  R257, R259: the scalar stores, plain, release and cumulative release.
The model's own choices that this rests on: log entries 4 and 48. -/
def Obligations.ScalarMemory : Prop :=
  (∀ o : MOps,
    let zero (n : Nat) : Word := BitVec.ofNat 64 n
    let sign (w n : Nat) : Word := BitVec.ofInt 64 ((n : Int).bmod (2 ^ (8 * w)))
    LoadsHere (.ldB o) o 1 zero ∧ LoadsHere (.ldH o) o 2 zero ∧ LoadsHere (.ldW o) o 4 zero ∧ LoadsHere (.ldD o) o 8 zero
    ∧ LoadsHere (.ldBs o) o 1 (sign 1) ∧ LoadsHere (.ldHs o) o 2 (sign 2) ∧ LoadsHere (.ldWs o) o 4 (sign 4))
  ∧ (∀ o : MOps, StoresHere (.stB o) o 1 ∧ StoresHere (.stH o) o 2 ∧ StoresHere (.stW o) o 4 ∧ StoresHere (.stD o) o 8)

/-- R260, R261: the five vector loads, by the lane addresses of their shapes.  R44, R260 to R262: the five vector stores.  R45, R175, R260: the address of each lane, for a local and for a global base.
The model's own choices that this rests on: log entries 4 and 48. -/
def Obligations.VectorMemory : Prop :=
  (∀ o : MOps, LoadsLanes (.vldL o) o .linear ∧ LoadsLanes (.vldR o) o .row ∧ LoadsLanes (.vldC o) o .column
    ∧ LoadsLanes (.vlds o) o .strided ∧ LoadsLanes (.vldx o) o .indexed)
  ∧ (∀ o : MOps, StoresLanes (.vstL o) o .linear ∧ StoresLanes (.vstR o) o .row ∧ StoresLanes (.vstC o) o .column
    ∧ StoresLanes (.vsts o) o .strided ∧ StoresLanes (.vstx o) o .indexed)
  ∧ (∀ (c : Ctx) (o : MOps) (k : Nat), k < 32 →
    (∀ a, c.addrIx o = .la a →
      c.laneAddr .linear o k = .la (a + 4 * k)
      ∧ (0 ≤ a → let tb := a - a % 128
         let r := (a % 128 / 4)
         c.laneAddr .row o k = .la (tb + 128 * r + 4 * ((r + k) % 32))
         ∧ c.laneAddr .column o k = .la (tb + 128 * k + 4 * ((k + r) % 32))))
    ∧ (∀ a, c.addrIx o = .ga a → c.laneAddr .linear o k = .ga (a + BitVec.ofNat 64 (4 * k)))
    ∧ (∀ a, c.addr o 0 = .la a →
      c.laneAddr .strided o k = .la (a + k * (c.srcS [o.sa] o.sb).toInt)
      ∧ c.laneAddr .indexed o k = .la (a + signed 32 (lane 32 (c.srcV [o.sa] o.sb) k)))
    ∧ (∀ a, c.addr o 0 = .ga a →
      c.laneAddr .strided o k = .ga (a + BitVec.ofNat 64 k * c.srcS [o.sa] o.sb)
      ∧ c.laneAddr .indexed o k = .ga (a + ((c.srcV [o.sa] o.sb).extractLsb' (32 * k) 32).signExtend 64)))

/-- R263 to R265: the atomics on this device, in both widths; a compare-and-swap that fails writes nothing.  R266: the reductions on this device: an atomic that returns nothing; RFADD.W leaves FSTAT.
The model's own choices that this rests on: log entries 4 and 49. -/
def Obligations.AtomicsAndReductions : Prop :=
  (∀ o : MOps,
    let plain (g : Nat → Nat → Nat → Nat) (w : Nat) (_ : Ctx) (old b : Nat) : Nat × BitVec 7 := (g w old b, 0)
    let both (iw id : Instr) (g : Nat → Nat → Nat → Nat) : Prop := AtomicHere iw o 4 (plain g 4) ∧ AtomicHere id o 8 (plain g 8)
    let int (w n : Nat) : Int := (n : Int).bmod (2 ^ (8 * w))
    both (.aaddW o) (.aaddD o) (fun w old b => (old + b) % 2 ^ (8 * w))
    ∧ both (.aandW o) (.aandD o) (fun _ old b => old &&& b)
    ∧ both (.aorW o) (.aorD o) (fun _ old b => old ||| b)
    ∧ both (.axorW o) (.axorD o) (fun _ old b => old ^^^ b)
    ∧ both (.aminsW o) (.aminsD o) (fun w old b => if int w b < int w old then b else old)
    ∧ both (.aminuW o) (.aminuD o) (fun _ old b => if b < old then b else old)
    ∧ both (.amaxsW o) (.amaxsD o) (fun w old b => if int w old < int w b then b else old)
    ∧ both (.amaxuW o) (.amaxuD o) (fun _ old b => if old < b then b else old)
    ∧ both (.axchgW o) (.axchgD o) (fun _ _ b => b)
    ∧ AtomicHere (.acasW o) o 4 (fun c old b => (if old = (c.srcS [o.sa, o.sb] o.dst).toNat % 2 ^ 32 then b else old, 0))
    ∧ AtomicHere (.acasD o) o 8 (fun c old b => (if old = (c.srcS [o.sa, o.sb] o.dst).toNat then b else old, 0))
    ∧ AtomicHere (.afaddW o) o 4 (fun c old b => ((Flt.addF Flt.f32 c.rm old b).1 % 2 ^ 32, (Flt.addF Flt.f32 c.rm old b).2)))
  ∧ (∀ o : MOps,
    let int (w n : Nat) : Int := (n : Int).bmod (2 ^ (8 * w))
    ReductionHere (.raddW o) o 4 (fun _ old b => (old + b) % 2 ^ 32)
    ∧ ReductionHere (.raddD o) o 8 (fun _ old b => (old + b) % 2 ^ 64)
    ∧ ReductionHere (.rfaddW o) o 4 (fun c old b => (Flt.addF Flt.f32 c.rm old b).1 % 2 ^ 32)
    ∧ ReductionHere (.rmaxsW o) o 4 (fun _ old b => if int 4 old < int 4 b then b else old)
    ∧ ReductionHere (.rmaxsD o) o 8 (fun _ old b => if int 8 old < int 8 b then b else old)
    ∧ ReductionHere (.rmaxuW o) o 4 (fun _ old b => if old < b then b else old)
    ∧ ReductionHere (.rmaxuD o) o 8 (fun _ old b => if old < b then b else old))

/-! ## Control and the ends of a firing -/

/-- R249: NOP has no effect and retires; its encoding has every field above OP zero, and a NOP with a nonzero field takes a decode
fault. -/
def Obligations.NopHasNoEffect : Prop :=
  (∀ o : COps, GivesNothing (.nop o))
  ∧ encodeBits (.nop { dst := 0, sa := 0, sb := 0, pred := 0, imm := 0, pn := false }) = 0x0000_0000_0000_00F5
  ∧ ∀ o : COps, o ≠ { dst := 0, sa := 0, sb := 0, pred := 0, imm := 0, pn := false } →
    ∃ k, ∀ s c, s.cx = some c → exec (.nop o) s = .next (s.decodeFault k ((Instr.nop o).form.bits.setWidth 64))

/-- R170, R171, R187: PAD moves the program counter to the next fetch-block boundary and changes nothing else; bits that decode to nothing
end the context with the decode fault of their item; REP checks every repetition, and then stands at itself with REPST counting from
zero. -/
def Obligations.PadRepAndUnassigned : Prop :=
  (∀ s c, s.cx = some c →
    exec .padSkip s = .next { s with cx := some { c with pc := BitVec.ofNat 32 ((c.pc.toNat / 32 + 1) * 32) } })
  ∧ (∀ s c item bits, s.cx = some c →
    exec (.unassignedOpValue item bits) s = .next (s.fatal c
      { code := 8, sub := item, val := bits, aux1 := 0, aux2 := 0, pc := c.pc, detail := 0 } true 0))
  ∧ ∀ o s c, Ready s c (Instr.rep o).form →
    (s.repPasses c o = true →
      ∃ t d, exec (.rep o) s = .next t ∧ t.cx = some d ∧ d.pc = c.pc ∧ d.regs = c.regs
        ∧ d.repActive = true ∧ d.repDone = 0 ∧ d.repTotal = o.count.toNat + 1
        ∧ d.csrs = { c.csrs with energy := (c.charge 5).csrs.energy, repst := d.csrs.repst }
        ∧ d.order = c.order ∧ d.mx = c.mx ∧ d.queues = c.queues ∧ Quiet s t ∧ OthersKeep s t c none)
    ∧ (s.repPasses c o = false →
      exec (.rep o) s = .next (s.decodeFault 9 ((Instr.rep o).form.bits.setWidth 64)))

/-- R140, R142, R145, R247, R248: END makes the record DONE; END.RE makes it WAITING with its counters raised by their initial values, or
READY when all are zero or negative.  The context is gone.  R148, R272: WAITV on a word of this device ends the firing, records the word, the value awaited and the offset after it in the
record, and has the record enqueued on the word.
The model's own choices that this rests on: log entries 70 and 71. -/
def Obligations.EndsOfFirings : Prop :=
  (∀ (o : COps) (s : State) (c : Ctx),
    (MayEnd s c (Instr.endF o).form → ∃ t, exec (.endF o) s = .next t ∧ t.findCtx c.num = none
      ∧ t.recState c.part c.record = 7 ∧ t.recLive c.part c.record = false)
    ∧ (MayEnd s c (Instr.endRe o).form → ∃ t, exec (.endRe o) s = .next t ∧ t.findCtx c.num = none
      ∧ t.recLive c.part c.record = true
      ∧ t.recState c.part c.record = (if (List.range 4).all fun k => decide (t.recCnt c.part c.record k ≤ 0) then 2 else 1)
      ∧ (s.portsOf c.part c.record = [] → s.recChn c.part c.record = false → ∀ k < 4,
          -32768 ≤ s.recCnt c.part c.record k + s.recInit c.part c.record k →
          t.recCnt c.part c.record k = min 32767 (s.recCnt c.part c.record k + s.recInit c.part c.record k))))
  ∧ (∀ (o : MOps) (s : State) (c : Ctx) (t : Tgt), MayEnd s c (Instr.waitv o).form →
    s.reaches (c.addrIx { o with sb := 0 }) 8 8 t → s.isHbm t = true → t.dev = s.devNum →
    let val := c.srcS [o.sa] o.sb
    ∃ u, exec (.waitv o) s = .next u ∧ u.findCtx c.num = none
      ∧ .waitEnqueue c.part c.record t.off val ∈ u.pend
      ∧ u.recGet c.part c.record 320 32 = (c.pc.toNat + (Instr.waitv o).form.size) % 2 ^ 32
      ∧ u.recGet c.part c.record 384 64 = t.ga ∧ u.recGet c.part c.record 448 64 = val.toNat)

/-- R242 to R244: a CHKR that passes gives its cover with its handle; one that fails is the region fault of its reason.
The model's own choice that this rests on: log entry 39. -/
def Obligations.RegionChecks : Prop :=
  ∀ o : AOps,
    let checks (i : Instr) (kind : Kind) : Prop :=
      ∀ s c d, Ready s c i.form →
        let h : BitVec 32 := (c.srcS [o.sa, o.sb] o.sc).setWidth 32
        let v := s.coverOf c c.pc.toNat
        let k := if kind = .write ∧ v.target.map returnsOld = some true ∧ v.flag = false then .readWrite else kind
        let ofM := v.target.any fun f => match f with
          | .m _ _ => true
          | _ => false
        ((List.range v.reps).flatMap fun i => checkRegs o v (0 + i)).any (fun sp => c.order.owed.contains sp) = false →
        s.fetchOf s.cur.core c.num (hIndex h) = none → s.cachedDesc s.cur.core (hIndex h) = some d →
        (s.firstFail c o v k h d (if ofM then v.reps else 1) 0 = none →
          ∃ t e, exec i s = .next t ∧ t.cx = some e ∧ e.regs = c.regs ∧ Advances c e i.form 0 (c.nextPc i.form)
            ∧ e.coverLost = false ∧ e.chkr.getLast? = some c.pc
            ∧ (if v.flag then e.flagHandle = h else e.handle = h)
            ∧ Quiet s { t with cores := s.cores } ∧ (∀ n, t.core n = { s.core n with rcache := (t.core n).rcache })
            ∧ OthersKeep s t c none)
        ∧ ∀ r ga len, s.firstFail c o v k h d (if ofM then v.reps else 1) 0 = some (r, ga, len) →
          exec i s = .next ((s.useDesc s.cur.core (hIndex h) d).regionFault r ga h len c.pc)
    checks (.chkrR o) .read ∧ checks (.chkrW o) .write ∧ checks (.chkrX o) .execute

/-! ## Waits, fences and synchronisation -/

/-- R82, R83, R268, R269: a FENCE gives a token of its mask, slot, serial and context, and one that finds eight tokens unfinished waits for
the oldest; an FWAIT with nothing left to wait for ends the
region, acquires, and gives 0, or with lost peers status 2 with their count, which LINKSTAT records.
The model's own choice that this rests on: log entry 96. -/
def Obligations.Fences : Prop :=
  ∀ o : COps,
    let mask := o.imm.toNat % 128
    let token (slot : Nat) (c : Ctx) : Word :=
      BitVec.ofNat 64 (mask + 2 ^ 8 * slot + 2 ^ 16 * ((c.order.fences + 1) % 2 ^ 32) + 2 ^ 48 * (c.num % 2 ^ 12) + 2 ^ 60 * 0xA)
    Gives (.fence o) (fun _ _ => mask = 0)
      (fun _ c => c.withOrder fun q => { q with fences := (c.order.fences + 1) % 2 ^ 32 }) (some (o.dst, fun _ c => token 0 c))
    ∧ (∀ k, Gives (.fence o) (fun s c => mask ≠ 0 ∧ s.fenceWait c = none ∧ s.freeSlot c.order = some k)
        (fun _ c => c.withOrder fun q =>
          let rest := q.tokens.filter fun t => t.slot != k
          { q with fences := (c.order.fences + 1) % 2 ^ 32,
                   tokens := if (c.coveredBy mask).isEmpty then rest
                     else rest ++ [{ slot := k, serial := (c.order.fences + 1) % 2 ^ 32, waits := c.coveredBy mask, lost := [] }] })
        (some (o.dst, fun _ c => token k c)))
    ∧ (∀ s c n, Ready s c (Instr.fence o).form → mask ≠ 0 → s.fenceWait c = some n →
        exec (.fence o) s = .next (s.stallOn (.oldest n)))
    ∧ let lost (s : State) (c : Ctx) : List Nat :=
        let w := c.fenceWaits (c.valA o.sa)
        (w.2 ++ s.lostAmong w.1).eraseDups
      Gives (.fwait o)
        (fun s c => Settled s c ∧ s.unperformed (c.fenceWaits (c.valA o.sa)).1 = []
          ∧ (lost s c ≠ [] → c.csrs.lostla.toNat % 2 ^ 17 = 0))
        (fun s c =>
          let w := c.valA o.sa
          let e := c.newRegion.withOrder fun q => { q with tokens := if c.isToken w then q.tokens.filter fun t =>
              !(t.slot == field w.toNat 8 3 && t.serial == field w.toNat 16 32) else q.tokens }
          if lost s c = [] then e
          else { e with csrs := { e.csrs with linkstat := linkstatAfter e.csrs.linkstat 3 (lost s c) } })
        (some (o.dst, fun s c => BitVec.ofNat 64 (if lost s c = [] then 0 else 2 + 2 ^ 16 * ((lost s c).length % 2 ^ 12))))
        (RegionEnds true)

/-- R97, R98, R182, R270: a BATCHC whose tag touched no peer gives status 0 at once; one with live peers sends each a CLOSE, and its register
and y0 are owed the status.
The model's own choice that this rests on: log entry 97. -/
def Obligations.BatchCloses : Prop :=
  ∀ o : MOps,
    let b := o.batch.toNat
    let emptied (q : Order) : Order :=
      { q with touched := setAt q.touched b [], gone := q.gone.filter fun x => x.1 != b,
               outs := q.outs.map fun x => if x.batch = b ∧ x.kind = .store then { x with batch := b + 4 } else x }
    let quietTag (c : Ctx) : Prop := ∀ x ∈ c.order.gone, x.1 ≠ b
    Gives (.batchc o)
      (fun _ c => quietTag c ∧ (c.order.touched[b]?).getD [] = [] ∧ ∀ x ∈ c.order.closes, x.tag ≠ b)
      (fun _ c => c.withOrder emptied) (some (o.dst, fun _ _ => 0))
    ∧ ∀ s c, Ready s c (Instr.batchc o).form → quietTag c → c.closeWait = none →
      let peers := ((c.order.touched[b]?).getD []).eraseDups
      peers ≠ [] → (∀ p ∈ peers, s.lost p = false) →
      ∃ t d, exec (.batchc o) s = .next t ∧ t.cx = some d ∧ d.regs = c.regs ∧ d.pc = c.nextPc (Instr.batchc o).form
        ∧ d.order.late.getLast? = some { num := c.order.lateNum, dst := o.dst, writes := o.dst != 0, y0 := true }
        ∧ (∃ k, d.order.closes.getLast? = some k ∧ k.num = c.order.lateNum ∧ k.tag = b ∧ k.waiting = peers ∧ k.peers = peers.length)
        ∧ (∀ x ∈ d.order.outs, x.kind = .store → x.batch ≠ b)
        ∧ Sends (peers.map fun p => .packet
            { src := s.devNum, dst := p, time := s.time, hop := 0, tenant := c.tenant, lslot := some c.lslot, cls := c.cls, tagOk := true,
              keyGen := s.worldGen c.tenant, body := .close c.num b }).reverse s t
        ∧ OthersKeep s t c none

/-- R105, R106, R112, R113, R117, R119, R271: opening and closing bundles and read groups.  A second BOPEN gives 0, a BCLOSE without a
bundle 2; a settled bundle gives its outcome; an RGOPEN gives the group's time, an RGCLOSE its status. -/
def Obligations.BundlesAndGroups : Prop :=
  ∀ o : COps,
    Gives (.bopen o) (fun _ c => c.order.bundle.isSome = true) (fun _ c => c) (some (o.dst, fun _ _ => 0))
    ∧ (let ident (s : State) : Word := BitVec.ofNat 64
         (s.devNum % 2 ^ 12 + 2 ^ 12 * (s.cur.core % 2 ^ 11) + 2 ^ 23 * (s.cur.seat % 4) + 2 ^ 32 * (s.nextSeq s.cur % 2 ^ 24))
       let after (s : State) : Nat := if s.nextSeq s.cur = 2 ^ 24 - 1 then 1 else s.nextSeq s.cur + 1
       let opened (s : State) : Bundle :=
         { ident := ident s, comps := [], lines := 0, doomed := none, stage := .opened, waiting := [], mmax := 0, stamp := none,
           latelost := false, lost := [], outcome := none, away := [], since := 0 }
       Gives (.bopen o) (fun s c => c.order.bundle = none ∧ s.deciderFull (identDecider (ident s)) = false)
         (fun s c => c.withOrder fun q => { q with bundle := some (opened s) })
         (some (o.dst, fun s _ => ident s))
         (fun s _ t => Quiet s { t with cores := s.cores, slices := s.slices }
           ∧ t.slices = { s.slices with records := s.slices.records ++
               [{ ident := ident s, state := .undecided, qfloor := 0, reason := 0, waiting := [], since := 0 }] }
           ∧ ∀ k, t.core k = if k = s.cur.core then
                 { s.core k with bundleSeq := setAt (s.core k).bundleSeq s.cur.seat (after s) }
               else s.core k))
    ∧ Gives (.bclose o) (fun s c => Settled s c ∧ c.order.bundle = none) (fun _ c => c.newRegion)
        (some (o.dst, fun _ _ => 2)) (RegionEnds false)
    ∧ (∀ w, Gives (.bclose o)
        (fun s c => Settled s c ∧ ∃ b, c.order.bundle = some b ∧ b.stage = .settled ∧ b.outcome = some w ∧ b.lost = [])
        (fun _ c => c.newRegion.withOrder fun q => { q with bundle := none }) (some (o.dst, fun _ _ => w)) (RegionEnds false))
    ∧ Gives (.rgopen o) (fun s c => Settled s c ∧ c.order.group = none)
        (fun s c => c.newRegion.withOrder fun q => { q with group := some { t := s.time % 2 ^ 64, lost := none, devs := [] } })
        (some (o.dst, fun s _ => BitVec.ofNat 64 s.time)) (RegionEnds true)
    ∧ (∀ g, Gives (.rgopen o) (fun s c => Settled s c ∧ c.order.group = some g) (fun _ c => c.newRegion)
        (some (o.dst, fun _ _ => BitVec.ofNat 64 g.t)) (RegionEnds true))
    ∧ Gives (.rgclose o) (fun s c => Settled s c) (fun _ c => c.newRegion.withOrder fun q => { q with group := none })
        (some (o.dst, fun _ c => match c.order.group with
          | none => 2
          | some g => match g.lost with
            | none => 0
            | some (cause, dev) => BitVec.ofNat 64 (1 + 2 ^ 4 * cause + 2 ^ 8 * (dev % 2 ^ 12)))) (RegionEnds false)

/-- R51, R60, R61, R150, R273 to R277: NOTE has the waiters of its word woken; SWSET gives a sync word its TARGET and COUNT 0; SWWAIT and
TLWAIT, once their generation or count is reached, acquire; TLREAD reads a queue's counter.
The model's own choices that this rests on: log entries 42 and 43. -/
def Obligations.WordsAndTimelines : Prop :=
  (∀ (o : MOps) (t : Tgt) (held : List Nat),
    let here (s : State) (c : Ctx) : Prop :=
      s.reaches (c.addrIx o) 8 8 t ∧ s.isHbm t = true ∧ t.dev = s.devNum ∧ s.heldAll c.tenant [t.off] = .inl held
        ∧ s.unperformed (c.order.outs.filter fun x => x.acq || x.touches t.dev ((List.range 8).map (t.off + ·))) = []
    Gives (.noteOne o) here (fun _ c => c) none (fun s c u => OwesChecked c.handle (.noteWake t.off false) s u)
    ∧ Gives (.noteAll o) here (fun _ c => c) none (fun s c u => OwesChecked c.handle (.noteWake t.off true) s u))
  ∧ (∀ (o : MOps) (t : Tgt) (x : Nat),
    Gives (.swset o)
      (fun s c => s.reaches (c.addr o 0) 16 16 t ∧ t.dev = s.devNum ∧ (bankCore t.off).isSome = true ∧ launchArea t.off = false
        ∧ s.acquiring c = [] ∧ s.heldSeat c.tenant [t.off] = .inl [x])
      (fun _ c => c) none
      (fun s c u => WritesOnly s u ((List.range 8).map (x + ·))
        ∧ u.mem.readNat x 8 = (c.srcS [o.sa] o.sb).toNat % 2 ^ 32))
  ∧ (∀ (o : MOps) (t : Tgt),
    Gives (.swwait o)
      (fun s c => s.reaches (c.addr o 0) 16 16 t ∧ s.ownPad t = true ∧ Settled s c
        ∧ s.unperformed c.order.syncOuts = []
        ∧ (s.mem.readNat (t.off + 8) 4 + 2 ^ 32 - (c.srcS [o.sa] o.sb).toNat % 2 ^ 32) % 2 ^ 32 < 2 ^ 31)
      (fun _ c => c.newRegion) none (RegionEnds true))
  ∧ ∀ o : COps,
    let q (c : Ctx) : VQ := c.vq (4 * (o.imm.toNat / 4 % 2) + o.imm.toNat % 4)
    Gives (.tlwait o)
      (fun s c => min (c.valA o.sa).toNat (q c).issued ≤ (q c).done ∧ s.unperformed c.order.syncOuts = [] ∧ Settled s c)
      (fun _ c => c.newRegion) (some (o.dst, fun _ c => BitVec.ofNat 64 (q c).done)) (RegionEnds true)
    ∧ Gives (.tlread o) (fun _ _ => True) (fun _ c => c)
      (some (o.dst, fun _ c => BitVec.ofNat 64 (if o.imm.getLsbD 3 then (q c).done else (q c).issued)))

/-! ## System instructions -/

/-- R188, R189, R347: CSRR reads a CSR; CSRW, CSRB.S and CSRB.C change its writable fields, and its bits that ones clear; the bit forms
give the old value.
The model's own choice that this rests on: log entry 50. -/
def Obligations.ControlRegisters : Prop :=
  ∀ o : COps,
    let n := o.imm.toNat % 2 ^ 12
    let rw : Word := if n = 4 then 0x3 else if n = 6 then 0x1FFFF else if n = 8 then 0x0000FFFF00000000 else if n = 9 then 0x1FFFF
      else if n = 0x11 then 0xFFFFFFFFFFFFFFFF else if n = 0x20 then 0x10000 else 0
    let w1c : Word := if n = 5 then 0x7F else if n = 8 then 0x8000000000000000 else if n = 0x10 then 0x00007F0000000000 else 0
    let fix (v : Word) : Word :=
      if n = 6 ∧ 65536 < v.toNat % 2 ^ 17 then v - BitVec.ofNat 64 (v.toNat % 2 ^ 17) + 65536
      else if n = 9 ∧ (v.toNat % 16 ≠ 0 ∨ v.toNat % 2 ^ 17 < 0x100 ∨ 0x1FF00 < v.toNat % 2 ^ 17) then
        v - BitVec.ofNat 64 (v.toNat % 2 ^ 17)
      else v
    let writes (i : Instr) (new : Word → Word → Word) (gives : Bool) : Prop :=
      ∀ s c, Ready s c i.form → ∃ t d, exec i s = .next t ∧ t.cx = some d
        ∧ (n ≠ 7 → n ≠ 10 → t.csrRead d n = fix (new (s.csrRead c n) (c.valA o.sa)))
        ∧ d.csrs.energy = (c.charge i.form.energy).csrs.energy
        ∧ (∀ k, k ≠ n → k ≠ 7 → k ≠ 10 → t.csrRead d k = s.csrRead c k)
        ∧ d = { c with regs := d.regs, csrs := d.csrs, mx := { c.mx with stat := d.mx.stat }, pc := c.nextPc i.form, lastPc := c.pc,
                       stall := none, chainStall := d.chainStall, retires := c.retires + 1, chkr := d.chkr, coverLost := d.coverLost,
                       handle := d.handle, flagHandle := d.flagHandle, pv := d.pv, order := d.order }
        ∧ d.order = { c.order with late := d.order.late } ∧ d.csrs.repst = c.nextRepst ∧ Quiet s t
        ∧ (if gives then ScalarRegs c.regs d.regs o.dst (s.csrRead c n) else d.regs = c.regs)
    Gives (.csrr o) (fun _ _ => True) (fun _ c => c) (some (o.dst, fun s c => s.csrRead c n))
    ∧ writes (.csrw o) (fun old a => ((old &&& ~~~rw) ||| (a &&& rw)) &&& ~~~(a &&& w1c)) false
    ∧ writes (.csrbS o) (fun old a => (old ||| (a &&& rw)) &&& ~~~(a &&& w1c)) true
    ∧ writes (.csrbC o) (fun old a => old &&& ~~~(a &&& rw)) true

/-- R354 to R356: TRAP and BRK enter their handler by `trap_entry`: TCAUSE, TPC, TVAL and TINFO are written, REPST.ACTIVE is cleared, and
the program counter is the handler's; TRET returns.  R355, R356, R362: where a trap cannot be entered or left: inside a trap handler, and without a handler, it is a context fault, and so
are a TRET and a YRET outside their handlers. -/
def Obligations.TrapsAndReturns : Prop :=
  (∀ (o : COps) (s : State) (c : Ctx),
    let enters (i : Instr) (code : Nat) (back : BitVec 32) (val : Word) : Prop :=
      Ready s c i.form → c.csrs.tcause.getLsbD 17 = false → c.csrs.tcause.getLsbD 18 = false → ∀ h, look c.code.traps code = some h →
        ∃ t d, exec i s = .next t ∧ t.cx = some d ∧ d.pc = BitVec.ofNat 32 h ∧ d.regs = c.regs
          ∧ field d.csrs.tcause.toNat 0 8 = code ∧ field d.csrs.tcause.toNat 8 8 = 0 ∧ d.csrs.tcause.getLsbD 16 = false
          ∧ d.csrs.tcause.getLsbD 17 = true
          ∧ d.csrs.tpc = back.setWidth 64 ∧ d.csrs.tval = val
          ∧ field d.csrs.tinfo.toNat 0 19 = field c.csrs.repst.toNat 0 19
          ∧ d.csrs.repst.getLsbD 18 = false ∧ field d.csrs.repst.toNat 0 18 = field c.csrs.repst.toNat 0 18
          ∧ d.csrs = { c.csrs with tcause := d.csrs.tcause, tpc := d.csrs.tpc, tval := d.csrs.tval, tinfo := d.csrs.tinfo,
                                   repst := d.csrs.repst, energy := d.csrs.energy }
          ∧ d.order = c.order ∧ d.mx = c.mx ∧ d.queues = c.queues ∧ d.phase = c.phase ∧ Quiet s t ∧ OthersKeep s t c none
    enters (.trap o) 3 (c.pc + 8) (o.imm.setWidth 64)
    ∧ enters (.brk o) 4 c.pc 0
    ∧ (Ready s c (Instr.tret o).form → c.csrs.tcause.getLsbD 17 = true →
        let skips : Bool := c.csrs.tcause.getLsbD 16 && (field c.csrs.tcause.toNat 0 8 == 2 || field c.csrs.tcause.toNat 0 8 == 4)
        let tpc := c.csrs.tpc.setWidth 32
        let len := lengthOfLen ((s.codeBits c tpc.toNat).extractLsb' 0 2)
        ∃ t d, exec (.tret o) s = .next t ∧ t.cx = some d ∧ d.regs = c.regs
          ∧ d.csrs.tcause.getLsbD 17 = false ∧ d.csrs.tcause.getLsbD 16 = false
          ∧ d.csrs.repst.getLsbD 18 = c.csrs.tinfo.getLsbD 18
          ∧ field d.csrs.repst.toNat 9 9 = field c.csrs.tinfo.toNat 9 9
          ∧ field d.csrs.repst.toNat 0 9
            = (field c.csrs.tinfo.toNat 0 9 + (if skips && c.csrs.tinfo.getLsbD 18 then 1 else 0)) % 2 ^ 9
          ∧ d.pc = (if skips && !c.csrs.tinfo.getLsbD 18 then tpc + BitVec.ofNat 32 len else tpc)
          ∧ d.csrs = { c.csrs with tcause := d.csrs.tcause, repst := d.csrs.repst, energy := (c.charge 5).csrs.energy }
          ∧ d.order = c.order ∧ d.mx = c.mx ∧ d.queues = c.queues ∧ Quiet s t ∧ OthersKeep s t c none))
  ∧ (∀ (o : COps) (s : State) (c : Ctx),
    let faults (sub : Nat) (val : Nat) : Result := .next (s.fatal c
      { code := 13, sub := sub, val := BitVec.ofNat 64 val, aux1 := 0, aux2 := 0, pc := c.pc, detail := 0 } true 0)
    (Ready s c (Instr.trap o).form → c.inTrap = true → exec (.trap o) s = faults 3 3)
    ∧ (Ready s c (Instr.brk o).form → c.inTrap = true → exec (.brk o) s = faults 3 4)
    ∧ (Ready s c (Instr.trap o).form → c.inTrap = false → c.inYield = false → c.handler 3 = none → exec (.trap o) s = faults 4 3)
    ∧ (Ready s c (Instr.brk o).form → c.inTrap = false → c.inYield = false → c.handler 4 = none → exec (.brk o) s = faults 4 4)
    ∧ (Ready s c (Instr.tret o).form → c.inTrap = false → exec (.tret o) s = faults 1 (field c.csrs.tcause.toNat 0 8))
    ∧ (Ready s c (Instr.yret o).form → c.inYield = false → exec (.yret o) s = faults 2 (field c.csrs.tcause.toNat 0 8)))

/-- R356, R365, R366: YRET saves the context where it was interrupted; YIELD starts a forced full save that goes on at the next
instruction. -/
def Obligations.Yields : Prop :=
  ∀ (o : COps) (s : State) (c : Ctx),
    (Ready s c (Instr.yret o).form → c.inYield = true → c.fault = none →
      ∃ t d, exec (.yret o) s = .next t ∧ t.hasSeat c.num = false ∧ d ∈ t.saved ∧ d.num = c.num ∧ d.phase = .yielded
        ∧ d.pc = c.ipc ∧ d.csrs.repst = c.irepst ∧ d.inYield = false ∧ d.regs = c.regs ∧ d.mx = c.mx ∧ d.stall = none)
    ∧ (Ready s c (Instr.yield o).form → c.inYield = false → c.chain = [] → c.order.awaits = [] → (∀ p ∈ s.seats, p.1 ≠ s.cur) →
      ∃ t d, exec (.yield o) s = .next t ∧ t.cx = some d ∧ d.phase = .saving ∧ d.forced = true
        ∧ d.pc = c.nextPc (Instr.yield o).form ∧ d.regs = c.regs ∧ d.mx = c.mx
        ∧ Owes [.forcedSaveComplete s.cur] s t ∧ OthersKeep s t c none)

/-- R348, R349: TIME.S gives the synchronised time, TIME.C the context's cycles; WAITT is released when the time is reached; an ECALL asks
the system image once, and gives the answer when it has come. -/
def Obligations.ClocksAndCalls : Prop :=
  ∀ o : COps,
    Gives (.timeS o) (fun _ _ => True) (fun _ c => c) (some (o.dst, fun s _ => BitVec.ofNat 64 s.time))
    ∧ Gives (.timeC o) (fun _ _ => True) (fun _ c => c) (some (o.dst, fun _ c => BitVec.ofNat 64 c.cycles))
    ∧ Gives (.waitt o) (fun s c => (c.valA o.sa).toNat ≤ s.time) (fun _ c => c) (some (o.dst, fun s _ => BitVec.ofNat 64 s.time))
    ∧ (∀ s c, Ready s c (Instr.waitt o).form → s.time < (c.valA o.sa).toNat → c.stall = none →
        exec (.waitt o) s = .next (s.stallOn (.time (s.time + 1000000))))
    ∧ (∀ v, Gives (.ecall o) (fun _ c => c.ecallAt c.pc = some (some v))
        (fun _ c => { c with ecalls := c.ecalls.filter fun x => x.1 != c.pc })
        (some (o.dst, fun s _ => if o.imm = 0x21 then BitVec.ofNat 64 s.cur.core else v)))
    ∧ (∀ s c, Ready s c (Instr.ecall o).form → c.ecallAt c.pc = none →
        ∃ t, exec (.ecall o) s = .next t ∧ t.cx = some { c with ecalls := c.ecalls ++ [(c.pc, none)], stall := some .ecall }
          ∧ Sends [.ecall c.part c.num o.imm.toNat [c.regs.getS 1, c.regs.getS 2, c.regs.getS 3, c.regs.getS 4]] s t
          ∧ OthersKeep s t c none)
    ∧ (∀ s c, Ready s c (Instr.ecall o).form → c.ecallAt c.pc = some none →
        exec (.ecall o) s = .next (s.stallOn .ecall))

/-! ## The matrix unit -/

/-- R299, R303, R310 to R312, R317: MXBEGIN, MXEND, MXZERO, MXLDW, MXSAVE and MXLOAD issue: what each queues, and what it makes of MXSTAT
and the weights in view.
The model's own choices that this rests on: log entries 13 and 46. -/
def Obligations.MatrixQueueing : Prop :=
  ∀ o : AOps,
    let la (c : Ctx) : Nat := (c.valA o.sa).toNat % 2 ^ 17
    let ldw (op : BitVec 9) (swz : Nat) (i : Instr) : Prop :=
      let h (s : State) (c : Ctx) : BitVec 128 := s.headerAt s.cur.core (la c)
      let sparse : Bool := swz == 2
      QueuesMx i
        (fun s c => placeFault (la c) 16 = none ∧ ldwTest swz (h s c) = none ∧ la c + 16 + weightBytes (h s c) sparse ≤ 0x20000)
        (fun s c => { c.mxCmd op (la c) with hdr := h s c, wla := la c, whdr := h s c, wsparse := sparse })
        (fun s c => { c.mx with stat := mxSet (mxSet c.mx.stat 31 1 1) 32 1 (if sparse then 1 else 0), wla := la c, whdr := h s c })
    QueuesMx (.mxbegin o) (fun _ c => mxChain c.mx.stat = false) (fun _ c => c.mxCmd 0x100 0)
      (fun _ c => { c.mx with stat := mxSet (mxSet (mxSet c.mx.stat 13 1 1) 14 1 o.ka.toNat) 15 2 c.rm.toNat })
    ∧ QueuesMx (.mxend o) (fun _ c => mxChain c.mx.stat = true) (fun _ c => c.mxCmd 0x101 0)
      (fun _ c => { c.mx with stat := mxSet c.mx.stat 13 4 0 })
    ∧ Gives (.mxend o) (fun s c => (s.core s.cur.core).mxOwner = some c.num ∧ mxChain c.mx.stat = false) (fun _ c => c) none
    ∧ QueuesMx (.mxzero o) (fun _ _ => True) (fun _ c => c.mxCmd 0x102 0)
      (fun _ c => { c.mx with stat := mxSet (mxSet c.mx.stat 11 2 0) 30 1 0 })
    ∧ ldw 0x103 0 (.mxldwD o) ∧ ldw 0x104 2 (.mxldwS o) ∧ ldw 0x105 3 (.mxldwT o)
    ∧ QueuesMx (.mxsave o) (fun _ c => placeFault (la c) 8208 = none)
      (fun _ c => { c.mxCmd 0x11F (la c) with hdr := (imageStat c.mx.stat).setWidth 128 }) (fun _ c => c.mx)
    ∧ (let w (s : State) (c : Ctx) : Word := BitVec.ofNat 64 (s.mem.readNat (padOff s.cur.core (la c + 8192)) 8)
       QueuesMx (.mxload o) (fun s c => placeFault (la c) 8208 = none ∧ mxAtype (w s c) ≠ 3)
        (fun _ c => c.mxCmd 0x120 (la c))
        (fun s c => { c.mx with stat := mxSet (mxSet c.mx.stat 11 2 (mxAtype (w s c))) 21 10 (field (w s c).toNat 21 10) }))

/-- R303, R305, R313: each MXMAC queues with its A header, sets ATYPE, and an integer form that is the first since MXZERO sets ASC. -/
def Obligations.MatrixMultiplies : Prop :=
  ∀ o : AOps,
    let la (c : Ctx) : Nat := (c.valA o.sa).toNat % 2 ^ 17
    let mac (i : Instr) (op : BitVec 9) (a : BitVec 4) (int : Bool) : Prop :=
      let h (s : State) (c : Ctx) : BitVec 128 := s.headerAt s.cur.core (la c)
      QueuesMx i
        (fun s c => placeFault (la c) 16 = none ∧ macTest (macForm op) c.mx (h s c) = none
          ∧ la c + 16 + hKlen (h s c) * hRows (h s c) * Flt.etWidth a / 8 ≤ 0x20000)
        (fun s c => { c.mxCmd op (la c) with hdr := h s c })
        (fun s c =>
          let typed := mxSet c.mx.stat 11 2 (if int then 2 else 1)
          let scale := wrap 9 ((hE8 (h s c) : Int) + hE8 c.mx.whdr - 254)
          let sets := int && !mxAscv c.mx.stat && hE8 (h s c) != 255 && hE8 c.mx.whdr != 255
          { c.mx with stat := if sets then mxSet (mxSet typed 21 9 scale) 30 1 1 else typed })
    mac (.mxmacT8 o) 0x106 11 false ∧ mac (.mxmacI8 o) 0x107 0 true ∧ mac (.mxmacO8 o) 0x108 12 true
    ∧ mac (.mxmacI8o8 o) 0x109 0 true ∧ mac (.mxmacO8i8 o) 0x10A 12 true ∧ mac (.mxmacO4 o) 0x10B 13 true
    ∧ mac (.mxmacO4o8 o) 0x10C 13 true ∧ mac (.mxmacO8o4 o) 0x10D 12 true ∧ mac (.mxmacF16 o) 0x10E 8 false
    ∧ mac (.mxmacBf16 o) 0x10F 9 false

/-- R314 to R316: MXRD reads a row of accumulators, scaled for MXRD.SC; MXWR and MXST queue with what they capture; MXWAIT with an empty
queue gives MXSTAT, and KA[0] clears its sticky bits. -/
def Obligations.MatrixRowsAndWaits : Prop :=
  ∀ o : AOps,
    let row (c : Ctx) : Nat := (c.valB o.sa o.sb).toNat % 64
    let acc (c : Ctx) (n : Nat) : Nat := accGet c.mx.acc (32 * row c + n)
    let owner (s : State) (c : Ctx) : Prop := (s.core s.cur.core).mxOwner = some c.num
    let reads (i : Instr) (pre : Ctx → Prop) (g : Ctx → Nat → Nat × BitVec 7) : Prop :=
      ∀ s c, Ready s c i.form → owner s c → c.mx.queue = [] → pre c → ∃ t d v, exec i s = .next t ∧ t.cx = some d
        ∧ VectorRegs c.regs d.regs o.dst v ∧ (∀ n < 32, lane 32 v n = (g c n).1 % 2 ^ 32)
        ∧ Advances c d i.form (orLanes 32 fun n => (g c n).2) (c.nextPc i.form) ∧ Quiet s t
        ∧ OthersKeep s t c (if o.dst = specNx then some v else none)
    let writes (i : Instr) (op : BitVec 9) (atype : Nat) : Prop :=
      QueuesMx i (fun _ c => mxAtype c.mx.stat = 0 ∨ mxAtype c.mx.stat = atype)
        (fun _ c => { c.mxCmd op 0 with row := row c, vec := c.srcV [] o.sa })
        (fun _ c => { c.mx with stat := mxSet c.mx.stat 11 2 atype })
    let stores (i : Instr) (op : BitVec 9) (w : Nat) (zp : Ctx → Nat) : Prop :=
      let la (c : Ctx) : Nat := (c.valA o.sa).toNat % 2 ^ 17
      QueuesMx i (fun _ c => mxAtype c.mx.stat ≠ 0 ∧ placeFault (la c) ((o.kb.toNat + 1) * 32 * w / 8) = none)
        (fun _ c => { c.mxCmd op (la c) with
          eo := (c.valB o.sa o.sb).toNat % 256, zp := zp c, row0 := o.ka.toNat, nrow := o.kb.toNat + 1 })
        (fun _ c => c.mx)
    let none' (_ : Ctx) : Nat := 0
    reads (.mxrdF o) (fun c => mxAtype c.mx.stat = 1) (fun c n => (acc c n, 0))
    ∧ reads (.mxrdI o) (fun c => mxAtype c.mx.stat = 2) (fun c n => (acc c n, 0))
    ∧ reads (.mxrdSc o) (fun c => mxAtype c.mx.stat = 1) (fun c n => (acc c n, 0))
    ∧ reads (.mxrdSc o) (fun c => mxAtype c.mx.stat = 2) (fun c n =>
        if mxAnan c.mx.stat then (Flt.f32.canon, 1)
        else Flt.encodeBin Flt.f32 c.mxRm ((Flt.ofInt (signed 32 (acc c n))).scale (mxAsc c.mx.stat)))
    ∧ writes (.mxwrF o) 0x113 1 ∧ writes (.mxwrI o) 0x114 2
    ∧ stores (.mxstF32 o) 0x115 32 none' ∧ stores (.mxstBf16 o) 0x116 16 none' ∧ stores (.mxstF16 o) 0x117 16 none'
    ∧ stores (.mxstT8 o) 0x118 8 none' ∧ stores (.mxstI32 o) 0x119 32 none' ∧ stores (.mxstI8 o) 0x11A 8 none'
    ∧ stores (.mxstO8 o) 0x11B 8 (fun c => (c.valC o.sa o.sb o.sc).toNat % 256)
    ∧ stores (.mxstO4 o) 0x11C 4 (fun c => (c.valC o.sa o.sb o.sc).toNat % 16)
    ∧ Gives (.mxwait o) (fun s c => owner s c ∧ c.mx.queue = [])
        (fun _ c => if o.ka = 1 then { c with mx := { c.mx with stat := mxSet c.mx.stat 40 7 0 } } else c)
        (some (o.dst, fun _ c => c.mxstat))

/-- R295, R318: the first matrix form of a context that does not own the unit claims it: the former owner's accumulators are in its save
area and the weight buffer is empty; MXCMD leaves its command at the core that its word names, and awaits the status in DST and y0. -/
def Obligations.MatrixClaimsAndCommands : Prop :=
  ∀ (o : AOps) (s : State) (c : Ctx),
    (Ready s c (Instr.mxend o).form → mxChain c.mx.stat = false → ∀ n d, n ≠ c.num → (s.core s.cur.core).mxOwner = some n →
      s.findAny n = some d → d.num < s.dcbField ctxcount 0 17 → (d.mx.acc.map (·.1)).Nodup → (∀ p ∈ d.mx.acc, p.1 < 2048) →
      ∃ t, exec (.mxend o) s = .next t ∧ (t.core s.cur.core).mxOwner = some c.num ∧ (t.core s.cur.core).weights = []
        ∧ (∀ i < 2048, t.mem.readNat (s.bufferOf d.num + 0x2800 + 4 * i) 4 = accGet d.mx.acc i % 2 ^ 32)
        ∧ (∀ a, (a < s.bufferOf d.num + 0x2800 ∨ s.bufferOf d.num + 0x4800 ≤ a) → t.mem.get a = s.mem.get a))
    ∧ (let arg := (c.valC o.sa o.sb o.sc).toNat
       let core := field arg 32 11
       let sent : MxArrival :=
         { ctx := c.num, num := c.order.lateNum, part := c.part, tenant := c.tenant, lslot := c.lslot, cap := c.valA o.sa,
           word := c.valB o.sa o.sb, arg := arg % 2 ^ 17 }
       Ready s c (Instr.mxcmd o).form → (s.core s.cur.core).mxOwner = some c.num → s.ownOut c = false → s.inMesh c.part core = true →
        ∃ t d, exec (.mxcmd o) s = .next t ∧ t.cx = some d ∧ d.regs = c.regs
          ∧ d.order.late.getLast? = some { num := c.order.lateNum, dst := o.dst, writes := o.dst != 0, y0 := true }
          ∧ d.pc = c.nextPc (Instr.mxcmd o).form ∧ OthersKeep s t c none
          ∧ (if 4 ≤ (s.core core).arrivals.length then Owes [.mxcmdReply c.num c.order.lateNum 5 0] s t
             else t.pend = s.pend ++ [.mxcmdArrival core] ∧ Quiet s { t with pend := s.pend, cores := s.cores }
              ∧ ∀ k, t.core k = if k = core then { s.core k with arrivals := (s.core k).arrivals ++ [sent] } else s.core k))

/-! ## Engines, messages and tasks -/

/-- R323, R326, R329, R330, R334: the seven copy and fill forms and the ten collective forms issue their commands.
The model's own choices that this rests on: log entries 53 and 54. -/
def Obligations.EngineCommands : Prop :=
  ∀ o : EOps,
    IssuesCommand (.copyG o) o 0x140 false ∧ IssuesCommand (.copyT o) o 0x141 false ∧ IssuesCommand (.copyC o) o 0x142 false
    ∧ IssuesCommand (.copyS o) o 0x143 false ∧ IssuesCommand (.copyx o) o 0x144 false ∧ IssuesCommand (.fillW o) o 0x145 false
    ∧ IssuesCommand (.fillD o) o 0x146 false
    ∧ IssuesCommand (.collSum o) o 0x147 true ∧ IssuesCommand (.collMax o) o 0x148 true ∧ IssuesCommand (.collAmax o) o 0x149 true
    ∧ IssuesCommand (.collMin o) o 0x14A true ∧ IssuesCommand (.cbcast o) o 0x14B true ∧ IssuesCommand (.cgath o) o 0x14C true
    ∧ IssuesCommand (.cscatSum o) o 0x14D true ∧ IssuesCommand (.cscatMax o) o 0x14E true
    ∧ IssuesCommand (.cscatAmax o) o 0x14F true ∧ IssuesCommand (.cscatMin o) o 0x150 true

/-- R325, R333: group bindings and queue weights: CGRP.A binds a slot, CGRP.F frees it, QSET sets a weight from 1 to 8, and QSTAT reads a
queue's weight, credit, commands and ABANDONED, which KE[1] clears. -/
def Obligations.BindingsAndWeights : Prop :=
  ∀ o : EOps,
    let slot := o.ke.toNat % 4
    let qi := 4 * (o.ke.toNat % 2) + o.vq.toNat
    let w (c : Ctx) : Word := c.srcS [] o.sa
    let bind (c : Ctx) : GBind := { word := w c, timeout := min 10000 (max 1 (c.srcS [o.sa] o.sb).toNat), seq := 0 }
    Gives (.cgrpA o)
      (fun _ c => field (w c).toNat 16 11 ≤ field (w c).toNat 27 11 ∧ field (w c).toNat 38 12 ≠ 0xFFF)
      (fun _ c => { c with gbinds := setAt c.gbinds slot (some (bind c)) }) none
    ∧ Gives (.cgrpF o) (fun _ _ => True) (fun _ c => { c with gbinds := setAt c.gbinds slot none }) none
    ∧ Gives (.qset o) (fun _ _ => True)
      (fun _ c => c.mapVq qi fun q => { q with weight := min 8 (max 1 ((w c).toNat % 16)) }) none
    ∧ Gives (.qstat o) (fun _ _ => True)
      (fun _ c => if o.ke.getLsbD 1 then c.mapVq qi fun q => { q with abandoned := false } else c)
      (some (o.dst, fun _ c =>
        let q := c.vq qi
        BitVec.ofNat 64 (q.weight % 16 + 2 ^ 4 * (q.credit % 32) + 2 ^ 9 * (q.cmds.length % 32)
          + 2 ^ 14 * (if q.abandoned then 1 else 0))))

/-- R338, R340, R342: MBSET sets up a mailbox or disables it; SEND puts a message into its network and its queue, and traps on a full
queue; RECV takes the slot at HEAD with a full mask, or with an empty ring clears its mask. -/
def Obligations.MessageForms : Prop :=
  ∀ o : EOps,
    let sends (i : Instr) (net : Bool) : Prop :=
      let w (c : Ctx) : Word := c.srcS [o.sa] o.sb
      let q (c : Ctx) : List Msg := (c.sendq[netAt net]?).getD []
      let m (s : State) (c : Ctx) : Msg :=
        { net := net, core := field (w c).toNat 0 11, word := w c, part := c.part, tenant := c.tenant, lslot := some c.lslot, cls := c.cls, dev := s.devNum,
          ctx := c.num, pc := c.pc, born := c.retires, seq := s.fresh, data := (c.srcV [] o.sa).setWidth 512 }
      let valid (c : Ctx) : Prop :=
        field (w c).toNat 11 1 = 0 ∧ field (w c).toNat 24 40 = 0 ∧ field (w c).toNat 0 11 < Config.cores
      let joined (s : State) (c : Ctx) : List (List Msg) := setAt c.sendq (netAt net) (q c ++ [m s c])
      Gives i (fun s c => valid c ∧ (q c).length < 8 ∧ s.ownOut c = false ∧ s.wordDev (w c) = s.devNum)
        (fun s c => { c with sendq := joined s c }) none
        (fun s c t => Quiet s { t with pend := s.pend, fabric := s.fabric }
          ∧ t.fabric = { s.fabric with msgs := s.fabric.msgs ++ [m s c] }
          ∧ t.pend = s.pend ++ [.messageLand net (field (w c).toNat 0 11)])
      ∧ ∀ s c, Ready s c i.form → valid c → 8 ≤ (q c).length →
        exec i s = .next (s.trapEntry 2 (if net then 1 else 0))
    let sets (i : Instr) (net : Bool) : Prop :=
      let a (c : Ctx) : Word := c.srcS [] o.sa
      let b (c : Ctx) : Nat := (c.srcS [o.sa] o.sb).toNat
      let n := o.ke.toNat % 16
      let becomes (m : State → Ctx → Mailbox) (s : State) (c : Ctx) (t : State) : Prop :=
        Quiet s { t with pend := s.pend, cores := s.cores } ∧ t.pend = s.pend ++ [.messageLand net s.cur.core]
        ∧ (t.core s.cur.core).mailbox net = m s c ∧ (t.core s.cur.core).mailbox (!net) = (s.core s.cur.core).mailbox (!net)
        ∧ ∀ k, k ≠ s.cur.core → t.core k = s.core k
      Gives i (fun _ c => a c = 0) (fun _ c => c) none
        (becomes fun _ c => { base := 0, lsl := 0, head := 0, tail := 0, record := 0, ctr := 0, part := c.part, owner := none })
      ∧ Gives i
        (fun _ c => a c ≠ 0 ∧ field (a c).toNat 0 17 % 64 = 0 ∧ n ≤ 10 ∧ c.covers (field (a c).toNat 0 17) (64 * 2 ^ n) = true)
        (fun _ c => c) none
        (becomes fun _ c => { base := field (a c).toNat 0 17, lsl := n, head := 0, tail := 0, record := field (b c) 0 32,
                              ctr := field (b c) 32 2, part := c.part, owner := some c.num })
    let receives (i : Instr) (net : Bool) : Prop :=
      ∀ s c, Ready s c i.form →
        let m := s.mailboxOf c s.cur.core net
        ((m.base = 0 ∨ m.count = 0) → ∃ t d, exec i s = .next t ∧ t.cx = some d ∧ MaskRegs c.regs d.regs o.sc 0
          ∧ Advances c d i.form 0 (c.nextPc i.form) ∧ Quiet s t ∧ OthersKeep s t c none)
        ∧ (m.base ≠ 0 → m.count ≠ 0 → ∀ held,
          let offs := (List.range 64).map fun j => padOff s.cur.core (m.base + 64 * (m.head % 2 ^ m.lsl) + j)
          PlainReady s c (s.raceLines c.tenant offs) → s.heldSeat c.tenant offs = .inl held →
          let v : Vec := BitVec.ofNat 1024 (valOf (s.plainBytes c offs held))
          ∃ t d, exec i s = .next t ∧ t.cx = some d ∧ d.regs.y1 = v ∧ d.regs.y0 = c.regs.y0 ∧ d.regs.s = c.regs.s
            ∧ (∀ n < 32, d.regs.getV n = if o.dst.toNat = 0x40 + n then v else c.regs.getV n)
            ∧ (∀ n < 8, d.regs.getO n = if o.dst.toNat = 0x60 + n then v else c.regs.getO n)
            ∧ (∀ n < 8, d.regs.getM n = if o.sc.toNat = n ∧ n ≠ 0 then BitVec.allOnes 128 else c.regs.getM n)
            ∧ (t.core s.cur.core).mailbox net = { m with head := (m.head + 1) % 65536 }
            ∧ Passes c d i.form 0 (c.nextPc i.form) ∧ WritesOnly s { t with pend := s.pend } []
            ∧ t.pend = s.pend ++ [.messageLand net s.cur.core])
    sends (.sendRq o) false ∧ sends (.sendRp o) true ∧ sets (.mbsetRq o) false ∧ sets (.mbsetRp o) true
    ∧ receives (.recvRq o) false ∧ receives (.recvRp o) true

/-- R144, R146, R162, R343 to R346: DECT owes its record's counter a decrement; LAUNCH gives the status of its placing; CHWIN and CHSTAT
read a bound port, and give a free value for an unbound one; TASKRD reads a record.
The model's own choice that this rests on: log entry 12. -/
def Obligations.TaskForms : Prop :=
  (∀ (o : MOps) (t : Tgt) (r : Nat × Nat) (g : Word),
    Gives (.dect o)
      (fun s c => c.addr o 0 = .ga g ∧ s.testAddr (.ga g) 2 = .inr t ∧ t.dev = s.devNum ∧ s.counterAt c.part t.off = some r
        ∧ SyncReady s c o.ord true [] ∧ s.lost s.devNum = false)
      (fun s c => c.newRegion.withOrder fun q => { q with outs := q.outs ++
        [{ dev := s.devNum, strm := 65, seq := dectSeq c.part r.1 r.2 ((c.srcS [o.sa] o.sb).toNat % 2 ^ 16), batch := 4, bundled := false,
           kind := .dect, sync := true, acq := decide (o.ord = 1 ∨ o.ord = 3), bytes := [], hdls := [], pc := c.pc, born := c.retires,
           sent := s.time }] }) none
      (fun s c u => RegionEnds (decide (o.ord = 1 ∨ o.ord = 3)) s c { u with pend := s.pend }
        ∧ u.pend = s.pend ++ [.dectApply c.part r.1 r.2 ((c.srcS [o.sa] o.sb).toNat % 2 ^ 16)]))
  ∧ ∀ o : EOps,
    let idx (c : Ctx) : Nat := (c.srcS [] o.sa).toNat % 2 ^ 32
    let p := o.ke.toNat % 8
    let quota (s : State) (c : Ctx) : Prop := s.lquota c.part ≤ (s.sched.launches.filter fun l => l.part == c.part).length
    let unbound (c : Ctx) : Prop := c.ports[p]? = none ∨ ∃ r, c.ports[p]? = some (0, r)
    Gives (.launch o) (fun s c => s.inPool c.part (idx c) = true ∧ s.launchBad c.part (idx c) (s.recBits c.part (idx c)) = true
        ∧ s.ownOut c = false)
      (fun _ c => c) (some (o.dst, fun _ _ => 2))
    ∧ Gives (.launch o)
      (fun s c => s.inPool c.part (idx c) = true ∧ s.launchBad c.part (idx c) (s.recBits c.part (idx c)) = false
        ∧ (quota s c ∨ s.freeLaunch = none) ∧ s.ownOut c = false)
      (fun _ c => c) (some (o.dst, fun _ _ => 1))
    ∧ (∀ k, Gives (.launch o)
      (fun s c => s.inPool c.part (idx c) = true ∧ s.launchBad c.part (idx c) (s.recBits c.part (idx c)) = false
        ∧ ¬ quota s c ∧ s.freeLaunch = some k ∧ s.ownOut c = false)
      (fun _ c => c) (some (o.dst, fun _ _ => BitVec.ofNat 64 (2 ^ 16 * k)))
      (fun s c t => t.pend = s.pend ++ [.launchScan k] ∧ Quiet s { t with pend := s.pend, sched := s.sched }
        ∧ ∃ l, t.sched = { s.sched with launches := s.sched.launches ++ [l] } ∧ l.slot = k ∧ l.part = c.part ∧ l.scanned = false
          ∧ l.record.toNat = s.recBits c.part (idx c) ∧ l.remaining = field (s.recBits c.part (idx c)) 32 21))
    ∧ (∀ ga r, ga ≠ 0 → Gives (.chwin o) (fun _ c => c.ports[p]? = some (ga, r)) (fun _ c => c)
      (some (o.dst, fun s c =>
        let off := gaOff ga.toNat
        let pos := if p < c.nin then s.chanRd off else s.chanWr off
        BitVec.ofNat 64 (s.chan off 0 64 + pos % s.chanItems off * s.chanItemSize off))))
    ∧ Gives (.chwin o) (fun _ c => unbound c) (fun _ c => c) (some (o.dst, fun s _ => Config.freeValue s.fresh))
    ∧ (∀ ga r, ga ≠ 0 → Gives (.chstat o) (fun _ c => c.ports[p]? = some (ga, r)) (fun _ c => c)
      (some (o.dst, fun s _ =>
        let off := gaOff ga.toNat
        BitVec.ofNat 64 ((s.chanWr off - s.chanRd off) % 2 ^ 32 + 2 ^ 32 * s.chanItems off))))
    ∧ Gives (.chstat o) (fun _ c => unbound c) (fun _ c => c) (some (o.dst, fun s _ => Config.freeValue s.fresh))
    ∧ Gives (.taskrd o) (fun s c => s.inPool c.part (idx c) = true) (fun _ c => c)
      (some (o.dst, fun s c => BitVec.ofNat 64 (s.recGet c.part (idx c) (if o.ke.getLsbD 0 then 0 else 64) 64)))

/-! ## Encoding, reset and the step -/

/-- R169, R172 to R178, R191: words that the spec writes out with their assembly, one of each format. -/
def Obligations.DecodedWords : Prop :=
  -- ADD s3, s4, s5 and ADD s3, s4, 1000
  decodeTableWord 64 0x0000_0000_2820_1801
      = some (.add { dst := 3, sa := 4, sb := 5, pred := 0, sc := 0, et := 0, ka := 0, kb := 0, pn := false })
  ∧ decodeTableWord 96 0x0000_03E8_0000_0000_0020_1806
      = some (.addImm { dst := 3, sa := 4, pred := 0, sc := 0, et := 0, ka := 0, kb := 0, pn := false, imm := 1000 })
  -- ST.W s4, [s2+16] strm=3 ord=rel and ST.W s1, [s10+0] flag=s12
  ∧ decodeTableWord 64 0x0080_20C0_0010_2125
      = some (.stW { len := 1, dst := 4, sa := 2, sb := 0, pred := 0, strm := 3, scope := 0, ord := 2, batch := 0, bnd := false,
                     grp := false, off := 16, flag := 0, fl := false, offhi := 0, disp := 0 })
  ∧ decodeTableWord 96 0x0000_010C_0000_0000_0050_0926
      = some (.stW { len := 2, dst := 1, sa := 10, sb := 0, pred := 0, strm := 0, scope := 0, ord := 0, batch := 0, bnd := false,
                     grp := false, off := 0, flag := 12, fl := true, offhi := 0, disp := 0 })
  -- LOOP s5, s5, top at 4 × −3
  ∧ decodeTableWord 64 0x3FFF_FF40_0028_28E5
      = some (.loop { dst := 5, sa := 5, sb := 0, pred := 0, off := 0xFFFFFD, pn := false })
  -- FENCE s7, 0x2
  ∧ decodeTableWord 64 0x0000_0080_0000_39C5
      = some (.fence { dst := 7, sa := 0, sb := 0, pred := 0, imm := 2, pn := false })
  -- REP 4 sd=1 sa=1 sb=1
  ∧ decodeTableWord 64 0x0000_0000_0888_18F1
      = some (.rep { count := 3, sd := 1, ssa := 1, ssb := 1, ssc := 0, soff := 0 })
  -- COPY.G s5, s6 et=t8 ke=4
  ∧ decodeTableWord 64 0x0042_C000_0030_2D01
      = some (.copyG { dst := 5, sa := 6, sb := 0, pred := 0, sc := 0, et := 11, vq := 0, ke := 4, pn := false })
  -- VFMA.F v4, v8, v12, v16 et=f32
  ∧ decodeTableWord 64 0x0002_9402_6242_22E9
      = some (.vfmaF { dst := 0x44, sa := 0x48, sb := 0x4C, pred := 0, sc := 0x50, et := 10, ka := 0, kb := 0, pn := false })
  -- an unassigned OP value
  ∧ decodeBits 0x0000_0000_0000_00F9 = .bad 3

/-- R169 to R178, R186, R191: decoding the words of a well-formed instruction gives it back, with every field at every value that its form
accepts; the bits past its length play no part. -/
def Obligations.RoundTrip : Prop :=
  ∀ i : Instr, i.encoded = true → i.wellFormed = true →
    decode (encodeBits i) = some i
    ∧ (∀ w : BitVec 128, w.toNat % 2 ^ (8 * i.form.size) = (encodeBits i).toNat % 2 ^ (8 * i.form.size) → decode w = some i)
    ∧ ∀ rest, decodeBytes (encodeToBytes i ++ rest) = .ok i.form

/-- R169, R187, R246: a step of a seat fetches at its program counter and runs the instruction that the bytes decode to, as `exec` gives
it; a context that was to leave goes on to leave, and in confidential mode the written blocks are sealed.
The model's own choice that this rests on: log entry 2. -/
def Obligations.StepRunsDecoded : Prop :=
  (∀ (s : State) (c : Ctx) (i : Instr) (rest : List Agenda),
    (s.agenda = .seat s.cur :: rest ∨ s.agenda = [] ∧ s.pend = [] ∧ rest = []) → s.control.drained = false → s.cx = some c →
    c.phase = .running → c.fault = none → c.coverLost = false → c.repActive = false →
    let w := s.codeBits c c.pc.toNat
    c.pc.toNat % 4 = 0 → c.pc.toNat + lengthOfLen (w.extractLsb' 0 2) ≤ c.code.len → i.form ≠ .event →
    decodeAt c.pc.toNat w = .ok i.form →
    ∃ t : State, exec i { s with agenda := rest } = .next t
      ∧ let u : State := match t.cx with
          | some d => if d.phase = Phase.leaving ∧ d.finishing = false then t.owe (.copyQuiesceDone s.cur) else t
          | none => t
        step s = .next (u.sealAfter s))
  ∧ ∀ s t : State, (s.confidential = false ∨ t.confidential = false) → t.sealAfter s = t

/-- R13, R18, R111, R142, R143, R155, R180 to R184, R189, R381, R391: the machine right after reset: no context on any seat, memory scrubbed
to zero and in its canonical form, the control block at its reset values, nothing owed; and what a new context holds.
The model's own choices that this rests on: log entries 9, 10 and 11. -/
def Obligations.ResetState : Prop :=
  State.reset.running = [] ∧ State.reset.saved = [] ∧ State.reset.ended = [] ∧ Memory.wf State.reset.mem = true
  ∧ (∀ a, State.reset.mem.get a = 0) ∧ (∀ off, State.reset.dcbGet off = dcbReset off)
  ∧ (∀ k, State.reset.core k = Core.fresh) ∧ State.reset.sched.live = [] ∧ State.reset.slices.versions = []
  ∧ State.reset.pend = [] ∧ State.reset.fabric.msgs = [] ∧ State.reset.control.drained = false
  ∧ ∀ n id, (∀ k < 64, (Ctx.fresh n id).regs.getS k = 0) ∧ (∀ k < 32, (Ctx.fresh n id).regs.getV k = 0)
    ∧ (∀ k < 8, (Ctx.fresh n id).regs.getO k = 0)
    ∧ (∀ k < 8, (Ctx.fresh n id).regs.getM k = if k = 0 then BitVec.allOnes 128 else 0)
    ∧ (Ctx.fresh n id).chainLen = 1 ∧ (Ctx.fresh n id).csrs.ybudget = 8192
    ∧ ∀ k < 8, ((Ctx.fresh n id).vq k).weight = 1

/-- The memory keeps its canonical form over every step, whatever the step is: an instruction, a step of another part, the passing of
time, a fault or a reset.
The model's own choice that this rests on: log entry 10. -/
def Obligations.MemoryForm : Prop :=
  ∀ s t : State, Memory.wf s.mem = true → step s = .next t → Memory.wf t.mem = true

/-! ## What every instruction meets first -/

/-- R97, R152, R171, R184, R185: an instruction that its context does not decode is the decode fault of the lowest item that it breaks, and
changes nothing else; one whose predicate is false retires without effect; one that reads a register still owed, an empty pv or writes a
full nx waits.
The model's own choice that this rests on: log entry 51. -/
def Obligations.IssueTests : Prop :=
  ∀ (i : Instr) (s : State) (c : Ctx), i.encoded = true → s.cx = some c →
    (∀ k, c.decodeItem i.form = some k → exec i s = .next (s.fatal c
      { code := 8, sub := k, val := i.form.bits.setWidth 64, aux1 := 0, aux2 := 0, pc := c.pc, detail := 0 } true 0))
    ∧ (c.decodeItem i.form = none → c.predFalse i.form = true →
      ∃ t d, exec i s = .next t ∧ t.cx = some d ∧ d.pc = c.nextPc i.form ∧ d.regs = c.regs ∧ d.order = c.order ∧ d.pv = c.pv
        ∧ d.mx = c.mx ∧ d.queues = c.queues
        ∧ d.csrs = { c.csrs with energy := (c.charge i.form.energy).csrs.energy, repst := c.nextRepst }
        ∧ Quiet s t ∧ OthersKeep s t c none)
    ∧ (c.decodeItem i.form = none → c.predFalse i.form = false →
      ((∃ sp ∈ c.order.owed, i.form.uses sp = true) → exec i s = .next (s.stallOn .owed))
      ∧ ((∀ sp ∈ c.order.owed, i.form.uses sp = false) → c.pv.length < i.form.pvCount →
          exec i s = .next (s.stallChain false i.form.pvCount))
      ∧ ((∀ sp ∈ c.order.owed, i.form.uses sp = false) → i.form.pvCount ≤ c.pv.length → i.form.nxCount ≠ 0 →
          s.nxFull c = true → exec i s = .next (s.stallChain true i.form.pvCount)))

/-- R8, R11, R41, R253, R254: an access of `w` bytes at an address that is no place, or is not aligned, is the precise access fault that names
the address; nothing of it is performed.  The window of a core that is out of service is a hole.
The model's own choice that this rests on: log entry 40. -/
def Obligations.AccessFaults : Prop :=
  (∀ o : MOps,
    let judged (i : Instr) (addr : Ctx → Addr) (w : Nat) : Prop :=
      ∀ s c, Ready s c i.form →
        let fault (sub : Nat) : Result := .next (s.fatal c
          { code := 9, sub := sub, val := (addr c).word, aux1 := w, aux2 := 0, pc := c.pc, detail := 0 } true 0)
        (∀ x, addr c = .la x → (x < 0 ∨ 0x20000 < x + w) → exec i s = fault 10)
        ∧ (∀ g, addr c = .ga g → field g.toNat 57 7 ≠ 0 → exec i s = fault 3)
        ∧ (∀ sub, s.testAddr (addr c) w = .inl sub → exec i s = fault sub)
        ∧ (∀ t, s.testAddr (addr c) w = .inr t → t.off % w ≠ 0 → exec i s = fault 4)
    let all (is : List (Instr × Nat)) (addr : Ctx → Addr) : Prop := ∀ p ∈ is, judged p.1 addr p.2
    all [(.ldB o, 1), (.ldH o, 2), (.ldW o, 4), (.ldD o, 8), (.ldBs o, 1), (.ldHs o, 2), (.ldWs o, 4), (.stB o, 1), (.stH o, 2),
         (.stW o, 4), (.stD o, 8)] (fun c => c.addrIx o)
    ∧ all [(.aaddW o, 4), (.aaddD o, 8), (.aandW o, 4), (.aandD o, 8), (.aorW o, 4), (.aorD o, 8), (.axorW o, 4), (.axorD o, 8),
           (.aminsW o, 4), (.aminsD o, 8), (.aminuW o, 4), (.aminuD o, 8), (.amaxsW o, 4), (.amaxsD o, 8), (.amaxuW o, 4),
           (.amaxuD o, 8), (.axchgW o, 4), (.axchgD o, 8), (.acasW o, 4), (.acasD o, 8), (.afaddW o, 4), (.raddW o, 4),
           (.raddD o, 8), (.rfaddW o, 4), (.rmaxsW o, 4), (.rmaxsD o, 8), (.rmaxuW o, 4), (.rmaxuD o, 8)] (fun c => c.addr o 0))
  ∧ ∀ (s : State) (core off : Nat), core < Config.cores → s.inService core = false → windowOf core ≤ off →
      off < windowOf core + Config.padSize → s.place s.devNum off = .hole

/-- R358 to R362: a fatal fault ends the context, makes its record FAULTED, and writes its report into the ring of its partition, whose TAIL
rises; a full ring, or none, counts a drop. -/
def Obligations.FaultReports : Prop :=
  ∀ (s : State) (c : Ctx) (f : Machine.Flt) (precise : Bool) (skid : Nat),
    s.cx = some c → c.chain = [] → c.order.bundle = none → c.part < 64 → c.lateFaults precise = [] →
    let base := s.dcbField (fltring c.part 0) 0 45
    let size := 2 ^ s.dcbField (fltring c.part 0) 45 5
    let head := s.dcbField (fltring c.part 1) 0 16
    let tail := s.dcbField (fltring c.part 1) 16 16
    let full : Prop := base = 0 ∨ (tail + 65536 - head) % 65536 = size
    let t := s.fatal c f precise skid
    t.findCtx c.num = none
    ∧ (s.recLive c.part c.record = true → (s.settle c).recState c.part c.record = 8 ∧ t.recLive c.part c.record = false)
    ∧ (full → t.mem = (s.settle c).mem
        ∧ t.dcbField (fltring c.part 1) 32 16 = min 0xFFFF (s.dcbField (fltring c.part 1) 32 16 + 1))
    ∧ (¬ full → base + 64 * size ≤ s.hbmEnd → t.dcbField (fltring c.part 1) 16 16 = (tail + 1) % 65536
        ∧ let w := t.mem.readNat (base + 64 * (tail % size)) 64
          field w 0 8 = f.code % 2 ^ 8 ∧ field w 8 8 = f.sub % 2 ^ 8 ∧ bit w 16 = precise ∧ bit w 17 = false
          ∧ field w 18 6 = skid % 2 ^ 6 ∧ field w 24 12 = c.tenant ∧ field w 36 11 = c.seatAt.core % 2 ^ 11
          ∧ field w 47 2 = c.seatAt.seat % 2 ^ 2 ∧ field w 49 12 = c.lslot % 2 ^ 12 ∧ field w 64 32 = c.num % 2 ^ 32
          ∧ field w 96 32 = c.record % 2 ^ 32 ∧ field w 128 32 = c.pc.toNat ∧ field w 160 16 = c.code.image % 2 ^ 16
          ∧ field w 176 12 = c.code.igen % 2 ^ 12 ∧ field w 192 64 = f.val.toNat ∧ field w 256 32 = f.aux1 % 2 ^ 32
          ∧ field w 288 32 = f.aux2 % 2 ^ 32 ∧ field w 320 32 = c.code.tver % 2 ^ 32
          ∧ field w 352 32 = f.pc.toNat ∧ field w 384 32 = f.detail % 2 ^ 32)

/-! ## Other devices -/

/-- R14, R32, R64, R65, R88 to R90, R96, R258, R259: a plain load of another device sends its request once, waits, and completes with the
bytes of the reply; a plain store whose stream has a window is sent with its sequence number, and completes.
The model's own choices that this rests on: log entries 5, 48, 80 and 89. -/
def Obligations.RemoteAccesses : Prop :=
  ∀ o : MOps,
    let loads (i : Instr) (w : Nat) (extend : Nat → Word) : Prop :=
      ∀ s c t, Ready s c i.form → o.grp = false → o.ord = 0 → s.acquiring c = [] → s.reaches (c.addrIx o) w w t → t.dev ≠ s.devNum →
        let line := t.off / 64 * 64
        let cacheable : Bool := s.isHbm { dev := t.dev, off := line } && !c.order.storedAway (2 ^ 45 * t.dev + line)
        s.cachedLine s.cur.core t.dev line = none → c.order.lines.length < Config.regionLines →
        (c.await = none → s.lost t.dev = false →
          s.unperformed (c.order.outs.filter fun x => x.touches t.dev (t.bytes w)) = [] →
          ∃ u d, exec i s = .next u ∧ u.cx = some d ∧ d.stall = some .reply ∧ d.pc = c.pc ∧ d.regs = c.regs
            ∧ d.order = { c.order with awaits := c.order.awaits ++ 
                [{ pc := c.pc, dev := t.dev, group := false, key := (2 ^ 45 * t.dev + t.off) % 2 ^ 45, reply := none, kept := [],
                   hdl := c.handle, gas := [raceGa t.dev line], since := s.time }] }
            ∧ Sends [.packet { src := s.devNum, dst := t.dev, time := s.time, hop := 0, tenant := c.tenant, lslot := some c.lslot, cls := c.cls,
                               tagOk := true, keyGen := s.worldGen c.tenant,
                               body := .load (s.party c) c.handle [(t.off, w)] false c.openBundle }] s { u with cores := s.cores }
            ∧ (∀ k, u.core k = if k = s.cur.core ∧ cacheable = true then
                { s.core k with arriving := (s.core k).arriving ++ [{ ctx := c.num, dev := t.dev, line := line }] } else s.core k)
            ∧ OthersKeep s u c none)
        ∧ (∀ a bytes got fl at', c.await = some a → a.kept = [] → a.reply = some (.data bytes fl [] at') →
          (bytes.length = w ∧ got = bytes ∨ bytes.length = 64 ∧ got = (bytes.drop (t.off % 64)).take w) →
          ∃ u d, exec i s = .next u ∧ u.cx = some d ∧ ScalarRegs c.regs d.regs o.dst (extend (valOf got))
            ∧ Passes { c with order := { c.order with awaits := c.order.awaits.filter fun x => x.pc != c.pc } } d i.form 0
                (c.nextPc i.form)
            ∧ WritesOnly s u [])
    let stores (i : Instr) (w : Nat) : Prop :=
      ∀ s c t q, Ready s c i.form → o.bnd = false → o.fl = false → o.ord = 0 → s.acquiring c = [] →
        s.reaches (c.addrIx o) w w t → t.dev ≠ s.devNum → launchArea t.off = false → s.lost t.dev = false →
        s.unperformed (c.order.outs.filter fun x => x.touches t.dev (t.bytes w)
          && !(x.kind == .store && x.strm == o.strm.toNat && o.strm.toNat != 0)) = [] →
        c.order.stream o.strm.toNat t.dev = some q → q.window = true →
        (c.order.outs.filter fun x => x.kind == .store && x.strm == o.strm.toNat && x.dev == t.dev).length < Config.unackedMax →
        ∃ u d st, exec i s = .next u ∧ u.cx = some d ∧ d.regs = c.regs ∧ d.pc = c.nextPc i.form
          ∧ u.sent = .packet { src := s.devNum, dst := t.dev, time := s.time, hop := 0, tenant := c.tenant, lslot := some c.lslot, cls := c.cls,
                               tagOk := true, keyGen := s.worldGen c.tenant, body := .store st } :: s.sent
          ∧ st.seq = q.next ∧ st.off = t.off ∧ st.src = { dev := s.devNum, ctx := c.num, strm := o.strm.toNat }
          ∧ st.bytes = (t.bytes w).zip (bytesOf w (c.srcS [o.sa, o.sb] o.dst).toNat)
          ∧ (∃ q', d.order.stream o.strm.toNat t.dev = some q' ∧ q'.next = (q.next + 1) % 65536)
          ∧ (∃ x ∈ d.order.outs, x.dev = t.dev ∧ x.seq = q.next ∧ x.kind = .store ∧ x.strm = o.strm.toNat)
          ∧ t.dev ∈ (d.order.touched[o.batch.toNat]?).getD [t.dev]
          ∧ WritesOnly s u []
    let zero (n : Nat) : Word := BitVec.ofNat 64 n
    let sign (w n : Nat) : Word := BitVec.ofInt 64 ((n : Int).bmod (2 ^ (8 * w)))
    loads (.ldB o) 1 zero ∧ loads (.ldH o) 2 zero ∧ loads (.ldW o) 4 zero ∧ loads (.ldD o) 8 zero
    ∧ loads (.ldBs o) 1 (sign 1) ∧ loads (.ldHs o) 2 (sign 2) ∧ loads (.ldWs o) 4 (sign 4)
    ∧ stores (.stB o) 1 ∧ stores (.stH o) 2 ∧ stores (.stW o) 4 ∧ stores (.stD o) 8

/-! ## Steps of the device -/

/-- R2, R33, R34, R36, R56, R80, R81, R139, R389, R392: requests of the runtime ports at the home slices and windows; an atomic at a
cluster unit is the one of the home slice; owner entries are cached, dropped by an update, and in confidential mode the granule of a
changed entry reads as zeros; host DMA reaches only marked host buffers.
The model's own choices that this rests on: log entries 35 and 83. -/
def Obligations.MemorySteps : Prop :=
  ServesPorts .homeSliceRequest (fun s off => off < s.hbmEnd)
  ∧ ServesPorts .windowRequest (fun _ off => (bankCore off).isSome = true)
  ∧ (∀ s r k held w b ret, PortMay s r k held → r.op = .atomic .add w b ret → r.off + w ≤ s.hbmEnd → 0 < w →
      let old := valOf (s.readBytes none held)
      ∃ t, exec (.clusterUnitAtomic 1 r) s = .next t ∧ exec (.homeSliceRequest r) s = .next t
        ∧ valOf (t.readBytes none held) = (old + b.toNat) % 2 ^ (8 * w) ∧ WritesOnly s t held ∧ ContextsKeep s t
        ∧ t.sent = .portReply k (BitVec.ofNat 64 old) [] :: s.sent)
  ∧ (∀ s slice granule, slice < 128 → granule < 262144 → ∃ t, exec (.ownerEntryFetchReturn slice granule) s = .next t
      ∧ (∃ o ∈ t.slices.owners, o.slice = slice ∧ o.granule = granule ∧ o.entry.toNat = s.ownerAt slice granule)
      ∧ t.ownerAt slice granule = s.ownerAt slice granule
      ∧ (∀ o, o.slice ≠ slice → (o ∈ t.slices.owners ↔ o ∈ s.slices.owners))
      ∧ t = { s with slices := { s.slices with owners := t.slices.owners } })
  ∧ (∀ s g, bit (s.dcbGet omupcmd).toNat 63 = true → ∃ t, exec (.ownerMapUpdate g) s = .next t
      ∧ (∀ o, o ∈ t.slices.owners ↔ o ∈ s.slices.owners ∧ o.granule ≠ g)
      ∧ t = { s with slices := { s.slices with owners := t.slices.owners }, pend := s.pend ++ [.ownerMapUpdateComplete] })
  ∧ (∀ s, bit (s.dcbGet omupcmd).toNat 63 = true → ∃ t, exec .ownerMapUpdateComplete s = .next t
      ∧ (let g := s.dcbField omupcmd 0 18
        let e := s.ownerWord g % 2 ^ 14
        let zeroed := s.confidential = true ∧ e ≠ (look s.control.owned g).getD 0
        (∀ a, t.mem.get a = if zeroed ∧ a / 0x200000 = g then 0 else s.mem.get a)
        ∧ (∀ x, x ∈ t.control.seals ↔ x ∈ s.control.seals ∧ (zeroed → x.1 / 4096 ≠ g))
        ∧ look t.control.owned g = some e)
      ∧ bit (t.dcbGet omupcmd).toNat 63 = false ∧ (∀ lo len, lo + len ≤ 63 → t.dcbField omupcmd lo len = s.dcbField omupcmd lo len)
      ∧ (∀ off, off ≠ omupcmd → t.dcbGet off = s.dcbGet off)
      ∧ ContextsKeep s t ∧ t.slices = s.slices ∧ t.sched = s.sched ∧ t.fabric = s.fabric ∧ t.pend = s.pend ∧ t.sent = s.sent)
  ∧ ∀ (s : State) (off : Nat),
    (let marked (n : Nat) : Prop := s.deaf = false ∧ off + n ≤ s.hbmEnd ∧ ∀ o, off ≤ o → o < off + n →
        s.control.hostBuffers.contains (o / 0x200000) = true
          ∧ field (s.ownerAt (homeSlice (0x200000 * (o / 0x200000))) (o / 0x200000)) 12 2 = 3;
      (∀ n, marked n → exec (.hostDma { off := off, write := none, len := n }) s
        = .next (s.send (.hostData (s.readBytes none ((List.range n).map (off + ·))))))
      ∧ (∀ n bytes, marked bytes.length → s.touchesRecord ((List.range bytes.length).map (off + ·)) = false →
        ∃ t, exec (.hostDma { off := off, write := some bytes, len := n }) s = .next t
          ∧ t.mem.read off bytes.length = bytes ∧ WritesOnly s t ((List.range bytes.length).map (off + ·)) ∧ ContextsKeep s t)
      ∧ ∀ (n : Nat) (w : Option (List Byte)), ¬ marked ((w.map List.length).getD n) → exec (.hostDma { off := off, write := w, len := n }) s = .next s)

/-- R13, R21 to R23, R26, R27, R30, R54: a write to the control block takes the RW bits under its mask, and a BUSY bit starts its
operation; a region update invalidates the descriptor at the cores that hold or fetch it, and completes when R23's conditions hold; a
descriptor that returns is cached unless an invalidation overtook it; what a runtime port does.
The model's own choices that this rests on: log entries 35 and 65. -/
def Obligations.RegionSteps : Prop :=
  (∀ (s : State) (off : Nat) (mask val : Word), dcbPlaced off = true → hasBusy off = false → controlW1c off = [] →
      (∀ v, controlClamp off v = v) → off ≠ slicectl → off ≠ pwrctl → off ≠ modectl →
      ∃ t, exec (.controlBlockWrite off mask val) s = .next t
        ∧ (∀ i < 64, bit (t.dcbGet off).toNat i
            = if bit (controlRw off) i && bit mask.toNat i then bit val.toNat i else bit (s.dcbGet off).toNat i)
        ∧ RegistersOnly s t [off] ∧ t.control = s.control ∧ t.pend = s.pend)
  ∧ (∀ (s : State) (off : Nat) (mask val : Word), dcbPlaced off = false ∨ hasBusy off = true ∧ bit (s.dcbGet off).toNat 63 = true →
      exec (.controlBlockWrite off mask val) s = .next s)
  ∧ (∀ (s : State) (idx : Nat), idx < 2 ^ 20 → bit (s.dcbGet rupcmd).toNat 63 = false →
      ∃ t, exec (.controlBlockWrite rupcmd (BitVec.allOnes 64) (BitVec.ofNat 64 (2 ^ 63 + idx))) s = .next t
        ∧ t.dcbField rupcmd 0 20 = idx ∧ bit (t.dcbGet rupcmd).toNat 63 = true ∧ t.pend = s.pend ++ [.regionUpdate idx]
        ∧ RegistersOnly s t [rupcmd])
  ∧ (∀ (s : State) (idx : Nat), bit (s.dcbGet rupcmd).toNat 63 = true → s.dcbField rupcmd 0 20 = idx → s.allCmds = [] →
      (∀ p ∈ s.running, p.2.binding idx = none) →
      (∀ r ∈ s.sched.live, s.recState r.1 r.2 ≠ 6 ∧ (s.recState r.1 r.2 = 2 → ∀ h ∈ s.recBinds r.1 r.2, h = 0 ∨ hIndex h ≠ idx)) →
      exec (.regionUpdate idx) s = .next { s with
        pend := s.pend ++ (s.holdersOf idx).map (fun k => .regionInvalidation k idx (dGen (s.descAt idx))) ++ [.regionUpdateComplete],
        cores := if dState (s.descAt idx) = 2 ∨ dState (s.descAt idx) = 3 then s.cores.map fun p => (p.1, { p.2 with lines := [], arriving := [] })
          else s.cores })
  ∧ (∀ (s : State) (idx p i : Nat), bit (s.dcbGet rupcmd).toNat 63 = true → s.dcbField rupcmd 0 20 = idx → s.allCmds = [] →
      (∀ x ∈ s.running, x.2.binding idx = none) → s.sched.live = [(p, i)] → s.recState p i = 2 → dState (s.descAt idx) = 2 →
      (∃ h ∈ s.recBinds p i, h ≠ 0 ∧ hIndex h = idx) → Apart (s.dcbField rtbase 0 45 + 32 * idx) 32 (s.recAddr p i) 64 →
      ∃ t, exec (.regionUpdate idx) s = .next t ∧ t.recState p i = 6 ∧ t.recLive p i = true ∧ t.queued p i = false ∧ OnlyRecord s t p i
        ∧ .regionUpdateComplete ∈ t.pend ∧ ContextsKeep s t)
  ∧ (∀ (s : State) (core idx gen : Nat), ∃ t, exec (.regionInvalidation core idx gen) s = .next t
      ∧ (∀ x, x ∈ (t.core core).rcache ↔ x ∈ (s.core core).rcache ∧ x.1 ≠ idx)
      ∧ (∀ f ∈ (t.core core).fetches, f.index = idx → ∃ g, f.inval = some g ∧ gen ≤ g)
      ∧ (∀ f, f.index ≠ idx → (f ∈ (t.core core).fetches ↔ f ∈ (s.core core).fetches))
      ∧ (∀ n, n ≠ core → t.core n = s.core n)
      ∧ ((∀ p ∈ s.running, p.1.core = core → p.2.coverOn idx = false ∨ p.2.finishing = true) → t = { s with cores := t.cores })
      ∧ ∀ id c, s.running = [(id, c)] → id.core = core → c.coverOn idx = true → c.finishing = false →
        t.running = [(id, { c with coverLost := true, handle := 0, flagHandle := 0 })])
  ∧ (∀ s : State, bit (s.dcbGet rupcmd).toNat 63 = true → (∀ p ∈ s.running, p.2.binding (s.dcbField rupcmd 0 20) = none) →
      (s.updateDone (s.dcbField rupcmd 0 20) = true → ∃ t, exec .regionUpdateComplete s = .next t
        ∧ bit (t.dcbGet rupcmd).toNat 63 = false ∧ RegistersOnly s t [rupcmd] ∧ t.control = s.control ∧ t.pend = s.pend)
      ∧ (s.updateDone (s.dcbField rupcmd 0 20) = false →
        exec .regionUpdateComplete s = .next { s with pend := s.pend ++ [.regionUpdateComplete] }))
  ∧ (∀ (s : State) (core : Nat) (k : Core) (f : Fetch), s.cores = [(core, k)] → k.fetches = [f] → fetchFailed f = false →
      let late := match f.inval with
        | some g => dGen f.desc < g
        | none => False
      (¬ late → ∃ t, exec (.descriptorFetchReturn f.ctx) s = .next t ∧ (t.core core).fetches = []
        ∧ (t.core core).rcache.head? = some (f.index, f.desc) ∧ (t.core core).rcache.length ≤ Config.regionCacheSize
        ∧ t = { s with cores := t.cores })
      ∧ (late → f.tries < 3 → ∃ t, exec (.descriptorFetchReturn f.ctx) s = .next t
        ∧ (t.core core).fetches = [{ f with desc := s.descAt f.index, inval := none, tries := f.tries + 1 }]
        ∧ (t.core core).rcache = k.rcache ∧ t = { s with cores := t.cores, pend := s.pend ++ [.descriptorFetchReturn f.ctx] }))
  ∧ ∀ (s : State) (k : Nat), k < 16 →
    (∀ r, s.portWaits k r = true → exec (.runtimePortAccess k r) s = .next { s with pend := s.pend ++ [.runtimePortAccess k r] })
    ∧ (∀ ga len t, s.portWaits k (.load ga len) = false → s.testAddr (.ga ga) len = .inr t → t.dev = s.devNum → t.off < s.hbmEnd →
      exec (.runtimePortAccess k (.load ga len)) s = .next { s with pend := s.pend ++
        [.homeSliceRequest { origin := .port k, tenant := 0, off := t.off, len := len, op := .load }] })
    ∧ (∀ ga len sub, s.portWaits k (.load ga len) = false → s.testAddr (.ga ga) len = .inl sub →
      exec (.runtimePortAccess k (.load ga len)) s = .next (s.send (.portReply k 0 [])))
    ∧ (∀ bits regs vec f, decodeBits bits = .ok f → (∀ x, look s.control.ports k = some x → x = .form bits regs vec) →
      exec (.runtimePortAccess k (.form bits regs vec)) s
        = .next (if portForm f then s.portRun k (.form bits regs vec) f regs vec else s.send (.portReply k 0 [])))
    ∧ (∀ ctx val c, s.findCtx ctx = some c → ∃ t, exec (.runtimePortAccess k (.mxcap ctx val)) s = .next t
      ∧ ContextBecomes s t ctx { c with csrs := { c.csrs with mxcap := val } })
    ∧ (∀ g on, ∃ t, exec (.runtimePortAccess k (.hostBuffer g on)) s = .next t
      ∧ (∀ x, t.control.hostBuffers.contains x = if x = g then on else s.control.hostBuffers.contains x)
      ∧ t = { s with control := { s.control with hostBuffers := t.control.hostBuffers } })

/-- R14, R32, R34, R64, R67, R73, R88 to R98, R182, R253, R393, R403, R404: streams perform in sequence and hold back what is early; windows
are asked for, granted and given back; closes are answered and completed; packets are opened, forwarded or discarded; acknowledgements,
replies, retries and split requests.
Of two ports that are valid and up, the one that a packet in transit takes is a free value.
The model's own choices that this rests on: log entries 5, 26, 27, 81, 82, 84, 92, 93 and 94. -/
def Obligations.FabricSteps : Prop :=
  (∀ s st held, s.deaf = false → st.bundle = none → st.flag = none → st.batch ≠ 5 → s.fabric.closes = [] →
      s.heldWrite st.tenant (st.bytes.map (·.1)) = .inl held → (∀ x ∈ held, inControl x = false) → held.Nodup →
      s.touchesRecord held = false →
      (unordered st.src.strm = true → ∃ t, exec (.streamStoreArrival st) s = .next t ∧ Performed s t st held ∧ t.fabric = s.fabric)
      ∧ (unordered st.src.strm = false → (s.windowOfSrc st.src).held = [] → st.seq = (s.windowOfSrc st.src).next →
        ∃ t, exec (.streamStoreArrival st) s = .next t ∧ Performed s t st held
          ∧ (t.windowOfSrc st.src).next = (st.seq + 1) % 65536 ∧ (t.windowOfSrc st.src).held = []
          ∧ ∀ src, src ≠ st.src → t.windowOfSrc src = s.windowOfSrc src))
  ∧ (∀ s st, s.deaf = false → unordered st.src.strm = false →
      let w := s.windowOfSrc st.src
      let ahead := (st.seq + 65536 - w.next) % 65536
      (st.seq ≠ w.next → ahead < 64 → (∀ x ∈ w.held, x.seq ≠ st.seq) →
        ∃ t, exec (.streamStoreArrival st) s = .next t ∧ t.windowOfSrc st.src = { w with held := w.held ++ [st] }
          ∧ (∀ src, src ≠ st.src → t.windowOfSrc src = s.windowOfSrc src)
          ∧ t = { s with fabric := { s.fabric with windows := t.fabric.windows } })
      ∧ (64 ≤ ahead → s.fabric.closes = [] → exec (.streamStoreArrival st) s = .next s))
  ∧ (∀ s ctx strm dev c w, s.deaf = false → s.lost dev = false → s.findCtx ctx = some c → c.num = ctx →
      c.order.stream strm dev = some w → w.window = false →
      (w.asked = true → c.stall = some .full → s.hasSeat ctx = true → ∃ t, exec (.reorderWindowGrant ctx strm dev) s = .next t
        ∧ ContextBecomes s t ctx { c with order := c.order.setStream { w with window := true } })
      ∧ (w.asked = false ∨ c.stall ≠ some .full ∨ s.hasSeat ctx = false → s.ended = [] →
        ∃ t, exec (.reorderWindowGrant ctx strm dev) s = .next t
        ∧ ContextBecomes s { t with sent := s.sent } ctx { c with order := c.order.setStream { w with window := false, asked := false } }
        ∧ t.sent = .packet { src := s.devNum, dst := w.dev, time := s.time, hop := 0, tenant := c.tenant, lslot := some c.lslot, cls := c.cls,
                             tagOk := true, keyGen := s.worldGen c.tenant, body := .windowBack ctx w.strm } :: s.sent))
  ∧ (∀ s p ctx strm next, Opens s p → p.body = .windowAsk ctx strm next →
      let src : StreamSrc := { dev := p.src, ctx := ctx, strm := strm }
      (s.windowOfSrc src).grants = 0 → s.fabric.asks = [] →
      (s.windowsUsed < 1024 → ∃ t, exec (.fabricRequestArrival p) s = .next t
        ∧ t.windowOfSrc src = { s.windowOfSrc src with next := next, held := [], grants := 1 }
        ∧ t.sent = s.sealFor 0 (.windowGrant src) :: s.sent ∧ (∀ x, x ≠ src → t.windowOfSrc x = s.windowOfSrc x)
        ∧ t = { s with fabric := { s.fabric with windows := t.fabric.windows, moved := s.fabric.moved.filter fun m => m.1 != src },
                       sent := t.sent })
      ∧ (1024 ≤ s.windowsUsed →
        exec (.fabricRequestArrival p) s = .next { s with fabric := { s.fabric with asks := [(src, next)] } }))
  ∧ (∀ s dev ctx tag, s.deaf = false →
      (s.batchWaits dev ctx tag = true → exec (.batchCloseArrival dev ctx tag) s
        = .next { s with fabric := { s.fabric with closes := s.fabric.closes ++ [(dev, ctx, tag)] } })
      ∧ (s.batchWaits dev ctx tag = false → ∀ b, s.fabric.batches = [b] → b.dev = dev → b.ctx = ctx → b.tag = tag →
        exec (.batchCloseArrival dev ctx tag) s = .next { s with
          fabric := { s.fabric with batches := [] }, sent := s.sealFor 0 (.closeReply dev ctx tag b.refused b.reasons) :: s.sent }))
  ∧ (∀ s ctx c k dev refused reasons, s.deaf = false → s.findCtx ctx = some c → c.num = ctx → c.order.closes = [k] → dev ∈ k.waiting →
      let k1 : Close := { k with
        waiting := k.waiting.filter (· != dev), refused := k.refused + refused, reasons := k.reasons ||| reasons,
        errpeers := k.errpeers + (if refused = 0 then 0 else 1) }
      (k1.waiting ≠ [] → ∃ t, exec (.batchCloseReply ctx k.tag dev refused reasons) s = .next t
        ∧ ContextBecomes s t ctx { c with order := { c.order with closes := [k1] } })
      ∧ (k1.waiting = [] → k.lost = [] → (∀ d ∈ s.saved, d.num ≠ ctx) → ∀ r, c.order.late.find? (fun r => r.num == k.num) = some r →
        let d := ({ c with order := { c.order with closes := [] } } : Ctx).takesLate r k1.status
        (r.writes = false ∨ r.dst ≠ specNx → ∃ t, exec (.batchCloseReply ctx k.tag dev refused reasons) s = .next t
          ∧ ContextBecomes s t ctx d)
        ∧ ∀ m e, r.writes = true → r.dst = specNx → c.nextMember = some m → m ≠ ctx → s.findCtx m = some e →
          ∃ t, exec (.batchCloseReply ctx k.tag dev refused reasons) s = .next t ∧ t.findCtx ctx = some d
            ∧ t.findCtx m = some { e with pv := e.pv ++ [k1.status.setWidth 1024] } ∧ Quiet s t))
  ∧ (∀ s p, (s.deaf = false → p.dst ≠ s.devNum → exec (.fabricRequestArrival p) s = .next { s with pend := s.pend ++ [.fabricForward p] })
      ∧ (s.deaf = false → p.dst = s.devNum → s.confidential = true → (p.tagOk = false ∨ s.opensGen p.tenant p.keyGen = false) →
        ∃ t, exec (.fabricRequestArrival p) s = .next t ∧ RegistersOnly s t [intstat] ∧ t.pend = s.pend ∧ t.sent = s.sent
          ∧ t.dcbField intstat 32 16 = min 0xFFFF (s.dcbField intstat 32 16 + 1) ∧ t.dcbField intstat 0 32 = s.dcbField intstat 0 32)
      ∧ (Opens s p →
        (∀ ctx tag, p.body = .close ctx tag →
          exec (.fabricRequestArrival p) s = .next { s with pend := s.pend ++ [.batchCloseArrival p.src ctx tag] })
        ∧ (∀ ctx h off all, p.body = .note ctx h off all →
          (s.checkWord p.tenant h off = none → ∃ u, exec (.noteWake off all) s = .next u ∧ exec (.fabricRequestArrival p) s
            = .next { u with sent := u.sealFor p.tenant (.ack { dev := p.src, ctx := ctx, strm := 26 } off none) :: u.sent })
          ∧ ∀ r, s.checkWord p.tenant h off = some r → exec (.fabricRequestArrival p) s
            = .next { s with sent := s.sealFor p.tenant (.ack { dev := p.src, ctx := ctx, strm := 26 } off (some r)) :: s.sent })
        ∧ (∀ r, p.body = .response r → exec (.fabricRequestArrival p) s = .next { s with pend := s.pend ++ [r.step p.src] })
        ∧ (∀ st, p.body = .store st → s.checkStore { st with tenant := p.tenant } = none →
          exec (.fabricRequestArrival p) s = .next { s with
            fabric := { s.fabric with moved := s.fabric.moved.filter fun m => !(m.1 == st.src && m.2.1 == st.seq) },
            pend := s.pend ++ [.streamStoreArrival { st with tenant := p.tenant }] })
        ∧ (∀ st r, p.body = .store st → s.checkStore { st with tenant := p.tenant } = some r → st.batch ≠ 5 →
          ∃ t, exec (.fabricRequestArrival p) s = .next t ∧ t.sent = s.sealFor p.tenant (.ack st.src st.seq (some r)) :: s.sent
            ∧ t.pend = s.pend ++ (if r = 3 then [] else [.streamStoreArrival
                { st with tenant := p.tenant, bytes := [], flag := none, batch := 5, bundle := none }])
            ∧ (r = 3 → (st.src, st.seq, st.batch) ∈ t.fabric.moved)
            ∧ (∀ a, t.mem.get a = s.mem.get a) ∧ ContextsKeep s t)
        ∧ (∀ ctx, p.body = .regionEnd ctx →
          exec (.fabricRequestArrival p) s = .next (s.clearParties fun q => q.dev == p.src && q.ctx == ctx))))
  ∧ (∀ s p, s.deaf = false → p.dst ≠ s.devNum → p.dst < 2048 →
      (3 < s.dcbField (routeReg p.dst) 12 3 + p.hop → ∃ t, exec (.fabricForward p) s = .next t ∧ RegistersOnly s t [devstat]
        ∧ t.dcbField devstat 17 16 = min 0xFFFF (s.dcbField devstat 17 16 + 1) ∧ t.sent = s.sent ∧ t.pend = s.pend)
      ∧ (s.dcbField (routeReg p.dst) 12 3 + p.hop ≤ 3 →
        (∀ port, s.routePorts p.dst = [port] →
          (s.letsPass port p.cls = true → exec (.fabricForward p) s = .next { s with pend := s.pend ++ [.fabricForward p] })
          ∧ (s.letsPass port p.cls = false → ∃ t, exec (.fabricForward p) s = .next t
            ∧ t.sent = .forwarded port { p with hop := p.hop + 1 } :: s.sent
            ∧ (look t.fabric.zeros port).getD 0
              = (if p.cls = 0 ∧ s.inTransit [port] false = true then (look s.fabric.zeros port).getD 0 + 1 else 0)
            ∧ t = { s with fabric := { s.fabric with zeros := t.fabric.zeros }, sent := t.sent }))
        ∧ ∀ a b, s.routePorts p.dst = [a, b] → s.letsPass a p.cls = false → s.letsPass b p.cls = false →
          ∃ t, exec (.fabricForward p) s = .next t ∧ t.sent = .forwarded
            (if (Config.freeValue s.fresh).toNat % 2 = 1 then b else a) { p with hop := p.hop + 1 } :: s.sent))
  ∧ (∀ s ctx c strm dev seq p st, s.deaf = false → s.lost dev = false → strm < 16 → s.findCtx ctx = some c → c.num = ctx → s.ended = [] →
      s.sentStore ctx strm dev seq = some (p, st) → (∀ x ∈ s.allCtx, ∀ b, x.order.bundle = some b → b.stage ≠ .issued) →
      let e := c.performed strm dev seq
      let more : Prop := ∃ x ∈ e.order.outs, x.kind = .store ∧ x.strm = strm ∧ x.dev = dev
      ∃ t, exec (.storeAck ctx strm dev seq none) s = .next t ∧ (∀ r ∈ t.fabric.retries, samePacket r.packet p = false)
        ∧ (∀ k, t.core k = { s.core k with lines := (t.core k).lines, arriving := (t.core k).arriving })
        ∧ (∀ l ∈ (t.core c.seatAt.core).lines, l.dev = dev → ∀ b ∈ st.bytes, l.line ≠ b.1 / 64 * 64)
        ∧ (more → ContextBecomes s { t with fabric := s.fabric, cores := s.cores } ctx e)
        ∧ ∀ w, ¬ more → e.order.stream strm dev = some w → w.window = true →
          ContextBecomes s { t with fabric := s.fabric, cores := s.cores, sent := s.sent } ctx
            { e with order := e.order.setStream { w with window := false, asked := false } }
          ∧ t.sent = .packet { src := s.devNum, dst := dev, time := s.time, hop := 0, tenant := c.tenant, lslot := some c.lslot, cls := c.cls,
                               tagOk := true, keyGen := s.worldGen c.tenant, body := .windowBack ctx strm } :: s.sent)
  ∧ (∀ s ctx c dev r p, s.deaf = false → s.lost dev = false → s.findCtx ctx = some c → c.num = ctx → c.fault = none →
      (∀ w ∈ c.order.awaits, w.pc ≠ BitVec.allOnes 32) → s.sentLoad ctx dev none = some p → (r = .refused 3 → s.mayRetry p = false) →
      ∃ t, exec (.loadReply ctx dev none r) s = .next t
        ∧ ContextBecomes s { t with fabric := s.fabric } ctx { c with order := { c.order with awaits := answerAwait dev none r c.order.awaits } })
  ∧ (∀ s k r, s.fabric.retries[k]? = some r →
      (s.time < r.packet.time + 1000 * s.dcbField linkctl 0 14 → exec (.remoteMovingRetry k) s
        = .next ((if r.packet.body.silent = true then s.dropRetry r.packet else s).send (.packet r.packet)))
      ∧ ∀ st, r.packet.time + 1000 * s.dcbField linkctl 0 14 ≤ s.time → r.packet.body = .store st → st.src.strm < 16 →
        ∃ t, exec (.remoteMovingRetry k) s = .next t ∧ .packet { r.packet with body := .abandon st } ∈ t.sent
          ∧ ∀ x ∈ t.fabric.retries, samePacket x.packet r.packet = false)
  ∧ ∀ s ctx c, s.deaf = false → s.findCtx ctx = some c → c.num = ctx →
    (c.finishing = true ∨ s.hitsOut c ≠ [] → exec (.splitRequest ctx) s = .next { s with pend := s.pend ++ [.splitRequest ctx] })
    ∧ (c.finishing = false → Settled s c → s.farRecords c = [] → ∃ t, exec (.splitRequest ctx) s = .next t
      ∧ t.slices = (s.clearRaces ctx).slices ∧ ContextBecomes s { t with slices := s.slices } ctx c.newRegion)
    ∧ ∀ x, c.finishing = false → s.hitsOut c = [] → c.order.conflict = some x → exec (.splitRequest ctx) s = .next (s.fatal c
      { code := 12, sub := 0, val := BitVec.ofNat 64 x.line,
        aux1 := ofBool x.mine + 2 * ofBool x.other + 4 * min 255 c.order.more + 2 ^ 10 * x.party.dev,
        aux2 := x.party.seat.core + 2 ^ 11 * x.party.seat.seat, pc := c.pc, detail := x.party.ctx } true 0)

/-- R106, R110 to R114, R117, R118, R121 to R123: what each message of the bundle protocol does at a companion, at the decider and at
the issuer.
The model's own choices that this rests on: log entries 67, 68 and 90. -/
def Obligations.BundleSteps : Prop :=
  (∀ s p line, s.deaf = false → identDev p.ident ≠ s.devNum → p.bytes ≠ [] → line % 64 = 0 → line + 64 ≤ s.hbmEnd →
      (∀ b ∈ p.bytes, line ≤ b.1 ∧ b.1 < line + 64) → ownerAccepts (s.ownerAt (homeSlice line) (line / 0x200000)) p.tenant = true →
      s.liveAt line = none → s.version line = none → s.tarnUsed (homeSlice line) < 4096 →
      ∃ t v, exec (.bundlePrepare p) s = .next t ∧ t.version line = some v
        ∧ v.pending = some (mergeLine line (s.mem.read line 64) p.bytes) ∧ v.ident = p.ident ∧ v.stamp = s.horizon (homeSlice line)
        ∧ v.prior = none ∧ v.ptime = max s.time (max (s.floor (homeSlice line) + 1) ((s.horizon (homeSlice line)).t + 1))
        ∧ (∀ l, l ≠ line → t.version l = s.version l) ∧ WritesOnly s t [] ∧ ContextsKeep s t
        ∧ t.sent = s.sealFor p.tenant (.prepareAck (identDev p.ident) p.ctx p.ident (homeSlice line) none) :: s.sent)
  ∧ (∀ s p line v old, s.deaf = false → identDev p.ident ≠ s.devNum → p.bytes ≠ [] → line % 64 = 0 → line + 64 ≤ s.hbmEnd →
      (∀ b ∈ p.bytes, line ≤ b.1 ∧ b.1 < line + 64) → ownerAccepts (s.ownerAt (homeSlice line) (line / 0x200000)) p.tenant = true →
      s.liveAt line = none → s.version line = some v → v.pending = some old → v.ident ≠ p.ident →
      ∃ t, exec (.bundlePrepare p) s = .next t ∧ (∀ l, t.version l = s.version l) ∧ WritesOnly s t [] ∧ ContextsKeep s t
        ∧ t.sent = s.sealFor p.tenant (.prepareAck (identDev p.ident) p.ctx p.ident (homeSlice line) (some 1)) :: s.sent)
  ∧ (∀ s ctx c b comp reason, s.deaf = false → s.findCtx ctx = some c → c.order.bundle = some b → b.doomed = none →
      (∀ ident, ident ≠ b.ident → exec (.prepareAck ctx ident comp (some reason)) s = .next s)
      ∧ ∃ t, exec (.prepareAck ctx b.ident comp (some reason)) s = .next t
        ∧ ContextBecomes s t ctx (c.withOrder fun o => { o with bundle := some { b with doomed := some (reason, some comp) } }))
  ∧ (∀ s slice ident comps, s.deaf = false → identDev ident ≠ s.devNum → ∃ t, exec (.bundleFinal slice ident comps) s = .next t
      ∧ t.sent = s.sealFor 0 (.finalReply (identDev ident) ident slice (match s.slices.dooms.find? fun d => d.1 == slice && d.2.1 == ident with
        | some d => .no d.2.2
        | none => .ok ((s.pendingLines slice ident).foldl (fun m p => max m p.2.ptime) (s.floor slice)))) :: s.sent
      ∧ (∀ l v, t.version l = some v → v.pending.isSome = true → homeSlice l = slice → v.ident = ident → v.comps = comps ∧ v.finalSeen = true)
      ∧ t = { s with slices := { s.slices with versions := t.slices.versions }, sent := t.sent })
  ∧ (∀ s ctx c b dev slice, s.deaf = false → s.findCtx ctx = some c → c.order.bundle = some b → b.stage = .final →
      let comp : Comp := { dev := dev, slice := slice }
      comp ∈ b.waiting → ∀ m,
      (b.waiting.filter (· != comp) ≠ [] → ∃ t, exec (.finalReply ctx dev slice (.ok m)) s = .next t
        ∧ ContextBecomes s t ctx (c.withOrder fun o =>
            { o with bundle := some { b with waiting := b.waiting.filter (· != comp), mmax := max b.mmax m } }))
      ∧ (b.waiting.filter (· != comp) = [] → ∃ t, exec (.finalReply ctx dev slice (.ok m)) s = .next t
        ∧ t.pend = s.pend ++ [.bundleDecide b.ident (max b.mmax m)]
        ∧ ContextBecomes s { t with pend := s.pend } ctx (c.withOrder fun o =>
            { o with bundle := some { b with waiting := [], mmax := max b.mmax m, stage := .deciding } })))
  ∧ (∀ s ident m c b r, s.deaf = false → s.bundleCtx ident = some c → c.order.bundle = some b → b.ident = ident → b.stage = .deciding →
      s.findAny c.num = some c → s.slices.records.find? (fun r => r.ident == ident) = some r →
      let stamp : Stamp := { t := max s.time (max (m + 1) (r.qfloor + 1)), d := s.devNum }
      ∃ t d, exec (.bundleDecide ident m) s = .next t ∧ m < stamp.t ∧ r.qfloor < stamp.t ∧ s.time ≤ stamp.t
        ∧ t.slices.records.find? (fun r => r.ident == ident) = some { r with state := .committed stamp, waiting := b.comps, since := s.time }
        ∧ t.findAny c.num = some d ∧ d.order.bundle = some { b with stage := .committing, stamp := some stamp, waiting := b.comps, since := s.time }
        ∧ (∀ x ∈ b.comps, x.dev = s.devNum → .bundleCommit x.slice ident stamp ∈ t.pend)
        ∧ (∀ x ∈ b.comps, x.dev ≠ s.devNum → s.sealFor 0 (.commit x ident stamp) ∈ t.sent) ∧ t.mem = s.mem ∧ t.dcb = s.dcb)
  ∧ (∀ s line v bs ident stamp, s.deaf = false → s.version line = some v → v.pending = some bs → bs.length = 64 → line % 64 = 0 →
      v.ident = ident → v.dev ≠ s.devNum → identDev ident ≠ s.devNum → s.pendingLines (homeSlice line) ident = [(line, v)] → s.slices.serving = [] →
      (∃ t, exec (.bundleCommit (homeSlice line) ident stamp) s = .next t
        ∧ t.mem.read line 64 = bs ∧ (∀ a, (a < line ∨ line + 64 ≤ a) → t.mem.get a = s.mem.get a)
        ∧ t.version line = some { v with pending := none, prior := some (s.mem.read line 64, v.stamp), stamp := stamp }
        ∧ t.knownFate (homeSlice line) ident = some (.committed stamp)
        ∧ t.sent = s.sealFor 0 (.outcomeAck (identDev ident) ident (homeSlice line)) :: s.sent ∧ ContextsKeep s t ∧ t.pend = s.pend)
      ∧ ∃ t, exec (.bundleAbort (homeSlice line) ident) s = .next t ∧ t.mem = s.mem
        ∧ t.version line = (if v.prior.isSome then some { v with pending := none } else none)
        ∧ t.knownFate (homeSlice line) ident = some .aborted
        ∧ t.sent = s.sealFor 0 (.outcomeAck (identDev ident) ident (homeSlice line)) :: s.sent ∧ ContextsKeep s t ∧ t.pend = s.pend)
  ∧ (∀ s ident c b stamp dev slice, s.deaf = false → s.bundleCtx ident = some c → c.order.bundle = some b → s.findCtx c.num = some c →
      s.ended = [] → b.stage = .committing → b.stamp = some stamp → b.latelost = false → b.lost = [] →
      b.waiting = [{ dev := dev, slice := slice }] → ∃ t d, exec (.commitAck ident dev slice) s = .next t
        ∧ t.findCtx c.num = some d ∧ (∃ b', d.order.bundle = some b' ∧ b'.stage = .settled
          ∧ b'.outcome = some (BitVec.ofNat 64 (2 ^ 32 * (stamp.t % 2 ^ 32))))
        ∧ (∀ r ∈ t.slices.records, r.ident = ident → ({ dev := dev, slice := slice } : Comp) ∉ r.waiting) ∧ t.mem = s.mem ∧ t.pend = s.pend)
  ∧ (∀ s ident q slice asker f, s.deaf = false → asker.dev ≠ s.devNum →
      (s.knownFate slice ident = some f →
        exec (.fateQuestion ident q slice asker) s
          = .next { s with sent := s.sealFor 0 (.fate asker ident q { dev := s.devNum, slice := slice } f) :: s.sent })
      ∧ (s.knownFate slice ident = none → identDev ident = s.devNum → ∀ r,
        s.slices.records.find? (fun r => r.ident == ident) = some r → r.state = .undecided →
        ∃ t, exec (.fateQuestion ident q slice asker) s = .next t 
          ∧ t.sent = s.sealFor 0 (.fate asker ident q { dev := s.devNum, slice := slice } .undecided) :: s.sent
          ∧ t.slices.records.find? (fun r => r.ident == ident) = some { r with qfloor := max r.qfloor q }
          ∧ t = { s with slices := { s.slices with records := t.slices.records }, sent := t.sent })
      ∧ (s.knownFate slice ident = none → identDev ident ≠ s.devNum → s.lost (identDev ident) = false →
        exec (.fateQuestion ident q slice asker) s = .next { s with
          sent := s.sealFor 0 (.question { dev := identDev ident, slice := identDecider ident } ident q asker) :: s.sent }))
  ∧ (∀ s slice ident q replier, s.deaf = false → s.slices.serving = [] → s.slices.orphans = [] →
      (∀ stamp, s.pendingLines slice ident = [] → ∃ t, exec (.fateReply slice ident { t := q, replier := replier, fate := .committed stamp }) s = .next t
        ∧ t.knownFate slice ident = some (.committed stamp) ∧ (∀ x ∈ t.slices.questions, ¬ (x.slice = slice ∧ x.ident = ident))
        ∧ t.mem = s.mem ∧ ContextsKeep s t)
      ∧ ∃ t, exec (.fateReply slice ident { t := q, replier := replier, fate := .undecided }) s = .next t
        ∧ (∀ x ∈ s.slices.questions, x.slice = slice → x.ident = ident → x.t = q → t.toldUndecided slice ident q = true)
        ∧ (∀ n, n ≠ q → t.toldUndecided slice ident n = s.toldUndecided slice ident n)
        ∧ t = { s with slices := { s.slices with questions := t.slices.questions } })
  ∧ (∀ s x replier q, s.deaf = false → s.slices.serving = [] → s.slices.orphans = [x] → x.rest.filter (· != replier) ≠ [] →
      exec (.fateReply x.slice x.ident { t := q, replier := replier, fate := .undecided }) s = .next { s with
        slices := { s.slices with orphans := [{ x with rest := x.rest.filter (· != replier), since := s.time }] } })
  ∧ ∀ s dev ctx h off q, s.deaf = false → dev ≠ s.devNum → s.slices.serving = [] → off % 64 = 0 →
    (s.version off = none → ∃ t, exec (.groupLoadServe dev ctx h [(off, 64)] q) s = .next t
      ∧ t.sent = s.sealFor q.tenant (.reply dev ctx (some (10, off)) (.group (s.mem.read off 64)
          (if (s.horizon (homeSlice off)).t ≤ q.t then none else some 2) [])) :: s.sent
      ∧ t.floor (homeSlice off) = max (s.floor (homeSlice off)) q.t ∧ WritesOnly s t [] ∧ ContextsKeep s t)
    ∧ ∀ v bs, s.version off = some v → v.pending = none → v.prior = some bs → bs.1.length = 64 → bs.2.t ≤ q.t → q.t < v.stamp.t →
      ∃ t, exec (.groupLoadServe dev ctx h [(off, 64)] q) s = .next t
        ∧ t.sent = s.sealFor q.tenant (.reply dev ctx (some (10, off)) (.group bs.1 none [])) :: s.sent ∧ WritesOnly s t [] ∧ ContextsKeep s t

/-- R101, R102, R402, R404 to R406, R417: links that train, fail, retry and go down; a peer that is overdue, lost, retrained and
readmitted; the board told of a link that stays down.
The model's own choices that this rests on: log entries 5, 34 and 72. -/
def Obligations.LinkSteps : Prop :=
  (∀ s port peer, port < 24 → peer < 4096 → s.portUp port = false → s.trainingFailures port < 3 →
      ∃ t, exec (.linkUp port peer) s = .next t ∧ t.portUp port = true ∧ t.dcbField (linkst port) 2 12 = peer
        ∧ t.dcbField (linkst port) 1 1 = ofBool (s.control.power.stage == 18) ∧ t.trainingFailures port = 0
        ∧ look t.fabric.retrains port = none
        ∧ t.dcbField devstat 12 5 = ((List.range 24).filter fun p => !t.portUp p).length
        ∧ RegistersOnly s { t with fabric := s.fabric } [linkst port, devstat])
  ∧ (∀ s port, port < 24 → s.portUp port = false → 3 ≤ s.trainingFailures port → ∀ peer, exec (.linkUp port peer) s = .next s)
  ∧ (∀ s port, port < 24 → s.portUp port = false → ∃ t, exec (.linkTrainingFailure port) s = .next t
      ∧ t.trainingFailures port = min 3 (s.trainingFailures port + 1) ∧ (∀ p, p ≠ port → t.trainingFailures p = s.trainingFailures p)
      ∧ t = { s with fabric := { s.fabric with failures := t.fabric.failures } })
  ∧ (∀ s port, s.portUp port = true →
      (∃ t, exec (.flitRetry port) s = .next t ∧ t.dcbField (linkst port) 16 16 = min 0xFFFF (s.dcbField (linkst port) 16 16 + 1)
        ∧ t.dcbField (linkst port) 32 16 = min 0xFFFF (s.dcbField (linkst port) 32 16 + 1)
        ∧ t.dcbField (linkst port) 0 16 = s.dcbField (linkst port) 0 16 ∧ RegistersOnly s t [linkst port])
      ∧ ((∀ d ∈ s.routeDevs, d ≠ s.devNum → s.routed d = true → ∃ q ∈ s.routePorts d, q ≠ port) →
        ∃ t, exec (.linkDown port) s = .next t ∧ t.portUp port = false ∧ look t.fabric.retrains port = some (0, s.time)
          ∧ t.dcbField devstat 12 5 = ((List.range 24).filter fun p => !t.portUp p).length
          ∧ RegistersOnly s { t with fabric := s.fabric } [linkst port, devstat]))
  ∧ (∀ s port n time, look s.fabric.retrains port = some (n, time) → s.portUp port = false →
      (3 ≤ n → time + 1000000000 < s.time → ∃ t, exec (.linkDownReplreqTimeout port) s = .next t ∧ t.dcbField devstat 0 1 = 1
        ∧ t.sent = .replReq :: s.sent ∧ RegistersOnly s t [devstat])
      ∧ (n < 3 ∨ s.time ≤ time + 1000000000 → exec (.linkDownReplreqTimeout port) s = .next s))
  ∧ (∀ s dev, dev ≠ s.devNum → exec (.linkTimeout dev) s = .next (if s.overdue dev = true then s.markLost dev else s))
  ∧ (∀ s answers, s.peerBusy 0 = true → NothingRuns s →
      let status := if s.peerDev = s.devNum then 3 else if s.routed s.peerDev = false then 1 else if answers = false then 2 else 0
      ∃ t, exec (.peerReadmit answers) s = .next t ∧ look t.control.started peercmd = some (BitVec.ofNat 64 status)
        ∧ t.pend = (if status = 0 then withoutStores s.peerDev s.pend else s.pend) ++ [.peercmdComplete]
        ∧ (status = 0 → s.peerDev < 2048 → t.lost s.peerDev = false ∧ ∀ w ∈ t.fabric.windows, w.src.dev ≠ s.peerDev)
        ∧ (status = 0 → .packet { src := s.devNum, dst := s.peerDev, time := s.time, hop := 0, tenant := 0, lslot := none, cls := 0,
                                  tagOk := true, keyGen := s.worldGen 0, body := .readmit } ∈ t.sent)
        ∧ RegistersOnly s { t with fabric := s.fabric } [routeReg s.peerDev])
  ∧ (∀ s, s.peerBusy 1 = true → NothingRuns s → s.slices.versions = [] → s.slices.orphans = [] → s.slices.records = [] →
      s.slices.serving = [] → s.sched.abroad = [] → s.sched.checked = [] →
      ∃ t, exec .peerMarklost s = .next t ∧ look t.control.started peercmd = some (if s.peerDev = s.devNum then 3 else 0)
        ∧ t.pend = (if s.peerDev = s.devNum ∨ 2048 ≤ s.peerDev ∨ s.lost s.peerDev = true then s.pend
            else withoutStores s.peerDev s.pend) ++ [.peercmdComplete]
        ∧ (s.peerDev ≠ s.devNum → s.peerDev < 2048 → t.lost s.peerDev = true ∧ (∀ w ∈ t.fabric.windows, w.src.dev = s.peerDev →
            s.lost s.peerDev = true) ∧ (∀ w ∈ t.slices.waiters, w.dev = s.peerDev → s.lost s.peerDev = true))
        ∧ RegistersOnly s { t with fabric := s.fabric, slices := s.slices } [routeReg s.peerDev])
  ∧ (∀ s, s.peerBusy 2 = true → ∃ t, exec .peerRetrain s = .next t
      ∧ look t.control.started peercmd = some (if s.peerDev = s.devNum then 3 else 0) ∧ t.pend = s.pend ++ [.peercmdComplete]
      ∧ (s.peerDev ≠ s.devNum → ∀ p < 24, s.dcbField (linkst p) 2 12 = s.peerDev → t.trainingFailures p = 0
        ∧ (s.portUp p = false → look t.fabric.retrains p = some (let old := (look s.fabric.retrains p).getD (0, 0)
            if 3 ≤ old.1 then old else (old.1 + 1, s.time))))
      ∧ RegistersOnly s { t with fabric := s.fabric } [])
  ∧ ∀ s st, look s.control.started peercmd = some st → st.toNat < 4 → ∃ t, exec .peercmdComplete s = .next t
    ∧ t.dcbField peercmd 14 2 = st.toNat ∧ bit (t.dcbGet peercmd).toNat 63 = false ∧ t.dcbField peercmd 0 14 = s.dcbField peercmd 0 14
    ∧ look t.control.started peercmd = none ∧ RegistersOnly s t [peercmd] ∧ t.pend = s.pend

/-- R135, R140, R142 to R144, R147, R150 to R153, R157 to R161: decrements, wakes, dispatch, claims, displacement, and the start of a
firing.
The model's own choices that this rests on: log entries 18, 33, 61, 63, 71, 75, 77 and 95. -/
def Obligations.SchedulerSteps : Prop :=
  (∀ s p idx k n, k < 4 → s.recLive p idx = true → (k = 3 → s.recChn p idx = false) → s.unbundled p idx →
      (∀ c ∈ s.allCtx ++ s.ended, ∀ x ∈ c.order.outs, x.strm ≠ 65) → ∃ t, exec (.dectApply p idx k n) s = .next t
      ∧ t.recCnt p idx k = max (s.recCnt p idx k - n) (-32768) ∧ (∀ j < 4, j ≠ k → t.recCnt p idx j = s.recCnt p idx j)
      ∧ OnlyRecord s t p idx ∧ ContextsKeep s t ∧ t.dcb = s.dcb
      ∧ (if s.recState p idx = 1 ∧ (List.range 4).all (fun j => decide (t.recCnt p idx j ≤ 0)) = true then t.recState p idx = 2
          ∧ t.pend = s.pend ++ [if 1 < s.recChain p idx then .chainClaim p idx else .dispatchPacket p idx]
        else t.recState p idx = s.recState p idx ∧ t.pend = s.pend))
  ∧ (∀ s p idx k n c x, s.allCtx = [c] → s.ended = [] → c.order.bundle = none → c.order.outs = [x] → x.dev = s.devNum → x.strm = 65 →
      x.seq = dectSeq p idx k n → x.acq = false → .dectApply p idx k n ∉ s.pend → k < 4 → s.recLive p idx = true →
      (k = 3 → s.recChn p idx = false) → ∃ t d, exec (.dectApply p idx k n) s = .next t ∧ t.findCtx c.num = some d
        ∧ d.order.outs = [] ∧ d.regs = c.regs ∧ d.pc = c.pc ∧ t.recCnt p idx k = max (s.recCnt p idx k - n) (-32768))
  ∧ (∀ s p idx k n, s.recLive p idx = false ∨ k = 3 ∧ s.recChn p idx = true → (∀ c ∈ s.allCtx ++ s.ended, ∀ x ∈ c.order.outs, x.strm ≠ 65) →
      ∃ t, exec (.dectApply p idx k n) s = .next t
      ∧ look t.sched.ignored p = some ((look s.sched.ignored p).getD 0 + 1)
      ∧ t = { s with sched := { s.sched with ignored := t.sched.ignored } })
  ∧ (∀ s p idx, MayGo s p idx → s.recChain p idx = 1 →
      (∀ core rest, s.findCore p idx = some (core, rest) →
        exec (.dispatchPacket p idx) s = .next { s with
          sched := { s.sched with walks := s.sched.walks.filter (fun w => !(w.1 == p && w.2.1 == idx)) ++ [(p, idx, rest)] },
          pend := s.pend ++ [.firingStart p idx [s.seatFor core]] })
      ∧ (s.findCore p idx = none → ∃ t, exec (.dispatchPacket p idx) s = .next t
        ∧ (t.point (clusterOf (s.recHome p idx))).queue = (s.point (clusterOf (s.recHome p idx))).queue ++ [s.taskOf p idx]
        ∧ (∀ u, u ≠ clusterOf (s.recHome p idx) → t.point u = s.point u)
        ∧ t = { s with sched := { s.sched with points := t.sched.points } }))
  ∧ (∀ s p idx, s.isReady p idx = true → s.queued p idx = false → s.starting p idx = false → s.dispatchFaultOf p idx = none →
      s.bindsIn p idx 2 = true → s.recChain p idx = 1 → ∃ t, exec (.dispatchPacket p idx) s = .next t ∧ t.recState p idx = 6
        ∧ t.recLive p idx = true ∧ OnlyRecord s t p idx ∧ ContextsKeep s t ∧ t.pend = s.pend)
  ∧ (∀ s p idx u, s.isReady p idx = true → s.queued p idx = false → u < 96 → ∃ t, exec (.packetReturn p idx u) s = .next t
      ∧ (t.point u).queue = s.taskOf p idx :: (s.point u).queue ∧ (∀ v, v ≠ u → t.point v = s.point v)
      ∧ t = { s with sched := { s.sched with points := t.sched.points } })
  ∧ (∀ s core u q, (s.point u).queue = [q] → q.cls < 4 → s.fitsNote core q = true → s.recState q.part q.record = 2 →
      s.recChain q.part q.record = 1 → s.dispatchFaultOf q.part q.record = none → ∃ t, exec (.freeNote core u) s = .next t
        ∧ t.pend = s.pend ++ [.firingStart q.part q.record [s.seatFor core]] ∧ (t.point u).queue = []
        ∧ t = { s with sched := { s.sched with points := t.sched.points }, pend := t.pend })
  ∧ (∀ s core u a b, (s.point u).queue = [a, b] → a.cls = 1 → b.cls = 0 → s.fitsNote core a = true → s.fitsNote core b = true →
      s.recState a.part a.record = 2 → s.recState b.part b.record = 2 → s.recChain a.part a.record = 1 → s.recChain b.part b.record = 1 →
      s.dispatchFaultOf a.part a.record = none → s.dispatchFaultOf b.part b.record = none →
      ∃ t, exec (.freeNote core u) s = .next t
        ∧ t.pend = s.pend ++ [if (s.point u).zeros < 15 then .firingStart b.part b.record [s.seatFor core]
            else .firingStart a.part a.record [s.seatFor core]])
  ∧ (∀ s p idx cores, MayGo s p idx → 1 < s.recChain p idx → s.findRun p idx = some cores →
      ∃ t ids, exec (.chainClaim p idx) s = .next t ∧ t.pend = s.pend ++ [.firingStart p idx ids] ∧ ids.map (·.core) = cores
        ∧ (∀ id ∈ ids, look (t.core id.core).claims id.seat = some (.claimed p idx)) ∧ t = { s with cores := t.cores, pend := t.pend })
  ∧ (∀ s p idx id c, s.isReady p idx = true → s.recClass p idx = 0 → s.queued p idx = true → s.scheduled p = true →
      s.control.pfail = false → (∃ t, (p, idx, t) ∈ s.sched.ready ∧ t + s.displaceAfter ≤ s.time) →
      (∀ x ∈ s.sched.displacing, x.1 = p → x.2.1 = idx → s.hasSeat x.2.2 = false) →
      victimOf (s.displaceable p idx) = some (id, c) → s.ctxAt id = some c → c.fault = none → c.finishing = false →
      ∃ t d, exec (.displacement p idx) s = .next t ∧ t.ctxAt id = some d ∧ d.phase = .quiesce ∧ d.regs = c.regs ∧ d.pc = c.pc
        ∧ t.sched.displacing = (s.sched.displacing.filter fun x => s.hasSeat x.2.2) ++ [(p, idx, c.num)]
        ∧ t.pend = s.pend ++ [.copyQuiesceDone id])
  ∧ (∀ s p idx id n i a, s.isReady p idx = true → s.queued p idx = false → s.dispatchFaultOf p idx = none → s.mayDispatch p idx = true →
      s.image (s.recImage p idx) (s.recIgen p idx) = some i → s.recActor p idx = some a → s.seatsHold p idx [id] = true →
      s.keptCtx p idx 0 = none → s.freeCtxs 1 = [n] → s.recAddr p idx + 64 ≤ Config.hbmSize →
      (∀ d ∈ s.saved, d.rows = false ∨ d.seatAt.core ≠ id.core) →
      ∃ t c, exec (.firingStart p idx [id]) s = .next t ∧ t.ctxAt id = some c ∧ c.num = n ∧ c.part = p ∧ c.record = idx
        ∧ c.phase = .running ∧ c.code = s.codeNow i ∧ c.footprint = a.footprint ∧ c.chain = []
        ∧ c.pc = BitVec.ofNat 32 (if s.recGet p idx 60 1 = 1 then s.recGet p idx 320 32 else a.entry)
        ∧ (∀ k < 8, c.regs.getS (k + 1) =
            if k < a.nin + a.nout ∧ s.argWord p idx k ≠ 0 then s.windowGa (BitVec.ofNat 64 (s.argWord p idx k)) (decide (k < a.nin))
            else BitVec.ofNat 64 (s.argWord p idx k))
        ∧ (∀ k, 9 ≤ k → c.regs.getS k = 0) ∧ c.regs.v = Regs.zero.v ∧ c.regs.m = Regs.zero.m
        ∧ c.csrs = { Csrs.fresh with
            tenantid := BitVec.ofNat 64 (s.partTenant p), mxcap := s.grantAt (s.partTenant p) id.core, firinfo := s.firinfoOf p idx, rank := s.rankOf p idx, chainpos := 0x10 }
        ∧ t.recState p idx = 3 ∧ t.recLive p idx = true)
  ∧ (∀ s p idx off val, s.recLive p idx = true → s.recState p idx = 3 → off + 8 ≤ s.hbmEnd → s.unbundled p idx →
      (ownerAccepts (s.ownerAt (homeSlice off) (off / 0x200000)) (s.partTenant p) = true → s.slices.waiters = [] →
        (val.toNat ≤ s.mem.readNat off 8 → ∃ t, exec (.waitEnqueue p idx off val) s = .next t ∧ t.recState p idx = 2
          ∧ t.recGet p idx 60 1 = 1 ∧ t.recGet p idx 281 3 = 1 ∧ t.slices = s.slices ∧ OnlyRecord s t p idx)
        ∧ (s.mem.readNat off 8 < val.toNat → ∃ t, exec (.waitEnqueue p idx off val) s = .next t ∧ t.recState p idx = 5
          ∧ t.slices.waiters = [{ dev := s.devNum, off := off, part := p, record := idx, val := val, overflow := false }]
          ∧ OnlyRecord s t p idx ∧ t.pend = s.pend))
      ∧ (ownerAccepts (s.ownerAt (homeSlice off) (off / 0x200000)) (s.partTenant p) = false →
        ∃ t, exec (.waitEnqueue p idx off val) s = .next t ∧ t.recLive p idx = false))
  ∧ (∀ s w all, s.slices.waiters = [w] → w.dev = s.devNum → s.recLive w.part w.record = true → s.recState w.part w.record = 5 →
      let woken (i : Instr) : Prop := ∃ t, exec i s = .next t ∧ t.slices.waiters = [] ∧ t.recState w.part w.record = 2
        ∧ t.recGet w.part w.record 60 1 = 1 ∧ t.recGet w.part w.record 281 3 = 1 ∧ OnlyRecord s t w.part w.record
      (w.overflow = false → (w.val.toNat ≤ s.mem.readNat w.off 8 → woken (.noteWake w.off all))
        ∧ (s.mem.readNat w.off 8 < w.val.toNat → exec (.noteWake w.off all) s = .next s))
      ∧ (w.overflow = true → w.val.toNat ≤ s.mem.readNat w.off 8 → woken (.overflowRecheck (homeSlice w.off))))
  ∧ ∀ s id c nx k since, s.ctxAt id = some c → c.stall = some (.chain nx k) → c.chainStall = some (c.pc, nx, since) →
    s.findCtx c.num = some c → c.fault = none → (since + 65536 ≤ c.cycles → ∃ t, exec (.chainStallTimeout id) s = .next t ∧ t.pend = s.pend ++ [.impreciseFaultDelivery c.num]
      ∧ ContextBecomes s { t with pend := s.pend } c.num { c with
          faultAt := c.retires,
          fault := some { code := 21, sub := if nx then 2 else 1, val := BitVec.ofNat 64 c.chainAt, aux1 := 0, aux2 := 0, pc := c.pc, detail := 0 } })
    ∧ (c.cycles < since + 65536 → exec (.chainStallTimeout id) s = .next s)

/-- R137, R138, R140, R142, R162 to R165, R195 to R213, R389, R408: the scan and the end of a launch, the host's messages, images'
generations, and the translation of an object.
The model's own choices that this rests on: log entries 32, 36, 37, 71, 73, 78, 100 and 101. -/
def Obligations.LaunchSteps : Prop :=
  (∀ s l, OneLaunch s l → l.scanned = false → s.control.pfail = true → exec (.launchScan l.slot) s = .next s)
  ∧ (∀ s l, OneLaunch s l → l.scanned = false → s.control.pfail = false → (∃ i ∈ l.records, s.recordBad l.part i = true) ∨ (∃ t ∈ l.tsrs, tsrBad t.toNat = true) →
      ∃ t, exec (.launchScan l.slot) s = .next t ∧ LaunchEnds s t l (2 ^ 32 + 1))
  ∧ (∀ s l i, OneLaunch s l → l.scanned = false → s.control.pfail = false → l.slot < 4096 → l.records = [i] → s.recordBad l.part i = false →
      (∀ t ∈ l.tsrs, tsrBad t.toNat = false) → s.portsOf l.part i = [] → s.recChn l.part i = false →
      ∃ t, exec (.launchScan l.slot) s = .next t ∧ t.sched.launches = [{ l with scanned := true }] ∧ t.recLive l.part i = true
        ∧ (∀ k < 4, t.recCnt l.part i k = s.recInit l.part i k) ∧ t.recGet l.part i 44 12 = l.slot ∧ t.recGet l.part i 60 2 = 0
        ∧ t.recGet l.part i 281 3 = 0 ∧ t.recGet l.part i 286 4 = 4
        ∧ t.recState l.part i = (if (List.range 4).all fun k => decide (s.recInit l.part i k ≤ 0) then 2 else 1) ∧ OnlyRecord s t l.part i ∧ ContextsKeep s t)
  ∧ (∀ s l, OneLaunch s l → l.scanned = true → l.remaining = 0 →
      (s.launchBusy l = false → ∃ t, exec (.launchComplete l.slot) s = .next t
        ∧ LaunchEnds s t l (if l.faulted then 2 ^ 32 + 1 else 1))
      ∧ (s.launchBusy l = true → exec (.launchComplete l.slot) s = .next { s with pend := s.pend ++ [.launchComplete l.slot] }))
  ∧ (∀ s part idx, part < 64 → s.deaf = false →
      (s.partLive part = false → exec (.hostLaunchMessage part idx) s = .next { s with sent := .hostReply part true :: s.sent })
      ∧ (s.partLive part = true → s.inPool part idx = false →
        exec (.hostLaunchMessage part idx) s = .next { s with sent := .launchStatus part 2 :: s.sent })
      ∧ (s.partLive part = true → s.inPool part idx = true → s.launchBad part idx (s.recBits part idx) = true →
        exec (.hostLaunchMessage part idx) s = .next { s with sent := .launchStatus part 2 :: s.sent })
      ∧ (s.partLive part = true → s.inPool part idx = true → s.launchBad part idx (s.recBits part idx) = false →
        s.lquota part ≤ (s.sched.launches.filter fun l => l.part == part).length →
        exec (.hostLaunchMessage part idx) s = .next { s with sent := .launchStatus part 1 :: s.sent })
      ∧ (s.partLive part = true → s.inPool part idx = true → s.launchBad part idx (s.recBits part idx) = false →
        (s.sched.launches.filter fun l => l.part == part).length < s.lquota part → s.sched.launches = [] →
        ∃ t l, exec (.hostLaunchMessage part idx) s = .next t ∧ t.sched.launches = [l] ∧ l.slot = 0 ∧ l.part = part
          ∧ l.record.toNat = s.recBits part idx ∧ l.scanned = false ∧ l.remaining = field (s.recBits part idx) 32 21
          ∧ t.pend = s.pend ++ [.launchScan 0] ∧ t.sent = .launchStatus part 0 :: s.sent
          ∧ t = { s with sched := { s.sched with launches := t.sched.launches }, pend := t.pend, sent := t.sent }))
  ∧ (∀ s fn data, s.deaf = false →
      (fn < 64 → s.partLive fn = false → exec (.hostServiceMessage fn data) s = .next { s with sent := .hostReply fn true :: s.sent })
      ∧ (fn < 64 ∧ s.partLive fn = true ∨ fn = 64 → exec (.hostServiceMessage fn data) s
        = .next { s with control := { s.control with hostMsgs := s.control.hostMsgs ++ [(fn, data)] } }))
  ∧ (∀ s, exec .hostLinkReset s = .next { s with control := { s.control with hostMsgs := [] } }
      ∧ ∀ fn < 64, ∃ t, exec (.vfReset fn) s = .next t ∧ (∀ x, x ∈ t.control.hostMsgs ↔ x ∈ s.control.hostMsgs ∧ x.1 ≠ fn)
        ∧ t = { s with control := { s.control with hostMsgs := t.control.hostMsgs } })
  ∧ (∀ s p i, bit (s.dcbGet imgcmd).toNat 63 = true → s.sched.live = [(p, i)] → s.unbundled p i →
      let hit := s.recImage p i = s.dcbField imgcmd 0 16 ∧ s.recIgen p i = s.dcbField imgcmd 16 12
      ∃ t, exec .imageGenRewrite s = .next t ∧ t.recIgen p i = (if hit then s.dcbField imgcmd 28 12 else s.recIgen p i)
        ∧ t.recImage p i = s.recImage p i ∧ t.recState p i = s.recState p i ∧ OnlyRecord s t p i
        ∧ t = { s with mem := t.mem, pend := s.pend ++ [.imageGenRewriteComplete] })
  ∧ (∀ s, bit (s.dcbGet imgcmd).toNat 63 = true → ∃ t, exec .imageGenRewriteComplete s = .next t
      ∧ bit (t.dcbGet imgcmd).toNat 63 = false ∧ t.dcbField imgcmd 0 63 = s.dcbField imgcmd 0 63 ∧ RegistersOnly s t [imgcmd]
      ∧ t.control = s.control ∧ t.pend = s.pend)
  ∧ (∀ s r, s.objectOf r = none → exec (.objectTranslate r) s = .next s)
  ∧ ∀ s r f, s.objectOf r = some f →
    let o := f.read r.binds r.image r.tenant
    (f.portable = false ∨ f.sections.all PSection.ok = false →
      exec (.objectTranslate r) s = .next { s with sent := .rejected r.image 1 0 :: s.sent })
    ∧ (∀ e, s.rejection o = some e → exec (.objectTranslate r) s = .next { s with sent := .rejected r.image e.1 e.2 :: s.sent })
    ∧ (s.rejection o = none → s.listGen r.image = 0xFFF → exec (.objectTranslate r) s = .next s)
    ∧ (s.rejection o = none → s.listGen r.image ≠ 0xFFF → ∃ t i file, exec (.objectTranslate r) s = .next t
      ∧ t.sent = .sealed r.image file :: s.sent ∧ file.image (bit f.eflags.toNat 4) = true ∧ file.verifies = true
      ∧ (file.sec .seal).take 4 = bytesOf 4 0x4C414553 ∧ ((file.sec .seal).drop 32).take 64 = bytesOf 64 file.digest.toNat
      ∧ t.image r.image (s.listGen r.image + 1) = some i ∧ i.tenant = r.tenant ∧ i.hash = file.digest ∧ i.object = f
      ∧ i.code.binds = r.binds.map (·.handle) ∧ i.code.traps = o.traps ∧ i.code.len = (file.sec .text).length
      ∧ i.actors.length = o.actors.length
      ∧ (r.binds = [] → t.mem = s.mem)
      ∧ ((o.bindOf 0).isSome = true → o.bindOf 1 = none → o.bindOf 2 = none → t.mem = s.mem.write (o.placeOf 0) (file.sec .text))
      ∧ ContextsKeep s t ∧ t.dcb = s.dcb ∧ t.pend = s.pend)

/-- R31, R51, R60, R84, R116, R324, R327, R328, R331, R334 to R337: an engine's acceptance, its start, its landings and its completion;
contributions, their deadline and the result of a collective.
The model's own choices that this rests on: log entries 12, 31, 44, 45, 47 and 74. -/
def Obligations.EngineSteps : Prop :=
  (∀ s core la n c qi k l rest raw held, s.landers core la n = (c, qi, k, l) :: rest → s.sourceBytes c k l = .inl raw → k.swla = 0 →
      s.heldEngine c ((List.range l.len).map fun i => padOff core (la + i)) = .inl held → held.Nodup → (∀ x ∈ held, inControl x = false) →
      ∃ t, exec (.landing core la n) s = .next t
        ∧ (∀ p ∈ held.zip (k.convert l (s.byteAt (held.headD 0)) raw).1, t.mem.get p.1 = p.2) ∧ (∀ a, a ∉ held → t.mem.get a = s.mem.get a))
  ∧ (∀ s core la n, s.landers core la n = [] → exec (.landing core la n) s = .next s)
  ∧ (∀ s ctx c vq num k, s.findCtx ctx = some c → vq < 4 → (c.vq vq).cmd num = some k → k.phase = .issued → s.mayMove c vq = true →
      (∀ p, s.acceptCopy c k = .inr p → p.lands ≠ [] → ∃ t d k', exec (.copyAccept .copy ctx vq num) s = .next t
        ∧ ContextBecomes s { t with pend := s.pend } ctx d ∧ (d.vq vq).cmd num = some k' ∧ k'.phase = .accepted ∧ k'.lands = p.lands
        ∧ k'.dst = p.dst ∧ k'.dstHdl = p.dstHdl ∧ (p.reads = true → k'.src = p.src ∧ k'.srcHdl = p.srcHdl)
        ∧ d.regs = c.regs ∧ (∀ j, j ≠ vq → d.vq j = c.vq j)
        ∧ t.pend = s.pend ++ [.commandStart .copy (placeOfEngine c .copy)])
      ∧ (∀ r, s.acceptCopy c k = .inl r → c.fault = none → s.ended = [] → ∃ t d, exec (.copyAccept .copy ctx vq num) s = .next t
        ∧ t.findCtx ctx = some d ∧ d.vq vq = (c.vq vq).complete num
        ∧ d.fault = some { code := 18, sub := r.1, val := BitVec.ofNat 64 k.num, aux1 := r.2.toNat, aux2 := vq, pc := k.pc, detail := 0 }
        ∧ t.mem = s.mem ∧ t.pend = s.pend ++ [.impreciseFaultDelivery ctx, .commandStart .copy (placeOfEngine c .copy)]))
  ∧ (∀ s ctx c vq num k, s.findCtx ctx = some c → vq < 4 → (c.vq (4 + vq)).cmd num = some k → k.phase = .issued → s.acceptColl c k = none →
      ∃ t d k', exec (.copyAccept .coll ctx vq num) s = .next t ∧ ContextBecomes s { t with pend := s.pend } ctx d
        ∧ (d.vq (4 + vq)).cmd num = some k' ∧ k'.phase = .accepted ∧ d.regs = c.regs
        ∧ t.pend = s.pend ++ [.commandStart .coll (placeOfEngine c .coll)])
  ∧ (∀ s place c qi k, s.findCtx c.num = some c → qi < 4 → s.queuesAt .copy place = [(c, 0), (c, 1), (c, 2), (c, 3)] →
      (∀ j < 4, j ≠ qi → (c.vq j).cmds = []) → s.mayMove c qi = true →
      (c.vq qi).head = some k → activeAt [(c, qi)] < 8 → 0 < (c.vq qi).credit → s.lostSides k = [] →
      (gaPlace k.src 0).dev ≠ s.devNum → k.lands.flatMap k.srcOffs ≠ [] →
      ∃ t d k', exec (.commandStart .copy place) s = .next t ∧ t.findCtx c.num = some d ∧ (d.vq qi).cmd k.num = some k'
        ∧ k'.phase = .active ∧ k'.asked = true ∧ (d.vq qi).credit = (c.vq qi).credit - 1
        ∧ t.pend = s.pend ++ [.commandStart .copy place] ∧ t.mem = s.mem
        ∧ ∃ p, t.sent = .packet p :: s.sent ∧ p.dst = (gaPlace k.src 0).dev
          ∧ p.body = .engineLoad c.num qi k.num (c.reqHandle k.srcHdl) (partsOf (k.lands.flatMap k.srcOffs)))
  ∧ (∀ s ctx c vq num k, s.findCtx ctx = some c → vq < 4 → (c.vq vq).cmd num = some k → k.num = num → k.phase = .active → k.lands = [] →
      k.acks = 0 → k.asked = false → k.stop = none → k.status = 0 → k.op.toNat < 0x147 → k.stla ≠ 0 → k.stla + 16 ≤ 0x20000 → c.phase = .running →
      c.seatAt.core < 1536 → ((s.core c.seatAt.core).resident = none ∨ (s.core c.seatAt.core).resident = some c.part) → s.ended = [] →
      ∃ t d, exec (.commandComplete .copy ctx vq num) s = .next t ∧ t.findCtx ctx = some d ∧ d.vq vq = (c.vq vq).complete num
        ∧ d.regs = c.regs ∧ t.mem.readNat (padOff c.seatAt.core k.stla) 16
          = 2 ^ 4 * (k.arrived % 2 ^ 12) + 2 ^ 16 * k.flags.toNat + 2 ^ 64 * min k.done (2 ^ 32 - 1)
        ∧ (∀ a, (a < padOff c.seatAt.core k.stla ∨ padOff c.seatAt.core k.stla + 16 ≤ a) → t.mem.get a = s.mem.get a)
        ∧ t.pend = s.pend ++ [.commandStart .copy (placeOfEngine c .copy)])
  ∧ (∀ s p, s.deaf = false → s.confidential = false → s.fabric.slots = [] → s.fabric.queued = [] → p.rootDev = s.devNum →
      (0 < p.nm1 → exec (.collContribution p) s = .next { s with fabric := { s.fabric with
        slots := [{ tenant := p.tenant, group := p.group, seq := p.seq, parts := [p], deadline := s.time + 1000 * p.timeout, mismatch := false }] } })
      ∧ (p.nm1 = 0 → p.index = 0 → p.form = 0x14B → p.dev = s.devNum →
        ∃ t, exec (.collContribution p) s = .next t ∧ t.pend = s.pend ++ [.collResult p.ctx p.vq p.num 0 1 0 [] p.data]
          ∧ t.fabric.slots = [] ∧ t.mem = s.mem ∧ ContextsKeep s t))
  ∧ (∀ s p, s.deaf = false → s.confidential = false → s.fabric.slots = [] → s.fabric.queued = [] → p.rootDev ≠ s.devNum →
      p.dev = s.devNum →
      ∃ t r, exec (.collContribution p) s = .next t ∧ t.sent = .contribution p.rootDev p :: s.sent ∧ t.fabric.slots = [r] ∧ r.parts = [p]
        ∧ t.mem = s.mem ∧ (∀ n, n ≠ p.ctx → t.findCtx n = s.findCtx n)
        ∧ ∀ c, s.findCtx p.ctx = some c → ∃ d, t.findCtx p.ctx = some d ∧ d.regs = c.regs ∧ d.pc = c.pc ∧ d.order = c.order)
  ∧ (∀ s r p, s.fabric.slots = [r] → s.fabric.queued = [] → r.parts = [p] → p.rootDev = s.devNum → r.mismatch = false → p.index = 0 →
      p.nm1 = 1 → p.form = 0x14B → p.dev = s.devNum →
      (r.deadline ≤ s.time → ∃ t, exec (.collSlotDeadline r.tenant r.group r.seq) s = .next t ∧ t.fabric.slots = []
        ∧ t.pend = s.pend ++ [.collResult p.ctx p.vq p.num 1 1 0 [1] p.data] ∧ t.mem = s.mem ∧ ContextsKeep s t)
      ∧ (s.time < r.deadline → exec (.collSlotDeadline r.tenant r.group r.seq) s = .next s))
  ∧ ∀ s ctx c vq num k status arrived missing data, s.deaf = false → s.findCtx ctx = some c → vq < 4 → (c.vq (4 + vq)).cmd num = some k →
    k.num = num → k.asked = true → k.phase = .active → k.acks = 0 → k.rootDev = s.devNum → 2 ≤ status →
    ∃ t d k', exec (.collResult ctx vq num status arrived 0 missing data) s = .next t ∧ ContextBecomes s { t with pend := s.pend } ctx d
      ∧ (d.vq (4 + vq)).cmd num = some k' ∧ k'.status = status ∧ k'.arrived = arrived ∧ k'.missing = missing ∧ k'.lands = []
      ∧ k'.asked = false ∧ t.pend = s.pend ++ [.commandComplete .coll ctx vq num]

/-- R296, R300, R304, R307, R308, R311, R318, R338 to R342, R348, R349: messages land or wait, remote matrix commands are judged and
answered, the sequencer takes a command and makes its k-steps, and a context takes the answers that it waits for.
The model's own choices that this rests on: log entries 13, 25 and 86. -/
def Obligations.MessageAndMatrixSteps : Prop :=
  (∀ s net core m p, s.nextMsg net core = some m → m.core = core → m.net = net → m.dev ≠ s.devNum → s.msgPart m = some p → s.purged m = false →
      s.inMesh p core = true → s.scheduled p = true →
      let b := (s.core core).mailbox net
      b.base ≠ 0 → b.part = p → s.fabric.spilled = [] →
      (s.core core).resident = some p → b.base + 64 * 2 ^ b.lsl ≤ 0x20000 →
      ∃ t, exec (.messageLand net core) s = .next t
        ∧ t.mem.readNat (padOff core (b.base + 64 * (b.tail % 2 ^ b.lsl))) 64 = m.data.toNat
        ∧ (t.core core).mailbox net = { b with tail := (b.tail + 1) % 65536 } ∧ m ∉ t.fabric.msgs
        ∧ t.sent = s.sealFor m.tenant (.ack { dev := m.dev, ctx := m.ctx, strm := 32 + netAt net } m.seq none) :: s.sent
        ∧ t.pend = s.pend ++ [.dectApply p b.record b.ctr 1, .messageLand net core])
  ∧ (∀ s net core m, s.nextMsg net core = some m → m.core = core → m.net = net → m.dev ≠ s.devNum → s.purged m = false →
      (s.msgPart m = none ∨ ∃ p, s.msgPart m = some p ∧ s.inMesh p core = false) → m.part < 64 →
      ∃ t, exec (.messageLand net core) s = .next t ∧ m ∉ t.fabric.msgs ∧ (∀ x ∈ t.fabric.spilled, x.2 ≠ m) ∧ t.mem = s.mem
        ∧ t.dcbField (parttab m.part 6) 0 16 = min 0xFFFF (s.dcbField (parttab m.part 6) 0 16 + 1)
        ∧ (∀ off, off ≠ parttab m.part 6 → t.dcbGet off = s.dcbGet off)
        ∧ t.sent = s.sealFor m.tenant (.ack { dev := m.dev, ctx := m.ctx, strm := 32 + netAt net } m.seq (some 4)) :: s.sent
        ∧ t.pend = s.pend ++ [.messageLand net core])
  ∧ (∀ s net core, s.nextMsg net core = none → exec (.messageLand net core) s = .next s)
  ∧ (∀ s core a rest, (s.core core).arrivals = a :: rest →
      let answers (status cause : Nat) : Prop := ∃ t, exec (.mxcmdArrival core) s = .next t ∧ (t.core core).arrivals = rest
        ∧ (∀ k, k ≠ core → t.core k = s.core k) ∧ t = { s with cores := t.cores, pend := s.pend ++ [.mxcmdReply a.ctx a.num status cause] }
      (s.mxRunning core = none → answers 3 0)
      ∧ ∀ c, s.mxRunning core = some c →
        (c.csrs.mxcap = 0 ∨ c.csrs.mxcap ≠ a.cap → answers 1 0)
        ∧ ((field a.cap.toNat 0 10 ≠ core % 1024 ∨ field a.cap.toNat 10 12 ≠ a.tenant) → answers 1 0)
        ∧ (c.csrs.mxcap ≠ 0 → c.csrs.mxcap = a.cap → field a.cap.toNat 0 10 = core % 1024 → field a.cap.toNat 10 12 = a.tenant →
          mxWord a.word = none → answers 2 0)
        ∧ (∀ op o, mxWord a.word = some (op, o) → bit a.cap.toNat (22 + rightOf op) = false → answers 1 0)
        ∧ ∀ op o, mxWord a.word = some (op, o) → c.csrs.mxcap = a.cap → c.csrs.mxcap ≠ 0 → field a.cap.toNat 0 10 = core % 1024 →
          field a.cap.toNat 10 12 = a.tenant → bit a.cap.toNat (22 + rightOf op) = true →
          (8 ≤ c.mx.queue.length → exec (.mxcmdArrival core) s = .next { s with pend := s.pend ++ [.mxcmdArrival core] })
          ∧ (c.mx.queue.length < 8 → op = 0x102 → s.findCtx c.num = some c → ∃ t d k, exec (.mxcmdArrival core) s = .next t
            ∧ (t.core core).arrivals = rest ∧ t.findCtx c.num = some d ∧ d.mx.queue = c.mx.queue ++ [k] ∧ k.op = 0x102
            ∧ mxAtype d.mx.stat = 0 ∧ mxAscv d.mx.stat = false ∧ d.mx.acc = c.mx.acc ∧ d.regs = c.regs ∧ t.mem = s.mem
            ∧ t.pend = s.pend ++ (if c.mx.queue = [] then [.sequencerCommand core 0 0] else []) ++ [.mxcmdReply a.ctx a.num 0 0]))
  ∧ (∀ s ctx c r status cause, s.findCtx ctx = some c → c.order.late.find? (fun x => x.num == r.num) = some r → c.nextMember = none →
      status < 16 → cause < 256 →
      let w : Word := BitVec.ofNat 64 (status + 2 ^ 16 * cause)
      ((∀ d ∈ s.saved, d.num ≠ ctx) → ∃ t, exec (.mxcmdReply ctx r.num status cause) s = .next t ∧ ContextBecomes s t ctx (c.takesLate r w))
      ∧ ((∃ d ∈ s.saved, d.num = ctx) → ∃ t, exec (.mxcmdReply ctx r.num status cause) s = .next t
        ∧ t.findCtx ctx = some ((s.putInPlace c).takesLate r w) ∧ t.pend = s.pend ∧ ∀ n, n ≠ ctx → t.findCtx n = s.findCtx n))
  ∧ (∀ s core c k rest, s.mxRunning core = some c → s.findCtx c.num = some c → c.mx.queue = k :: rest → (∀ x ∈ k :: rest, x.start = none) →
      let sticky : Word := BitVec.ofNat 64 (0x7F * 2 ^ 40)
      let base := padOff core k.la
      let takes (post : State → Ctx → Prop) : Prop := ∃ t d, exec (.sequencerCommand core 0 0) s = .next t ∧ t.findCtx c.num = some d
        ∧ d = { c with mx := d.mx } ∧ ContextBecomes s { t with pend := s.pend, mem := s.mem, cores := s.cores } c.num d
        ∧ t.pend = s.pend ++ (if rest = [] then [] else [.sequencerCommand core 0 0]) ∧ post t d
      (k.op = 0x102 → takes fun t d => d.mx = { c.mx with acc := [], queue := rest } ∧ t.mem = s.mem ∧ t.cores = s.cores)
      ∧ (0x103 ≤ k.op.toNat → k.op.toNat ≤ 0x105 → takes fun t d => d.mx = { c.mx with queue := rest } ∧ t.mem = s.mem
        ∧ (t.core core).weights = s.mem.read (padOff core (k.la + 16)) (weightBytes k.hdr k.wsparse) ∧ (t.core core).whdr = k.hdr
        ∧ ∀ n, n ≠ core → t.core n = s.core n)
      ∧ (k.op = 0x113 ∨ k.op = 0x114 → k.row < 64 → takes fun t d => d.mx = { c.mx with acc := d.mx.acc, queue := rest } ∧ t.mem = s.mem
        ∧ (∀ i < 32, accGet d.mx.acc (32 * k.row + i) = lane 32 k.vec i)
        ∧ (∀ i, i < 32 * k.row ∨ 32 * k.row + 32 ≤ i → accGet d.mx.acc i = accGet c.mx.acc i) ∧ t.cores = s.cores)
      ∧ (0x115 ≤ k.op.toNat → k.op.toNat ≤ 0x11C → takes fun t d =>
        let w := Flt.etWidth (mxstTarget k.op)
        let rows := (List.range k.nrow).map fun i => mxstRow c k (k.row0 + i)
        t.mem = s.mem.write base (rows.flatMap fun r => bytesOf (32 * w / 8) (packLanes w (r.map (·.1))))
        ∧ d.mx = { c.mx with queue := rest, stat := c.mx.stat ||| mxSticky (rows.flatten.foldl (fun a x => a ||| x.2) 0) }
        ∧ t.cores = s.cores)
      ∧ (k.op = 0x11F → (c.mx.acc.map (·.1)).Nodup → (∀ p ∈ c.mx.acc, p.1 < 2048 ∧ p.2 < 2 ^ 32) → takes fun t d =>
        d.mx = { c.mx with queue := rest } ∧ (∀ i < 2048, t.mem.readNat (base + 4 * i) 4 = accGet c.mx.acc i)
        ∧ t.mem.readNat (base + 8192) 16 = (k.hdr.setWidth 64 ||| (c.mx.stat &&& sticky)).toNat
        ∧ (∀ a, a < base ∨ base + 8208 ≤ a → t.mem.get a = s.mem.get a) ∧ t.cores = s.cores)
      ∧ (k.op = 0x120 → takes fun t d => (∀ i < 2048, accGet d.mx.acc i = s.mem.readNat (base + 4 * i) 4) ∧ t.mem = s.mem
        ∧ d.mx = { c.mx with acc := d.mx.acc, queue := rest,
                             stat := c.mx.stat ||| (BitVec.ofNat 64 (s.mem.readNat (base + 8192) 8) &&& sticky) } ∧ t.cores = s.cores)
      ∧ (isMac k.op = true → (k.chain = false ∨ k.seq = true) → (s.core core).weights ≠ [] → ∃ t, exec (.sequencerCommand core 0 0) s = .next t
        ∧ t.pend = s.pend ++ [.kstep core]
        ∧ ContextBecomes s { t with pend := s.pend } c.num { c with
          mx := { c.mx with queue := { k with start := some 0, step := 0 } :: rest } })
      ∧ ∀ pick start m, (k :: rest)[pick]? = some m → (∀ x ∈ (k :: rest).take (pick + 1), isMac x.op = true ∧ x.chain = true ∧ x.seq = false) →
        start < hKlen m.hdr / macSpan (macForm m.op) m.wsparse → (s.core core).weights ≠ [] →
        ∃ t, exec (.sequencerCommand core pick start) s = .next t ∧ t.pend = s.pend ++ [.kstep core]
          ∧ ContextBecomes s { t with pend := s.pend } c.num { c with
            mx := { c.mx with queue := (k :: rest).set pick { m with start := some start, step := 0 } } })
  ∧ (∀ s core c k rest first, s.mxRunning core = some c → s.findCtx c.num = some c → c.mx.queue = k :: rest → k.start = some first →
      (s.core core).weights ≠ [] →
      let f := macForm k.op
      let span := macSpan f k.wsparse
      let total := hKlen k.hdr / span
      let k0 := (first + k.step) % total * span
      let hb := (s.core core).whdr
      let b := (s.core core).weights
      let a := s.mem.read (padOff core (k.la + 16)) (hKlen k.hdr * hRows k.hdr * Flt.etWidth f.a / 8)
      k.step < total →
      (∀ off, k.wsparse = true → badUnit hb b k0 span = some off → exec (.kstep core) s = .next (s.imprecise c.num
        { code := 22, sub := 1, val := 0, aux1 := off, aux2 := 0, pc := k.pc, detail := 0 } (k.born + 1)))
      ∧ (k.wsparse = false ∨ badUnit hb b k0 span = none →
        let r := macStep f k0 span k.rm k.hdr hb k.wsparse a b c.mx.acc
        let anan : Word := if f.int = true ∧ (hE8 k.hdr = 255 ∨ hE8 hb = 255) then BitVec.ofNat 64 (2 ^ 45) else 0
        ∃ t d, exec (.kstep core) s = .next t ∧ t.findCtx c.num = some d ∧ d.mx.acc = r.1 ∧ d.mx.stat = c.mx.stat ||| r.2 ||| anan
          ∧ d.mx.queue = (if total ≤ k.step + 1 then rest else { k with step := k.step + 1 } :: rest)
          ∧ d.csrs = { c.csrs with energy := (c.charge (macEnergy k.op)).csrs.energy }
          ∧ t.pend = s.pend ++ (if k.step + 1 < total then [.kstep core] else if rest = [] then []
              else if rest.any (fun x => x.start.isSome) then [.kstep core] else [.sequencerCommand core 0 0])
          ∧ t.mem = s.mem ∧ t.cores = s.cores))
  ∧ (∀ s ctx c pc rest val, s.findCtx ctx = some c → c.ecalls = (pc, none) :: rest →
      ∃ t, exec (.ecallAnswer ctx val) s = .next t ∧ ContextBecomes s t ctx { c with ecalls := (pc, some val) :: rest })
  ∧ ∀ s id c limit, s.ctxAt id = some c → c.stall = some (.time limit) →
    (limit ≤ s.time → ∃ t, exec (.waittExpiry id) s = .next t ∧ t.ctxAt id = some { c with stall := some (.time 0) } ∧ Quiet s t)
    ∧ (s.time < limit → ∃ t, exec (.waittExpiry id) s = .next t ∧ t.ctxAt id = some c ∧ Quiet s t)

/-- R104, R332, R358, R362, R364 to R366, R370 to R372, R381, R384 to R387: the yield handler and its budget, the forced full save, the
resumption, an imprecise fault, the slice boundary, the swap of a scratchpad, and the time.
The model's own choices that this rests on: log entries 16, 17, 19, 20, 24, 30, 57 and 69. -/
def Obligations.PreemptionSteps : Prop :=
  (∀ s id c, s.ctxAt id = some c → c.phase = .quiesce →
      (∀ h, c.copying = false → c.handler 0 = some h → ∃ t d, exec (.copyQuiesceDone id) s = .next t ∧ t.ctxAt id = some d
        ∧ d.phase = .handler ∧ d.pc = BitVec.ofNat 32 h ∧ d.ipc = c.pc ∧ d.irepst = c.csrs.repst ∧ d.inYield = true ∧ d.regs = c.regs
        ∧ d.budgetEnd = c.cycles + field c.csrs.ybudget.toNat 0 17 ∧ bit d.csrs.repst.toNat 18 = false ∧ Quiet s t)
      ∧ (c.copying = false → c.handler 0 = none → c.inYield = false → c.finishing = false → ∃ t d, exec (.copyQuiesceDone id) s = .next t
        ∧ t.ctxAt id = some d ∧ d.phase = .saving ∧ d.forced = true ∧ d.pc = c.pc ∧ d.regs = c.regs
        ∧ t.pend = s.pend ++ [.forcedSaveComplete id])
      ∧ (c.copying = true → exec (.copyQuiesceDone id) s = .next s))
  ∧ (∀ s id c, s.ctxAt id = some c → c.phase = .handler → c.inYield = true →
      (c.budgetEnd ≤ c.cycles → ∃ t d, exec (.yieldBudgetOverrun id) s = .next t ∧ t.ctxAt id = some d ∧ d.phase = .saving
        ∧ d.forced = true ∧ d.pc = c.ipc ∧ d.csrs.repst = c.irepst ∧ d.inYield = false ∧ d.regs = c.regs
        ∧ t.pend = s.pend ++ [.forcedSaveComplete id])
      ∧ (c.cycles < c.budgetEnd → exec (.yieldBudgetOverrun id) s = .next s))
  ∧ (∀ s id c, s.ctxAt id = some c → c.phase = .saving → c.copying = false → c.fault = none → c.inYield = false → c.chain = [] →
      s.recLive c.part c.record = true → ∃ t d, exec (.forcedSaveComplete id) s = .next t ∧ t.hasSeat c.num = false
        ∧ t.findCtx c.num = some d ∧ d ∈ t.saved ∧ d.phase = .yielded ∧ d.forced = true ∧ d.regs = c.regs ∧ d.pc = c.pc ∧ d.mx = c.mx
        ∧ d.queues = c.queues ∧ d.order = c.order ∧ d.seatAt = id ∧ t.recState c.part c.record = 4
        ∧ (t.point (clusterOf (t.recHome c.part c.record))).queue.any (fun q => q.part == c.part && q.record == c.record) = true)
  ∧ (∀ s id c, s.saved = [c] → s.findCtx c.num = some c → s.recState c.part c.record = 4 → s.recLive c.part c.record = true →
      s.queued c.part c.record = false → s.resumeHolds c.part c.record [id] = true → c.forced = false → c.clobbered = false →
      (s.buffered c = true → Apart (s.bufferOf c.num) 0x28000 (s.recAddr c.part c.record) 64) →
      c.seatAt.core = id.core → (∀ q ∈ c.queues, q.cmds = []) → c.order.heldLost = [] → c.sendq = [[], []] → c.mx.queue = [] →
      s.sched.launches = [] →
      let b := { c with code := s.codeOf c }
      (∀ h ∈ b.code.binds, h ≠ 0 → dState (s.descAt (hIndex h)) ≠ 2 ∧ dState (s.descAt (hIndex h)) ≠ 3
        ∧ Apart (s.dcbField rtbase 0 45 + 32 * hIndex h) 32 (s.recAddr c.part c.record) 64) →
      let back := s.putInPlace c
      let word (off : Nat) : Word := BitVec.ofNat 64 (s.mem.readNat (s.bufferOf c.num + off) 8)
      let info := setField back.csrs.tinfo.toNat 19 4 (3 + 8 * ofBool c.evt)
      (s.buffered c = false → back = c)
      ∧ (s.buffered c = true → back.pc = (word 0).setWidth 32 ∧ back.regs.y0 = word 0x200 ∧ back.csrs.repst = word 0x150
        ∧ (c.rows = true → back.regs.s = c.regs.s ∧ back.regs.v = c.regs.v ∧ back.regs.m = c.regs.m))
      ∧ ∃ t d, exec (.contextResume [c.num] [id]) s = .next t ∧ t.ctxAt id = some d ∧ t.saved = [] ∧ d.phase = .running ∧ d.regs = back.regs
        ∧ d.seatAt = id ∧ d.num = c.num ∧ d.mx = c.mx ∧ d.stall = none ∧ d.forced = false ∧ t.recState c.part c.record = 3
        ∧ (back.inTrap = true ∨ b.handler 1 = none → d.pc = back.pc ∧ d.csrs = { back.csrs with tinfo := BitVec.ofNat 64 info })
        ∧ ∀ h, back.inTrap = false → b.handler 1 = some h → d.pc = BitVec.ofNat 32 h ∧ d.csrs.tpc = BitVec.ofNat 64 back.pc.toNat
          ∧ field d.csrs.tcause.toNat 0 8 = 1 ∧ d.inTrap = true ∧ field d.csrs.tinfo.toNat 19 4 = 3 + 8 * ofBool c.evt)
  ∧ (∀ s ctx c f, s.findCtx ctx = some c → c.fault = some f → (c.finishing = false ∨ s.hasSeat ctx = false) →
      (isPort ctx = false → exec (.impreciseFaultDelivery ctx) s = .next (s.fatal c f false (min 32 (c.retires - c.faultAt))))
      ∧ (isPort ctx = true → ∃ t, exec (.impreciseFaultDelivery ctx) s = .next t ∧ t.findCtx ctx = some { c with fault := none, moreFaults := [] }
        ∧ t.sent = .portReply (ctx - 0x100000) 0 [] :: s.sent ∧ t.mem = s.mem))
  ∧ (∀ s v n, s.boundaryDue = some (v, n) → s.deaf = false →
      (s.running = [] → ∃ t, exec .sliceBoundary s = .next t ∧ t.control.slice = n ∧ t.control.sliceNow = v ∧ t.control.slotsNext = []
        ∧ t.mem = s.mem ∧ t.dcb = s.dcb ∧ ContextsKeep s t
        ∧ ∀ k p, (s.enterSlice v n).scheduledAt k = some p → (s.scheduled p = false ∨ (s.core k).resident ≠ some p) →
          .scratchpadSwap k ∈ t.pend)
      ∧ ∀ c, s.running = [(s.cur, c)] → c.phase = .running → c.fault = none → c.finishing = false →
        (s.enterSlice v n).scheduled c.part = false → ∃ t d, exec .sliceBoundary s = .next t ∧ t.control.slice = n ∧ t.control.sliceNow = v
          ∧ t.cx = some d ∧ d.phase = .quiesce ∧ d.regs = c.regs ∧ d.pc = c.pc ∧ .copyQuiesceDone s.cur ∈ t.pend)
  ∧ (∀ s core p q, s.mem.wf = true → s.scheduledAt core = some p → s.inService core = true → s.coreIdle core = true →
      (s.core core).resident = some q → q ≠ p →
      let pad := padOff core 0
      let mine := s.swapImage p core
      let theirs := s.swapImage q core
      Apart pad 0x20000 mine 0x20000 → Apart pad 0x20000 theirs 0x20000 → Apart mine 0x20000 theirs 0x20000 →
      ∃ t, exec (.scratchpadSwap core) s = .next t ∧ (t.core core).resident = some p ∧ (t.core core).lines = []
        ∧ (∀ i < 0x20000, t.mem.get (pad + i) = s.mem.get (mine + i) ∧ t.mem.get (theirs + i) = s.mem.get (pad + i))
        ∧ (∀ a, Apart a 1 pad 0x20000 → Apart a 1 theirs 0x20000 → t.mem.get a = s.mem.get a)
        ∧ ((t.core core).mbrq, (t.core core).mbrp) = (look (s.core core).boxes p).getD (Mailbox.off, Mailbox.off)
        ∧ (∀ k, k ≠ core → t.core k = s.core k) ∧ t.cx = s.cx ∧ t.seats = s.seats)
  ∧ ∀ s, (∀ val : Word, 100 ≤ field val.toNat 0 24 → field val.toNat 0 24 ≤ 100000 → field val.toNat 27 37 = 0 →
      ∃ t, exec (.slicectlWrite val) s = .next t ∧ t.dcbGet slicectl = val ∧ t.control.sliceNext = s.control.sliceNext ++ [(val, s.time)]
        ∧ t.control.sliceNow = s.control.sliceNow ∧ t.control.slice = s.control.slice ∧ RegistersOnly s t [slicectl])
    ∧ (∀ val : Word, s.dcbField slicectl 27 37 = 0 → ∃ w : Word,
      exec (.controlBlockWrite slicectl (BitVec.allOnes 64) val) s = .next { s with pend := s.pend ++ [.slicectlWrite w] }
        ∧ field w.toNat 0 24 = min 100000 (max 100 (field val.toNat 0 24)) ∧ field w.toNat 24 3 = field val.toNat 24 3
        ∧ field w.toNat 27 37 = 0)
    ∧ ∀ time, exec (.ieee1588TimeSync time) s = .next { s with time := max s.time time }

/-- R86, R115, R373 to R375, R380, R381, R398: a kill floods, its routers discard for 4,096 mesh cycles, and it is confirmed; partitions
are formed, released and given other slots.
The model's own choices that this rests on: log entries 21 and 29. -/
def Obligations.KillAndPartitionSteps : Prop :=
  (∀ s, bit (s.dcbGet killcmd).toNat 63 = true → (∀ d ∈ s.control.purges, d.release ≠ none) →
      let tenant := s.dcbField killcmd 0 12
      let slot := if s.dcbField killcmd 12 1 = 1 then some (s.dcbField killcmd 13 12) else none
      exec .kill s = .next (s.flood tenant slot none)
      ∧ ∀ c, s.running = [(s.cur, c)] → s.cx = some c → s.saved = [] → s.ended = [] → c.inScope tenant slot = true → c.order.bundle = none →
        c.stall = none → s.sched.live = [] → s.fabric.msgs = [] → s.fabric.windows = [] →
        ∃ t d, exec .kill s = .next t ∧ t.cx = none ∧ t.seats = [] ∧ t.saved = [] ∧ t.ended = [] ∧ t.control.purges = s.control.purges ++ [d]
          ∧ d.tenant = tenant ∧ d.slot = slot ∧ d.release = none ∧ d.cores = allCores ∧ d.contexts = 1 ∧ t.mem = s.mem)
  ∧ (∀ s p idx, bit (s.dcbGet killcmd).toNat 63 = true → s.control.purges = [] → NothingRuns s → s.sched.live = [(p, idx)] →
      s.partTenant p = s.dcbField killcmd 0 12 → s.dcbField killcmd 12 1 = 0 → s.fabric.msgs = [] → s.fabric.windows = [] →
      (∀ w ∈ s.slices.waiters, w.dev = s.devNum → w.part = p ∧ w.record = idx) →
      ∃ t, exec .kill s = .next t ∧ t.recState p idx = 8 ∧ t.recLive p idx = false ∧ OnlyRecord s t p idx
        ∧ (∀ x ∈ t.sched.points, ∀ q ∈ x.2.queue, ¬ (q.part = p ∧ q.record = idx))
        ∧ ∀ w ∈ t.slices.waiters, ¬ (w.dev = s.devNum ∧ w.part = p ∧ w.record = idx))
  ∧ (∀ s core d, s.control.purges = [d] → ∃ t, exec (.killDiscardWindowEnd core) s = .next t
      ∧ t.control.purges = [if d.clock + 4096 ≤ s.clock then { d with cores := d.cores.filter (· != core) } else d]
      ∧ t.pend = s.pend ++ (if d.clock + 4096 ≤ s.clock ∧ d.cores ≠ [] ∧ d.cores.filter (· != core) = [] then
          [if d.release = none then .killConfirm else .partcmdComplete] else [])
      ∧ t = { s with control := { s.control with purges := t.control.purges }, pend := t.pend })
  ∧ (∀ s d, s.control.purges = [d] → d.release = none → d.cores = [] → ∃ t, exec .killConfirm s = .next t
      ∧ bit (t.dcbGet killcmd).toNat 63 = false ∧ t.dcbField killcmd 0 25 = s.dcbField killcmd 0 25
      ∧ t.dcbField killstat 0 16 = d.contexts % 2 ^ 16 ∧ t.dcbField killstat 16 16 = min 0xFFFF d.packets
      ∧ t.dcbField killstat 32 16 = min 0xFFFF ((s.time - d.start) / 10) ∧ t.control.purges = []
      ∧ RegistersOnly s t [killcmd, killstat] ∧ t.pend = s.pend)
  ∧ (∀ s, s.partBusy 0 = true →
      let p := s.cmdPart
      let status := if s.partState p ≠ 0 then 4
        else if s.partX1 p < s.partX0 p ∨ 47 < s.partX1 p ∨ s.partY1 p < s.partY0 p ∨ 31 < s.partY1 p then 2
        else if s.partTenant p = 0 ∨ (∃ q < 64, q ≠ p ∧ s.partState q ≠ 0 ∧ s.partTenant q = s.partTenant p) then 3
        else if s.overlap p true = true then 1 else 0
      ∃ t, exec .partitionForm s = .next t ∧ look t.control.started partcmd = some (BitVec.ofNat 64 status)
        ∧ t.pend = s.pend ++ [.partcmdComplete] ∧ t.partState p = (if status = 0 then 1 else s.partState p)
        ∧ (∀ a, t.mem.get a = if status = 0 ∧ s.swapBase p ≤ a ∧ a < s.swapBase p + s.swapSize p then 0 else s.mem.get a)
        ∧ (∀ off, off ≠ parttab p 0 → t.dcbGet off = s.dcbGet off) ∧ ContextsKeep s t
        ∧ ∀ q, look t.control.members q = if q = p ∧ status = 0 then some (BitVec.ofNat 64 (s.dcbField (parttab p 0) 0 22))
            else look s.control.members q)
  ∧ (∀ s, s.partBusy 1 = true → s.partLive s.cmdPart = false → ∃ t, exec .partitionRelease s = .next t
      ∧ look t.control.started partcmd = some 5 ∧ t.pend = s.pend ++ [.partcmdComplete] ∧ RegistersOnly s t [])
  ∧ (∀ s, s.partBusy 1 = true → s.partLive s.cmdPart = true → NothingRuns s → s.sched.live = [] → s.fabric.msgs = [] → s.fabric.windows = [] →
      ∃ t d, exec .partitionRelease s = .next t ∧ t.partState s.cmdPart = 3 ∧ look t.control.started partcmd = some 0
        ∧ t.control.purges = s.control.purges ++ [d] ∧ d.tenant = s.partTenant s.cmdPart ∧ d.slot = none ∧ d.release = some s.cmdPart
        ∧ d.cores = allCores ∧ t.mem = s.mem ∧ ∀ off, off ≠ parttab s.cmdPart 0 → t.dcbGet off = s.dcbGet off)
  ∧ (∀ s, s.partBusy 2 = true →
      let p := s.cmdPart
      let status := if s.partLive p = false then 5 else if s.overlap p false = true then 1 else 0
      ∃ t, exec .partitionReslot s = .next t ∧ look t.control.started partcmd = some (BitVec.ofNat 64 status)
        ∧ t.pend = s.pend ++ [.partcmdComplete] ∧ t.slotsSoon p = (if status = 0 then s.partSlots p else s.slotsSoon p)
        ∧ t.slotsOf p = s.slotsOf p ∧ RegistersOnly s t [])
  ∧ ∀ s st, look s.control.started partcmd = some st → st.toNat < 16 → s.cmdPart < 64 →
    let p := s.cmdPart
    let op := s.dcbField partcmd 6 2
    (op = 1 → st = 0 → ∀ d ∈ s.control.purges, d.release = some p → d.cores = []) →
    ∃ t, exec .partcmdComplete s = .next t ∧ t.dcbField partcmd 8 4 = st.toNat ∧ bit (t.dcbGet partcmd).toNat 63 = false
      ∧ look t.control.started partcmd = none ∧ t.pend = s.pend ∧ t.cx = s.cx ∧ t.seats = s.seats
      ∧ t.partState p = (if st = 0 ∧ op = 0 then 2 else if st = 0 ∧ op = 1 then 0 else s.partState p)
      ∧ (st = 0 → op = 0 → t.slotsOf p = s.partSlots p
        ∧ ∀ k < 1536, s.inRect p k = true → (s.core k).resident = none → (t.core k).resident = some p)
      ∧ (st = 0 → op = 1 → look t.control.members p = none ∧ (∀ l ∈ t.sched.launches, l.part ≠ p) ∧ (∀ k < 1536, (s.core k).resident = some p →
        (t.core k).resident = none ∧ (t.core k).weights = [] ∧ ∀ i < 0x20000, t.mem.get (padOff k i) = 0))

/-- R31, R34, R68, R390 to R396, R398, R407: the mode reset and its end, the rotation of a world's keys, attestation, the activation of
firmware, and the scale-out ports' requests.
The model's own choices that this rests on: log entries 22, 26, 27 and 28. -/
def Obligations.SecuritySteps : Prop :=
  (∀ s, bit (s.dcbGet modectl).toNat 63 = true → s.control.resetting = false → s.control.pfail = false → ∃ t, exec .modeReset s = .next t
      ∧ t.confidential = bit (s.dcbGet modectl).toNat 1 ∧ t.deaf = true ∧ t.mem = [] ∧ t.running = [] ∧ t.saved = [] ∧ t.ended = []
      ∧ t.control.keys = [] ∧ t.control.seals = [] ∧ t.control.members = [] ∧ t.control.receives = [] ∧ t.slices = Slices.fresh ∧ t.sched = Sched.fresh ∧ (∀ k, t.core k = Core.fresh)
      ∧ t.control.keySerial = s.control.keySerial + ofBool (bit (s.dcbGet modectl).toNat 1)
      ∧ (∀ p < 64, t.partState p = 0) ∧ bit (t.dcbGet modectl).toNat 63 = true ∧ t.pend = [.modeResetBootDone])
  ∧ (∀ s, s.control.resetting = true → ∃ t, exec .modeResetBootDone s = .next t ∧ t.control.resetting = false
      ∧ bit (t.dcbGet modectl).toNat 63 = false ∧ t.confidential = s.confidential ∧ RegistersOnly s t [modectl] ∧ t.pend = s.pend)
  ∧ (∀ s, bit (s.dcbGet keycmd).toNat 63 = true → look s.control.started keycmd = none →
      let world := s.dcbField keycmd 0 12
      ∃ t, exec .keyRotation s = .next t ∧ (∀ w, t.worldGen w = s.worldGen w) ∧ t.opensGen world ((s.worldGen world + 1) % 256) = true
        ∧ t.nextInstalled world = true ∧ look t.control.started keycmd = some (BitVec.ofNat 64 world)
        ∧ t.control.seals = s.control.seals ∧ t.pend = s.pend ++ [.keyRotation] ∧ RegistersOnly s t [])
  ∧ (∀ s w, bit (s.dcbGet keycmd).toNat 63 = true → look s.control.started keycmd = some w → s.nextInstalled w.toNat = true →
      let world := w.toNat
      let g := (s.worldGen world + 1) % 256
      ∃ t, exec .keyRotation s = .next t ∧ t.worldGen world = g ∧ t.opensGen world ((g + 255) % 256) = true ∧ t.nextInstalled world = false
        ∧ (∀ w, w ≠ world → t.worldGen w = s.worldGen w) ∧ t.dcbField keycmd 12 8 = g ∧ t.dcbField keycmd 0 12 = s.dcbField keycmd 0 12
        ∧ t.control.seals = s.control.seals ∧ t.pend = s.pend ++ [.keyRotationComplete] ∧ RegistersOnly s t [keycmd])
  ∧ (∀ s w, look s.control.started keycmd = some w → s.nextInstalled w.toNat = false →
      let g := s.worldGen w.toNat
      ∃ t, exec .keyRotationComplete s = .next t ∧ bit (t.dcbGet keycmd).toNat 63 = false ∧ t.worldGen w.toNat = g
        ∧ (∀ x ∈ t.control.seals, s.worldOf x.1 = w.toNat → x.2.2 ≠ (g + 255) % 256 ∨ g = (g + 255) % 256)
        ∧ (∀ blk count gen, (blk, count, gen) ∈ s.control.seals → s.worldOf blk ≠ w.toNat → (blk, count, gen) ∈ t.control.seals)
        ∧ look t.control.started keycmd = none ∧ RegistersOnly s t [keycmd])
  ∧ (∀ s part nonce, part < 64 → s.deaf = false → s.partLive part = true → ∃ t report, exec (.attestationRequest part nonce) s = .next t
      ∧ t = { s with sent := .attestation part report (Config.sign (bytesOf 64 (Config.shake report).toNat)) :: s.sent }
      ∧ report.length = 320
      ∧ let v := valOf report
        field v 0 32 = 0x41545352 ∧ field v 40 1 = ofBool s.confidential ∧ field v 41 1 = ofBool s.control.activating
        ∧ field v 48 12 = s.partTenant part ∧ field v 64 256 = nonce.toNat ∧ field v 320 512 = s.control.measures.fw.toNat
        ∧ field v 832 512 = s.control.measures.dtn.toNat ∧ field v 1344 512 = s.control.measures.tr.toNat
        ∧ field v 2432 64 = s.time % 2 ^ 64)
  ∧ (∀ s part nonce, s.deaf = true ∨ s.partLive part = false → exec (.attestationRequest part nonce) s = .next s)
  ∧ (∀ s, exec .firmwareActivationStart s = .next { s with control := { s.control with activating := true } })
  ∧ (∀ s m, s.control.activating = true → exec (.firmwareActivationComplete m) s
      = .next { s with control := { s.control with activating := false, measures := m } })
  ∧ (∀ s w held, s.deaf = false →
      (w.verb = .rdma → w.write = none → WorkMay s w w.len held → ∃ t, exec (.scaleoutWorkRequest w) s = .next t ∧ WritesOnly s t []
        ∧ ContextsKeep s t
        ∧ t.sent = s.sealFor (s.partTenant w.part) (.scaleOut { w with write := some (s.readBytes none held) } false) :: s.sent)
      ∧ (∀ bytes, w.verb = .rdma → w.write = some bytes → WorkMay s w bytes.length held → ∃ t, exec (.scaleoutWorkRequest w) s = .next t
        ∧ (∀ p ∈ held.zip bytes, t.mem.get p.1 = p.2) ∧ WritesOnly s t held ∧ ContextsKeep s t ∧ t.sent = .scaleOut w false :: s.sent)
      ∧ (w.verb = .send → w.write = none → WorkMay s w w.len held → ∃ t, exec (.scaleoutWorkRequest w) s = .next t ∧ WritesOnly s t []
        ∧ ContextsKeep s t
        ∧ t.sent = s.sealFor (s.partTenant w.part) (.scaleOut { w with write := some (s.readBytes none held) } false) :: s.sent)
      ∧ (w.verb = .receive → w.port < 2 → w.part < 64 → s.partLive w.part = true → exec (.scaleoutWorkRequest w) s
        = .next { s with control := { s.control with receives := s.control.receives ++ [w] } })
      ∧ (2 ≤ w.port ∨ s.partLive w.part = false → (w.verb = .send → w.write = none) → exec (.scaleoutWorkRequest w) s
        = .next { s with sent := .scaleOut w true :: s.sent }))
  ∧ ∀ s tenant gen tag w, s.deaf = false →
    (s.confidential = false ∨ tag = true ∧ s.opensGen tenant gen = true →
      (w.verb = .rdma → exec (.scaleoutPacket tenant gen tag w) s = exec (.scaleoutWorkRequest w) s)
      ∧ (∀ bytes r held, w.verb = .send → w.write = some bytes → s.control.receives = [r] → r.port = w.port → r.pair = w.pair →
        r.part = w.part → bytes.length ≤ r.len → WorkMay s { r with write := some bytes } bytes.length held →
        ∃ t, exec (.scaleoutPacket tenant gen tag w) s = .next t ∧ (∀ p ∈ held.zip bytes, t.mem.get p.1 = p.2) ∧ t.control.receives = []
          ∧ (∀ a, a ∉ held → t.mem.get a = s.mem.get a) ∧ ContextsKeep s t
          ∧ t.sent = .scaleOut { r with write := some bytes } false :: s.sent)
      ∧ (w.verb = .send → (∀ r ∈ s.control.receives, ¬ (r.port = w.port ∧ r.pair = w.pair ∧ r.part = w.part)) →
        exec (.scaleoutPacket tenant gen tag w) s = .next { s with sent := .scaleOut w true :: s.sent }))
    ∧ (s.confidential = true → tag = false ∨ s.opensGen tenant gen = false → ∃ t, exec (.scaleoutPacket tenant gen tag w) s = .next t
      ∧ t.dcbField intstat 32 16 = min 0xFFFF (s.dcbField intstat 32 16 + 1) ∧ RegistersOnly s t [intstat] ∧ t.sent = s.sent)

/-- R5, R18, R359, R366, R375, R391, R409 to R417: levels, stages and samples of power, the power-fail trap, its image and its restore,
the flush of rows, errors and the removal of a core, and the reset of the device.
The model's own choices that this rests on: log entries 12, 19, 20 and 22. -/
def Obligations.PowerAndFailureSteps : Prop :=
  (∀ s,
      let risen (i : Instr) (pins i3c cap : Nat) : Prop :=
        let old := max (max s.control.power.pins s.control.power.i3c) (s.dcbField pwrctl 0 3)
        let now := max (max pins i3c) cap
        ∃ t, exec i s = .next t ∧ t.control.power.pins = pins ∧ t.control.power.i3c = i3c ∧ t.dcbField pwrctl 0 3 = cap
          ∧ t.dcbField pwrstat 0 3 = now ∧ t.dcbField pwrstat 3 2 = (if pins = now then 0 else if i3c = now then 1 else 2)
          ∧ t.control.power.stage = (if old < now then max s.control.power.stage (([0, 3, 5, 7, 10, 12, 15, 18][now]?).getD 18)
            else s.control.power.stage)
          ∧ (old < now → t.dcbField pwrstat 5 5 = t.control.power.stage % 32) ∧ t.mem = s.mem ∧ ContextsKeep s t
      s.control.power.pins < 8 → s.control.power.i3c < 8 →
      (∀ pins : BitVec 3, risen (.powerStep pins) pins.toNat s.control.power.i3c (s.dcbField pwrctl 0 3))
      ∧ (∀ data : Byte, data.toNat < 8 → risen (.i3cPowerLevel data) s.control.power.pins data.toNat (s.dcbField pwrctl 0 3))
      ∧ ∀ val : Word, risen (.powerCapWrite val) s.control.power.pins s.control.power.i3c (val.toNat % 8))
  ∧ (∀ s (data : Byte), 8 ≤ data.toNat → exec (.i3cPowerLevel data) s = .next s)
  ∧ (∀ s watts, s.control.power.sampled + 10000 ≤ s.time → s.control.pfail = false → watts < 4096 →
      let level := s.levelNow
      let limit := ([3600, 3200, 2800, 2400, 2000, 1600, 1100, 600][level]?).getD 600
      level < 8 → limit < watts → ∃ t, exec (.powerSample watts) s = .next t
        ∧ t.control.power.stage = min 18 (s.control.power.stage + 1) ∧ t.control.power.sampled = s.time
        ∧ t.dcbField pwrstat 10 12 = watts
        ∧ (s.control.power.since + 1000000 < s.time → bit (t.dcbGet pwrstat).toNat 22 = true) ∧ t.mem = s.mem)
  ∧ (∀ s watts, s.time < s.control.power.sampled + 10000 → exec (.powerSample watts) s = .next s)
  ∧ (∀ s c, s.control.pfail = false → s.pend = [] → s.cx = some c → s.seats = [] → c.fault = none → c.inYield = false → c.order.owed = [] →
      ∃ t d, exec .powerFail s = .next t ∧ t.control.pfail = true ∧ t.control.power.stage = 18 ∧ t.cx = some d ∧ d.phase = .saving
        ∧ d.forced = true ∧ d.regs = c.regs ∧ d.pc = c.pc ∧ d.mx = c.mx ∧ (∀ q ∈ d.queues, q.cmds = []) ∧ d.order.outs = []
        ∧ d.order.tokens = [] ∧ (∀ b, c.order.bundle = some b → ∃ b', d.order.bundle = some b' ∧ b'.doomed = some (4, none))
        ∧ t.mem = s.mem ∧ t.saved = s.saved ∧ t.fabric.msgs = [])
  ∧ (∀ s, s.control.pfail = true → s.control.drained = false → ∃ t img, exec .flashDrainDone s = .next t ∧ t.control.flash = some img
      ∧ t.control.drained = true ∧ img.conf = s.confidential ∧ img.tarns = s.slices.versions ∧ img.ctxs.length = s.running.length
      ∧ (∀ p ∈ s.running, ∃ d ∈ img.ctxs, d.num = p.2.num ∧ d.regs = p.2.regs ∧ d.mx = p.2.mx ∧ d.pc = p.2.pc)
      ∧ (∀ x, x ∈ img.pads ↔ x ∈ s.mem ∧ (bankCore x.1).isSome = true) ∧ t.sent = .flashDone :: s.sent
      ∧ t = { s with control := { s.control with flash := some img, drained := true }, sent := t.sent })
  ∧ (∀ s img, s.control.flash = some img → s.deaf = false →
      (∀ sig accept, sig = false ∨ img.conf ≠ s.confidential →
        exec (.powerFailRestore sig accept) s = .next { s with control := { s.control with flash := none } })
      ∧ (∀ core p, img.conf = s.confidential → p < 64 → s.partLive p = true → img.resident = [(core, p)] → img.ctxs = [] → s.poolCnt p = 0 →
        s.mem.wf = true → img.pads.wf = true → core < 1536 →
        ∃ t, exec (.powerFailRestore true [p]) s = .next t ∧ (t.core core).resident = some p ∧ t.control.flash = none
          ∧ (∀ i < 0x20000, t.mem.get (padOff core i) = img.pads.get (padOff core i))
          ∧ (∀ a, (a < padOff core 0 ∨ padOff core 0 + 0x20000 ≤ a) → bankCore a ≠ some core → t.mem.get a = s.mem.get a)))
  ∧ (∀ s, bit (s.dcbGet rowflush).toNat 63 = true → exec .rowFlush s = .next { s with
      mem := (s.saved.filter fun c => c.rows && s.buffered c).foldl (fun m c => Memory.write m (s.bufferOf c.num + 0x4800) c.rowBytes) s.mem,
      pend := s.pend ++ [.rowFlushComplete] })
  ∧ (∀ s, ∃ t, exec .rowFlushComplete s = .next t ∧ bit (t.dcbGet rowflush).toNat 63 = false ∧ RegistersOnly s t [rowflush]
      ∧ t.control = s.control ∧ t.pend = s.pend)
  ∧ (∀ s (e : EccErr), (e.sub = 1 ∨ e.sub = 6) → s.inService e.core = true →
      let written := e.sub = 1 ∧ s.confidential = true ∧ look s.control.seals (gaOff e.val.toNat / 512) ≠ none
      (e.tag = true → ¬ written → exec (.uncorrectableError e) s = .next s)
      ∧ (e.tag = false ∨ written → e.ctx = none → ∃ t, exec (.uncorrectableError e) s = .next t ∧ RegistersOnly s t [intstat] ∧ t.pend = s.pend
        ∧ t.dcbField intstat 0 32 = (if e.tag = true then min (2 ^ 32 - 1) (s.dcbField intstat 0 32 + 1) else s.dcbField intstat 0 32))
      ∧ ∀ n c, e.ctx = some n → s.findCtx n = some c → c.fault = none → e.tag = false →
        ∃ t, exec (.uncorrectableError e) s = .next t ∧ t.pend = s.pend ++ [.impreciseFaultDelivery n]
          ∧ ContextBecomes s { t with pend := s.pend } n { c with
            faultAt := c.retires, fault := some { code := 17, sub := e.sub, val := e.val, aux1 := 0, aux2 := 0, pc := c.pc, detail := 0 } })
  ∧ (∀ s (e : EccErr), 2 ≤ e.sub → e.sub ≤ 5 → s.inService e.core = true → s.running = [] → e.ctx = none → e.tag = false →
      ∃ t, exec (.uncorrectableError e) s = .next t ∧ t.inService e.core = false ∧ t.dcbField devstat 0 1 = 1
        ∧ t.sent = .replReq :: s.sent ∧ t.dcbField devstat 1 11 = (allCores.filter fun k => !t.inService k).length
        ∧ RegistersOnly s t [oosmap (e.core / 64), devstat])
  ∧ (∀ s core, s.inService core = true → s.running = [] → s.control.removing = [] →
      let recent := ((s.core core).cerr.filter fun t => decide (s.time < t + 1000000000)).length + 1
      let limit := s.dcbField errthr 0 16
      ∃ t, exec (.correctedError core) s = .next t
        ∧ t.inService core = decide (limit = 0 ∨ recent < limit) ∧ (t.core core).cerr.length = recent ∧ t.mem = s.mem
        ∧ (∀ k, k ≠ core → t.inService k = s.inService k) ∧ t.pend = s.pend)
  ∧ ∀ s failed, ∃ t, exec (.deviceReset failed) s = .next t ∧ t.mem = [] ∧ t.running = [] ∧ t.saved = [] ∧ t.ended = [] ∧ t.pend = []
    ∧ t.slices = Slices.fresh ∧ t.sched = Sched.fresh ∧ t.fabric = Fabric.fresh ∧ t.cores = []
    ∧ t.confidential = s.confidential ∧ t.devNum = s.devNum ∧ t.control.flash = s.control.flash
    ∧ (∀ k < 1536, t.inService k = decide (k ∉ failed))
    ∧ (∀ off, off ≠ modectl → off ≠ devstat → (∀ w, off ≠ oosmap w) → t.dcbGet off = dcbReset off)
end

