-- ==== Sys2Proof/Laws/State.lean ====
section
/-! SUPPORT. One lemma for each field of the state under each of the named updates, and for each part of a context under its own. -/

namespace Sys2Proof.Machine

open Sys2Proof.Bits

/-! ## State -/

@[simp] theorem State.mapCx_cur (s : State) (f : Ctx → Ctx) : (s.mapCx f).cur = s.cur := rfl
@[simp] theorem State.mapCx_cx (s : State) (f : Ctx → Ctx) : (s.mapCx f).cx = s.cx.map f := rfl
@[simp] theorem State.mapCx_seats (s : State) (f : Ctx → Ctx) : (s.mapCx f).seats = s.seats := rfl
@[simp] theorem State.mapCx_saved (s : State) (f : Ctx → Ctx) : (s.mapCx f).saved = s.saved := rfl
@[simp] theorem State.mapCx_ended (s : State) (f : Ctx → Ctx) : (s.mapCx f).ended = s.ended := rfl
@[simp] theorem State.mapCx_mem (s : State) (f : Ctx → Ctx) : (s.mapCx f).mem = s.mem := rfl
@[simp] theorem State.mapCx_dcb (s : State) (f : Ctx → Ctx) : (s.mapCx f).dcb = s.dcb := rfl
@[simp] theorem State.mapCx_cores (s : State) (f : Ctx → Ctx) : (s.mapCx f).cores = s.cores := rfl
@[simp] theorem State.mapCx_slices (s : State) (f : Ctx → Ctx) : (s.mapCx f).slices = s.slices := rfl
@[simp] theorem State.mapCx_sched (s : State) (f : Ctx → Ctx) : (s.mapCx f).sched = s.sched := rfl
@[simp] theorem State.mapCx_fabric (s : State) (f : Ctx → Ctx) : (s.mapCx f).fabric = s.fabric := rfl
@[simp] theorem State.mapCx_control (s : State) (f : Ctx → Ctx) : (s.mapCx f).control = s.control := rfl
@[simp] theorem State.mapCx_devNum (s : State) (f : Ctx → Ctx) : (s.mapCx f).devNum = s.devNum := rfl
@[simp] theorem State.mapCx_time (s : State) (f : Ctx → Ctx) : (s.mapCx f).time = s.time := rfl
@[simp] theorem State.mapCx_clock (s : State) (f : Ctx → Ctx) : (s.mapCx f).clock = s.clock := rfl
@[simp] theorem State.mapCx_fresh (s : State) (f : Ctx → Ctx) : (s.mapCx f).fresh = s.fresh := rfl
@[simp] theorem State.mapCx_pend (s : State) (f : Ctx → Ctx) : (s.mapCx f).pend = s.pend := rfl
@[simp] theorem State.mapCx_agenda (s : State) (f : Ctx → Ctx) : (s.mapCx f).agenda = s.agenda := rfl
@[simp] theorem State.mapCx_sent (s : State) (f : Ctx → Ctx) : (s.mapCx f).sent = s.sent := rfl

@[simp] theorem State.setCx_cur (s : State) (c : Ctx) : (s.setCx c).cur = s.cur := rfl
@[simp] theorem State.setCx_cx (s : State) (c : Ctx) : (s.setCx c).cx = some c := rfl
@[simp] theorem State.setCx_seats (s : State) (c : Ctx) : (s.setCx c).seats = s.seats := rfl
@[simp] theorem State.setCx_saved (s : State) (c : Ctx) : (s.setCx c).saved = s.saved := rfl
@[simp] theorem State.setCx_ended (s : State) (c : Ctx) : (s.setCx c).ended = s.ended := rfl
@[simp] theorem State.setCx_mem (s : State) (c : Ctx) : (s.setCx c).mem = s.mem := rfl
@[simp] theorem State.setCx_dcb (s : State) (c : Ctx) : (s.setCx c).dcb = s.dcb := rfl
@[simp] theorem State.setCx_cores (s : State) (c : Ctx) : (s.setCx c).cores = s.cores := rfl
@[simp] theorem State.setCx_slices (s : State) (c : Ctx) : (s.setCx c).slices = s.slices := rfl
@[simp] theorem State.setCx_sched (s : State) (c : Ctx) : (s.setCx c).sched = s.sched := rfl
@[simp] theorem State.setCx_fabric (s : State) (c : Ctx) : (s.setCx c).fabric = s.fabric := rfl
@[simp] theorem State.setCx_control (s : State) (c : Ctx) : (s.setCx c).control = s.control := rfl
@[simp] theorem State.setCx_devNum (s : State) (c : Ctx) : (s.setCx c).devNum = s.devNum := rfl
@[simp] theorem State.setCx_time (s : State) (c : Ctx) : (s.setCx c).time = s.time := rfl
@[simp] theorem State.setCx_clock (s : State) (c : Ctx) : (s.setCx c).clock = s.clock := rfl
@[simp] theorem State.setCx_fresh (s : State) (c : Ctx) : (s.setCx c).fresh = s.fresh := rfl
@[simp] theorem State.setCx_pend (s : State) (c : Ctx) : (s.setCx c).pend = s.pend := rfl
@[simp] theorem State.setCx_agenda (s : State) (c : Ctx) : (s.setCx c).agenda = s.agenda := rfl
@[simp] theorem State.setCx_sent (s : State) (c : Ctx) : (s.setCx c).sent = s.sent := rfl

@[simp] theorem State.mapCore_cur (s : State) (k : Nat) (f : Core → Core) : (s.mapCore k f).cur = s.cur := rfl
@[simp] theorem State.mapCore_cx (s : State) (k : Nat) (f : Core → Core) : (s.mapCore k f).cx = s.cx := rfl
@[simp] theorem State.mapCore_seats (s : State) (k : Nat) (f : Core → Core) : (s.mapCore k f).seats = s.seats := rfl
@[simp] theorem State.mapCore_saved (s : State) (k : Nat) (f : Core → Core) : (s.mapCore k f).saved = s.saved := rfl
@[simp] theorem State.mapCore_ended (s : State) (k : Nat) (f : Core → Core) : (s.mapCore k f).ended = s.ended := rfl
@[simp] theorem State.mapCore_mem (s : State) (k : Nat) (f : Core → Core) : (s.mapCore k f).mem = s.mem := rfl
@[simp] theorem State.mapCore_dcb (s : State) (k : Nat) (f : Core → Core) : (s.mapCore k f).dcb = s.dcb := rfl
@[simp] theorem State.mapCore_cores (s : State) (k : Nat) (f : Core → Core) : (s.mapCore k f).cores = put s.cores k (f (s.core k)) := rfl
@[simp] theorem State.mapCore_slices (s : State) (k : Nat) (f : Core → Core) : (s.mapCore k f).slices = s.slices := rfl
@[simp] theorem State.mapCore_sched (s : State) (k : Nat) (f : Core → Core) : (s.mapCore k f).sched = s.sched := rfl
@[simp] theorem State.mapCore_fabric (s : State) (k : Nat) (f : Core → Core) : (s.mapCore k f).fabric = s.fabric := rfl
@[simp] theorem State.mapCore_control (s : State) (k : Nat) (f : Core → Core) : (s.mapCore k f).control = s.control := rfl
@[simp] theorem State.mapCore_devNum (s : State) (k : Nat) (f : Core → Core) : (s.mapCore k f).devNum = s.devNum := rfl
@[simp] theorem State.mapCore_time (s : State) (k : Nat) (f : Core → Core) : (s.mapCore k f).time = s.time := rfl
@[simp] theorem State.mapCore_clock (s : State) (k : Nat) (f : Core → Core) : (s.mapCore k f).clock = s.clock := rfl
@[simp] theorem State.mapCore_fresh (s : State) (k : Nat) (f : Core → Core) : (s.mapCore k f).fresh = s.fresh := rfl
@[simp] theorem State.mapCore_pend (s : State) (k : Nat) (f : Core → Core) : (s.mapCore k f).pend = s.pend := rfl
@[simp] theorem State.mapCore_agenda (s : State) (k : Nat) (f : Core → Core) : (s.mapCore k f).agenda = s.agenda := rfl
@[simp] theorem State.mapCore_sent (s : State) (k : Nat) (f : Core → Core) : (s.mapCore k f).sent = s.sent := rfl

@[simp] theorem State.mapCores_cur (s : State) (f : Core → Core) : (s.mapCores f).cur = s.cur := rfl
@[simp] theorem State.mapCores_cx (s : State) (f : Core → Core) : (s.mapCores f).cx = s.cx := rfl
@[simp] theorem State.mapCores_seats (s : State) (f : Core → Core) : (s.mapCores f).seats = s.seats := rfl
@[simp] theorem State.mapCores_saved (s : State) (f : Core → Core) : (s.mapCores f).saved = s.saved := rfl
@[simp] theorem State.mapCores_ended (s : State) (f : Core → Core) : (s.mapCores f).ended = s.ended := rfl
@[simp] theorem State.mapCores_mem (s : State) (f : Core → Core) : (s.mapCores f).mem = s.mem := rfl
@[simp] theorem State.mapCores_dcb (s : State) (f : Core → Core) : (s.mapCores f).dcb = s.dcb := rfl
@[simp] theorem State.mapCores_cores (s : State) (f : Core → Core) : (s.mapCores f).cores = s.cores.map fun p => (p.1, f p.2) := rfl
@[simp] theorem State.mapCores_slices (s : State) (f : Core → Core) : (s.mapCores f).slices = s.slices := rfl
@[simp] theorem State.mapCores_sched (s : State) (f : Core → Core) : (s.mapCores f).sched = s.sched := rfl
@[simp] theorem State.mapCores_fabric (s : State) (f : Core → Core) : (s.mapCores f).fabric = s.fabric := rfl
@[simp] theorem State.mapCores_control (s : State) (f : Core → Core) : (s.mapCores f).control = s.control := rfl
@[simp] theorem State.mapCores_devNum (s : State) (f : Core → Core) : (s.mapCores f).devNum = s.devNum := rfl
@[simp] theorem State.mapCores_time (s : State) (f : Core → Core) : (s.mapCores f).time = s.time := rfl
@[simp] theorem State.mapCores_clock (s : State) (f : Core → Core) : (s.mapCores f).clock = s.clock := rfl
@[simp] theorem State.mapCores_fresh (s : State) (f : Core → Core) : (s.mapCores f).fresh = s.fresh := rfl
@[simp] theorem State.mapCores_pend (s : State) (f : Core → Core) : (s.mapCores f).pend = s.pend := rfl
@[simp] theorem State.mapCores_agenda (s : State) (f : Core → Core) : (s.mapCores f).agenda = s.agenda := rfl
@[simp] theorem State.mapCores_sent (s : State) (f : Core → Core) : (s.mapCores f).sent = s.sent := rfl

@[simp] theorem State.owe_cur (s : State) (i : Instr) : (s.owe i).cur = s.cur := rfl
@[simp] theorem State.owe_cx (s : State) (i : Instr) : (s.owe i).cx = s.cx := rfl
@[simp] theorem State.owe_seats (s : State) (i : Instr) : (s.owe i).seats = s.seats := rfl
@[simp] theorem State.owe_saved (s : State) (i : Instr) : (s.owe i).saved = s.saved := rfl
@[simp] theorem State.owe_ended (s : State) (i : Instr) : (s.owe i).ended = s.ended := rfl
@[simp] theorem State.owe_mem (s : State) (i : Instr) : (s.owe i).mem = s.mem := rfl
@[simp] theorem State.owe_dcb (s : State) (i : Instr) : (s.owe i).dcb = s.dcb := rfl
@[simp] theorem State.owe_cores (s : State) (i : Instr) : (s.owe i).cores = s.cores := rfl
@[simp] theorem State.owe_slices (s : State) (i : Instr) : (s.owe i).slices = s.slices := rfl
@[simp] theorem State.owe_sched (s : State) (i : Instr) : (s.owe i).sched = s.sched := rfl
@[simp] theorem State.owe_fabric (s : State) (i : Instr) : (s.owe i).fabric = s.fabric := rfl
@[simp] theorem State.owe_control (s : State) (i : Instr) : (s.owe i).control = s.control := rfl
@[simp] theorem State.owe_devNum (s : State) (i : Instr) : (s.owe i).devNum = s.devNum := rfl
@[simp] theorem State.owe_time (s : State) (i : Instr) : (s.owe i).time = s.time := rfl
@[simp] theorem State.owe_clock (s : State) (i : Instr) : (s.owe i).clock = s.clock := rfl
@[simp] theorem State.owe_fresh (s : State) (i : Instr) : (s.owe i).fresh = s.fresh := rfl
@[simp] theorem State.owe_pend (s : State) (i : Instr) : (s.owe i).pend = s.pend ++ [i] := rfl
@[simp] theorem State.owe_agenda (s : State) (i : Instr) : (s.owe i).agenda = s.agenda := rfl
@[simp] theorem State.owe_sent (s : State) (i : Instr) : (s.owe i).sent = s.sent := rfl

@[simp] theorem State.send_cur (s : State) (x : Sent) : (s.send x).cur = s.cur := rfl
@[simp] theorem State.send_cx (s : State) (x : Sent) : (s.send x).cx = s.cx := rfl
@[simp] theorem State.send_seats (s : State) (x : Sent) : (s.send x).seats = s.seats := rfl
@[simp] theorem State.send_saved (s : State) (x : Sent) : (s.send x).saved = s.saved := rfl
@[simp] theorem State.send_ended (s : State) (x : Sent) : (s.send x).ended = s.ended := rfl
@[simp] theorem State.send_mem (s : State) (x : Sent) : (s.send x).mem = s.mem := rfl
@[simp] theorem State.send_dcb (s : State) (x : Sent) : (s.send x).dcb = s.dcb := rfl
@[simp] theorem State.send_cores (s : State) (x : Sent) : (s.send x).cores = s.cores := rfl
@[simp] theorem State.send_slices (s : State) (x : Sent) : (s.send x).slices = s.slices := rfl
@[simp] theorem State.send_sched (s : State) (x : Sent) : (s.send x).sched = s.sched := rfl
@[simp] theorem State.send_fabric (s : State) (x : Sent) : (s.send x).fabric = s.fabric := rfl
@[simp] theorem State.send_control (s : State) (x : Sent) : (s.send x).control = s.control := rfl
@[simp] theorem State.send_devNum (s : State) (x : Sent) : (s.send x).devNum = s.devNum := rfl
@[simp] theorem State.send_time (s : State) (x : Sent) : (s.send x).time = s.time := rfl
@[simp] theorem State.send_clock (s : State) (x : Sent) : (s.send x).clock = s.clock := rfl
@[simp] theorem State.send_fresh (s : State) (x : Sent) : (s.send x).fresh = s.fresh := rfl
@[simp] theorem State.send_pend (s : State) (x : Sent) : (s.send x).pend = s.pend := rfl
@[simp] theorem State.send_agenda (s : State) (x : Sent) : (s.send x).agenda = s.agenda := rfl
@[simp] theorem State.send_sent (s : State) (x : Sent) : (s.send x).sent = x :: s.sent := rfl

@[simp] theorem State.dcbSet_cur (s : State) (off : Nat) (v : Word) : (s.dcbSet off v).cur = s.cur := rfl
@[simp] theorem State.dcbSet_cx (s : State) (off : Nat) (v : Word) : (s.dcbSet off v).cx = s.cx := rfl
@[simp] theorem State.dcbSet_seats (s : State) (off : Nat) (v : Word) : (s.dcbSet off v).seats = s.seats := rfl
@[simp] theorem State.dcbSet_saved (s : State) (off : Nat) (v : Word) : (s.dcbSet off v).saved = s.saved := rfl
@[simp] theorem State.dcbSet_ended (s : State) (off : Nat) (v : Word) : (s.dcbSet off v).ended = s.ended := rfl
@[simp] theorem State.dcbSet_mem (s : State) (off : Nat) (v : Word) : (s.dcbSet off v).mem = s.mem := rfl
@[simp] theorem State.dcbSet_dcb (s : State) (off : Nat) (v : Word) : (s.dcbSet off v).dcb = if v = dcbReset off then drop s.dcb off else put s.dcb off v := rfl
@[simp] theorem State.dcbSet_cores (s : State) (off : Nat) (v : Word) : (s.dcbSet off v).cores = s.cores := rfl
@[simp] theorem State.dcbSet_slices (s : State) (off : Nat) (v : Word) : (s.dcbSet off v).slices = s.slices := rfl
@[simp] theorem State.dcbSet_sched (s : State) (off : Nat) (v : Word) : (s.dcbSet off v).sched = s.sched := rfl
@[simp] theorem State.dcbSet_fabric (s : State) (off : Nat) (v : Word) : (s.dcbSet off v).fabric = s.fabric := rfl
@[simp] theorem State.dcbSet_control (s : State) (off : Nat) (v : Word) : (s.dcbSet off v).control = s.control := rfl
@[simp] theorem State.dcbSet_devNum (s : State) (off : Nat) (v : Word) : (s.dcbSet off v).devNum = s.devNum := rfl
@[simp] theorem State.dcbSet_time (s : State) (off : Nat) (v : Word) : (s.dcbSet off v).time = s.time := rfl
@[simp] theorem State.dcbSet_clock (s : State) (off : Nat) (v : Word) : (s.dcbSet off v).clock = s.clock := rfl
@[simp] theorem State.dcbSet_fresh (s : State) (off : Nat) (v : Word) : (s.dcbSet off v).fresh = s.fresh := rfl
@[simp] theorem State.dcbSet_pend (s : State) (off : Nat) (v : Word) : (s.dcbSet off v).pend = s.pend := rfl
@[simp] theorem State.dcbSet_agenda (s : State) (off : Nat) (v : Word) : (s.dcbSet off v).agenda = s.agenda := rfl
@[simp] theorem State.dcbSet_sent (s : State) (off : Nat) (v : Word) : (s.dcbSet off v).sent = s.sent := rfl

@[simp] theorem State.dcbSetField_cur (s : State) (off lo len v : Nat) : (s.dcbSetField off lo len v).cur = s.cur := rfl
@[simp] theorem State.dcbSetField_cx (s : State) (off lo len v : Nat) : (s.dcbSetField off lo len v).cx = s.cx := rfl
@[simp] theorem State.dcbSetField_seats (s : State) (off lo len v : Nat) : (s.dcbSetField off lo len v).seats = s.seats := rfl
@[simp] theorem State.dcbSetField_saved (s : State) (off lo len v : Nat) : (s.dcbSetField off lo len v).saved = s.saved := rfl
@[simp] theorem State.dcbSetField_ended (s : State) (off lo len v : Nat) : (s.dcbSetField off lo len v).ended = s.ended := rfl
@[simp] theorem State.dcbSetField_mem (s : State) (off lo len v : Nat) : (s.dcbSetField off lo len v).mem = s.mem := rfl
@[simp] theorem State.dcbSetField_cores (s : State) (off lo len v : Nat) : (s.dcbSetField off lo len v).cores = s.cores := rfl
@[simp] theorem State.dcbSetField_slices (s : State) (off lo len v : Nat) : (s.dcbSetField off lo len v).slices = s.slices := rfl
@[simp] theorem State.dcbSetField_sched (s : State) (off lo len v : Nat) : (s.dcbSetField off lo len v).sched = s.sched := rfl
@[simp] theorem State.dcbSetField_fabric (s : State) (off lo len v : Nat) : (s.dcbSetField off lo len v).fabric = s.fabric := rfl
@[simp] theorem State.dcbSetField_control (s : State) (off lo len v : Nat) : (s.dcbSetField off lo len v).control = s.control := rfl
@[simp] theorem State.dcbSetField_devNum (s : State) (off lo len v : Nat) : (s.dcbSetField off lo len v).devNum = s.devNum := rfl
@[simp] theorem State.dcbSetField_time (s : State) (off lo len v : Nat) : (s.dcbSetField off lo len v).time = s.time := rfl
@[simp] theorem State.dcbSetField_clock (s : State) (off lo len v : Nat) : (s.dcbSetField off lo len v).clock = s.clock := rfl
@[simp] theorem State.dcbSetField_fresh (s : State) (off lo len v : Nat) : (s.dcbSetField off lo len v).fresh = s.fresh := rfl
@[simp] theorem State.dcbSetField_pend (s : State) (off lo len v : Nat) : (s.dcbSetField off lo len v).pend = s.pend := rfl
@[simp] theorem State.dcbSetField_agenda (s : State) (off lo len v : Nat) : (s.dcbSetField off lo len v).agenda = s.agenda := rfl
@[simp] theorem State.dcbSetField_sent (s : State) (off lo len v : Nat) : (s.dcbSetField off lo len v).sent = s.sent := rfl

@[simp] theorem State.updCtx_cur (s : State) (n : Nat) (f : Ctx → Ctx) : (s.updCtx n f).cur = s.cur := rfl
@[simp] theorem State.updCtx_cx (s : State) (n : Nat) (f : Ctx → Ctx) : (s.updCtx n f).cx = s.cx.map fun c => if c.num = n then f c else c := rfl
@[simp] theorem State.updCtx_seats (s : State) (n : Nat) (f : Ctx → Ctx) : (s.updCtx n f).seats = s.seats.map fun p => (p.1, if p.2.num = n then f p.2 else p.2) := rfl
@[simp] theorem State.updCtx_saved (s : State) (n : Nat) (f : Ctx → Ctx) : (s.updCtx n f).saved = s.saved.map fun c => if c.num = n then f c else c := rfl
@[simp] theorem State.updCtx_ended (s : State) (n : Nat) (f : Ctx → Ctx) : (s.updCtx n f).ended = s.ended.map fun c => if c.num = n then f c else c := rfl
@[simp] theorem State.updCtx_mem (s : State) (n : Nat) (f : Ctx → Ctx) : (s.updCtx n f).mem = s.mem := rfl
@[simp] theorem State.updCtx_dcb (s : State) (n : Nat) (f : Ctx → Ctx) : (s.updCtx n f).dcb = s.dcb := rfl
@[simp] theorem State.updCtx_cores (s : State) (n : Nat) (f : Ctx → Ctx) : (s.updCtx n f).cores = s.cores := rfl
@[simp] theorem State.updCtx_slices (s : State) (n : Nat) (f : Ctx → Ctx) : (s.updCtx n f).slices = s.slices := rfl
@[simp] theorem State.updCtx_sched (s : State) (n : Nat) (f : Ctx → Ctx) : (s.updCtx n f).sched = s.sched := rfl
@[simp] theorem State.updCtx_fabric (s : State) (n : Nat) (f : Ctx → Ctx) : (s.updCtx n f).fabric = s.fabric := rfl
@[simp] theorem State.updCtx_control (s : State) (n : Nat) (f : Ctx → Ctx) : (s.updCtx n f).control = s.control := rfl
@[simp] theorem State.updCtx_devNum (s : State) (n : Nat) (f : Ctx → Ctx) : (s.updCtx n f).devNum = s.devNum := rfl
@[simp] theorem State.updCtx_time (s : State) (n : Nat) (f : Ctx → Ctx) : (s.updCtx n f).time = s.time := rfl
@[simp] theorem State.updCtx_clock (s : State) (n : Nat) (f : Ctx → Ctx) : (s.updCtx n f).clock = s.clock := rfl
@[simp] theorem State.updCtx_fresh (s : State) (n : Nat) (f : Ctx → Ctx) : (s.updCtx n f).fresh = s.fresh := rfl
@[simp] theorem State.updCtx_pend (s : State) (n : Nat) (f : Ctx → Ctx) : (s.updCtx n f).pend = s.pend := rfl
@[simp] theorem State.updCtx_agenda (s : State) (n : Nat) (f : Ctx → Ctx) : (s.updCtx n f).agenda = s.agenda := rfl
@[simp] theorem State.updCtx_sent (s : State) (n : Nat) (f : Ctx → Ctx) : (s.updCtx n f).sent = s.sent := rfl

@[simp] theorem State.dropCtx_cur (s : State) (n : Nat) : (s.dropCtx n).cur = s.cur := rfl
@[simp] theorem State.dropCtx_seats (s : State) (n : Nat) : (s.dropCtx n).seats = s.seats.filter fun p => p.2.num != n := rfl
@[simp] theorem State.dropCtx_saved (s : State) (n : Nat) : (s.dropCtx n).saved = s.saved.filter fun c => c.num != n := rfl
@[simp] theorem State.dropCtx_ended (s : State) (n : Nat) : (s.dropCtx n).ended = s.ended := rfl
@[simp] theorem State.dropCtx_mem (s : State) (n : Nat) : (s.dropCtx n).mem = s.mem := rfl
@[simp] theorem State.dropCtx_dcb (s : State) (n : Nat) : (s.dropCtx n).dcb = s.dcb := rfl
@[simp] theorem State.dropCtx_cores (s : State) (n : Nat) : (s.dropCtx n).cores = s.cores := rfl
@[simp] theorem State.dropCtx_slices (s : State) (n : Nat) : (s.dropCtx n).slices = s.slices := rfl
@[simp] theorem State.dropCtx_sched (s : State) (n : Nat) : (s.dropCtx n).sched = s.sched := rfl
@[simp] theorem State.dropCtx_fabric (s : State) (n : Nat) : (s.dropCtx n).fabric = s.fabric := rfl
@[simp] theorem State.dropCtx_control (s : State) (n : Nat) : (s.dropCtx n).control = s.control := rfl
@[simp] theorem State.dropCtx_devNum (s : State) (n : Nat) : (s.dropCtx n).devNum = s.devNum := rfl
@[simp] theorem State.dropCtx_time (s : State) (n : Nat) : (s.dropCtx n).time = s.time := rfl
@[simp] theorem State.dropCtx_clock (s : State) (n : Nat) : (s.dropCtx n).clock = s.clock := rfl
@[simp] theorem State.dropCtx_fresh (s : State) (n : Nat) : (s.dropCtx n).fresh = s.fresh := rfl
@[simp] theorem State.dropCtx_pend (s : State) (n : Nat) : (s.dropCtx n).pend = s.pend := rfl
@[simp] theorem State.dropCtx_agenda (s : State) (n : Nat) : (s.dropCtx n).agenda = s.agenda := rfl
@[simp] theorem State.dropCtx_sent (s : State) (n : Nat) : (s.dropCtx n).sent = s.sent := rfl

@[simp] theorem State.mapSeat_cur (s : State) (id : SeatId) (f : Ctx → Ctx) : (s.mapSeat id f).cur = s.cur := rfl
@[simp] theorem State.mapSeat_cx (s : State) (id : SeatId) (f : Ctx → Ctx) : (s.mapSeat id f).cx = if s.cur = id then s.cx.map f else s.cx := rfl
@[simp] theorem State.mapSeat_saved (s : State) (id : SeatId) (f : Ctx → Ctx) : (s.mapSeat id f).saved = s.saved := rfl
@[simp] theorem State.mapSeat_ended (s : State) (id : SeatId) (f : Ctx → Ctx) : (s.mapSeat id f).ended = s.ended := rfl
@[simp] theorem State.mapSeat_mem (s : State) (id : SeatId) (f : Ctx → Ctx) : (s.mapSeat id f).mem = s.mem := rfl
@[simp] theorem State.mapSeat_dcb (s : State) (id : SeatId) (f : Ctx → Ctx) : (s.mapSeat id f).dcb = s.dcb := rfl
@[simp] theorem State.mapSeat_cores (s : State) (id : SeatId) (f : Ctx → Ctx) : (s.mapSeat id f).cores = s.cores := rfl
@[simp] theorem State.mapSeat_slices (s : State) (id : SeatId) (f : Ctx → Ctx) : (s.mapSeat id f).slices = s.slices := rfl
@[simp] theorem State.mapSeat_sched (s : State) (id : SeatId) (f : Ctx → Ctx) : (s.mapSeat id f).sched = s.sched := rfl
@[simp] theorem State.mapSeat_fabric (s : State) (id : SeatId) (f : Ctx → Ctx) : (s.mapSeat id f).fabric = s.fabric := rfl
@[simp] theorem State.mapSeat_control (s : State) (id : SeatId) (f : Ctx → Ctx) : (s.mapSeat id f).control = s.control := rfl
@[simp] theorem State.mapSeat_devNum (s : State) (id : SeatId) (f : Ctx → Ctx) : (s.mapSeat id f).devNum = s.devNum := rfl
@[simp] theorem State.mapSeat_time (s : State) (id : SeatId) (f : Ctx → Ctx) : (s.mapSeat id f).time = s.time := rfl
@[simp] theorem State.mapSeat_clock (s : State) (id : SeatId) (f : Ctx → Ctx) : (s.mapSeat id f).clock = s.clock := rfl
@[simp] theorem State.mapSeat_fresh (s : State) (id : SeatId) (f : Ctx → Ctx) : (s.mapSeat id f).fresh = s.fresh := rfl
@[simp] theorem State.mapSeat_pend (s : State) (id : SeatId) (f : Ctx → Ctx) : (s.mapSeat id f).pend = s.pend := rfl
@[simp] theorem State.mapSeat_agenda (s : State) (id : SeatId) (f : Ctx → Ctx) : (s.mapSeat id f).agenda = s.agenda := rfl
@[simp] theorem State.mapSeat_sent (s : State) (id : SeatId) (f : Ctx → Ctx) : (s.mapSeat id f).sent = s.sent := rfl

@[simp] theorem State.mapCtxs_cur (s : State) (f : Ctx → Ctx) : (s.mapCtxs f).cur = s.cur := rfl
@[simp] theorem State.mapCtxs_cx (s : State) (f : Ctx → Ctx) : (s.mapCtxs f).cx = s.cx.map f := rfl
@[simp] theorem State.mapCtxs_seats (s : State) (f : Ctx → Ctx) : (s.mapCtxs f).seats = s.seats.map fun p => (p.1, f p.2) := rfl
@[simp] theorem State.mapCtxs_saved (s : State) (f : Ctx → Ctx) : (s.mapCtxs f).saved = s.saved.map f := rfl
@[simp] theorem State.mapCtxs_ended (s : State) (f : Ctx → Ctx) : (s.mapCtxs f).ended = s.ended.map f := rfl
@[simp] theorem State.mapCtxs_mem (s : State) (f : Ctx → Ctx) : (s.mapCtxs f).mem = s.mem := rfl
@[simp] theorem State.mapCtxs_dcb (s : State) (f : Ctx → Ctx) : (s.mapCtxs f).dcb = s.dcb := rfl
@[simp] theorem State.mapCtxs_cores (s : State) (f : Ctx → Ctx) : (s.mapCtxs f).cores = s.cores := rfl
@[simp] theorem State.mapCtxs_slices (s : State) (f : Ctx → Ctx) : (s.mapCtxs f).slices = s.slices := rfl
@[simp] theorem State.mapCtxs_sched (s : State) (f : Ctx → Ctx) : (s.mapCtxs f).sched = s.sched := rfl
@[simp] theorem State.mapCtxs_fabric (s : State) (f : Ctx → Ctx) : (s.mapCtxs f).fabric = s.fabric := rfl
@[simp] theorem State.mapCtxs_control (s : State) (f : Ctx → Ctx) : (s.mapCtxs f).control = s.control := rfl
@[simp] theorem State.mapCtxs_devNum (s : State) (f : Ctx → Ctx) : (s.mapCtxs f).devNum = s.devNum := rfl
@[simp] theorem State.mapCtxs_time (s : State) (f : Ctx → Ctx) : (s.mapCtxs f).time = s.time := rfl
@[simp] theorem State.mapCtxs_clock (s : State) (f : Ctx → Ctx) : (s.mapCtxs f).clock = s.clock := rfl
@[simp] theorem State.mapCtxs_fresh (s : State) (f : Ctx → Ctx) : (s.mapCtxs f).fresh = s.fresh := rfl
@[simp] theorem State.mapCtxs_pend (s : State) (f : Ctx → Ctx) : (s.mapCtxs f).pend = s.pend := rfl
@[simp] theorem State.mapCtxs_agenda (s : State) (f : Ctx → Ctx) : (s.mapCtxs f).agenda = s.agenda := rfl
@[simp] theorem State.mapCtxs_sent (s : State) (f : Ctx → Ctx) : (s.mapCtxs f).sent = s.sent := rfl

@[simp] theorem State.putPort_cur (s : State) (c : Ctx) : (s.putPort c).cur = s.cur := rfl
@[simp] theorem State.putPort_cx (s : State) (c : Ctx) : (s.putPort c).cx = s.cx := rfl
@[simp] theorem State.putPort_seats (s : State) (c : Ctx) : (s.putPort c).seats = s.seats := rfl
@[simp] theorem State.putPort_saved (s : State) (c : Ctx) : (s.putPort c).saved = s.saved.filter (fun d => d.num != c.num) ++ [c] := rfl
@[simp] theorem State.putPort_ended (s : State) (c : Ctx) : (s.putPort c).ended = s.ended := rfl
@[simp] theorem State.putPort_mem (s : State) (c : Ctx) : (s.putPort c).mem = s.mem := rfl
@[simp] theorem State.putPort_dcb (s : State) (c : Ctx) : (s.putPort c).dcb = s.dcb := rfl
@[simp] theorem State.putPort_cores (s : State) (c : Ctx) : (s.putPort c).cores = s.cores := rfl
@[simp] theorem State.putPort_slices (s : State) (c : Ctx) : (s.putPort c).slices = s.slices := rfl
@[simp] theorem State.putPort_sched (s : State) (c : Ctx) : (s.putPort c).sched = s.sched := rfl
@[simp] theorem State.putPort_fabric (s : State) (c : Ctx) : (s.putPort c).fabric = s.fabric := rfl
@[simp] theorem State.putPort_control (s : State) (c : Ctx) : (s.putPort c).control = s.control := rfl
@[simp] theorem State.putPort_devNum (s : State) (c : Ctx) : (s.putPort c).devNum = s.devNum := rfl
@[simp] theorem State.putPort_time (s : State) (c : Ctx) : (s.putPort c).time = s.time := rfl
@[simp] theorem State.putPort_clock (s : State) (c : Ctx) : (s.putPort c).clock = s.clock := rfl
@[simp] theorem State.putPort_fresh (s : State) (c : Ctx) : (s.putPort c).fresh = s.fresh := rfl
@[simp] theorem State.putPort_pend (s : State) (c : Ctx) : (s.putPort c).pend = s.pend := rfl
@[simp] theorem State.putPort_agenda (s : State) (c : Ctx) : (s.putPort c).agenda = s.agenda := rfl
@[simp] theorem State.putPort_sent (s : State) (c : Ctx) : (s.putPort c).sent = s.sent := rfl

@[simp] theorem State.mapBrec_cur (s : State) (ident : Word) (f : BRec → BRec) : (s.mapBrec ident f).cur = s.cur := rfl
@[simp] theorem State.mapBrec_cx (s : State) (ident : Word) (f : BRec → BRec) : (s.mapBrec ident f).cx = s.cx := rfl
@[simp] theorem State.mapBrec_seats (s : State) (ident : Word) (f : BRec → BRec) : (s.mapBrec ident f).seats = s.seats := rfl
@[simp] theorem State.mapBrec_saved (s : State) (ident : Word) (f : BRec → BRec) : (s.mapBrec ident f).saved = s.saved := rfl
@[simp] theorem State.mapBrec_ended (s : State) (ident : Word) (f : BRec → BRec) : (s.mapBrec ident f).ended = s.ended := rfl
@[simp] theorem State.mapBrec_mem (s : State) (ident : Word) (f : BRec → BRec) : (s.mapBrec ident f).mem = s.mem := rfl
@[simp] theorem State.mapBrec_dcb (s : State) (ident : Word) (f : BRec → BRec) : (s.mapBrec ident f).dcb = s.dcb := rfl
@[simp] theorem State.mapBrec_cores (s : State) (ident : Word) (f : BRec → BRec) : (s.mapBrec ident f).cores = s.cores := rfl
@[simp] theorem State.mapBrec_slices (s : State) (ident : Word) (f : BRec → BRec) : (s.mapBrec ident f).slices = { s.slices with records := s.slices.records.map fun r => if r.ident = ident then f r else r } := rfl
@[simp] theorem State.mapBrec_sched (s : State) (ident : Word) (f : BRec → BRec) : (s.mapBrec ident f).sched = s.sched := rfl
@[simp] theorem State.mapBrec_fabric (s : State) (ident : Word) (f : BRec → BRec) : (s.mapBrec ident f).fabric = s.fabric := rfl
@[simp] theorem State.mapBrec_control (s : State) (ident : Word) (f : BRec → BRec) : (s.mapBrec ident f).control = s.control := rfl
@[simp] theorem State.mapBrec_devNum (s : State) (ident : Word) (f : BRec → BRec) : (s.mapBrec ident f).devNum = s.devNum := rfl
@[simp] theorem State.mapBrec_time (s : State) (ident : Word) (f : BRec → BRec) : (s.mapBrec ident f).time = s.time := rfl
@[simp] theorem State.mapBrec_clock (s : State) (ident : Word) (f : BRec → BRec) : (s.mapBrec ident f).clock = s.clock := rfl
@[simp] theorem State.mapBrec_fresh (s : State) (ident : Word) (f : BRec → BRec) : (s.mapBrec ident f).fresh = s.fresh := rfl
@[simp] theorem State.mapBrec_pend (s : State) (ident : Word) (f : BRec → BRec) : (s.mapBrec ident f).pend = s.pend := rfl
@[simp] theorem State.mapBrec_agenda (s : State) (ident : Word) (f : BRec → BRec) : (s.mapBrec ident f).agenda = s.agenda := rfl
@[simp] theorem State.mapBrec_sent (s : State) (ident : Word) (f : BRec → BRec) : (s.mapBrec ident f).sent = s.sent := rfl

@[simp] theorem State.mapPoint_cur (s : State) (u : Nat) (f : DispatchPoint → DispatchPoint) : (s.mapPoint u f).cur = s.cur := rfl
@[simp] theorem State.mapPoint_cx (s : State) (u : Nat) (f : DispatchPoint → DispatchPoint) : (s.mapPoint u f).cx = s.cx := rfl
@[simp] theorem State.mapPoint_seats (s : State) (u : Nat) (f : DispatchPoint → DispatchPoint) : (s.mapPoint u f).seats = s.seats := rfl
@[simp] theorem State.mapPoint_saved (s : State) (u : Nat) (f : DispatchPoint → DispatchPoint) : (s.mapPoint u f).saved = s.saved := rfl
@[simp] theorem State.mapPoint_ended (s : State) (u : Nat) (f : DispatchPoint → DispatchPoint) : (s.mapPoint u f).ended = s.ended := rfl
@[simp] theorem State.mapPoint_mem (s : State) (u : Nat) (f : DispatchPoint → DispatchPoint) : (s.mapPoint u f).mem = s.mem := rfl
@[simp] theorem State.mapPoint_dcb (s : State) (u : Nat) (f : DispatchPoint → DispatchPoint) : (s.mapPoint u f).dcb = s.dcb := rfl
@[simp] theorem State.mapPoint_cores (s : State) (u : Nat) (f : DispatchPoint → DispatchPoint) : (s.mapPoint u f).cores = s.cores := rfl
@[simp] theorem State.mapPoint_slices (s : State) (u : Nat) (f : DispatchPoint → DispatchPoint) : (s.mapPoint u f).slices = s.slices := rfl
@[simp] theorem State.mapPoint_sched (s : State) (u : Nat) (f : DispatchPoint → DispatchPoint) : (s.mapPoint u f).sched = { s.sched with points := put s.sched.points u (f (s.point u)) } := rfl
@[simp] theorem State.mapPoint_fabric (s : State) (u : Nat) (f : DispatchPoint → DispatchPoint) : (s.mapPoint u f).fabric = s.fabric := rfl
@[simp] theorem State.mapPoint_control (s : State) (u : Nat) (f : DispatchPoint → DispatchPoint) : (s.mapPoint u f).control = s.control := rfl
@[simp] theorem State.mapPoint_devNum (s : State) (u : Nat) (f : DispatchPoint → DispatchPoint) : (s.mapPoint u f).devNum = s.devNum := rfl
@[simp] theorem State.mapPoint_time (s : State) (u : Nat) (f : DispatchPoint → DispatchPoint) : (s.mapPoint u f).time = s.time := rfl
@[simp] theorem State.mapPoint_clock (s : State) (u : Nat) (f : DispatchPoint → DispatchPoint) : (s.mapPoint u f).clock = s.clock := rfl
@[simp] theorem State.mapPoint_fresh (s : State) (u : Nat) (f : DispatchPoint → DispatchPoint) : (s.mapPoint u f).fresh = s.fresh := rfl
@[simp] theorem State.mapPoint_pend (s : State) (u : Nat) (f : DispatchPoint → DispatchPoint) : (s.mapPoint u f).pend = s.pend := rfl
@[simp] theorem State.mapPoint_agenda (s : State) (u : Nat) (f : DispatchPoint → DispatchPoint) : (s.mapPoint u f).agenda = s.agenda := rfl
@[simp] theorem State.mapPoint_sent (s : State) (u : Nat) (f : DispatchPoint → DispatchPoint) : (s.mapPoint u f).sent = s.sent := rfl

@[simp] theorem State.setWindow_cur (s : State) (w : RWindow) : (s.setWindow w).cur = s.cur := rfl
@[simp] theorem State.setWindow_cx (s : State) (w : RWindow) : (s.setWindow w).cx = s.cx := rfl
@[simp] theorem State.setWindow_seats (s : State) (w : RWindow) : (s.setWindow w).seats = s.seats := rfl
@[simp] theorem State.setWindow_saved (s : State) (w : RWindow) : (s.setWindow w).saved = s.saved := rfl
@[simp] theorem State.setWindow_ended (s : State) (w : RWindow) : (s.setWindow w).ended = s.ended := rfl
@[simp] theorem State.setWindow_mem (s : State) (w : RWindow) : (s.setWindow w).mem = s.mem := rfl
@[simp] theorem State.setWindow_dcb (s : State) (w : RWindow) : (s.setWindow w).dcb = s.dcb := rfl
@[simp] theorem State.setWindow_cores (s : State) (w : RWindow) : (s.setWindow w).cores = s.cores := rfl
@[simp] theorem State.setWindow_slices (s : State) (w : RWindow) : (s.setWindow w).slices = s.slices := rfl
@[simp] theorem State.setWindow_sched (s : State) (w : RWindow) : (s.setWindow w).sched = s.sched := rfl
@[simp] theorem State.setWindow_fabric (s : State) (w : RWindow) : (s.setWindow w).fabric = { s.fabric with windows := w :: s.fabric.windows.filter fun x => x.src != w.src } := rfl
@[simp] theorem State.setWindow_control (s : State) (w : RWindow) : (s.setWindow w).control = s.control := rfl
@[simp] theorem State.setWindow_devNum (s : State) (w : RWindow) : (s.setWindow w).devNum = s.devNum := rfl
@[simp] theorem State.setWindow_time (s : State) (w : RWindow) : (s.setWindow w).time = s.time := rfl
@[simp] theorem State.setWindow_clock (s : State) (w : RWindow) : (s.setWindow w).clock = s.clock := rfl
@[simp] theorem State.setWindow_fresh (s : State) (w : RWindow) : (s.setWindow w).fresh = s.fresh := rfl
@[simp] theorem State.setWindow_pend (s : State) (w : RWindow) : (s.setWindow w).pend = s.pend := rfl
@[simp] theorem State.setWindow_agenda (s : State) (w : RWindow) : (s.setWindow w).agenda = s.agenda := rfl
@[simp] theorem State.setWindow_sent (s : State) (w : RWindow) : (s.setWindow w).sent = s.sent := rfl

@[simp] theorem State.setSlots_cur (s : State) (l : List RSlot) : (s.setSlots l).cur = s.cur := rfl
@[simp] theorem State.setSlots_cx (s : State) (l : List RSlot) : (s.setSlots l).cx = s.cx := rfl
@[simp] theorem State.setSlots_seats (s : State) (l : List RSlot) : (s.setSlots l).seats = s.seats := rfl
@[simp] theorem State.setSlots_saved (s : State) (l : List RSlot) : (s.setSlots l).saved = s.saved := rfl
@[simp] theorem State.setSlots_ended (s : State) (l : List RSlot) : (s.setSlots l).ended = s.ended := rfl
@[simp] theorem State.setSlots_mem (s : State) (l : List RSlot) : (s.setSlots l).mem = s.mem := rfl
@[simp] theorem State.setSlots_dcb (s : State) (l : List RSlot) : (s.setSlots l).dcb = s.dcb := rfl
@[simp] theorem State.setSlots_cores (s : State) (l : List RSlot) : (s.setSlots l).cores = s.cores := rfl
@[simp] theorem State.setSlots_slices (s : State) (l : List RSlot) : (s.setSlots l).slices = s.slices := rfl
@[simp] theorem State.setSlots_sched (s : State) (l : List RSlot) : (s.setSlots l).sched = s.sched := rfl
@[simp] theorem State.setSlots_fabric (s : State) (l : List RSlot) : (s.setSlots l).fabric = { s.fabric with slots := l } := rfl
@[simp] theorem State.setSlots_control (s : State) (l : List RSlot) : (s.setSlots l).control = s.control := rfl
@[simp] theorem State.setSlots_devNum (s : State) (l : List RSlot) : (s.setSlots l).devNum = s.devNum := rfl
@[simp] theorem State.setSlots_time (s : State) (l : List RSlot) : (s.setSlots l).time = s.time := rfl
@[simp] theorem State.setSlots_clock (s : State) (l : List RSlot) : (s.setSlots l).clock = s.clock := rfl
@[simp] theorem State.setSlots_fresh (s : State) (l : List RSlot) : (s.setSlots l).fresh = s.fresh := rfl
@[simp] theorem State.setSlots_pend (s : State) (l : List RSlot) : (s.setSlots l).pend = s.pend := rfl
@[simp] theorem State.setSlots_agenda (s : State) (l : List RSlot) : (s.setSlots l).agenda = s.agenda := rfl
@[simp] theorem State.setSlots_sent (s : State) (l : List RSlot) : (s.setSlots l).sent = s.sent := rfl

/-! ## Contexts -/

@[simp] theorem Ctx.mapRegs_num (c : Ctx) (f : Regs → Regs) : (c.mapRegs f).num = c.num := rfl
@[simp] theorem Ctx.mapRegs_part (c : Ctx) (f : Regs → Regs) : (c.mapRegs f).part = c.part := rfl
@[simp] theorem Ctx.mapRegs_record (c : Ctx) (f : Regs → Regs) : (c.mapRegs f).record = c.record := rfl
@[simp] theorem Ctx.mapRegs_lslot (c : Ctx) (f : Regs → Regs) : (c.mapRegs f).lslot = c.lslot := rfl
@[simp] theorem Ctx.mapRegs_cls (c : Ctx) (f : Regs → Regs) : (c.mapRegs f).cls = c.cls := rfl
@[simp] theorem Ctx.mapRegs_sRegs (c : Ctx) (f : Regs → Regs) : (c.mapRegs f).sRegs = c.sRegs := rfl
@[simp] theorem Ctx.mapRegs_vRegs (c : Ctx) (f : Regs → Regs) : (c.mapRegs f).vRegs = c.vRegs := rfl
@[simp] theorem Ctx.mapRegs_footprint (c : Ctx) (f : Regs → Regs) : (c.mapRegs f).footprint = c.footprint := rfl
@[simp] theorem Ctx.mapRegs_code (c : Ctx) (f : Regs → Regs) : (c.mapRegs f).code = c.code := rfl
@[simp] theorem Ctx.mapRegs_regs (c : Ctx) (f : Regs → Regs) : (c.mapRegs f).regs = f c.regs := rfl
@[simp] theorem Ctx.mapRegs_csrs (c : Ctx) (f : Regs → Regs) : (c.mapRegs f).csrs = c.csrs := rfl
@[simp] theorem Ctx.mapRegs_pc (c : Ctx) (f : Regs → Regs) : (c.mapRegs f).pc = c.pc := rfl
@[simp] theorem Ctx.mapRegs_lastPc (c : Ctx) (f : Regs → Regs) : (c.mapRegs f).lastPc = c.lastPc := rfl
@[simp] theorem Ctx.mapRegs_chkr (c : Ctx) (f : Regs → Regs) : (c.mapRegs f).chkr = c.chkr := rfl
@[simp] theorem Ctx.mapRegs_coverLost (c : Ctx) (f : Regs → Regs) : (c.mapRegs f).coverLost = c.coverLost := rfl
@[simp] theorem Ctx.mapRegs_trapChkr (c : Ctx) (f : Regs → Regs) : (c.mapRegs f).trapChkr = c.trapChkr := rfl
@[simp] theorem Ctx.mapRegs_yieldChkr (c : Ctx) (f : Regs → Regs) : (c.mapRegs f).yieldChkr = c.yieldChkr := rfl
@[simp] theorem Ctx.mapRegs_handle (c : Ctx) (f : Regs → Regs) : (c.mapRegs f).handle = c.handle := rfl
@[simp] theorem Ctx.mapRegs_flagHandle (c : Ctx) (f : Regs → Regs) : (c.mapRegs f).flagHandle = c.flagHandle := rfl
@[simp] theorem Ctx.mapRegs_stall (c : Ctx) (f : Regs → Regs) : (c.mapRegs f).stall = c.stall := rfl
@[simp] theorem Ctx.mapRegs_chainStall (c : Ctx) (f : Regs → Regs) : (c.mapRegs f).chainStall = c.chainStall := rfl
@[simp] theorem Ctx.mapRegs_phase (c : Ctx) (f : Regs → Regs) : (c.mapRegs f).phase = c.phase := rfl
@[simp] theorem Ctx.mapRegs_ipc (c : Ctx) (f : Regs → Regs) : (c.mapRegs f).ipc = c.ipc := rfl
@[simp] theorem Ctx.mapRegs_irepst (c : Ctx) (f : Regs → Regs) : (c.mapRegs f).irepst = c.irepst := rfl
@[simp] theorem Ctx.mapRegs_budgetEnd (c : Ctx) (f : Regs → Regs) : (c.mapRegs f).budgetEnd = c.budgetEnd := rfl
@[simp] theorem Ctx.mapRegs_retires (c : Ctx) (f : Regs → Regs) : (c.mapRegs f).retires = c.retires := rfl
@[simp] theorem Ctx.mapRegs_fault (c : Ctx) (f : Regs → Regs) : (c.mapRegs f).fault = c.fault := rfl
@[simp] theorem Ctx.mapRegs_faultAt (c : Ctx) (f : Regs → Regs) : (c.mapRegs f).faultAt = c.faultAt := rfl
@[simp] theorem Ctx.mapRegs_moreFaults (c : Ctx) (f : Regs → Regs) : (c.mapRegs f).moreFaults = c.moreFaults := rfl
@[simp] theorem Ctx.mapRegs_queues (c : Ctx) (f : Regs → Regs) : (c.mapRegs f).queues = c.queues := rfl
@[simp] theorem Ctx.mapRegs_gbinds (c : Ctx) (f : Regs → Regs) : (c.mapRegs f).gbinds = c.gbinds := rfl
@[simp] theorem Ctx.mapRegs_sendq (c : Ctx) (f : Regs → Regs) : (c.mapRegs f).sendq = c.sendq := rfl
@[simp] theorem Ctx.mapRegs_pv (c : Ctx) (f : Regs → Regs) : (c.mapRegs f).pv = c.pv := rfl
@[simp] theorem Ctx.mapRegs_chain (c : Ctx) (f : Regs → Regs) : (c.mapRegs f).chain = c.chain := rfl
@[simp] theorem Ctx.mapRegs_mx (c : Ctx) (f : Regs → Regs) : (c.mapRegs f).mx = c.mx := rfl
@[simp] theorem Ctx.mapRegs_order (c : Ctx) (f : Regs → Regs) : (c.mapRegs f).order = c.order := rfl
@[simp] theorem Ctx.mapRegs_cycles (c : Ctx) (f : Regs → Regs) : (c.mapRegs f).cycles = c.cycles := rfl
@[simp] theorem Ctx.mapRegs_held (c : Ctx) (f : Regs → Regs) : (c.mapRegs f).held = c.held := rfl
@[simp] theorem Ctx.mapRegs_seatAt (c : Ctx) (f : Regs → Regs) : (c.mapRegs f).seatAt = c.seatAt := rfl
@[simp] theorem Ctx.mapRegs_forced (c : Ctx) (f : Regs → Regs) : (c.mapRegs f).forced = c.forced := rfl
@[simp] theorem Ctx.mapRegs_clobbered (c : Ctx) (f : Regs → Regs) : (c.mapRegs f).clobbered = c.clobbered := rfl
@[simp] theorem Ctx.mapRegs_evt (c : Ctx) (f : Regs → Regs) : (c.mapRegs f).evt = c.evt := rfl
@[simp] theorem Ctx.mapRegs_ecalls (c : Ctx) (f : Regs → Regs) : (c.mapRegs f).ecalls = c.ecalls := rfl
@[simp] theorem Ctx.mapRegs_ports (c : Ctx) (f : Regs → Regs) : (c.mapRegs f).ports = c.ports := rfl
@[simp] theorem Ctx.mapRegs_nin (c : Ctx) (f : Regs → Regs) : (c.mapRegs f).nin = c.nin := rfl
@[simp] theorem Ctx.mapRegs_born (c : Ctx) (f : Regs → Regs) : (c.mapRegs f).born = c.born := rfl
@[simp] theorem Ctx.mapRegs_dormant (c : Ctx) (f : Regs → Regs) : (c.mapRegs f).dormant = c.dormant := rfl
@[simp] theorem Ctx.mapRegs_rows (c : Ctx) (f : Regs → Regs) : (c.mapRegs f).rows = c.rows := rfl

@[simp] theorem Ctx.mapCsrs_num (c : Ctx) (f : Csrs → Csrs) : (c.mapCsrs f).num = c.num := rfl
@[simp] theorem Ctx.mapCsrs_part (c : Ctx) (f : Csrs → Csrs) : (c.mapCsrs f).part = c.part := rfl
@[simp] theorem Ctx.mapCsrs_record (c : Ctx) (f : Csrs → Csrs) : (c.mapCsrs f).record = c.record := rfl
@[simp] theorem Ctx.mapCsrs_lslot (c : Ctx) (f : Csrs → Csrs) : (c.mapCsrs f).lslot = c.lslot := rfl
@[simp] theorem Ctx.mapCsrs_cls (c : Ctx) (f : Csrs → Csrs) : (c.mapCsrs f).cls = c.cls := rfl
@[simp] theorem Ctx.mapCsrs_sRegs (c : Ctx) (f : Csrs → Csrs) : (c.mapCsrs f).sRegs = c.sRegs := rfl
@[simp] theorem Ctx.mapCsrs_vRegs (c : Ctx) (f : Csrs → Csrs) : (c.mapCsrs f).vRegs = c.vRegs := rfl
@[simp] theorem Ctx.mapCsrs_footprint (c : Ctx) (f : Csrs → Csrs) : (c.mapCsrs f).footprint = c.footprint := rfl
@[simp] theorem Ctx.mapCsrs_code (c : Ctx) (f : Csrs → Csrs) : (c.mapCsrs f).code = c.code := rfl
@[simp] theorem Ctx.mapCsrs_regs (c : Ctx) (f : Csrs → Csrs) : (c.mapCsrs f).regs = c.regs := rfl
@[simp] theorem Ctx.mapCsrs_csrs (c : Ctx) (f : Csrs → Csrs) : (c.mapCsrs f).csrs = f c.csrs := rfl
@[simp] theorem Ctx.mapCsrs_pc (c : Ctx) (f : Csrs → Csrs) : (c.mapCsrs f).pc = c.pc := rfl
@[simp] theorem Ctx.mapCsrs_lastPc (c : Ctx) (f : Csrs → Csrs) : (c.mapCsrs f).lastPc = c.lastPc := rfl
@[simp] theorem Ctx.mapCsrs_chkr (c : Ctx) (f : Csrs → Csrs) : (c.mapCsrs f).chkr = c.chkr := rfl
@[simp] theorem Ctx.mapCsrs_coverLost (c : Ctx) (f : Csrs → Csrs) : (c.mapCsrs f).coverLost = c.coverLost := rfl
@[simp] theorem Ctx.mapCsrs_trapChkr (c : Ctx) (f : Csrs → Csrs) : (c.mapCsrs f).trapChkr = c.trapChkr := rfl
@[simp] theorem Ctx.mapCsrs_yieldChkr (c : Ctx) (f : Csrs → Csrs) : (c.mapCsrs f).yieldChkr = c.yieldChkr := rfl
@[simp] theorem Ctx.mapCsrs_handle (c : Ctx) (f : Csrs → Csrs) : (c.mapCsrs f).handle = c.handle := rfl
@[simp] theorem Ctx.mapCsrs_flagHandle (c : Ctx) (f : Csrs → Csrs) : (c.mapCsrs f).flagHandle = c.flagHandle := rfl
@[simp] theorem Ctx.mapCsrs_stall (c : Ctx) (f : Csrs → Csrs) : (c.mapCsrs f).stall = c.stall := rfl
@[simp] theorem Ctx.mapCsrs_chainStall (c : Ctx) (f : Csrs → Csrs) : (c.mapCsrs f).chainStall = c.chainStall := rfl
@[simp] theorem Ctx.mapCsrs_phase (c : Ctx) (f : Csrs → Csrs) : (c.mapCsrs f).phase = c.phase := rfl
@[simp] theorem Ctx.mapCsrs_ipc (c : Ctx) (f : Csrs → Csrs) : (c.mapCsrs f).ipc = c.ipc := rfl
@[simp] theorem Ctx.mapCsrs_irepst (c : Ctx) (f : Csrs → Csrs) : (c.mapCsrs f).irepst = c.irepst := rfl
@[simp] theorem Ctx.mapCsrs_budgetEnd (c : Ctx) (f : Csrs → Csrs) : (c.mapCsrs f).budgetEnd = c.budgetEnd := rfl
@[simp] theorem Ctx.mapCsrs_retires (c : Ctx) (f : Csrs → Csrs) : (c.mapCsrs f).retires = c.retires := rfl
@[simp] theorem Ctx.mapCsrs_fault (c : Ctx) (f : Csrs → Csrs) : (c.mapCsrs f).fault = c.fault := rfl
@[simp] theorem Ctx.mapCsrs_faultAt (c : Ctx) (f : Csrs → Csrs) : (c.mapCsrs f).faultAt = c.faultAt := rfl
@[simp] theorem Ctx.mapCsrs_moreFaults (c : Ctx) (f : Csrs → Csrs) : (c.mapCsrs f).moreFaults = c.moreFaults := rfl
@[simp] theorem Ctx.mapCsrs_queues (c : Ctx) (f : Csrs → Csrs) : (c.mapCsrs f).queues = c.queues := rfl
@[simp] theorem Ctx.mapCsrs_gbinds (c : Ctx) (f : Csrs → Csrs) : (c.mapCsrs f).gbinds = c.gbinds := rfl
@[simp] theorem Ctx.mapCsrs_sendq (c : Ctx) (f : Csrs → Csrs) : (c.mapCsrs f).sendq = c.sendq := rfl
@[simp] theorem Ctx.mapCsrs_pv (c : Ctx) (f : Csrs → Csrs) : (c.mapCsrs f).pv = c.pv := rfl
@[simp] theorem Ctx.mapCsrs_chain (c : Ctx) (f : Csrs → Csrs) : (c.mapCsrs f).chain = c.chain := rfl
@[simp] theorem Ctx.mapCsrs_mx (c : Ctx) (f : Csrs → Csrs) : (c.mapCsrs f).mx = c.mx := rfl
@[simp] theorem Ctx.mapCsrs_order (c : Ctx) (f : Csrs → Csrs) : (c.mapCsrs f).order = c.order := rfl
@[simp] theorem Ctx.mapCsrs_cycles (c : Ctx) (f : Csrs → Csrs) : (c.mapCsrs f).cycles = c.cycles := rfl
@[simp] theorem Ctx.mapCsrs_held (c : Ctx) (f : Csrs → Csrs) : (c.mapCsrs f).held = c.held := rfl
@[simp] theorem Ctx.mapCsrs_seatAt (c : Ctx) (f : Csrs → Csrs) : (c.mapCsrs f).seatAt = c.seatAt := rfl
@[simp] theorem Ctx.mapCsrs_forced (c : Ctx) (f : Csrs → Csrs) : (c.mapCsrs f).forced = c.forced := rfl
@[simp] theorem Ctx.mapCsrs_clobbered (c : Ctx) (f : Csrs → Csrs) : (c.mapCsrs f).clobbered = c.clobbered := rfl
@[simp] theorem Ctx.mapCsrs_evt (c : Ctx) (f : Csrs → Csrs) : (c.mapCsrs f).evt = c.evt := rfl
@[simp] theorem Ctx.mapCsrs_ecalls (c : Ctx) (f : Csrs → Csrs) : (c.mapCsrs f).ecalls = c.ecalls := rfl
@[simp] theorem Ctx.mapCsrs_ports (c : Ctx) (f : Csrs → Csrs) : (c.mapCsrs f).ports = c.ports := rfl
@[simp] theorem Ctx.mapCsrs_nin (c : Ctx) (f : Csrs → Csrs) : (c.mapCsrs f).nin = c.nin := rfl
@[simp] theorem Ctx.mapCsrs_born (c : Ctx) (f : Csrs → Csrs) : (c.mapCsrs f).born = c.born := rfl
@[simp] theorem Ctx.mapCsrs_dormant (c : Ctx) (f : Csrs → Csrs) : (c.mapCsrs f).dormant = c.dormant := rfl
@[simp] theorem Ctx.mapCsrs_rows (c : Ctx) (f : Csrs → Csrs) : (c.mapCsrs f).rows = c.rows := rfl

@[simp] theorem Ctx.mapOrder_num (c : Ctx) (f : Order → Order) : (c.mapOrder f).num = c.num := rfl
@[simp] theorem Ctx.mapOrder_part (c : Ctx) (f : Order → Order) : (c.mapOrder f).part = c.part := rfl
@[simp] theorem Ctx.mapOrder_record (c : Ctx) (f : Order → Order) : (c.mapOrder f).record = c.record := rfl
@[simp] theorem Ctx.mapOrder_lslot (c : Ctx) (f : Order → Order) : (c.mapOrder f).lslot = c.lslot := rfl
@[simp] theorem Ctx.mapOrder_cls (c : Ctx) (f : Order → Order) : (c.mapOrder f).cls = c.cls := rfl
@[simp] theorem Ctx.mapOrder_sRegs (c : Ctx) (f : Order → Order) : (c.mapOrder f).sRegs = c.sRegs := rfl
@[simp] theorem Ctx.mapOrder_vRegs (c : Ctx) (f : Order → Order) : (c.mapOrder f).vRegs = c.vRegs := rfl
@[simp] theorem Ctx.mapOrder_footprint (c : Ctx) (f : Order → Order) : (c.mapOrder f).footprint = c.footprint := rfl
@[simp] theorem Ctx.mapOrder_code (c : Ctx) (f : Order → Order) : (c.mapOrder f).code = c.code := rfl
@[simp] theorem Ctx.mapOrder_regs (c : Ctx) (f : Order → Order) : (c.mapOrder f).regs = c.regs := rfl
@[simp] theorem Ctx.mapOrder_csrs (c : Ctx) (f : Order → Order) : (c.mapOrder f).csrs = c.csrs := rfl
@[simp] theorem Ctx.mapOrder_pc (c : Ctx) (f : Order → Order) : (c.mapOrder f).pc = c.pc := rfl
@[simp] theorem Ctx.mapOrder_lastPc (c : Ctx) (f : Order → Order) : (c.mapOrder f).lastPc = c.lastPc := rfl
@[simp] theorem Ctx.mapOrder_chkr (c : Ctx) (f : Order → Order) : (c.mapOrder f).chkr = c.chkr := rfl
@[simp] theorem Ctx.mapOrder_coverLost (c : Ctx) (f : Order → Order) : (c.mapOrder f).coverLost = c.coverLost := rfl
@[simp] theorem Ctx.mapOrder_trapChkr (c : Ctx) (f : Order → Order) : (c.mapOrder f).trapChkr = c.trapChkr := rfl
@[simp] theorem Ctx.mapOrder_yieldChkr (c : Ctx) (f : Order → Order) : (c.mapOrder f).yieldChkr = c.yieldChkr := rfl
@[simp] theorem Ctx.mapOrder_handle (c : Ctx) (f : Order → Order) : (c.mapOrder f).handle = c.handle := rfl
@[simp] theorem Ctx.mapOrder_flagHandle (c : Ctx) (f : Order → Order) : (c.mapOrder f).flagHandle = c.flagHandle := rfl
@[simp] theorem Ctx.mapOrder_stall (c : Ctx) (f : Order → Order) : (c.mapOrder f).stall = c.stall := rfl
@[simp] theorem Ctx.mapOrder_chainStall (c : Ctx) (f : Order → Order) : (c.mapOrder f).chainStall = c.chainStall := rfl
@[simp] theorem Ctx.mapOrder_phase (c : Ctx) (f : Order → Order) : (c.mapOrder f).phase = c.phase := rfl
@[simp] theorem Ctx.mapOrder_ipc (c : Ctx) (f : Order → Order) : (c.mapOrder f).ipc = c.ipc := rfl
@[simp] theorem Ctx.mapOrder_irepst (c : Ctx) (f : Order → Order) : (c.mapOrder f).irepst = c.irepst := rfl
@[simp] theorem Ctx.mapOrder_budgetEnd (c : Ctx) (f : Order → Order) : (c.mapOrder f).budgetEnd = c.budgetEnd := rfl
@[simp] theorem Ctx.mapOrder_retires (c : Ctx) (f : Order → Order) : (c.mapOrder f).retires = c.retires := rfl
@[simp] theorem Ctx.mapOrder_fault (c : Ctx) (f : Order → Order) : (c.mapOrder f).fault = c.fault := rfl
@[simp] theorem Ctx.mapOrder_faultAt (c : Ctx) (f : Order → Order) : (c.mapOrder f).faultAt = c.faultAt := rfl
@[simp] theorem Ctx.mapOrder_moreFaults (c : Ctx) (f : Order → Order) : (c.mapOrder f).moreFaults = c.moreFaults := rfl
@[simp] theorem Ctx.mapOrder_queues (c : Ctx) (f : Order → Order) : (c.mapOrder f).queues = c.queues := rfl
@[simp] theorem Ctx.mapOrder_gbinds (c : Ctx) (f : Order → Order) : (c.mapOrder f).gbinds = c.gbinds := rfl
@[simp] theorem Ctx.mapOrder_sendq (c : Ctx) (f : Order → Order) : (c.mapOrder f).sendq = c.sendq := rfl
@[simp] theorem Ctx.mapOrder_pv (c : Ctx) (f : Order → Order) : (c.mapOrder f).pv = c.pv := rfl
@[simp] theorem Ctx.mapOrder_chain (c : Ctx) (f : Order → Order) : (c.mapOrder f).chain = c.chain := rfl
@[simp] theorem Ctx.mapOrder_mx (c : Ctx) (f : Order → Order) : (c.mapOrder f).mx = c.mx := rfl
@[simp] theorem Ctx.mapOrder_order (c : Ctx) (f : Order → Order) : (c.mapOrder f).order = f c.order := rfl
@[simp] theorem Ctx.mapOrder_cycles (c : Ctx) (f : Order → Order) : (c.mapOrder f).cycles = c.cycles := rfl
@[simp] theorem Ctx.mapOrder_held (c : Ctx) (f : Order → Order) : (c.mapOrder f).held = c.held := rfl
@[simp] theorem Ctx.mapOrder_seatAt (c : Ctx) (f : Order → Order) : (c.mapOrder f).seatAt = c.seatAt := rfl
@[simp] theorem Ctx.mapOrder_forced (c : Ctx) (f : Order → Order) : (c.mapOrder f).forced = c.forced := rfl
@[simp] theorem Ctx.mapOrder_clobbered (c : Ctx) (f : Order → Order) : (c.mapOrder f).clobbered = c.clobbered := rfl
@[simp] theorem Ctx.mapOrder_evt (c : Ctx) (f : Order → Order) : (c.mapOrder f).evt = c.evt := rfl
@[simp] theorem Ctx.mapOrder_ecalls (c : Ctx) (f : Order → Order) : (c.mapOrder f).ecalls = c.ecalls := rfl
@[simp] theorem Ctx.mapOrder_ports (c : Ctx) (f : Order → Order) : (c.mapOrder f).ports = c.ports := rfl
@[simp] theorem Ctx.mapOrder_nin (c : Ctx) (f : Order → Order) : (c.mapOrder f).nin = c.nin := rfl
@[simp] theorem Ctx.mapOrder_born (c : Ctx) (f : Order → Order) : (c.mapOrder f).born = c.born := rfl
@[simp] theorem Ctx.mapOrder_dormant (c : Ctx) (f : Order → Order) : (c.mapOrder f).dormant = c.dormant := rfl
@[simp] theorem Ctx.mapOrder_rows (c : Ctx) (f : Order → Order) : (c.mapOrder f).rows = c.rows := rfl

@[simp] theorem Ctx.mapMx_num (c : Ctx) (f : Matrix → Matrix) : (c.mapMx f).num = c.num := rfl
@[simp] theorem Ctx.mapMx_part (c : Ctx) (f : Matrix → Matrix) : (c.mapMx f).part = c.part := rfl
@[simp] theorem Ctx.mapMx_record (c : Ctx) (f : Matrix → Matrix) : (c.mapMx f).record = c.record := rfl
@[simp] theorem Ctx.mapMx_lslot (c : Ctx) (f : Matrix → Matrix) : (c.mapMx f).lslot = c.lslot := rfl
@[simp] theorem Ctx.mapMx_cls (c : Ctx) (f : Matrix → Matrix) : (c.mapMx f).cls = c.cls := rfl
@[simp] theorem Ctx.mapMx_sRegs (c : Ctx) (f : Matrix → Matrix) : (c.mapMx f).sRegs = c.sRegs := rfl
@[simp] theorem Ctx.mapMx_vRegs (c : Ctx) (f : Matrix → Matrix) : (c.mapMx f).vRegs = c.vRegs := rfl
@[simp] theorem Ctx.mapMx_footprint (c : Ctx) (f : Matrix → Matrix) : (c.mapMx f).footprint = c.footprint := rfl
@[simp] theorem Ctx.mapMx_code (c : Ctx) (f : Matrix → Matrix) : (c.mapMx f).code = c.code := rfl
@[simp] theorem Ctx.mapMx_regs (c : Ctx) (f : Matrix → Matrix) : (c.mapMx f).regs = c.regs := rfl
@[simp] theorem Ctx.mapMx_csrs (c : Ctx) (f : Matrix → Matrix) : (c.mapMx f).csrs = c.csrs := rfl
@[simp] theorem Ctx.mapMx_pc (c : Ctx) (f : Matrix → Matrix) : (c.mapMx f).pc = c.pc := rfl
@[simp] theorem Ctx.mapMx_lastPc (c : Ctx) (f : Matrix → Matrix) : (c.mapMx f).lastPc = c.lastPc := rfl
@[simp] theorem Ctx.mapMx_chkr (c : Ctx) (f : Matrix → Matrix) : (c.mapMx f).chkr = c.chkr := rfl
@[simp] theorem Ctx.mapMx_coverLost (c : Ctx) (f : Matrix → Matrix) : (c.mapMx f).coverLost = c.coverLost := rfl
@[simp] theorem Ctx.mapMx_trapChkr (c : Ctx) (f : Matrix → Matrix) : (c.mapMx f).trapChkr = c.trapChkr := rfl
@[simp] theorem Ctx.mapMx_yieldChkr (c : Ctx) (f : Matrix → Matrix) : (c.mapMx f).yieldChkr = c.yieldChkr := rfl
@[simp] theorem Ctx.mapMx_handle (c : Ctx) (f : Matrix → Matrix) : (c.mapMx f).handle = c.handle := rfl
@[simp] theorem Ctx.mapMx_flagHandle (c : Ctx) (f : Matrix → Matrix) : (c.mapMx f).flagHandle = c.flagHandle := rfl
@[simp] theorem Ctx.mapMx_stall (c : Ctx) (f : Matrix → Matrix) : (c.mapMx f).stall = c.stall := rfl
@[simp] theorem Ctx.mapMx_chainStall (c : Ctx) (f : Matrix → Matrix) : (c.mapMx f).chainStall = c.chainStall := rfl
@[simp] theorem Ctx.mapMx_phase (c : Ctx) (f : Matrix → Matrix) : (c.mapMx f).phase = c.phase := rfl
@[simp] theorem Ctx.mapMx_ipc (c : Ctx) (f : Matrix → Matrix) : (c.mapMx f).ipc = c.ipc := rfl
@[simp] theorem Ctx.mapMx_irepst (c : Ctx) (f : Matrix → Matrix) : (c.mapMx f).irepst = c.irepst := rfl
@[simp] theorem Ctx.mapMx_budgetEnd (c : Ctx) (f : Matrix → Matrix) : (c.mapMx f).budgetEnd = c.budgetEnd := rfl
@[simp] theorem Ctx.mapMx_retires (c : Ctx) (f : Matrix → Matrix) : (c.mapMx f).retires = c.retires := rfl
@[simp] theorem Ctx.mapMx_fault (c : Ctx) (f : Matrix → Matrix) : (c.mapMx f).fault = c.fault := rfl
@[simp] theorem Ctx.mapMx_faultAt (c : Ctx) (f : Matrix → Matrix) : (c.mapMx f).faultAt = c.faultAt := rfl
@[simp] theorem Ctx.mapMx_moreFaults (c : Ctx) (f : Matrix → Matrix) : (c.mapMx f).moreFaults = c.moreFaults := rfl
@[simp] theorem Ctx.mapMx_queues (c : Ctx) (f : Matrix → Matrix) : (c.mapMx f).queues = c.queues := rfl
@[simp] theorem Ctx.mapMx_gbinds (c : Ctx) (f : Matrix → Matrix) : (c.mapMx f).gbinds = c.gbinds := rfl
@[simp] theorem Ctx.mapMx_sendq (c : Ctx) (f : Matrix → Matrix) : (c.mapMx f).sendq = c.sendq := rfl
@[simp] theorem Ctx.mapMx_pv (c : Ctx) (f : Matrix → Matrix) : (c.mapMx f).pv = c.pv := rfl
@[simp] theorem Ctx.mapMx_chain (c : Ctx) (f : Matrix → Matrix) : (c.mapMx f).chain = c.chain := rfl
@[simp] theorem Ctx.mapMx_mx (c : Ctx) (f : Matrix → Matrix) : (c.mapMx f).mx = f c.mx := rfl
@[simp] theorem Ctx.mapMx_order (c : Ctx) (f : Matrix → Matrix) : (c.mapMx f).order = c.order := rfl
@[simp] theorem Ctx.mapMx_cycles (c : Ctx) (f : Matrix → Matrix) : (c.mapMx f).cycles = c.cycles := rfl
@[simp] theorem Ctx.mapMx_held (c : Ctx) (f : Matrix → Matrix) : (c.mapMx f).held = c.held := rfl
@[simp] theorem Ctx.mapMx_seatAt (c : Ctx) (f : Matrix → Matrix) : (c.mapMx f).seatAt = c.seatAt := rfl
@[simp] theorem Ctx.mapMx_forced (c : Ctx) (f : Matrix → Matrix) : (c.mapMx f).forced = c.forced := rfl
@[simp] theorem Ctx.mapMx_clobbered (c : Ctx) (f : Matrix → Matrix) : (c.mapMx f).clobbered = c.clobbered := rfl
@[simp] theorem Ctx.mapMx_evt (c : Ctx) (f : Matrix → Matrix) : (c.mapMx f).evt = c.evt := rfl
@[simp] theorem Ctx.mapMx_ecalls (c : Ctx) (f : Matrix → Matrix) : (c.mapMx f).ecalls = c.ecalls := rfl
@[simp] theorem Ctx.mapMx_ports (c : Ctx) (f : Matrix → Matrix) : (c.mapMx f).ports = c.ports := rfl
@[simp] theorem Ctx.mapMx_nin (c : Ctx) (f : Matrix → Matrix) : (c.mapMx f).nin = c.nin := rfl
@[simp] theorem Ctx.mapMx_born (c : Ctx) (f : Matrix → Matrix) : (c.mapMx f).born = c.born := rfl
@[simp] theorem Ctx.mapMx_dormant (c : Ctx) (f : Matrix → Matrix) : (c.mapMx f).dormant = c.dormant := rfl
@[simp] theorem Ctx.mapMx_rows (c : Ctx) (f : Matrix → Matrix) : (c.mapMx f).rows = c.rows := rfl

@[simp] theorem Ctx.raise_num (c : Ctx) (fl : BitVec 7) : (c.raise fl).num = c.num := rfl
@[simp] theorem Ctx.raise_part (c : Ctx) (fl : BitVec 7) : (c.raise fl).part = c.part := rfl
@[simp] theorem Ctx.raise_record (c : Ctx) (fl : BitVec 7) : (c.raise fl).record = c.record := rfl
@[simp] theorem Ctx.raise_lslot (c : Ctx) (fl : BitVec 7) : (c.raise fl).lslot = c.lslot := rfl
@[simp] theorem Ctx.raise_cls (c : Ctx) (fl : BitVec 7) : (c.raise fl).cls = c.cls := rfl
@[simp] theorem Ctx.raise_sRegs (c : Ctx) (fl : BitVec 7) : (c.raise fl).sRegs = c.sRegs := rfl
@[simp] theorem Ctx.raise_vRegs (c : Ctx) (fl : BitVec 7) : (c.raise fl).vRegs = c.vRegs := rfl
@[simp] theorem Ctx.raise_footprint (c : Ctx) (fl : BitVec 7) : (c.raise fl).footprint = c.footprint := rfl
@[simp] theorem Ctx.raise_code (c : Ctx) (fl : BitVec 7) : (c.raise fl).code = c.code := rfl
@[simp] theorem Ctx.raise_regs (c : Ctx) (fl : BitVec 7) : (c.raise fl).regs = c.regs := rfl
@[simp] theorem Ctx.raise_csrs (c : Ctx) (fl : BitVec 7) :
    (c.raise fl).csrs = { c.csrs with fstat := c.csrs.fstat ||| fl.setWidth 64 } := rfl
@[simp] theorem Ctx.raise_pc (c : Ctx) (fl : BitVec 7) : (c.raise fl).pc = c.pc := rfl
@[simp] theorem Ctx.raise_lastPc (c : Ctx) (fl : BitVec 7) : (c.raise fl).lastPc = c.lastPc := rfl
@[simp] theorem Ctx.raise_chkr (c : Ctx) (fl : BitVec 7) : (c.raise fl).chkr = c.chkr := rfl
@[simp] theorem Ctx.raise_coverLost (c : Ctx) (fl : BitVec 7) : (c.raise fl).coverLost = c.coverLost := rfl
@[simp] theorem Ctx.raise_trapChkr (c : Ctx) (fl : BitVec 7) : (c.raise fl).trapChkr = c.trapChkr := rfl
@[simp] theorem Ctx.raise_yieldChkr (c : Ctx) (fl : BitVec 7) : (c.raise fl).yieldChkr = c.yieldChkr := rfl
@[simp] theorem Ctx.raise_handle (c : Ctx) (fl : BitVec 7) : (c.raise fl).handle = c.handle := rfl
@[simp] theorem Ctx.raise_flagHandle (c : Ctx) (fl : BitVec 7) : (c.raise fl).flagHandle = c.flagHandle := rfl
@[simp] theorem Ctx.raise_stall (c : Ctx) (fl : BitVec 7) : (c.raise fl).stall = c.stall := rfl
@[simp] theorem Ctx.raise_chainStall (c : Ctx) (fl : BitVec 7) : (c.raise fl).chainStall = c.chainStall := rfl
@[simp] theorem Ctx.raise_phase (c : Ctx) (fl : BitVec 7) : (c.raise fl).phase = c.phase := rfl
@[simp] theorem Ctx.raise_ipc (c : Ctx) (fl : BitVec 7) : (c.raise fl).ipc = c.ipc := rfl
@[simp] theorem Ctx.raise_irepst (c : Ctx) (fl : BitVec 7) : (c.raise fl).irepst = c.irepst := rfl
@[simp] theorem Ctx.raise_budgetEnd (c : Ctx) (fl : BitVec 7) : (c.raise fl).budgetEnd = c.budgetEnd := rfl
@[simp] theorem Ctx.raise_retires (c : Ctx) (fl : BitVec 7) : (c.raise fl).retires = c.retires := rfl
@[simp] theorem Ctx.raise_fault (c : Ctx) (fl : BitVec 7) : (c.raise fl).fault = c.fault := rfl
@[simp] theorem Ctx.raise_faultAt (c : Ctx) (fl : BitVec 7) : (c.raise fl).faultAt = c.faultAt := rfl
@[simp] theorem Ctx.raise_moreFaults (c : Ctx) (fl : BitVec 7) : (c.raise fl).moreFaults = c.moreFaults := rfl
@[simp] theorem Ctx.raise_queues (c : Ctx) (fl : BitVec 7) : (c.raise fl).queues = c.queues := rfl
@[simp] theorem Ctx.raise_gbinds (c : Ctx) (fl : BitVec 7) : (c.raise fl).gbinds = c.gbinds := rfl
@[simp] theorem Ctx.raise_sendq (c : Ctx) (fl : BitVec 7) : (c.raise fl).sendq = c.sendq := rfl
@[simp] theorem Ctx.raise_pv (c : Ctx) (fl : BitVec 7) : (c.raise fl).pv = c.pv := rfl
@[simp] theorem Ctx.raise_chain (c : Ctx) (fl : BitVec 7) : (c.raise fl).chain = c.chain := rfl
@[simp] theorem Ctx.raise_mx (c : Ctx) (fl : BitVec 7) : (c.raise fl).mx = c.mx := rfl
@[simp] theorem Ctx.raise_order (c : Ctx) (fl : BitVec 7) : (c.raise fl).order = c.order := rfl
@[simp] theorem Ctx.raise_cycles (c : Ctx) (fl : BitVec 7) : (c.raise fl).cycles = c.cycles := rfl
@[simp] theorem Ctx.raise_held (c : Ctx) (fl : BitVec 7) : (c.raise fl).held = c.held := rfl
@[simp] theorem Ctx.raise_seatAt (c : Ctx) (fl : BitVec 7) : (c.raise fl).seatAt = c.seatAt := rfl
@[simp] theorem Ctx.raise_forced (c : Ctx) (fl : BitVec 7) : (c.raise fl).forced = c.forced := rfl
@[simp] theorem Ctx.raise_clobbered (c : Ctx) (fl : BitVec 7) : (c.raise fl).clobbered = c.clobbered := rfl
@[simp] theorem Ctx.raise_evt (c : Ctx) (fl : BitVec 7) : (c.raise fl).evt = c.evt := rfl
@[simp] theorem Ctx.raise_ecalls (c : Ctx) (fl : BitVec 7) : (c.raise fl).ecalls = c.ecalls := rfl
@[simp] theorem Ctx.raise_ports (c : Ctx) (fl : BitVec 7) : (c.raise fl).ports = c.ports := rfl
@[simp] theorem Ctx.raise_nin (c : Ctx) (fl : BitVec 7) : (c.raise fl).nin = c.nin := rfl
@[simp] theorem Ctx.raise_born (c : Ctx) (fl : BitVec 7) : (c.raise fl).born = c.born := rfl
@[simp] theorem Ctx.raise_dormant (c : Ctx) (fl : BitVec 7) : (c.raise fl).dormant = c.dormant := rfl
@[simp] theorem Ctx.raise_rows (c : Ctx) (fl : BitVec 7) : (c.raise fl).rows = c.rows := rfl

@[simp] theorem Ctx.consume_num (c : Ctx) (f : Form) : (c.consume f).num = c.num := rfl
@[simp] theorem Ctx.consume_part (c : Ctx) (f : Form) : (c.consume f).part = c.part := rfl
@[simp] theorem Ctx.consume_record (c : Ctx) (f : Form) : (c.consume f).record = c.record := rfl
@[simp] theorem Ctx.consume_lslot (c : Ctx) (f : Form) : (c.consume f).lslot = c.lslot := rfl
@[simp] theorem Ctx.consume_cls (c : Ctx) (f : Form) : (c.consume f).cls = c.cls := rfl
@[simp] theorem Ctx.consume_sRegs (c : Ctx) (f : Form) : (c.consume f).sRegs = c.sRegs := rfl
@[simp] theorem Ctx.consume_vRegs (c : Ctx) (f : Form) : (c.consume f).vRegs = c.vRegs := rfl
@[simp] theorem Ctx.consume_footprint (c : Ctx) (f : Form) : (c.consume f).footprint = c.footprint := rfl
@[simp] theorem Ctx.consume_code (c : Ctx) (f : Form) : (c.consume f).code = c.code := rfl
@[simp] theorem Ctx.consume_regs (c : Ctx) (f : Form) : (c.consume f).regs = c.regs := rfl
@[simp] theorem Ctx.consume_csrs (c : Ctx) (f : Form) : (c.consume f).csrs = c.csrs := rfl
@[simp] theorem Ctx.consume_pc (c : Ctx) (f : Form) : (c.consume f).pc = c.pc := rfl
@[simp] theorem Ctx.consume_lastPc (c : Ctx) (f : Form) : (c.consume f).lastPc = c.lastPc := rfl
@[simp] theorem Ctx.consume_chkr (c : Ctx) (f : Form) : (c.consume f).chkr = c.chkr := rfl
@[simp] theorem Ctx.consume_coverLost (c : Ctx) (f : Form) : (c.consume f).coverLost = c.coverLost := rfl
@[simp] theorem Ctx.consume_trapChkr (c : Ctx) (f : Form) : (c.consume f).trapChkr = c.trapChkr := rfl
@[simp] theorem Ctx.consume_yieldChkr (c : Ctx) (f : Form) : (c.consume f).yieldChkr = c.yieldChkr := rfl
@[simp] theorem Ctx.consume_handle (c : Ctx) (f : Form) : (c.consume f).handle = c.handle := rfl
@[simp] theorem Ctx.consume_flagHandle (c : Ctx) (f : Form) : (c.consume f).flagHandle = c.flagHandle := rfl
@[simp] theorem Ctx.consume_stall (c : Ctx) (f : Form) : (c.consume f).stall = c.stall := rfl
@[simp] theorem Ctx.consume_chainStall (c : Ctx) (f : Form) : (c.consume f).chainStall = c.chainStall := rfl
@[simp] theorem Ctx.consume_phase (c : Ctx) (f : Form) : (c.consume f).phase = c.phase := rfl
@[simp] theorem Ctx.consume_ipc (c : Ctx) (f : Form) : (c.consume f).ipc = c.ipc := rfl
@[simp] theorem Ctx.consume_irepst (c : Ctx) (f : Form) : (c.consume f).irepst = c.irepst := rfl
@[simp] theorem Ctx.consume_budgetEnd (c : Ctx) (f : Form) : (c.consume f).budgetEnd = c.budgetEnd := rfl
@[simp] theorem Ctx.consume_retires (c : Ctx) (f : Form) : (c.consume f).retires = c.retires := rfl
@[simp] theorem Ctx.consume_fault (c : Ctx) (f : Form) : (c.consume f).fault = c.fault := rfl
@[simp] theorem Ctx.consume_faultAt (c : Ctx) (f : Form) : (c.consume f).faultAt = c.faultAt := rfl
@[simp] theorem Ctx.consume_moreFaults (c : Ctx) (f : Form) : (c.consume f).moreFaults = c.moreFaults := rfl
@[simp] theorem Ctx.consume_queues (c : Ctx) (f : Form) : (c.consume f).queues = c.queues := rfl
@[simp] theorem Ctx.consume_gbinds (c : Ctx) (f : Form) : (c.consume f).gbinds = c.gbinds := rfl
@[simp] theorem Ctx.consume_sendq (c : Ctx) (f : Form) : (c.consume f).sendq = c.sendq := rfl
@[simp] theorem Ctx.consume_pv (c : Ctx) (f : Form) : (c.consume f).pv = c.pv.drop f.pvCount := rfl
@[simp] theorem Ctx.consume_chain (c : Ctx) (f : Form) : (c.consume f).chain = c.chain := rfl
@[simp] theorem Ctx.consume_mx (c : Ctx) (f : Form) : (c.consume f).mx = c.mx := rfl
@[simp] theorem Ctx.consume_order (c : Ctx) (f : Form) : (c.consume f).order = c.order := rfl
@[simp] theorem Ctx.consume_cycles (c : Ctx) (f : Form) : (c.consume f).cycles = c.cycles := rfl
@[simp] theorem Ctx.consume_held (c : Ctx) (f : Form) : (c.consume f).held = c.held := rfl
@[simp] theorem Ctx.consume_seatAt (c : Ctx) (f : Form) : (c.consume f).seatAt = c.seatAt := rfl
@[simp] theorem Ctx.consume_forced (c : Ctx) (f : Form) : (c.consume f).forced = c.forced := rfl
@[simp] theorem Ctx.consume_clobbered (c : Ctx) (f : Form) : (c.consume f).clobbered = c.clobbered := rfl
@[simp] theorem Ctx.consume_evt (c : Ctx) (f : Form) : (c.consume f).evt = c.evt := rfl
@[simp] theorem Ctx.consume_ecalls (c : Ctx) (f : Form) : (c.consume f).ecalls = c.ecalls := rfl
@[simp] theorem Ctx.consume_ports (c : Ctx) (f : Form) : (c.consume f).ports = c.ports := rfl
@[simp] theorem Ctx.consume_nin (c : Ctx) (f : Form) : (c.consume f).nin = c.nin := rfl
@[simp] theorem Ctx.consume_born (c : Ctx) (f : Form) : (c.consume f).born = c.born := rfl
@[simp] theorem Ctx.consume_dormant (c : Ctx) (f : Form) : (c.consume f).dormant = c.dormant := rfl
@[simp] theorem Ctx.consume_rows (c : Ctx) (f : Form) : (c.consume f).rows = c.rows := rfl

/-! ## The order state of a context -/

@[simp] theorem Order.settle_outs (o : Order) (sp : Spec) : (o.settle sp).outs = o.outs := rfl
@[simp] theorem Order.settle_streams (o : Order) (sp : Spec) : (o.settle sp).streams = o.streams := rfl
@[simp] theorem Order.settle_touched (o : Order) (sp : Spec) : (o.settle sp).touched = o.touched := rfl
@[simp] theorem Order.settle_gone (o : Order) (sp : Spec) : (o.settle sp).gone = o.gone := rfl
@[simp] theorem Order.settle_closes (o : Order) (sp : Spec) : (o.settle sp).closes = o.closes := rfl
@[simp] theorem Order.settle_tokens (o : Order) (sp : Spec) : (o.settle sp).tokens = o.tokens := rfl
@[simp] theorem Order.settle_fences (o : Order) (sp : Spec) : (o.settle sp).fences = o.fences := rfl
@[simp] theorem Order.settle_bundle (o : Order) (sp : Spec) : (o.settle sp).bundle = o.bundle := rfl
@[simp] theorem Order.settle_group (o : Order) (sp : Spec) : (o.settle sp).group = o.group := rfl
@[simp] theorem Order.settle_lines (o : Order) (sp : Spec) : (o.settle sp).lines = o.lines := rfl
@[simp] theorem Order.settle_conflict (o : Order) (sp : Spec) : (o.settle sp).conflict = o.conflict := rfl
@[simp] theorem Order.settle_more (o : Order) (sp : Spec) : (o.settle sp).more = o.more := rfl
@[simp] theorem Order.settle_awaits (o : Order) (sp : Spec) : (o.settle sp).awaits = o.awaits := rfl
@[simp] theorem Order.settle_lateNum (o : Order) (sp : Spec) : (o.settle sp).lateNum = o.lateNum := rfl
@[simp] theorem Order.settle_heldLost (o : Order) (sp : Spec) : (o.settle sp).heldLost = o.heldLost := rfl

@[simp] theorem Order.settleY0_outs (o : Order) : o.settleY0.outs = o.outs := rfl
@[simp] theorem Order.settleY0_streams (o : Order) : o.settleY0.streams = o.streams := rfl
@[simp] theorem Order.settleY0_touched (o : Order) : o.settleY0.touched = o.touched := rfl
@[simp] theorem Order.settleY0_gone (o : Order) : o.settleY0.gone = o.gone := rfl
@[simp] theorem Order.settleY0_closes (o : Order) : o.settleY0.closes = o.closes := rfl
@[simp] theorem Order.settleY0_tokens (o : Order) : o.settleY0.tokens = o.tokens := rfl
@[simp] theorem Order.settleY0_fences (o : Order) : o.settleY0.fences = o.fences := rfl
@[simp] theorem Order.settleY0_bundle (o : Order) : o.settleY0.bundle = o.bundle := rfl
@[simp] theorem Order.settleY0_group (o : Order) : o.settleY0.group = o.group := rfl
@[simp] theorem Order.settleY0_lines (o : Order) : o.settleY0.lines = o.lines := rfl
@[simp] theorem Order.settleY0_conflict (o : Order) : o.settleY0.conflict = o.conflict := rfl
@[simp] theorem Order.settleY0_more (o : Order) : o.settleY0.more = o.more := rfl
@[simp] theorem Order.settleY0_awaits (o : Order) : o.settleY0.awaits = o.awaits := rfl
@[simp] theorem Order.settleY0_late (o : Order) : o.settleY0.late = o.late.map fun r => { r with y0 := false } := rfl
@[simp] theorem Order.settleY0_lateNum (o : Order) : o.settleY0.lateNum = o.lateNum := rfl
@[simp] theorem Order.settleY0_heldLost (o : Order) : o.settleY0.heldLost = o.heldLost := rfl

@[simp] theorem Order.await_outs (o : Order) (d : Spec) : (o.await d).outs = o.outs := rfl
@[simp] theorem Order.await_streams (o : Order) (d : Spec) : (o.await d).streams = o.streams := rfl
@[simp] theorem Order.await_touched (o : Order) (d : Spec) : (o.await d).touched = o.touched := rfl
@[simp] theorem Order.await_gone (o : Order) (d : Spec) : (o.await d).gone = o.gone := rfl
@[simp] theorem Order.await_closes (o : Order) (d : Spec) : (o.await d).closes = o.closes := rfl
@[simp] theorem Order.await_tokens (o : Order) (d : Spec) : (o.await d).tokens = o.tokens := rfl
@[simp] theorem Order.await_fences (o : Order) (d : Spec) : (o.await d).fences = o.fences := rfl
@[simp] theorem Order.await_bundle (o : Order) (d : Spec) : (o.await d).bundle = o.bundle := rfl
@[simp] theorem Order.await_group (o : Order) (d : Spec) : (o.await d).group = o.group := rfl
@[simp] theorem Order.await_lines (o : Order) (d : Spec) : (o.await d).lines = o.lines := rfl
@[simp] theorem Order.await_conflict (o : Order) (d : Spec) : (o.await d).conflict = o.conflict := rfl
@[simp] theorem Order.await_more (o : Order) (d : Spec) : (o.await d).more = o.more := rfl
@[simp] theorem Order.await_awaits (o : Order) (d : Spec) : (o.await d).awaits = o.awaits := rfl
@[simp] theorem Order.await_lateNum (o : Order) (d : Spec) : (o.await d).lateNum = o.lateNum + 1 := rfl
@[simp] theorem Order.await_heldLost (o : Order) (d : Spec) : (o.await d).heldLost = o.heldLost := rfl

end Sys2Proof.Machine
end

