-- ==== Sys2Proof/Laws/Effects.lean ====
section
/-! SUPPORT. What the shared operations do, once each: an instruction that is ready runs its effect, and a result written and retired
changes what Safety.lean names and nothing else. -/

namespace Sys2Proof.Machine

open Sys2Proof.Bits

/-! ## Issue -/

/-- A ready instruction has its effect. -/
theorem run_ready {s : State} {c : Ctx} {f : Form} (h : Ready s c f) (e : Ctx → State → State) : s.run f e = .next (e c s) := by
  obtain ⟨h1, h2, h3, h4, h5, h6⟩ := h
  have h6' : ¬ (f.nxCount ≠ 0 ∧ s.nxFull c = true) := fun ⟨a, b⟩ => by simp [h6 a] at b
  have h5' : ¬ c.pv.length < f.pvCount := by omega
  unfold State.run State.issue
  rw [h1]
  simp only [h2, h3, h4, if_neg h5', if_neg h6', Bool.false_eq_true, if_false]

/-! ## Retiring -/

theorem charge_eq (c : Ctx) (n : Nat) : c.charge n = { c with csrs := { c.csrs with energy := (c.charge n).csrs.energy } } := by
  unfold Ctx.charge
  dsimp only
  split <;> rfl

theorem nextPc_congr {c d : Ctx} (hp : c.pc = d.pc) (hr : c.csrs.repst = d.csrs.repst) (f : Form) : c.nextPc f = d.nextPc f := by
  unfold Ctx.nextPc Ctx.repActive Ctx.repDone Ctx.repTotal
  rw [hp, hr]

theorem nextRepst_congr {c d : Ctx} (hr : c.csrs.repst = d.csrs.repst) : c.nextRepst = d.nextRepst := by
  unfold Ctx.nextRepst Ctx.repActive Ctx.repDone Ctx.repTotal
  rw [hr]

/-- What retiring does to a context. -/
theorem retired_spec (c : Ctx) (f : Form) :
    (c.retired f).pc = c.nextPc f ∧ (c.retired f).regs = c.regs ∧ (c.retired f).order = c.order ∧ (c.retired f).pv = c.pv
    ∧ (c.retired f).csrs = { c.csrs with energy := (c.charge f.energy).csrs.energy, repst := c.nextRepst }
    ∧ c.retired f =
      { c with csrs := (c.retired f).csrs, pc := (c.retired f).pc, lastPc := c.pc, stall := none, chainStall := (c.retired f).chainStall,
               retires := c.retires + 1, chkr := (c.retired f).chkr, coverLost := (c.retired f).coverLost,
               handle := (c.retired f).handle, flagHandle := (c.retired f).flagHandle } := by
  have e := charge_eq c f.energy
  generalize hk : (c.charge f.energy).csrs.energy = k at e
  unfold Ctx.retired Ctx.nextPc Ctx.nextRepst
  rw [e]
  unfold Ctx.repActive Ctx.repDone Ctx.repTotal Ctx.mapCsrs
  cases hr : bit c.csrs.repst.toNat 18
  · cases f.keepsCover <;> simp
  · by_cases ht : field c.csrs.repst.toNat 9 9 ≤ field c.csrs.repst.toNat 0 9 + 1
    · have : ¬ field c.csrs.repst.toNat 0 9 + 1 < field c.csrs.repst.toNat 9 9 := by omega
      cases f.keepsCover <;> simp [ht, this]
    · have : field c.csrs.repst.toNat 0 9 + 1 < field c.csrs.repst.toNat 9 9 := by omega
      cases f.keepsCover <;> simp [ht, this]

/-! ## Finding contexts -/

/-- Changing the context in focus leaves every other context. -/
theorem findCtx_mapCx {s : State} {c : Ctx} {g : Ctx → Ctx} (h : s.cx = some c) (hg : (g c).num = c.num) {n : Nat} (hn : n ≠ c.num) :
    (s.mapCx g).findCtx n = s.findCtx n := by
  have h1 : (s.mapCx g).cx = some (g c) := by simp [State.mapCx, h]
  have h2 : ¬ (g c).num = n := by rw [hg]; exact fun e => hn e.symm
  have h3 : ¬ c.num = n := fun e => hn e.symm
  unfold State.findCtx
  rw [h1, h]
  simp only [if_neg h2, if_neg h3]
  rfl

theorem find_map_num {l : List Ctx} {g : Ctx → Ctx} (hg : ∀ c, (g c).num = c.num) (n : Nat) :
    (l.map g).find? (fun d => d.num == n) = (l.find? fun d => d.num == n).map g := by
  induction l with
  | nil => rfl
  | cons c l ih =>
    simp only [List.map_cons, List.find?_cons, hg]
    cases c.num == n <;> simp [ih]

/-- Changing the context of a number changes that one and no other. -/
theorem findCtx_updCtx {s : State} {k : Nat} {g : Ctx → Ctx} (hg : ∀ c, (g c).num = c.num) (n : Nat) :
    (s.updCtx k g).findCtx n = (s.findCtx n).map fun e => if e.num = k then g e else e := by
  have hg' : ∀ c : Ctx, (if c.num = k then g c else c).num = c.num := fun c => by split <;> simp [hg]
  have hl : (((s.updCtx k g).seats.map (·.2)) ++ (s.updCtx k g).saved)
      = ((s.seats.map (·.2)) ++ s.saved).map fun e => if e.num = k then g e else e := by
    simp [State.updCtx, List.map_map, Function.comp_def]
  unfold State.findCtx
  cases hc : s.cx with
  | none =>
    have : (s.updCtx k g).cx = none := by simp [State.updCtx, hc]
    rw [this, hl]
    exact find_map_num hg' n
  | some c =>
    have : (s.updCtx k g).cx = some (if c.num = k then g c else c) := by simp [State.updCtx, hc]
    rw [this, hl]
    simp only [hg']
    by_cases e : c.num = n
    · simp [e]
    · simp only [if_neg e]
      exact find_map_num hg' n

/-- A context that is found has the number it was looked for by. -/
theorem findCtx_num {s : State} {n : Nat} {c : Ctx} (h : s.findCtx n = some c) : c.num = n := by
  have hf : ∀ l : List Ctx, l.find? (fun d => d.num == n) = some c → c.num = n := fun l h => by
    simpa using List.find?_some h
  unfold State.findCtx at h
  cases hc : s.cx with
  | none => rw [hc] at h; exact hf _ h
  | some d =>
    rw [hc] at h
    by_cases e : d.num = n
    · simp only [if_pos e, Option.some.injEq] at h; rw [← h]; exact e
    · simp only [if_neg e] at h; exact hf _ h

/-! ## Registers -/

theorem getS_setS (r : Regs) (k n : Nat) (w : Word) (hn : n < 64) :
    (r.setS k w).getS n = if k = n ∧ n ≠ 0 then w else r.getS n := by
  unfold Regs.setS Regs.getS
  by_cases hk : k = 0
  · subst hk
    by_cases h0 : n = 0
    · simp [h0]
    · have : ¬ 0 = n := fun e => h0 e.symm
      simp [h0, this]
  · by_cases h0 : n = 0
    · simp [h0, hk]
    · simp only [hk, h0, if_false, ne_eq, not_false_eq_true, and_true]
      by_cases e : k = n
      · subst e; simp [hn]
      · simp [e]

theorem getO_setO (r : Regs) (k n : Nat) (w : Vec) (hn : n < 8) :
    (r.setO k w).getO n = if k = n then w else r.getO n := by
  unfold Regs.setO Regs.getO
  by_cases e : k = n
  · subst e; simp [hn]
  · simp [e]

theorem getV_setV (r : Regs) (k n : Nat) (w : Vec) (hn : n < 32) :
    (r.setV k w).getV n = if k = n then w else r.getV n := by
  unfold Regs.setV Regs.getV
  by_cases e : k = n
  · subst e; simp [hn]
  · simp [e]

theorem getM_setM (r : Regs) (k n : Nat) (w : Mask) (hn : n < 8) :
    (r.setM k w).getM n = if k = n ∧ n ≠ 0 then w else r.getM n := by
  unfold Regs.setM Regs.getM
  by_cases hk : k = 0
  · subst hk
    by_cases h0 : n = 0
    · simp [h0]
    · have : ¬ 0 = n := fun e => h0 e.symm
      simp [h0, this]
  · by_cases h0 : n = 0
    · simp [h0, hk]
    · simp only [hk, h0, if_false, ne_eq, not_false_eq_true, and_true]
      by_cases e : k = n
      · subst e; simp [hn]
      · simp [e]

/-- Writing a scalar destination and y0. -/
theorem putS_spec (r : Regs) (dst : Spec) (w : Word) : ScalarRegs r { r.putS dst w with y0 := w } dst w := by
  unfold Regs.putS
  by_cases hs : dst.isS = true
  · have hlt : dst.toNat < 64 := by simpa [Spec.isS] using hs
    rw [if_pos hs]
    refine ⟨rfl, ?_, ?_, ?_, fun n hn => ?_, fun n hn => ?_⟩
    · unfold Regs.setS; split <;> rfl
    · unfold Regs.setS; split <;> rfl
    · unfold Regs.setS; split <;> rfl
    · exact getS_setS r dst.toNat n w hn
    · have : ¬ dst.toNat = 96 + n := by omega
      rw [if_neg this]
      unfold Regs.setS; split <;> rfl
  · rw [if_neg hs]
    have hge : ¬ dst.toNat < 64 := by simpa [Spec.isS] using hs
    have hno : ∀ n < 64, ¬ (dst.toNat = n ∧ n ≠ 0) := fun n hn => by omega
    by_cases ho : dst.isO = true
    · rw [if_pos ho]
      have ho' : 96 ≤ dst.toNat ∧ dst.toNat < 104 := by simpa [Spec.isO] using ho
      refine ⟨rfl, rfl, rfl, rfl, fun n hn => by rw [if_neg (hno n hn)]; rfl, fun n hn => ?_⟩
      have := getO_setO r (dst.toNat - 0x60) n (w.setWidth 1024) hn
      have e : dst.toNat - 96 = n ↔ dst.toNat = 96 + n := by omega
      simp only [e] at this; exact this
    · rw [if_neg ho]
      have ho' : ¬ (96 ≤ dst.toNat ∧ dst.toNat < 104) := by simpa [Spec.isO] using ho
      refine ⟨rfl, rfl, rfl, rfl, fun n hn => by rw [if_neg (hno n hn)]; rfl, fun n hn => ?_⟩
      have : ¬ dst.toNat = 96 + n := by omega
      rw [if_neg this]; rfl

/-- Writing a vector destination and y1. -/
theorem putV_spec (r : Regs) (dst : Spec) (w : Vec) : VectorRegs r { r.putV dst w with y1 := w } dst w := by
  unfold Regs.putV
  by_cases hv : dst.isV = true
  · have hv' : 64 ≤ dst.toNat ∧ dst.toNat < 96 := by simpa [Spec.isV] using hv
    rw [if_pos hv]
    refine ⟨rfl, rfl, rfl, rfl, fun n hn => ?_, fun n hn => ?_⟩
    · have := getV_setV r (dst.toNat - 0x40) n w hn
      have e : dst.toNat - 64 = n ↔ dst.toNat = 64 + n := by omega
      simp only [e] at this; exact this
    · have : ¬ dst.toNat = 96 + n := by omega
      rw [if_neg this]; rfl
  · rw [if_neg hv]
    have hv' : ¬ (64 ≤ dst.toNat ∧ dst.toNat < 96) := by simpa [Spec.isV] using hv
    by_cases ho : dst.isO = true
    · rw [if_pos ho]
      have ho' : 96 ≤ dst.toNat ∧ dst.toNat < 104 := by simpa [Spec.isO] using ho
      refine ⟨rfl, rfl, rfl, rfl, fun n hn => ?_, fun n hn => ?_⟩
      · have : ¬ dst.toNat = 64 + n := by omega
        rw [if_neg this]; rfl
      · have := getO_setO r (dst.toNat - 0x60) n w hn
        have e : dst.toNat - 96 = n ↔ dst.toNat = 96 + n := by omega
        simp only [e] at this; exact this
    · rw [if_neg ho]
      have ho' : ¬ (96 ≤ dst.toNat ∧ dst.toNat < 104) := by simpa [Spec.isO] using ho
      refine ⟨rfl, rfl, rfl, rfl, fun n hn => ?_, fun n hn => ?_⟩
      · have : ¬ dst.toNat = 64 + n := by omega
        rw [if_neg this]; rfl
      · have : ¬ dst.toNat = 96 + n := by omega
        rw [if_neg this]; rfl

/-- Writing a mask destination. -/
theorem setM_spec (r : Regs) (dst : Spec) (w : Mask) : MaskRegs r (r.setM dst.toNat w) dst w := by
  refine ⟨fun n hn => getM_setM r dst.toNat n w hn, ?_, ?_, ?_, ?_, ?_⟩ <;> (unfold Regs.setM; split <;> rfl)

/-! ## A result written and retired -/

theorem quiet_mapCx (s : State) (g : Ctx → Ctx) : Quiet s (s.mapCx g) :=
  ⟨fun _ => rfl, fun _ => rfl, rfl, rfl, rfl, rfl, rfl, ⟨rfl, rfl, rfl⟩, rfl, rfl⟩

theorem quiet_updCtx (s : State) (n : Nat) (g : Ctx → Ctx) : Quiet s (s.updCtx n g) :=
  ⟨fun _ => rfl, fun _ => rfl, rfl, rfl, rfl, rfl, rfl, ⟨rfl, rfl, rfl⟩, rfl, rfl⟩

theorem Quiet.trans {s t u : State} (h : Quiet s t) (k : Quiet t u) : Quiet s u :=
  ⟨fun a => (k.bytes a).trans (h.bytes a), fun a => (k.control a).trans (h.control a), k.cores.trans h.cores,
   k.slices.trans h.slices, k.sched.trans h.sched, k.fabric.trans h.fabric, k.complex.trans h.complex,
   ⟨k.clocks.1.trans h.clocks.1, k.clocks.2.1.trans h.clocks.2.1, k.clocks.2.2.trans h.clocks.2.2⟩, k.owes.trans h.owes,
   k.sent.trans h.sent⟩

theorem quiet_pushNx (s : State) (w : Vec) : Quiet s (s.pushNx w) := by
  unfold State.pushNx
  split
  · exact ⟨fun _ => rfl, fun _ => rfl, rfl, rfl, rfl, rfl, rfl, ⟨rfl, rfl, rfl⟩, rfl, rfl⟩
  · split
    · exact ⟨fun _ => rfl, fun _ => rfl, rfl, rfl, rfl, rfl, rfl, ⟨rfl, rfl, rfl⟩, rfl, rfl⟩
    · exact quiet_updCtx s _ _

/-- The context in focus after an nx entry is pushed differs at most in its own channel. -/
theorem pushNx_cx {s : State} {c : Ctx} (h : s.cx = some c) (w : Vec) :
    ∃ q, (s.pushNx w).cx = some { c with pv := q } ∧ (c.nextMember ≠ some c.num → q = c.pv) := by
  unfold State.pushNx
  rw [h]
  dsimp only
  split
  · exact ⟨c.pv, h, fun _ => rfl⟩
  · rename_i n hn
    by_cases e : c.num = n
    · exact ⟨c.pv ++ [w], by simp [State.updCtx, h, e], fun k => absurd (by rw [hn, e]) k⟩
    · exact ⟨c.pv, by simp [State.updCtx, h, e], fun _ => rfl⟩

theorem pushNx_others {s : State} {c : Ctx} (h : s.cx = some c) (w : Vec) (n : Nat) :
    (s.pushNx w).findCtx n
      = (s.findCtx n).map fun e => if c.nextMember = some n then { e with pv := e.pv ++ [w] } else e := by
  unfold State.pushNx
  rw [h]
  dsimp only
  split
  · rename_i e
    simp [e]
  · rename_i k e
    rw [findCtx_updCtx (by intro c; rfl)]
    cases hf : s.findCtx n with
    | none => rfl
    | some d =>
      have hd := findCtx_num hf
      simp only [Option.map_some, e, Option.some.injEq, hd, eq_comm]

/-- An nx entry pushed, where there is one. -/
def State.pushOpt (s : State) (out : Option Vec) : State :=
  match out with
  | some w => s.pushNx w
  | none => s

/-- A change of the context in focus that writes registers, raises flags and settles what the register was owed, with or without an
nx entry, then retired. -/
theorem result_spec {s : State} {c : Ctx} (f : Form) (g : Ctx → Ctx) (out : Option Vec) (fl : BitVec 7) (h : s.cx = some c)
    (hg : g c = { c with regs := (g c).regs, csrs := { c.csrs with fstat := c.csrs.fstat ||| fl.setWidth 64 },
                         order := { c.order with late := (g c).order.late } })
    {u : State} (hu : u = (s.mapCx g).pushOpt out) :
    ∃ d, (u.done f).cx = some d ∧ d.regs = (g c).regs ∧ Advances c d f fl (c.nextPc f) ∧ Quiet s (u.done f)
      ∧ OthersKeep s (u.done f) c out := by
  have hm : (s.mapCx g).cx = some (g c) := by simp [State.mapCx, h]
  have hnum : (g c).num = c.num := by rw [hg]
  have hpv : (g c).pv = c.pv := by rw [hg]
  have hnm : (g c).nextMember = c.nextMember := by rw [hg]; rfl
  obtain ⟨q, hq, hqv⟩ : ∃ q, u.cx = some { g c with pv := q } ∧ (c.nextMember ≠ some c.num → q = c.pv) := by
    rw [hu]
    cases out with
    | none => exact ⟨(g c).pv, hm, fun _ => hpv⟩
    | some w =>
      obtain ⟨q, h1, h2⟩ := pushNx_cx hm w
      rw [hnm, hnum, hpv] at h2
      exact ⟨q, h1, h2⟩
  have hquiet : Quiet s u := by
    rw [hu]
    unfold State.pushOpt
    cases out with
    | none => exact quiet_mapCx s g
    | some w => exact (quiet_mapCx s g).trans (quiet_pushNx _ w)
  have hoth : OthersKeep s u c out := by
    intro n hn
    have hk := findCtx_mapCx h hnum hn
    have hnx : (g c).nextMember = c.nextMember := by rw [hg]; rfl
    rw [hu]
    unfold State.pushOpt
    cases out with
    | none => simp [hk]
    | some w =>
      dsimp only
      rw [pushNx_others hm w n, hk, hnx]
  generalize hc1 : ({ g c with pv := q } : Ctx) = c1 at hq
  have e1 : c1 = { c with regs := (g c).regs, csrs := { c.csrs with fstat := c.csrs.fstat ||| fl.setWidth 64 }, pv := q,
                          order := { c.order with late := (g c).order.late } } := by
    rw [← hc1, hg]
  obtain ⟨r1, r2, r3, r4, r5, r6⟩ := retired_spec (c1.consume f) f
  have hcx : (u.done f).cx = some ((c1.consume f).retired f) := by
    simp [State.done, State.retire, State.mapCx, hq]
  have hnum2 : ((c1.consume f).retired f).num = (c1.consume f).num := by rw [r6]
  have hoth2 : OthersKeep s (u.done f) c out := by
    intro n hn
    have hn1 : n ≠ c1.num := by rw [e1]; exact hn
    have k1 := findCtx_mapCx (g := fun c => c.consume f) hq rfl hn1
    have hq2 : (u.mapCx fun c => c.consume f).cx = some (c1.consume f) := by simp [State.mapCx, hq]
    have k2 := findCtx_mapCx (g := fun c => c.retired f) hq2 hnum2 hn1
    show ((u.mapCx fun c => c.consume f).mapCx fun c => c.retired f).findCtx n = _
    rw [k2, k1]
    exact hoth n hn
  have hch : c.nextMember ≠ some c.num → ((c1.consume f).retired f).pv = c.pv.drop f.pvCount := fun k => by
    rw [r4, ← hqv k]
    simp [Ctx.consume, e1]
  generalize (c1.consume f).retired f = d at *
  refine ⟨d, hcx, ?_, ⟨?_, ?_, ?_, ?_, hch⟩, ?_, hoth2⟩
  · rw [r2]; simp [Ctx.consume, e1]
  · rw [r1]; exact nextPc_congr (by rw [e1]; rfl) (by rw [e1]; rfl) f
  · rw [r5]
    have hen : ((c1.consume f).charge f.energy).csrs.energy = (c.charge f.energy).csrs.energy := by
      unfold Ctx.charge Ctx.mapCsrs Ctx.consume
      rw [e1]
      dsimp only
      split <;> rfl
    rw [hen, nextRepst_congr (c := c1.consume f) (d := c) (by rw [e1]; rfl)]
    simp [Ctx.consume, e1]
  · rw [r2, r3, r4]
    refine r6.trans ?_
    simp [Ctx.consume, e1]
  · rw [r3]; simp [Ctx.consume, e1]
  · exact hquiet.trans ((quiet_mapCx u _).trans (quiet_mapCx _ _))

/-- A scalar result written and retired (R182, R185). -/
theorem scalar_result {s : State} {c : Ctx} (f : Form) (dst : Spec) (w : Word) (fl : BitVec 7) (h : s.cx = some c) :
    ∃ d, ((((s.mapCx fun c => c.raise fl).putScalar dst w).done f)).cx = some d ∧ ScalarRegs c.regs d.regs dst w
      ∧ Advances c d f fl (c.nextPc f) ∧ Quiet s (((s.mapCx fun c => c.raise fl).putScalar dst w).done f)
      ∧ OthersKeep s (((s.mapCx fun c => c.raise fl).putScalar dst w).done f) c
          (if dst = specNx then some (w.setWidth 1024) else none) := by
  obtain ⟨d, h1, h2, h3, h4, h5⟩ := result_spec (s := s) (c := c) f
    (fun c => { c.raise fl with regs := { c.regs.putS dst w with y0 := w }, order := (c.order.settle dst).settleY0 })
    (if dst = specNx then some (w.setWidth 1024) else none) fl h (by rfl)
    (u := (s.mapCx fun c => c.raise fl).putScalar dst w) (by
      unfold State.putScalar State.pushOpt
      by_cases e : dst = specNx
      · simp [e, State.mapCx, h]
      · simp [e, State.mapCx, h])
  exact ⟨d, h1, by rw [h2]; exact putS_spec c.regs dst w, h3, h4, h5⟩

/-- A vector result written and retired (R182, R185). -/
theorem vector_result {s : State} {c : Ctx} (f : Form) (dst : Spec) (w : Vec) (fl : BitVec 7) (h : s.cx = some c) :
    ∃ d, ((((s.mapCx fun c => c.raise fl).putVector dst w).done f)).cx = some d ∧ VectorRegs c.regs d.regs dst w
      ∧ Advances c d f fl (c.nextPc f) ∧ Quiet s (((s.mapCx fun c => c.raise fl).putVector dst w).done f)
      ∧ OthersKeep s (((s.mapCx fun c => c.raise fl).putVector dst w).done f) c
          (if dst = specNx then some w else none) := by
  obtain ⟨d, h1, h2, h3, h4, h5⟩ := result_spec (s := s) (c := c) f
    (fun c => { c.raise fl with regs := { c.regs.putV dst w with y1 := w }, order := c.order.settle dst })
    (if dst = specNx then some w else none) fl h (by rfl)
    (u := (s.mapCx fun c => c.raise fl).putVector dst w) (by
      unfold State.putVector State.pushOpt
      by_cases e : dst = specNx
      · simp [e, State.mapCx, h]
      · simp [e, State.mapCx, h])
  exact ⟨d, h1, by rw [h2]; exact putV_spec c.regs dst w, h3, h4, h5⟩

/-- A mask result written and retired (R182, R184). -/
theorem mask_result {s : State} {c : Ctx} (f : Form) (dst : Spec) (w : Mask) (fl : BitVec 7) (h : s.cx = some c) :
    ∃ d, ((((s.mapCx fun c => c.raise fl).putMask dst.toNat w).done f)).cx = some d ∧ MaskRegs c.regs d.regs dst w
      ∧ Advances c d f fl (c.nextPc f) ∧ Quiet s (((s.mapCx fun c => c.raise fl).putMask dst.toNat w).done f)
      ∧ OthersKeep s (((s.mapCx fun c => c.raise fl).putMask dst.toNat w).done f) c none := by
  obtain ⟨d, h1, h2, h3, h4, h5⟩ := result_spec (s := s) (c := c) f
    (fun c => { c.raise fl with regs := c.regs.setM dst.toNat w }) none fl h (by rfl)
    (u := (s.mapCx fun c => c.raise fl).putMask dst.toNat w) (by simp [State.putMask, State.mapCx, State.pushOpt, h])
  exact ⟨d, h1, by rw [h2]; exact setM_spec c.regs dst w, h3, h4, h5⟩

/-- Raising no flag changes nothing. -/
theorem raise_zero (c : Ctx) : c.raise 0 = c := by
  simp [Ctx.raise, Ctx.mapCsrs]

theorem mapCx_raise_zero (s : State) : (s.mapCx fun c => c.raise 0) = s := by
  simp only [raise_zero]
  cases h : s.cx <;> simp [State.mapCx, h] <;> rw [← h]

end Sys2Proof.Machine
end

