-- ==== Sys2Proof/Laws/Run.lean ====
section
/-! SUPPORT. The two spellings of an instruction's meaning agree: the step runs a decoded form by its OP value, and `exec` an
instruction by its constructor; and what the issue of an instruction can do, once. -/

namespace Sys2Proof.Machine

/-- What a step runs for a decoded instruction is what `exec` gives it. -/
theorem run_eq_exec (i : Instr) (s : State) (h : i.form ≠ .event) : runForm i.form s = exec i s := by
  cases i <;> first
    | exact absurd rfl h
    | rfl

/-- Every instruction with an encoding is issued: `exec` makes the tests of the issue, then runs its effect. -/
theorem exec_run (i : Instr) (h : i.encoded = true) : ∃ e, ∀ s, exec i s = s.run i.form e := by
  cases i <;> first
    | exact Bool.noConfusion (show false = true from h)
    | exact ⟨_, fun _ => rfl⟩

/-- An instruction always completes with a next state. -/
theorem exec_next (i : Instr) (s : State) (h : i.form ≠ .event) : ∃ t, exec i s = .next t := by
  by_cases e : i.encoded = true
  · obtain ⟨f, hf⟩ := exec_run i e
    exact ⟨_, hf s⟩
  · cases hf : i.form <;> simp [Instr.encoded, hf] at e h
    exact ⟨_, (run_eq_exec i s (by simp [hf])).symm.trans (by rw [hf]; rfl)⟩

/-- Everything the issue of an instruction can do: nothing on an empty seat, the decode fault of the lowest item, a retirement without
effect under a false predicate, one of the three waits, or the effect. -/
theorem issue_cases (s : State) (f : Form) (e : Ctx → State → State) :
    (s.cx = none ∧ s.issue f e = s)
    ∨ ∃ c, s.cx = some c ∧
      ((∃ k, c.decodeItem f = some k ∧ s.issue f e = s.decodeFault k (f.bits.setWidth 64))
      ∨ c.decodeItem f = none ∧ c.predFalse f = true ∧ s.issue f e = s.retire f
      ∨ c.decodeItem f = none ∧ c.predFalse f = false ∧
        ((c.order.owed.any fun sp => f.uses sp) = true ∧ s.issue f e = s.stallOn .owed
        ∨ (c.order.owed.any fun sp => f.uses sp) = false ∧
          (c.pv.length < f.pvCount ∧ s.issue f e = s.stallChain false f.pvCount
          ∨ f.pvCount ≤ c.pv.length ∧
            ((f.nxCount ≠ 0 ∧ s.nxFull c = true) ∧ s.issue f e = s.stallChain true f.pvCount
            ∨ Ready s c f ∧ s.issue f e = e c s)))) := by
  unfold State.issue
  cases hc : s.cx with
  | none => exact .inl ⟨rfl, rfl⟩
  | some c =>
    refine .inr ⟨c, rfl, ?_⟩
    dsimp only
    cases hd : c.decodeItem f with
    | some k => exact .inl ⟨k, rfl, rfl⟩
    | none =>
      refine .inr ?_
      cases hp : c.predFalse f with
      | true => exact .inl ⟨rfl, rfl, rfl⟩
      | false =>
        refine .inr ⟨rfl, rfl, ?_⟩
        cases ho : c.order.owed.any fun sp => f.uses sp with
        | true => exact .inl ⟨rfl, rfl⟩
        | false =>
          refine .inr ⟨rfl, ?_⟩
          by_cases hv : c.pv.length < f.pvCount
          · exact .inl ⟨hv, by simp [hv]⟩
          · refine .inr ⟨by omega, ?_⟩
            by_cases hn : f.nxCount ≠ 0 ∧ s.nxFull c = true
            · exact .inl ⟨hn, by simp [hv, hn]⟩
            · refine .inr ⟨⟨hc, hd, hp, ho, by omega, fun h0 => ?_⟩, by simp [hv, hn]⟩
              cases hx : s.nxFull c with
              | false => rfl
              | true => exact absurd ⟨h0, hx⟩ hn

end Sys2Proof.Machine
end

