-- ==== Sys2Proof/Laws/Exceptions.lean ====
section
/-! SUPPORT. Taking a trap, returning from one, and a fatal fault: what each shared operation can do, once. -/

namespace Sys2Proof.Machine

open Sys2Proof.Bits

/-! ## Traps (R355, R356) -/

/-- A trap outside a handler, with a handler for its code, enters it. -/
theorem trapEntry_enters {s : State} {c : Ctx} {code h : Nat} (val : Word) (hc : s.cx = some c) (ht : c.inTrap = false)
    (hy : c.inYield = false) (hh : c.handler code = some h) :
    s.trapEntry code val = { s with cx := some (c.enterTrap code h (if code = 3 then c.pc + 8 else c.pc) val) } := by
  simp [State.trapEntry, hc, ht, hy, hh, State.mapCx]

/-- A trap inside a trap handler is a context fault. -/
theorem trapEntry_nested {s : State} {c : Ctx} (code : Nat) (val : Word) (hc : s.cx = some c) (ht : c.inTrap = true) :
    s.trapEntry code val = s.contextFault 3 code := by
  simp [State.trapEntry, hc, ht]

/-- A trap in the yield handler starts the forced full save. -/
theorem trapEntry_inYield {s : State} {c : Ctx} (code : Nat) (val : Word) (hc : s.cx = some c) (ht : c.inTrap = false)
    (hy : c.inYield = true) : s.trapEntry code val = s.forceSave s.cur := by
  simp [State.trapEntry, hc, ht, hy]

/-- A trap without a handler for its code is a context fault. -/
theorem trapEntry_noHandler {s : State} {c : Ctx} {code : Nat} (val : Word) (hc : s.cx = some c) (ht : c.inTrap = false)
    (hy : c.inYield = false) (hh : c.handler code = none) : s.trapEntry code val = s.contextFault 4 code := by
  simp [State.trapEntry, hc, ht, hy, hh]

/-- What the entry keeps of the context: all but TCAUSE, TPC, TVAL, TINFO, REPST, the program counter and the cover. -/
theorem enterTrap_keeps (c : Ctx) (code h : Nat) (tpc : BitVec 32) (val : Word) :
    ∃ tcause tinfo repst cover, c.enterTrap code h tpc val
      = { c with
          csrs := { c.csrs with tcause := tcause, tpc := BitVec.ofNat 64 tpc.toNat, tval := val, tinfo := tinfo, repst := repst },
          pc := BitVec.ofNat 32 h, stall := none, chkr := [], trapChkr := cover, coverLost := false, handle := 0, flagHandle := 0 } := by
  unfold Ctx.enterTrap Ctx.mapCsrs
  exact ⟨_, _, _, _, rfl⟩

/-- A return outside a trap handler is a context fault. -/
theorem trapReturn_outside {s : State} {c : Ctx} (hc : s.cx = some c) (ht : c.inTrap = false) :
    s.trapReturn = s.contextFault 1 (field c.csrs.tcause.toNat 0 8) := by
  simp [State.trapReturn, hc, ht]

/-! ## Faults (R358, R362) -/

/-- A precise fault ends the context in focus, with VAL and AUX as given. -/
theorem fault_eq {s : State} {c : Ctx} (code sub : Nat) (val : Word) (aux1 aux2 : Nat) (hc : s.cx = some c) :
    s.fault code sub val aux1 aux2
      = s.fatal c { code := code, sub := sub, val := val, aux1 := aux1, aux2 := aux2, pc := c.pc, detail := 0 } true 0 := by
  simp [State.fault, hc]

/-- A report to a partition without a ring, or with a full one, changes that ring's register alone. -/
theorem report_lost {s : State} {r : Reporter} (f : Flt) (precise replay : Bool) (skid : Nat)
    (h : s.dcbField (fltring r.part 0) 0 45 = 0
      ∨ (s.dcbField (fltring r.part 1) 16 16 + 65536 - s.dcbField (fltring r.part 1) 0 16) % 65536
        = 2 ^ s.dcbField (fltring r.part 0) 45 5) :
    ∃ d, s.report r f precise replay skid = { s with dcb := d } :=
  ⟨_, by rw [State.report, if_pos h]; rfl⟩

/-- An imprecise fault of a context that has none yet is kept, and its delivery owed. -/
theorem imprecise_first {s : State} {n : Nat} {c : Ctx} (f : Flt) (k : Nat) (hf : s.findCtx n = some c) (h0 : c.fault = none) :
    s.imprecise n f k = (s.updCtx n fun c => { c with fault := some f, faultAt := k }).owe (.impreciseFaultDelivery n) := by
  simp [State.imprecise, hf, h0]

/-- A later imprecise fault of a context waits behind the first, to be reported with it. -/
theorem imprecise_second {s : State} {n : Nat} {c : Ctx} {g : Flt} (f : Flt) (k : Nat) (hf : s.findCtx n = some c) (h0 : c.fault = some g) :
    s.imprecise n f k = s.updCtx n fun c => { c with moreFaults := c.moreFaults ++ [(f, k)] } := by
  simp [State.imprecise, hf, h0]

end Sys2Proof.Machine
end

