-- ==== Sys2Proof/Laws/Families.lean ====
section
/-! SUPPORT. One lemma for each shape of instruction: from the form of its meaning to what it gives, in the terms of Safety.lean. -/

namespace Sys2Proof.Machine

open Sys2Proof.Bits

/-- An instruction whose meaning is one scalar result. -/
theorem gives_scalar {i : Instr} {dst : Spec} {v : State → Ctx → Word}
    (he : ∀ s, exec i s = s.run i.form fun c s => (s.putScalar dst (v s c)).done i.form) : GivesScalar i dst v := by
  intro s c hr
  obtain ⟨d, h1, h2, h3, h4, h5⟩ := scalar_result i.form dst (v s c) 0 hr.seat
  rw [mapCx_raise_zero] at h1 h4 h5
  exact ⟨_, d, by rw [he, run_ready hr], h1, h2, h3, h4, h5⟩

/-- An instruction whose meaning is one scalar result with flags. -/
theorem gives_scalar_flags {i : Instr} {dst : Spec} {v : Ctx → Word × BitVec 7}
    (he : ∀ s, exec i s = s.run i.form fun c s =>
      ((s.mapCx fun c' => c'.raise (v c).2).putScalar dst (v c).1).done i.form) : GivesScalarFlags i dst v := by
  intro s c hr
  obtain ⟨d, h1, h2, h3, h4, h5⟩ := scalar_result i.form dst (v c).1 (v c).2 hr.seat
  exact ⟨_, d, by rw [he, run_ready hr], h1, h2, h3, h4, h5⟩

/-- An instruction whose meaning is one mask result with flags. -/
theorem gives_mask {i : Instr} {dst : Spec} {v : Ctx → Mask} {fl : Ctx → BitVec 7}
    (he : ∀ s, exec i s = s.run i.form fun c s =>
      ((s.mapCx fun c' => c'.raise (fl c)).putMask dst.toNat (v c)).done i.form) : GivesMask i dst v fl := by
  intro s c hr
  obtain ⟨d, h1, h2, h3, h4, h5⟩ := mask_result i.form dst (v c) (fl c) hr.seat
  exact ⟨_, d, by rw [he, run_ready hr], h1, h2, h3, h4, h5⟩

/-- An instruction whose meaning is one mask result without flags. -/
theorem gives_mask_plain {i : Instr} {dst : Spec} {v : Ctx → Mask}
    (he : ∀ s, exec i s = s.run i.form fun c s => (s.putMask dst.toNat (v c)).done i.form) : GivesMask i dst v fun _ => 0 := by
  refine gives_mask fun s => ?_
  simp only [mapCx_raise_zero]
  exact he s

/-! ## Lanes -/

theorem packLanes_lt (w : Nat) (xs : List Nat) : packLanes w xs < 2 ^ (w * xs.length) := by
  induction xs with
  | nil => simp [packLanes]
  | cons x xs ih =>
    have h1 : x % 2 ^ w < 2 ^ w := Nat.mod_lt _ (Nat.two_pow_pos w)
    have h2 : 2 ^ (w * (xs.length + 1)) = 2 ^ w * 2 ^ (w * xs.length) := by rw [← Nat.pow_add, Nat.mul_add, Nat.mul_one, Nat.add_comm]
    show x % 2 ^ w + 2 ^ w * packLanes w xs < 2 ^ (w * (xs.length + 1))
    rw [h2]
    calc x % 2 ^ w + 2 ^ w * packLanes w xs < 2 ^ w + 2 ^ w * packLanes w xs := by omega
      _ = 2 ^ w * (packLanes w xs + 1) := by rw [Nat.mul_add, Nat.mul_one, Nat.add_comm]
      _ ≤ 2 ^ w * 2 ^ (w * xs.length) := Nat.mul_le_mul_left _ ih

theorem packLanes_shift (w : Nat) (xs : List Nat) (k : Nat) (hk : k < xs.length) :
    (packLanes w xs >>> (w * k)) % 2 ^ w = xs[k] % 2 ^ w := by
  induction xs generalizing k with
  | nil => simp at hk
  | cons x xs ih =>
    cases k with
    | zero =>
      simp only [packLanes, Nat.mul_zero, Nat.shiftRight_zero, List.getElem_cons_zero, Nat.add_mul_mod_self_left]
      exact Nat.mod_mod _ _
    | succ k =>
      have hk' : k < xs.length := by simpa using hk
      have e : w * (k + 1) = w + w * k := by rw [Nat.mul_add, Nat.mul_one, Nat.add_comm]
      have h1 : x % 2 ^ w < 2 ^ w := Nat.mod_lt _ (Nat.two_pow_pos w)
      have e2 : (x % 2 ^ w + 2 ^ w * packLanes w xs) >>> w = packLanes w xs := by
        rw [Nat.shiftRight_eq_div_pow, Nat.add_mul_div_left _ _ (Nat.two_pow_pos w), Nat.div_eq_of_lt h1, Nat.zero_add]
      show ((x % 2 ^ w + 2 ^ w * packLanes w xs) >>> (w * (k + 1))) % 2 ^ w = _
      rw [e, Nat.shiftRight_add, e2]
      exact ih k hk'

/-- A lane of a vector that is built from lanes. -/
theorem lane_ofLanes (w : Nat) (xs : List Nat) (k : Nat) (hk : k < xs.length) (hw : w * xs.length ≤ 1024) :
    lane w (ofLanes w xs) k = xs[k] % 2 ^ w := by
  have h1 : packLanes w xs < 2 ^ 1024 := Nat.lt_of_lt_of_le (packLanes_lt w xs) (Nat.pow_le_pow_right (by decide) hw)
  show ((BitVec.ofNat 1024 (packLanes w xs)).toNat >>> (w * k)) % 2 ^ w = _
  rw [BitVec.toNat_ofNat, Nat.mod_eq_of_lt h1]
  exact packLanes_shift w xs k hk

theorem foldl_or_map {α β : Type} (l : List α) (f : α → β) (g : β → BitVec 7) (a : BitVec 7) :
    (l.map f).foldl (fun a x => a ||| g x) a = l.foldl (fun a x => a ||| g (f x)) a := by
  rw [List.foldl_map]

/-- An instruction whose meaning writes lanes. -/
theorem gives_lanes {i : Instr} {dst : Spec} {w n : Nat} (hw : w * n ≤ 1024) {active : Ctx → Nat → Bool} {z : Bool}
    {g : Ctx → Nat → Nat × BitVec 7}
    (he : ∀ s, exec i s = s.run i.form fun c s => s.putLanes c i.form dst w n (active c) z (g c)) :
    GivesLanes i dst w n fun c k => if active c k then g c k else (if z then 0 else lane w (c.oldV dst) k, 0) := by
  intro s c hr
  let r : Nat → Nat × BitVec 7 := fun k => if active c k then g c k else (if z then 0 else lane w (c.oldV dst) k, 0)
  let v := ofLanes w (((List.range n).map r).map (·.1))
  let fl := ((List.range n).map r).foldl (fun a x => a ||| x.2) (0 : BitVec 7)
  obtain ⟨d, h1, h2, h3, h4, h5⟩ := vector_result i.form dst v fl hr.seat
  have hfl : fl = orLanes n fun k => (r k).2 := by
    simp only [fl, orLanes, List.foldl_map]
  refine ⟨_, d, v, by rw [he, run_ready hr]; rfl, h1, h2, fun k hk => ?_, by rw [← hfl]; exact h3, h4, h5⟩
  have hl : (((List.range n).map r).map (·.1)).length = n := by simp
  rw [show lane w v k = _ from lane_ofLanes w _ k (by rw [hl]; exact hk) (by rw [hl]; exact hw)]
  simp [r]

/-! ## Control -/

theorem doneTo_eq (s : State) (f : Form) (pc : BitVec 32) : s.doneTo f pc = (s.done f).mapCx fun c => { c with pc := pc } := by
  unfold State.doneTo State.retireTo State.done State.retire State.mapCx
  simp only [Option.map_map]
  rfl

/-- A result at another program counter. -/
theorem moved {s t : State} {c d : Ctx} {f : Form} {fl : BitVec 7} {out : Option Vec} (pc : BitVec 32) (h1 : t.cx = some d)
    (h3 : Advances c d f fl (c.nextPc f)) (h4 : Quiet s t) (h5 : OthersKeep s t c out) :
    (t.mapCx fun c => { c with pc := pc }).cx = some { d with pc := pc } ∧ Advances c { d with pc := pc } f fl pc
    ∧ Quiet s (t.mapCx fun c => { c with pc := pc }) ∧ OthersKeep s (t.mapCx fun c => { c with pc := pc }) c out := by
  obtain ⟨a1, a2, a3, a4, a5⟩ := h3
  have hn : d.num = c.num := by rw [a3]
  refine ⟨by simp [State.mapCx, h1], ⟨rfl, a2, ?_, a4, a5⟩, h4.trans (quiet_mapCx t _), fun n hne => ?_⟩
  · conv => lhs; rw [a3]
  · rw [findCtx_mapCx h1 rfl (by rw [hn]; exact hne)]
    exact h5 n hne

/-- A branch without a link. -/
theorem gives_branch {i : Instr} {pc : Ctx → BitVec 32}
    (he : ∀ s, exec i s = s.run i.form fun c s => s.doneTo i.form (pc c)) : GivesBranch i none pc := by
  intro s c hr
  obtain ⟨d, h1, h2, h3, h4, h5⟩ := result_spec (s := s) (u := s) i.form id none 0 hr.seat (by simp) (by simp [State.pushOpt, State.mapCx])
  obtain ⟨k1, k2, k3, k4⟩ := moved (pc c) h1 h3 h4 h5
  exact ⟨_, _, by rw [he, run_ready hr, doneTo_eq], k1, k2, k3, h2, k4⟩

/-- A branch with a link or a counter. -/
theorem gives_link {i : Instr} {dst : Spec} {w : Ctx → Word} {pc : Ctx → BitVec 32}
    (he : ∀ s, exec i s = s.run i.form fun c s => (s.putScalar dst (w c)).doneTo i.form (pc c)) :
    GivesBranch i (some (dst, w)) pc := by
  intro s c hr
  obtain ⟨d, h1, h2, h3, h4, h5⟩ := scalar_result i.form dst (w c) 0 hr.seat
  rw [mapCx_raise_zero] at h1 h4 h5
  obtain ⟨k1, k2, k3, k4⟩ := moved (pc c) h1 h3 h4 h5
  exact ⟨_, _, by rw [he, run_ready hr, doneTo_eq], k1, k2, k3, h2, k4⟩

/-- An instruction that only retires. -/
theorem gives_nothing {i : Instr} (he : ∀ s, exec i s = s.run i.form fun _ s => s.done i.form) : GivesNothing i := by
  intro s c hr
  obtain ⟨d, h1, h2, h3, h4, h5⟩ := result_spec (s := s) (u := s) i.form id none 0 hr.seat (by simp) (by simp [State.pushOpt, State.mapCx])
  exact ⟨_, d, by rw [he, run_ready hr], h1, h2, h3, h4, h5⟩

end Sys2Proof.Machine
end

