-- ==== Sys2Proof/Laws/Memory.lean ====
section
/-! SUPPORT. The laws of memory: a byte read after a write, the frame of every write, and the canonical form that every operation on
memory keeps. -/

namespace Sys2Proof.Machine

open Sys2Proof.Bits

/-! ## Read after write -/

theorem Memory.get_place (m : Memory) (a : Nat) (b : Byte) (x : Nat) :
    (Memory.place m a b).get x = if a = x then b else m.get x := by
  induction m with
  | nil => rfl
  | cons c m ih =>
    obtain ⟨k, v⟩ := c
    unfold Memory.place
    split
    · rfl
    · split
      · rename_i h; subst h
        by_cases e : a = x <;> simp [Memory.get, e]
      · rename_i h
        by_cases e : k = x
        · have : ¬ a = x := fun h' => h (h'.trans e.symm)
          simp [Memory.get, e, this]
        · simp [Memory.get, e, ih]

theorem Memory.get_without (m : Memory) (a x : Nat) :
    Memory.get (m.filter fun c => c.1 != a) x = if a = x then Memory.unlisted else m.get x := by
  induction m with
  | nil => simp [Memory.get]
  | cons c m ih =>
    obtain ⟨k, v⟩ := c
    by_cases e : k = a
    · subst e
      by_cases h : k = x <;> simp_all [Memory.get]
    · by_cases h : k = x
      · subst h
        have : ¬ a = k := fun h' => e h'.symm
        simp [Memory.get, e, this]
      · simp_all [Memory.get]

/-- A byte read after one byte is written. -/
theorem Memory.get_set (m : Memory) (a : Nat) (b : Byte) (x : Nat) : (m.set a b).get x = if a = x then b else m.get x := by
  unfold Memory.set
  split
  · rename_i h; rw [Memory.get_without, h]
  · exact Memory.get_place m a b x

/-- A byte outside the written range reads as before. -/
theorem Memory.get_write_outside (m : Memory) (a : Nat) (bs : List Byte) (x : Nat) (h : x < a ∨ a + bs.length ≤ x) :
    (m.write a bs).get x = m.get x := by
  induction bs generalizing m a with
  | nil => rfl
  | cons b bs ih =>
    simp only [List.length_cons] at h
    unfold Memory.write
    rw [ih _ _ (by omega), Memory.get_set, if_neg (by omega)]

/-- A byte inside the written range reads as written. -/
theorem Memory.get_write_inside (m : Memory) (a : Nat) (bs : List Byte) (k : Nat) (h : k < bs.length) :
    (m.write a bs).get (a + k) = bs[k] := by
  induction bs generalizing m a k with
  | nil => simp at h
  | cons b bs ih =>
    unfold Memory.write
    cases k with
    | zero => rw [Memory.get_write_outside _ _ _ _ (by omega), Memory.get_set]; simp
    | succ k =>
      have := ih (m.set a b) (a + 1) k (by simpa using h)
      rw [show a + (k + 1) = a + 1 + k by omega, this]; rfl

/-- A byte that no entry of a list of writes names reads as before. -/
theorem Memory.get_writeEach_outside (m : Memory) (l : List (Nat × Byte)) (x : Nat) (h : x ∉ l.map (·.1)) :
    (m.writeEach l).get x = m.get x := by
  induction l generalizing m with
  | nil => rfl
  | cons p l ih =>
    simp only [List.map_cons, List.mem_cons, not_or] at h
    unfold Memory.writeEach
    rw [ih _ h.2, Memory.get_set, if_neg (fun e => h.1 e.symm)]

/-- Of writes each at an address of its own, every byte reads as written. -/
theorem Memory.get_writeEach_inside (m : Memory) (l : List (Nat × Byte)) (h : (l.map (·.1)).Nodup) {p : Nat × Byte} (hp : p ∈ l) :
    (m.writeEach l).get p.1 = p.2 := by
  induction l generalizing m with
  | nil => cases hp
  | cons q l ih =>
    simp only [List.map_cons, List.nodup_cons] at h
    unfold Memory.writeEach
    rcases List.mem_cons.mp hp with rfl | hp
    · rw [Memory.get_writeEach_outside _ _ _ h.1, Memory.get_set, if_pos rfl]
    · exact ih _ h.2 hp

/-- The bytes of a zeroed range read as zero, and all others as before. -/
theorem Memory.get_zero (m : Memory) (a n x : Nat) : (m.zero a n).get x = if a ≤ x ∧ x < a + n then Memory.unlisted else m.get x := by
  unfold Memory.zero
  induction m with
  | nil => simp [Memory.get]
  | cons c m ih =>
    obtain ⟨k, v⟩ := c
    by_cases e : (decide (k < a) || decide (a + n ≤ k)) = true
    · rw [List.filter_cons_of_pos (p := fun c : Host.Cell => decide (c.1 < a) || decide (a + n ≤ c.1)) (a := (k, v)) e]
      simp only [Memory.get, ih]
      simp only [Bool.or_eq_true, decide_eq_true_eq] at e
      by_cases h : k = x
      · have : ¬ (a ≤ x ∧ x < a + n) := by omega
        simp [h, this]
      · simp [h]
    · rw [List.filter_cons_of_neg (p := fun c : Host.Cell => decide (c.1 < a) || decide (a + n ≤ c.1)) (a := (k, v)) e]
      simp only [Memory.get, ih]
      simp only [Bool.or_eq_true, decide_eq_true_eq] at e
      by_cases h : k = x
      · have : a ≤ x ∧ x < a + n := by omega
        simp [this]
      · simp [h]

/-- The bytes read from a range, one by one. -/
theorem Memory.read_eq (m : Memory) (a n : Nat) : m.read a n = (List.range n).map fun k => m.get (a + k) := by
  induction n generalizing a with
  | zero => rfl
  | succ n ih =>
    unfold Memory.read
    rw [ih, List.range_succ_eq_map, List.map_cons, List.map_map]
    simp only [Nat.add_zero, Function.comp_def, Nat.add_assoc, Nat.add_comm 1]

/-! ## The canonical form -/

theorem Memory.rising_mono {m : Memory} {lo hi : Nat} (h : lo ≤ hi) (k : Memory.risingFrom hi m = true) :
    Memory.risingFrom lo m = true := by
  cases m with
  | nil => rfl
  | cons c m =>
    obtain ⟨a, b⟩ := c
    simp only [Memory.risingFrom, Bool.and_eq_true, decide_eq_true_eq] at k ⊢
    exact ⟨⟨by omega, k.1.2⟩, k.2⟩

theorem Memory.rising_place {m : Memory} {lo a : Nat} {b : Byte} (h : Memory.risingFrom lo m = true) (ha : lo ≤ a)
    (hb : b ≠ Memory.unlisted) : Memory.risingFrom lo (Memory.place m a b) = true := by
  induction m generalizing lo with
  | nil => simp [Memory.place, Memory.risingFrom, ha, hb]
  | cons c m ih =>
    obtain ⟨k, v⟩ := c
    have h' := h
    simp only [Memory.risingFrom, Bool.and_eq_true, decide_eq_true_eq] at h'
    unfold Memory.place
    split
    · rename_i hk
      simp only [Memory.risingFrom, Bool.and_eq_true, decide_eq_true_eq, bne_iff_ne]
      exact ⟨⟨ha, hb⟩, ⟨by omega, by simpa using h'.1.2⟩, h'.2⟩
    · split
      · rename_i e; subst e
        simp only [Memory.risingFrom, Bool.and_eq_true, decide_eq_true_eq, bne_iff_ne]
        exact ⟨⟨ha, hb⟩, h'.2⟩
      · simp only [Memory.risingFrom, Bool.and_eq_true, decide_eq_true_eq]
        exact ⟨h'.1, ih h'.2 (by omega)⟩

/-- Any part of a canonical memory is canonical. -/
theorem Memory.rising_filter {m : Memory} {lo : Nat} (p : Host.Cell → Bool) (h : Memory.risingFrom lo m = true) :
    Memory.risingFrom lo (m.filter p) = true := by
  induction m generalizing lo with
  | nil => rfl
  | cons c m ih =>
    obtain ⟨k, v⟩ := c
    simp only [Memory.risingFrom, Bool.and_eq_true, decide_eq_true_eq] at h
    rw [List.filter_cons]
    split
    · simp only [Memory.risingFrom, Bool.and_eq_true, decide_eq_true_eq]
      exact ⟨h.1, ih h.2⟩
    · exact ih (Memory.rising_mono (by omega) h.2)

/-- A filtered memory keeps the canonical form: a core's banks cut out, a range zeroed. -/
theorem Memory.wf_filter {m : Memory} (p : Host.Cell → Bool) (h : m.wf = true) : Memory.wf (m.filter p) = true :=
  Memory.rising_filter p h

/-- A write of one byte keeps the canonical form. -/
theorem Memory.wf_set {m : Memory} (a : Nat) (b : Byte) (h : m.wf = true) : (m.set a b).wf = true := by
  unfold Memory.set
  split
  · exact Memory.wf_filter _ h
  · exact Memory.rising_place h (Nat.zero_le _) ‹_›

/-- A write of a byte list keeps the canonical form. -/
theorem Memory.wf_write {m : Memory} (a : Nat) (bs : List Byte) (h : m.wf = true) : (m.write a bs).wf = true := by
  induction bs generalizing m a with
  | nil => exact h
  | cons b bs ih => exact ih (a + 1) (Memory.wf_set a b h)

/-- Writes each at its own address keep the canonical form. -/
theorem Memory.wf_writeEach {m : Memory} (l : List (Nat × Byte)) (h : m.wf = true) : (m.writeEach l).wf = true := by
  induction l generalizing m with
  | nil => exact h
  | cons p l ih => exact ih (Memory.wf_set p.1 p.2 h)

/-- A write of a number keeps the canonical form. -/
theorem Memory.wf_writeNat {m : Memory} (a n v : Nat) (h : m.wf = true) : (m.writeNat a n v).wf = true := Memory.wf_write _ _ h

/-- Zeroing a range keeps the canonical form. -/
theorem Memory.wf_zero {m : Memory} (a n : Nat) (h : m.wf = true) : (m.zero a n).wf = true := Memory.wf_filter _ h

/-- Copying a range keeps the canonical form. -/
theorem Memory.wf_copyRange {m : Memory} (src n dst : Nat) (h : m.wf = true) : (m.copyRange src n dst).wf = true :=
  Memory.wf_writeEach _ (Memory.wf_zero _ _ h)

/-- Memory after reset has the canonical form. -/
theorem reset_wf : State.reset.mem.wf = true := rfl

/-! ## The control block -/

theorem look_put {α : Type} (xs : List (Nat × α)) (i k : Nat) (v : α) :
    look (put xs i v) k = if i = k then some v else look xs k := by
  induction xs with
  | nil => simp [put, look]
  | cons p xs ih =>
    obtain ⟨j, w⟩ := p
    unfold put
    split
    · simp [look]
    · split
      · rename_i h; subst h
        by_cases e : i = k <;> simp [look, e]
      · rename_i h
        by_cases e : j = k
        · have : ¬ i = k := fun h' => h (h'.trans e.symm)
          simp [look, e, this]
        · simp [look, e, ih]

theorem look_drop {α : Type} (xs : List (Nat × α)) (i k : Nat) : look (drop xs i) k = if i = k then none else look xs k := by
  unfold drop
  induction xs with
  | nil => simp [look]
  | cons p xs ih =>
    obtain ⟨j, w⟩ := p
    by_cases e : j = i
    · subst e
      by_cases h : j = k <;> simp_all [look]
    · by_cases h : j = k
      · subst h
        have : ¬ i = j := fun h' => e h'.symm
        simp [look, e, this]
      · simp_all [look]

/-- A control block register after one is written. -/
theorem State.dcbGet_dcbSet (s : State) (off : Nat) (v : Word) (k : Nat) :
    (s.dcbSet off v).dcbGet k = if off = k then v else s.dcbGet k := by
  unfold State.dcbSet State.dcbGet
  dsimp only
  split
  · rename_i h
    rw [look_drop]
    by_cases e : off = k
    · subst e; simp [h]
    · simp [e]
  · rw [look_put]
    by_cases e : off = k <;> simp [e]

end Sys2Proof.Machine
end

