-- ==== Sys2Proof/Tests/Slice0.lean ====
section
/-! SUPPORT. The model's own tests: words of the spec's encodings, ill-formed terms that the checks refuse, single steps with results
worked out from the rules, and for every statement with hypotheses a state and operands that meet them. -/

namespace Sys2Proof.Tests

open Sys2Proof.Machine Sys2Proof.Bits

set_option Elab.async false

/-! ## Small states -/

/-- Seat 0 of core 0. -/
def seat0 : SeatId := { core := 0, seat := 0 }

/-- A context of tenant 0 with every register, its code at 0x10000. -/
def ctx0 : Ctx :=
  { Ctx.fresh 1 seat0 with sRegs := 63, vRegs := 32, code := { Code.none with base := 0x10000, len := 0x100 } }

/-- The same with m2 all ones. -/
def ctx2 : Ctx := { ctx0 with regs := { ctx0.regs with m := ctx0.regs.m.set 2 (BitVec.allOnes 128) } }

/-- A machine after reset with one context in focus. -/
def on (c : Ctx) : State := { State.reset with cx := some c }

/-! ## Ready -/

/-- The tests of the issue on a machine with one context. -/
def readyHere (c : Ctx) (f : Form) : Bool :=
  c.decodeItem f == none && !c.predFalse f && !(c.order.owed.any fun sp => f.uses sp) && decide (f.pvCount ≤ c.pv.length)
    && (f.nxCount == 0 || !(on c).nxFull c)

theorem ready_on {c : Ctx} {f : Form} (h : readyHere c f = true) : Ready (on c) c f := by
  simp only [readyHere, Bool.and_eq_true, beq_iff_eq, Bool.not_eq_true', decide_eq_true_eq, Bool.or_eq_true] at h
  obtain ⟨⟨⟨⟨h1, h2⟩, h3⟩, h4⟩, h5⟩ := h
  exact ⟨rfl, h1, h2, h3, h4, fun h0 => h5.resolve_left h0⟩

/-- Is every instruction of the list ready in one of the two contexts? -/
def readyAll (l : List (Nat × Nat × Instr)) : Bool :=
  l.all fun p => readyHere ctx0 p.2.2.form || readyHere ctx2 p.2.2.form

/-- An instruction of a list that is ready meets the hypothesis of the statements about it. -/
theorem witness_ready {l : List (Nat × Nat × Instr)} (h : readyAll l = true) {p : Nat × Nat × Instr} (hp : p ∈ l) :
    ∃ s c, Ready s c p.2.2.form := by
  have := List.all_eq_true.mp h p hp
  rcases Bool.or_eq_true_iff.mp this with h | h
  · exact ⟨_, _, ready_on h⟩
  · exact ⟨_, _, ready_on h⟩

/-! ## Decoding -/

/-- Does every word, of so many bits, decode to its instruction? -/
noncomputable def decodesAll (l : List (Nat × Nat × Instr)) : Bool := l.all fun p => decide (decodeTableWord p.1 p.2.1 = some p.2.2)

/-- Words of the spec's encoding, one for each instruction of 0x000 to 0x02A: bits, word, instruction. -/
noncomputable def wordsScalarArithmetic : List (Nat × Nat × Instr) := [
  (64, 0x4000001060504801, .add ⟨9, 0xa, 0xc, 2, 0, 0, 0, 0, true⟩),
  (96, 0x89ABCDEF4000001000504806, .addImm ⟨9, 0xa, 2, 0, 0, 0, 0, true, 0x89abcdef⟩),
  (64, 0x4000001060504809, .sub ⟨9, 0xa, 0xc, 2, 0, 0, 0, 0, true⟩),
  (96, 0x89ABCDEF400000100050480E, .subImm ⟨9, 0xa, 2, 0, 0, 0, 0, true, 0x89abcdef⟩),
  (64, 0x4000001060504811, .mul ⟨9, 0xa, 0xc, 2, 0, 0, 0, 0, true⟩),
  (96, 0x89ABCDEF4000001000504816, .mulImm ⟨9, 0xa, 2, 0, 0, 0, 0, true, 0x89abcdef⟩),
  (64, 0x4000001060504819, .mulhS ⟨9, 0xa, 0xc, 2, 0, 0, 0, 0, true⟩),
  (64, 0x400000106050481D, .mulhU ⟨9, 0xa, 0xc, 2, 0, 0, 0, 0, true⟩),
  (64, 0x4000001060504821, .divS ⟨9, 0xa, 0xc, 2, 0, 0, 0, 0, true⟩),
  (64, 0x4000001060504825, .divU ⟨9, 0xa, 0xc, 2, 0, 0, 0, 0, true⟩),
  (64, 0x4000001060504829, .remS ⟨9, 0xa, 0xc, 2, 0, 0, 0, 0, true⟩),
  (64, 0x400000106050482D, .remU ⟨9, 0xa, 0xc, 2, 0, 0, 0, 0, true⟩),
  (64, 0x4000001060504831, .and ⟨9, 0xa, 0xc, 2, 0, 0, 0, 0, true⟩),
  (96, 0x89ABCDEF4000001000504836, .andImm ⟨9, 0xa, 2, 0, 0, 0, 0, true, 0x89abcdef⟩),
  (64, 0x4000001060504839, .or ⟨9, 0xa, 0xc, 2, 0, 0, 0, 0, true⟩),
  (96, 0x89ABCDEF400000100050483E, .orImm ⟨9, 0xa, 2, 0, 0, 0, 0, true, 0x89abcdef⟩),
  (64, 0x4000001060504841, .xor ⟨9, 0xa, 0xc, 2, 0, 0, 0, 0, true⟩),
  (96, 0x89ABCDEF4000001000504846, .xorImm ⟨9, 0xa, 2, 0, 0, 0, 0, true, 0x89abcdef⟩),
  (64, 0x4000001060504849, .shl ⟨9, 0xa, 0xc, 2, 0, 0, 0, 0, true⟩),
  (64, 0x400000106050484D, .shrL ⟨9, 0xa, 0xc, 2, 0, 0, 0, 0, true⟩),
  (64, 0x4000001060504851, .shrA ⟨9, 0xa, 0xc, 2, 0, 0, 0, 0, true⟩),
  (64, 0x4000001060504855, .rot ⟨9, 0xa, 0xc, 2, 0, 0, 0, 0, true⟩),
  (64, 0x4000001060504859, .minS ⟨9, 0xa, 0xc, 2, 0, 0, 0, 0, true⟩),
  (64, 0x400000106050485D, .minU ⟨9, 0xa, 0xc, 2, 0, 0, 0, 0, true⟩),
  (64, 0x4000001060504861, .maxS ⟨9, 0xa, 0xc, 2, 0, 0, 0, 0, true⟩),
  (64, 0x4000001060504865, .maxU ⟨9, 0xa, 0xc, 2, 0, 0, 0, 0, true⟩),
  (64, 0x400002D060504869, .clampS ⟨9, 0xa, 0xc, 2, 0xb, 0, 0, 0, true⟩),
  (64, 0x400002D06050486D, .clampU ⟨9, 0xa, 0xc, 2, 0xb, 0, 0, 0, true⟩),
  (64, 0x4000001000504871, .abs ⟨9, 0xa, 0, 2, 0, 0, 0, 0, true⟩),
  (64, 0x4000001000504875, .clz ⟨9, 0xa, 0, 2, 0, 0, 0, 0, true⟩),
  (64, 0x4000001000504879, .popc ⟨9, 0xa, 0, 2, 0, 0, 0, 0, true⟩),
  (64, 0x400000106050487D, .sext ⟨9, 0xa, 0xc, 2, 0, 0, 0, 0, true⟩),
  (64, 0x4600001060504881, .extS ⟨9, 0xa, 0xc, 2, 0, 0, 0, 6, true⟩),
  (64, 0x4600001060504885, .extU ⟨9, 0xa, 0xc, 2, 0, 0, 0, 6, true⟩),
  (64, 0x460002D060504889, .ins ⟨9, 0xa, 0xc, 2, 0xb, 0, 0, 6, true⟩),
  (64, 0x400002D06050488D, .mad ⟨9, 0xa, 0xc, 2, 0xb, 0, 0, 0, true⟩),
  (64, 0x4000009060504891, .sel ⟨9, 0xa, 0xc, 2, 2, 0, 0, 0, true⟩),
  (64, 0x4000001060502895, .cmpEq ⟨5, 0xa, 0xc, 2, 0, 0, 0, 0, true⟩),
  (64, 0x4000001060502899, .cmpNe ⟨5, 0xa, 0xc, 2, 0, 0, 0, 0, true⟩),
  (64, 0x400000106050289D, .cmpLt ⟨5, 0xa, 0xc, 2, 0, 0, 0, 0, true⟩),
  (64, 0x40000010605028A1, .cmpGe ⟨5, 0xa, 0xc, 2, 0, 0, 0, 0, true⟩),
  (64, 0x40000010605028A5, .cmpLtu ⟨5, 0xa, 0xc, 2, 0, 0, 0, 0, true⟩),
  (64, 0x40000010605028A9, .cmpGeu ⟨5, 0xa, 0xc, 2, 0, 0, 0, 0, true⟩)]

theorem test_decode_scalar_arithmetic : decodesAll wordsScalarArithmetic = true := by decide

theorem test_ready_scalar_arithmetic : readyAll wordsScalarArithmetic = true := by decide

/-- Words of the spec's encoding, one for each instruction of 0x02B to 0x03D: bits, word, instruction. -/
noncomputable def wordsScalarMovesAndControl : List (Nat × Nat × Instr) := [
  (64, 0x46140090000028AD, .mlog ⟨5, 0, 0, 2, 2, 0, 5, 6, true⟩),
  (64, 0x40000010005048B1, .mov ⟨9, 0xa, 0, 2, 0, 0, 0, 0, true⟩),
  (96, 0x89ABCDEF40000010000048B6, .moviW ⟨9, 0, 2, 0, 0, 0, 0, true, 0x89abcdef⟩),
  (128, 0x89ABCDEF0123456740000010000048BB, .moviD ⟨9, 0, 2, 0, 0, 0, 0, true, 0x89abcdef01234567⟩),
  (64, 0x40000010605048BD, .gaMk ⟨9, 0xa, 0xc, 2, 0, 0, 0, 0, true⟩),
  (64, 0x40000010005048C1, .gaDev ⟨9, 0xa, 0, 2, 0, 0, 0, 0, true⟩),
  (64, 0x061402C0605000C5, .chkrR ⟨0, 0xa, 0xc, 0, 0xb, 0, 5, 6, false⟩),
  (64, 0x061402C0605000C9, .chkrW ⟨0, 0xa, 0xc, 0, 0xb, 0, 5, 6, false⟩),
  (64, 0x061402C0605000CD, .chkrX ⟨0, 0xa, 0xc, 0, 0xb, 0, 5, 6, false⟩),
  (64, 0x7FFFFF50000000D1, .br ⟨0, 0, 0, 2, 0xfffffd, true⟩),
  (64, 0x40000010005000D5, .bri ⟨0, 0xa, 0, 2, 0, true⟩),
  (64, 0x7FFFFF50000048D9, .call ⟨9, 0, 0, 2, 0xfffffd, true⟩),
  (64, 0x40000010005048DD, .calli ⟨9, 0xa, 0, 2, 0, true⟩),
  (64, 0x40000010005000E1, .ret ⟨0, 0xa, 0, 2, 0, true⟩),
  (64, 0x7FFFFF50005048E5, .loop ⟨9, 0xa, 0, 2, 0xfffffd, true⟩),
  (64, 0x40000010000000E9, .endF ⟨0, 0, 0, 2, 0, true⟩),
  (64, 0x40000010000000ED, .endRe ⟨0, 0, 0, 2, 0, true⟩),
  (64, 0x003FFE07178888F1, .rep ⟨0x11, 1, 0xf, 2, 0xe, 0xfff8⟩),
  (64, 0x00000000000000F5, .nop ⟨0, 0, 0, 0, 0, false⟩)]

theorem test_decode_scalar_moves_and_control : decodesAll wordsScalarMovesAndControl = true := by decide

theorem test_ready_scalar_moves_and_control : readyAll wordsScalarMovesAndControl = true := by decide

/-- Words of the spec's encoding, one for each instruction of 0x040 to 0x054: bits, word, instruction. -/
noncomputable def wordsLoadsAndStores : List (Nat × Nat × Instr) := [
  (96, 0xFFFFFE00FF40181058504902, .ldB ⟨2, 9, 0xa, 0xb, 2, 0, 2, 1, 0, false, false, 0x1fe8, 0, false, 0x7fffff, 0⟩),
  (128, 0x0000024000000100FF40181058504907, .ldH ⟨3, 9, 0xa, 0xb, 2, 0, 2, 1, 0, false, false, 0x1fe8, 0, false, 0, 0x24000000100⟩),
  (64, 0xFF40181058504909, .ldW ⟨1, 9, 0xa, 0xb, 2, 0, 2, 1, 0, false, false, 0x1fe8, 0, false, 0, 0⟩),
  (96, 0xFFFFFE00FF4018105850490E, .ldD ⟨2, 9, 0xa, 0xb, 2, 0, 2, 1, 0, false, false, 0x1fe8, 0, false, 0x7fffff, 0⟩),
  (128, 0x0000024000000100FF40181058504913, .ldBs ⟨3, 9, 0xa, 0xb, 2, 0, 2, 1, 0, false, false, 0x1fe8, 0, false, 0, 0x24000000100⟩),
  (64, 0xFF40181058504915, .ldHs ⟨1, 9, 0xa, 0xb, 2, 0, 2, 1, 0, false, false, 0x1fe8, 0, false, 0, 0⟩),
  (96, 0xFFFFFE00FF4018105850491A, .ldWs ⟨2, 9, 0xa, 0xb, 2, 0, 2, 1, 0, false, false, 0x1fe8, 0, false, 0x7fffff, 0⟩),
  (128, 0x0000024000000100FF4128D05850491F, .stB ⟨3, 9, 0xa, 0xb, 2, 3, 2, 2, 2, false, false, 0x1fe8, 0, false, 0, 0x24000000100⟩),
  (64, 0xFF4128D058504921, .stH ⟨1, 9, 0xa, 0xb, 2, 3, 2, 2, 2, false, false, 0x1fe8, 0, false, 0, 0⟩),
  (96, 0xFFFFFF0CFF4128D058504926, .stW ⟨2, 9, 0xa, 0xb, 2, 3, 2, 2, 2, false, false, 0x1fe8, 0xc, true, 0x7fffff, 0⟩),
  (128, 0x0000024000000100FF4128D05850492B, .stD ⟨3, 9, 0xa, 0xb, 2, 3, 2, 2, 2, false, false, 0x1fe8, 0, false, 0, 0x24000000100⟩),
  (64, 0xFF4018105852492D, .vldL ⟨1, 0x49, 0xa, 0xb, 2, 0, 2, 1, 0, false, false, 0x1fe8, 0, false, 0, 0⟩),
  (96, 0xFFFFFE00FF40181058024932, .vldR ⟨2, 0x49, 0, 0xb, 2, 0, 2, 1, 0, false, false, 0x1fe8, 0, false, 0x7fffff, 0⟩),
  (64, 0xFF40181058024935, .vldC ⟨1, 0x49, 0, 0xb, 2, 0, 2, 1, 0, false, false, 0x1fe8, 0, false, 0, 0⟩),
  (64, 0xFF40181058524939, .vlds ⟨1, 0x49, 0xa, 0xb, 2, 0, 2, 1, 0, false, false, 0x1fe8, 0, false, 0, 0⟩),
  (96, 0xFFFFFE00FF4018125852493E, .vldx ⟨2, 0x49, 0xa, 0x4b, 2, 0, 2, 1, 0, false, false, 0x1fe8, 0, false, 0x7fffff, 0⟩),
  (128, 0x0000024000000100FF4128D058524943, .vstL ⟨3, 0x49, 0xa, 0xb, 2, 3, 2, 2, 2, false, false, 0x1fe8, 0, false, 0, 0x24000000100⟩),
  (64, 0xFF4128D058024945, .vstR ⟨1, 0x49, 0, 0xb, 2, 3, 2, 2, 2, false, false, 0x1fe8, 0, false, 0, 0⟩),
  (96, 0xFFFFFF0CFF4128D05802494A, .vstC ⟨2, 0x49, 0, 0xb, 2, 3, 2, 2, 2, false, false, 0x1fe8, 0xc, true, 0x7fffff, 0⟩),
  (128, 0x0000024000000100FF4128D05852494F, .vsts ⟨3, 0x49, 0xa, 0xb, 2, 3, 2, 2, 2, false, false, 0x1fe8, 0, false, 0, 0x24000000100⟩),
  (64, 0xFF4128D258524951, .vstx ⟨1, 0x49, 0xa, 0x4b, 2, 3, 2, 2, 2, false, false, 0x1fe8, 0, false, 0, 0⟩)]

theorem test_decode_loads_and_stores : decodesAll wordsLoadsAndStores = true := by decide

theorem test_ready_loads_and_stores : readyAll wordsLoadsAndStores = true := by decide

/-- Words of the spec's encoding, one for each instruction of 0x055 to 0x070: bits, word, instruction. -/
noncomputable def wordsAtomics : List (Nat × Nat × Instr) := [
  (96, 0xFFFFFE00FF40281058504956, .aaddW ⟨2, 9, 0xa, 0xb, 2, 0, 2, 2, 0, false, false, 0x1fe8, 0, false, 0x7fffff, 0⟩),
  (128, 0x0000024000000100FF4028105850495B, .aaddD ⟨3, 9, 0xa, 0xb, 2, 0, 2, 2, 0, false, false, 0x1fe8, 0, false, 0, 0x24000000100⟩),
  (64, 0xFF4028105850495D, .aandW ⟨1, 9, 0xa, 0xb, 2, 0, 2, 2, 0, false, false, 0x1fe8, 0, false, 0, 0⟩),
  (96, 0xFFFFFE00FF40281058504962, .aandD ⟨2, 9, 0xa, 0xb, 2, 0, 2, 2, 0, false, false, 0x1fe8, 0, false, 0x7fffff, 0⟩),
  (128, 0x0000024000000100FF40281058504967, .aorW ⟨3, 9, 0xa, 0xb, 2, 0, 2, 2, 0, false, false, 0x1fe8, 0, false, 0, 0x24000000100⟩),
  (64, 0xFF40281058504969, .aorD ⟨1, 9, 0xa, 0xb, 2, 0, 2, 2, 0, false, false, 0x1fe8, 0, false, 0, 0⟩),
  (96, 0xFFFFFE00FF4028105850496E, .axorW ⟨2, 9, 0xa, 0xb, 2, 0, 2, 2, 0, false, false, 0x1fe8, 0, false, 0x7fffff, 0⟩),
  (128, 0x0000024000000100FF40281058504973, .axorD ⟨3, 9, 0xa, 0xb, 2, 0, 2, 2, 0, false, false, 0x1fe8, 0, false, 0, 0x24000000100⟩),
  (64, 0xFF40281058504975, .aminsW ⟨1, 9, 0xa, 0xb, 2, 0, 2, 2, 0, false, false, 0x1fe8, 0, false, 0, 0⟩),
  (96, 0xFFFFFE00FF4028105850497A, .aminsD ⟨2, 9, 0xa, 0xb, 2, 0, 2, 2, 0, false, false, 0x1fe8, 0, false, 0x7fffff, 0⟩),
  (128, 0x0000024000000100FF4028105850497F, .aminuW ⟨3, 9, 0xa, 0xb, 2, 0, 2, 2, 0, false, false, 0x1fe8, 0, false, 0, 0x24000000100⟩),
  (64, 0xFF40281058504981, .aminuD ⟨1, 9, 0xa, 0xb, 2, 0, 2, 2, 0, false, false, 0x1fe8, 0, false, 0, 0⟩),
  (96, 0xFFFFFE00FF40281058504986, .amaxsW ⟨2, 9, 0xa, 0xb, 2, 0, 2, 2, 0, false, false, 0x1fe8, 0, false, 0x7fffff, 0⟩),
  (128, 0x0000024000000100FF4028105850498B, .amaxsD ⟨3, 9, 0xa, 0xb, 2, 0, 2, 2, 0, false, false, 0x1fe8, 0, false, 0, 0x24000000100⟩),
  (64, 0xFF4028105850498D, .amaxuW ⟨1, 9, 0xa, 0xb, 2, 0, 2, 2, 0, false, false, 0x1fe8, 0, false, 0, 0⟩),
  (96, 0xFFFFFE00FF40281058504992, .amaxuD ⟨2, 9, 0xa, 0xb, 2, 0, 2, 2, 0, false, false, 0x1fe8, 0, false, 0x7fffff, 0⟩),
  (128, 0x0000024000000100FF40281058504997, .axchgW ⟨3, 9, 0xa, 0xb, 2, 0, 2, 2, 0, false, false, 0x1fe8, 0, false, 0, 0x24000000100⟩),
  (64, 0xFF40281058504999, .axchgD ⟨1, 9, 0xa, 0xb, 2, 0, 2, 2, 0, false, false, 0x1fe8, 0, false, 0, 0⟩),
  (96, 0xFFFFFE00FF4028105850499E, .acasW ⟨2, 9, 0xa, 0xb, 2, 0, 2, 2, 0, false, false, 0x1fe8, 0, false, 0x7fffff, 0⟩),
  (128, 0x0000024000000100FF402810585049A3, .acasD ⟨3, 9, 0xa, 0xb, 2, 0, 2, 2, 0, false, false, 0x1fe8, 0, false, 0, 0x24000000100⟩),
  (64, 0xFF402810585049A5, .afaddW ⟨1, 9, 0xa, 0xb, 2, 0, 2, 2, 0, false, false, 0x1fe8, 0, false, 0, 0⟩),
  (96, 0xFFFFFE00FF402810585001AA, .raddW ⟨2, 0, 0xa, 0xb, 2, 0, 2, 2, 0, false, false, 0x1fe8, 0, false, 0x7fffff, 0⟩),
  (128, 0x0000024000000100FF402810585001AF, .raddD ⟨3, 0, 0xa, 0xb, 2, 0, 2, 2, 0, false, false, 0x1fe8, 0, false, 0, 0x24000000100⟩),
  (64, 0xFF402810585001B1, .rfaddW ⟨1, 0, 0xa, 0xb, 2, 0, 2, 2, 0, false, false, 0x1fe8, 0, false, 0, 0⟩),
  (96, 0xFFFFFE00FF402810585001B6, .rmaxsW ⟨2, 0, 0xa, 0xb, 2, 0, 2, 2, 0, false, false, 0x1fe8, 0, false, 0x7fffff, 0⟩),
  (128, 0x0000024000000100FF402810585001BB, .rmaxsD ⟨3, 0, 0xa, 0xb, 2, 0, 2, 2, 0, false, false, 0x1fe8, 0, false, 0, 0x24000000100⟩),
  (64, 0xFF402810585001BD, .rmaxuW ⟨1, 0, 0xa, 0xb, 2, 0, 2, 2, 0, false, false, 0x1fe8, 0, false, 0, 0⟩),
  (96, 0xFFFFFE00FF402810585001C2, .rmaxuD ⟨2, 0, 0xa, 0xb, 2, 0, 2, 2, 0, false, false, 0x1fe8, 0, false, 0x7fffff, 0⟩)]

theorem test_decode_atomics : decodesAll wordsAtomics = true := by decide

theorem test_ready_atomics : readyAll wordsAtomics = true := by decide

/-- Words of the spec's encoding, one for each instruction of 0x071 to 0x07E: bits, word, instruction. -/
noncomputable def wordsSynchronisation : List (Nat × Nat × Instr) := [
  (64, 0x40001090000049C5, .fence ⟨9, 0, 0, 2, 0x42, true⟩),
  (64, 0x40000010005049C9, .fwait ⟨9, 0xa, 0, 2, 0, true⟩),
  (64, 0x00010810000049CD, .batchc ⟨1, 9, 0, 0, 2, 0, 2, 0, 2, false, false, 0, 0, false, 0, 0⟩),
  (64, 0x40000010000049D1, .bopen ⟨9, 0, 0, 2, 0, true⟩),
  (64, 0x40000010000049D5, .bclose ⟨9, 0, 0, 2, 0, true⟩),
  (64, 0x40000010000049D9, .rgopen ⟨9, 0, 0, 2, 0, true⟩),
  (64, 0x40000010000049DD, .rgclose ⟨9, 0, 0, 2, 0, true⟩),
  (64, 0xFF400810585001E1, .waitv ⟨1, 0, 0xa, 0xb, 2, 0, 2, 0, 0, false, false, 0x1fe8, 0, false, 0, 0⟩),
  (96, 0xFFFFFE00FF400810005001E6, .noteOne ⟨2, 0, 0xa, 0, 2, 0, 2, 0, 0, false, false, 0x1fe8, 0, false, 0x7fffff, 0⟩),
  (128, 0x0000024000000100FF400810005001EB, .noteAll ⟨3, 0, 0xa, 0, 2, 0, 2, 0, 0, false, false, 0x1fe8, 0, false, 0, 0x24000000100⟩),
  (64, 0xFF400810585001ED, .swset ⟨1, 0, 0xa, 0xb, 2, 0, 2, 0, 0, false, false, 0x1fe8, 0, false, 0, 0⟩),
  (96, 0xFFFFFE00FF400810585001F2, .swwait ⟨2, 0, 0xa, 0xb, 2, 0, 2, 0, 0, false, false, 0x1fe8, 0, false, 0x7fffff, 0⟩),
  (64, 0x40000150005049F5, .tlwait ⟨9, 0xa, 0, 2, 5, true⟩),
  (64, 0x40000150000049F9, .tlread ⟨9, 0, 0, 2, 5, true⟩)]

theorem test_decode_synchronisation : decodesAll wordsSynchronisation = true := by decide

theorem test_ready_synchronisation : readyAll wordsSynchronisation = true := by decide

/-- Words of the spec's encoding, one for each instruction of 0x0A0 to 0x0C8: bits, word, instruction. -/
noncomputable def wordsVectorArithmetic : List (Nat × Nat × Instr) := [
  (64, 0x400080125A524A81, .vaddI ⟨0x49, 0x4a, 0x4b, 2, 0, 2, 0, 0, true⟩),
  (64, 0x400080125A524A85, .vaddIZ ⟨0x49, 0x4a, 0x4b, 2, 0, 2, 0, 0, true⟩),
  (64, 0x400080125A524A89, .vaddIs ⟨0x49, 0x4a, 0x4b, 2, 0, 2, 0, 0, true⟩),
  (64, 0x400080125A524A8D, .vaddIsZ ⟨0x49, 0x4a, 0x4b, 2, 0, 2, 0, 0, true⟩),
  (64, 0x4000C0125A524A91, .vaddNs ⟨0x49, 0x4a, 0x4b, 2, 0, 3, 0, 0, true⟩),
  (64, 0x4000C0125A524A95, .vaddNsZ ⟨0x49, 0x4a, 0x4b, 2, 0, 3, 0, 0, true⟩),
  (64, 0x400280125A524A99, .vaddF ⟨0x49, 0x4a, 0x4b, 2, 0, 0xa, 0, 0, true⟩),
  (64, 0x400280125A524A9D, .vaddFZ ⟨0x49, 0x4a, 0x4b, 2, 0, 0xa, 0, 0, true⟩),
  (64, 0x400080125A524AA1, .vsubI ⟨0x49, 0x4a, 0x4b, 2, 0, 2, 0, 0, true⟩),
  (64, 0x400080125A524AA5, .vsubIZ ⟨0x49, 0x4a, 0x4b, 2, 0, 2, 0, 0, true⟩),
  (64, 0x400080125A524AA9, .vsubIs ⟨0x49, 0x4a, 0x4b, 2, 0, 2, 0, 0, true⟩),
  (64, 0x400080125A524AAD, .vsubIsZ ⟨0x49, 0x4a, 0x4b, 2, 0, 2, 0, 0, true⟩),
  (64, 0x4000C0125A524AB1, .vsubNs ⟨0x49, 0x4a, 0x4b, 2, 0, 3, 0, 0, true⟩),
  (64, 0x4000C0125A524AB5, .vsubNsZ ⟨0x49, 0x4a, 0x4b, 2, 0, 3, 0, 0, true⟩),
  (64, 0x400280125A524AB9, .vsubF ⟨0x49, 0x4a, 0x4b, 2, 0, 0xa, 0, 0, true⟩),
  (64, 0x400280125A524ABD, .vsubFZ ⟨0x49, 0x4a, 0x4b, 2, 0, 0xa, 0, 0, true⟩),
  (64, 0x400080125A524AC1, .vmulI ⟨0x49, 0x4a, 0x4b, 2, 0, 2, 0, 0, true⟩),
  (64, 0x400080125A524AC5, .vmulIZ ⟨0x49, 0x4a, 0x4b, 2, 0, 2, 0, 0, true⟩),
  (64, 0x400080125A524AC9, .vmulIh ⟨0x49, 0x4a, 0x4b, 2, 0, 2, 0, 0, true⟩),
  (64, 0x400080125A524ACD, .vmulIhZ ⟨0x49, 0x4a, 0x4b, 2, 0, 2, 0, 0, true⟩),
  (64, 0x4000C0125A524AD1, .vmulNh ⟨0x49, 0x4a, 0x4b, 2, 0, 3, 0, 0, true⟩),
  (64, 0x4000C0125A524AD5, .vmulNhZ ⟨0x49, 0x4a, 0x4b, 2, 0, 3, 0, 0, true⟩),
  (64, 0x400280125A524AD9, .vmulF ⟨0x49, 0x4a, 0x4b, 2, 0, 0xa, 0, 0, true⟩),
  (64, 0x400280125A524ADD, .vmulFZ ⟨0x49, 0x4a, 0x4b, 2, 0, 0xa, 0, 0, true⟩),
  (64, 0x400093125A524AE1, .vfmaI ⟨0x49, 0x4a, 0x4b, 2, 0x4c, 2, 0, 0, true⟩),
  (64, 0x400093125A524AE5, .vfmaIZ ⟨0x49, 0x4a, 0x4b, 2, 0x4c, 2, 0, 0, true⟩),
  (64, 0x400293125A524AE9, .vfmaF ⟨0x49, 0x4a, 0x4b, 2, 0x4c, 0xa, 0, 0, true⟩),
  (64, 0x400293125A524AED, .vfmaFZ ⟨0x49, 0x4a, 0x4b, 2, 0x4c, 0xa, 0, 0, true⟩),
  (64, 0x400280125A524AF1, .vdivF ⟨0x49, 0x4a, 0x4b, 2, 0, 0xa, 0, 0, true⟩),
  (64, 0x400280125A524AF5, .vdivFZ ⟨0x49, 0x4a, 0x4b, 2, 0, 0xa, 0, 0, true⟩),
  (64, 0x4002801002524AF9, .vsqrtF ⟨0x49, 0x4a, 0, 2, 0, 0xa, 0, 0, true⟩),
  (64, 0x4002801002524AFD, .vsqrtFZ ⟨0x49, 0x4a, 0, 2, 0, 0xa, 0, 0, true⟩),
  (64, 0x400080125A524B01, .vminI ⟨0x49, 0x4a, 0x4b, 2, 0, 2, 0, 0, true⟩),
  (64, 0x400080125A524B05, .vminIZ ⟨0x49, 0x4a, 0x4b, 2, 0, 2, 0, 0, true⟩),
  (64, 0x4000C0125A524B09, .vminN ⟨0x49, 0x4a, 0x4b, 2, 0, 3, 0, 0, true⟩),
  (64, 0x4000C0125A524B0D, .vminNZ ⟨0x49, 0x4a, 0x4b, 2, 0, 3, 0, 0, true⟩),
  (64, 0x400280125A524B11, .vminF ⟨0x49, 0x4a, 0x4b, 2, 0, 0xa, 0, 0, true⟩),
  (64, 0x400280125A524B15, .vminFZ ⟨0x49, 0x4a, 0x4b, 2, 0, 0xa, 0, 0, true⟩),
  (64, 0x400080125A524B19, .vmaxI ⟨0x49, 0x4a, 0x4b, 2, 0, 2, 0, 0, true⟩),
  (64, 0x400080125A524B1D, .vmaxIZ ⟨0x49, 0x4a, 0x4b, 2, 0, 2, 0, 0, true⟩),
  (64, 0x4000C0125A524B21, .vmaxN ⟨0x49, 0x4a, 0x4b, 2, 0, 3, 0, 0, true⟩)]

theorem test_decode_vector_arithmetic : decodesAll wordsVectorArithmetic = true := by decide

theorem test_ready_vector_arithmetic : readyAll wordsVectorArithmetic = true := by decide

/-- Words of the spec's encoding, one for each instruction of 0x0C9 to 0x0E0: bits, word, instruction. -/
noncomputable def wordsVectorMoves : List (Nat × Nat × Instr) := [
  (64, 0x4000C0125A524B25, .vmaxNZ ⟨0x49, 0x4a, 0x4b, 2, 0, 3, 0, 0, true⟩),
  (64, 0x400280125A524B29, .vmaxF ⟨0x49, 0x4a, 0x4b, 2, 0, 0xa, 0, 0, true⟩),
  (64, 0x400280125A524B2D, .vmaxFZ ⟨0x49, 0x4a, 0x4b, 2, 0, 0xa, 0, 0, true⟩),
  (64, 0x4000801002524B31, .vabsI ⟨0x49, 0x4a, 0, 2, 0, 2, 0, 0, true⟩),
  (64, 0x4000801002524B35, .vabsIZ ⟨0x49, 0x4a, 0, 2, 0, 2, 0, 0, true⟩),
  (64, 0x4002801002524B39, .vabsF ⟨0x49, 0x4a, 0, 2, 0, 0xa, 0, 0, true⟩),
  (64, 0x4002801002524B3D, .vabsFZ ⟨0x49, 0x4a, 0, 2, 0, 0xa, 0, 0, true⟩),
  (64, 0x4000801002524B41, .vnegI ⟨0x49, 0x4a, 0, 2, 0, 2, 0, 0, true⟩),
  (64, 0x4000801002524B45, .vnegIZ ⟨0x49, 0x4a, 0, 2, 0, 2, 0, 0, true⟩),
  (64, 0x4002801002524B49, .vnegF ⟨0x49, 0x4a, 0, 2, 0, 0xa, 0, 0, true⟩),
  (64, 0x4002801002524B4D, .vnegFZ ⟨0x49, 0x4a, 0, 2, 0, 0xa, 0, 0, true⟩),
  (64, 0x400280125A524B51, .vand ⟨0x49, 0x4a, 0x4b, 2, 0, 0xa, 0, 0, true⟩),
  (64, 0x400280125A524B55, .vor ⟨0x49, 0x4a, 0x4b, 2, 0, 0xa, 0, 0, true⟩),
  (64, 0x400280125A524B59, .vxor ⟨0x49, 0x4a, 0x4b, 2, 0, 0xa, 0, 0, true⟩),
  (64, 0x400080125A524B5D, .vshl ⟨0x49, 0x4a, 0x4b, 2, 0, 2, 0, 0, true⟩),
  (64, 0x400080125A524B61, .vshrL ⟨0x49, 0x4a, 0x4b, 2, 0, 2, 0, 0, true⟩),
  (64, 0x400080125A524B65, .vshrA ⟨0x49, 0x4a, 0x4b, 2, 0, 2, 0, 0, true⟩),
  (64, 0x400280125A502B69, .vcmpEq ⟨5, 0x4a, 0x4b, 2, 0, 0xa, 0, 0, true⟩),
  (64, 0x400280125A502B6D, .vcmpNe ⟨5, 0x4a, 0x4b, 2, 0, 0xa, 0, 0, true⟩),
  (64, 0x400280125A502B71, .vcmpLt ⟨5, 0x4a, 0x4b, 2, 0, 0xa, 0, 0, true⟩),
  (64, 0x400280125A502B75, .vcmpLe ⟨5, 0x4a, 0x4b, 2, 0, 0xa, 0, 0, true⟩),
  (64, 0x400280125A502B79, .vcmpUn ⟨5, 0x4a, 0x4b, 2, 0, 0xa, 0, 0, true⟩),
  (64, 0x400280925A524B7D, .vsel ⟨0x49, 0x4a, 0x4b, 2, 2, 0xa, 0, 0, true⟩),
  (64, 0x400280125A524B81, .vpermX ⟨0x49, 0x4a, 0x4b, 2, 0, 0xa, 0, 0, true⟩)]

theorem test_decode_vector_moves : decodesAll wordsVectorMoves = true := by decide

theorem test_ready_vector_moves : readyAll wordsVectorMoves = true := by decide

/-- Words of the spec's encoding, one for each instruction of 0x0E1 to 0x0FC: bits, word, instruction. -/
noncomputable def wordsVectorReductions : List (Nat × Nat × Instr) := [
  (64, 0x4002801062524B85, .vpermR ⟨0x49, 0x4a, 0xc, 2, 0, 0xa, 0, 0, true⟩),
  (64, 0x400680125A524B89, .vpermQ ⟨0x49, 0x4a, 0x4b, 2, 0, 0xa, 1, 0, true⟩),
  (64, 0x4002801000524B8D, .vbcastS ⟨0x49, 0xa, 0, 2, 0, 0xa, 0, 0, true⟩),
  (64, 0x4002801062524B91, .vbcastL ⟨0x49, 0x4a, 0xc, 2, 0, 0xa, 0, 0, true⟩),
  (64, 0x4002801060524B95, .vins ⟨0x49, 0xa, 0xc, 2, 0, 0xa, 0, 0, true⟩),
  (64, 0x4002801062504B99, .vext ⟨9, 0x4a, 0xc, 2, 0, 0xa, 0, 0, true⟩),
  (64, 0x4000801002504B9D, .vredAddi ⟨9, 0x4a, 0, 2, 0, 2, 0, 0, true⟩),
  (64, 0x4002801002504BA1, .vredAddf ⟨9, 0x4a, 0, 2, 0, 0xa, 0, 0, true⟩),
  (64, 0x4002801002504BA5, .vredMin ⟨9, 0x4a, 0, 2, 0, 0xa, 0, 0, true⟩),
  (64, 0x4002801002504BA9, .vredMax ⟨9, 0x4a, 0, 2, 0, 0xa, 0, 0, true⟩),
  (64, 0x4002801002504BAD, .vredMinn ⟨9, 0x4a, 0, 2, 0, 0xa, 0, 0, true⟩),
  (64, 0x4002801002504BB1, .vredMaxn ⟨9, 0x4a, 0, 2, 0, 0xa, 0, 0, true⟩),
  (64, 0x4002801002504BB5, .vredAmax ⟨9, 0x4a, 0, 2, 0, 0xa, 0, 0, true⟩),
  (64, 0x4002801002504BB9, .vredAmaxn ⟨9, 0x4a, 0, 2, 0, 0xa, 0, 0, true⟩),
  (64, 0x4006801002524BBD, .vcvtI8 ⟨0x49, 0x4a, 0, 2, 0, 0xa, 1, 0, true⟩),
  (64, 0x4006801002524BC1, .vcvtN8 ⟨0x49, 0x4a, 0, 2, 0, 0xa, 1, 0, true⟩),
  (64, 0x4006801002524BC5, .vcvtI16 ⟨0x49, 0x4a, 0, 2, 0, 0xa, 1, 0, true⟩),
  (64, 0x4006801002524BC9, .vcvtN16 ⟨0x49, 0x4a, 0, 2, 0, 0xa, 1, 0, true⟩),
  (64, 0x4002801002524BCD, .vcvtI32 ⟨0x49, 0x4a, 0, 2, 0, 0xa, 0, 0, true⟩),
  (64, 0x4002801002524BD1, .vcvtN32 ⟨0x49, 0x4a, 0, 2, 0, 0xa, 0, 0, true⟩),
  (64, 0x4006801002524BD5, .vcvtF16 ⟨0x49, 0x4a, 0, 2, 0, 0xa, 1, 0, true⟩),
  (64, 0x4006801002524BD9, .vcvtBf16 ⟨0x49, 0x4a, 0, 2, 0, 0xa, 1, 0, true⟩),
  (64, 0x4004801002524BDD, .vcvtF32 ⟨0x49, 0x4a, 0, 2, 0, 2, 1, 0, true⟩),
  (64, 0x4006801002524BE1, .vcvtT8 ⟨0x49, 0x4a, 0, 2, 0, 0xa, 1, 0, true⟩),
  (64, 0x4006801062524BE5, .vcvtO8 ⟨0x49, 0x4a, 0xc, 2, 0, 0xa, 1, 0, true⟩),
  (64, 0x4016801062524BE9, .vcvtO4 ⟨0x49, 0x4a, 0xc, 2, 0, 0xa, 5, 0, true⟩),
  (64, 0x400682D062524BED, .vscale ⟨0x49, 0x4a, 0xc, 2, 0xb, 0xa, 1, 0, true⟩),
  (64, 0x4002801002524BF1, .vmov ⟨0x49, 0x4a, 0, 2, 0, 0xa, 0, 0, true⟩)]

theorem test_decode_vector_reductions : decodesAll wordsVectorReductions = true := by decide

theorem test_ready_vector_reductions : readyAll wordsVectorReductions = true := by decide

/-- Words of the spec's encoding, one for each instruction of 0x100 to 0x120: bits, word, instruction. -/
noncomputable def wordsMatrix : List (Nat × Nat × Instr) := [
  (64, 0x4004001000000401, .mxbegin ⟨0, 0, 0, 2, 0, 0, 1, 0, true⟩),
  (64, 0x4000001000000405, .mxend ⟨0, 0, 0, 2, 0, 0, 0, 0, true⟩),
  (64, 0x4000001000000409, .mxzero ⟨0, 0, 0, 2, 0, 0, 0, 0, true⟩),
  (64, 0x400000100050040D, .mxldwD ⟨0, 0xa, 0, 2, 0, 0, 0, 0, true⟩),
  (64, 0x4000001000500411, .mxldwS ⟨0, 0xa, 0, 2, 0, 0, 0, 0, true⟩),
  (64, 0x4000001000500415, .mxldwT ⟨0, 0xa, 0, 2, 0, 0, 0, 0, true⟩),
  (64, 0x4000001000500419, .mxmacT8 ⟨0, 0xa, 0, 2, 0, 0, 0, 0, true⟩),
  (64, 0x400000100050041D, .mxmacI8 ⟨0, 0xa, 0, 2, 0, 0, 0, 0, true⟩),
  (64, 0x4000001000500421, .mxmacO8 ⟨0, 0xa, 0, 2, 0, 0, 0, 0, true⟩),
  (64, 0x4000001000500425, .mxmacI8o8 ⟨0, 0xa, 0, 2, 0, 0, 0, 0, true⟩),
  (64, 0x4000001000500429, .mxmacO8i8 ⟨0, 0xa, 0, 2, 0, 0, 0, 0, true⟩),
  (64, 0x400000100050042D, .mxmacO4 ⟨0, 0xa, 0, 2, 0, 0, 0, 0, true⟩),
  (64, 0x4000001000500431, .mxmacO4o8 ⟨0, 0xa, 0, 2, 0, 0, 0, 0, true⟩),
  (64, 0x4000001000500435, .mxmacO8o4 ⟨0, 0xa, 0, 2, 0, 0, 0, 0, true⟩),
  (64, 0x4000001000500439, .mxmacF16 ⟨0, 0xa, 0, 2, 0, 0, 0, 0, true⟩),
  (64, 0x400000100050043D, .mxmacBf16 ⟨0, 0xa, 0, 2, 0, 0, 0, 0, true⟩),
  (64, 0x4000001060024C41, .mxrdF ⟨0x49, 0, 0xc, 2, 0, 0, 0, 0, true⟩),
  (64, 0x4000001060024C45, .mxrdI ⟨0x49, 0, 0xc, 2, 0, 0, 0, 0, true⟩),
  (64, 0x4000001060024C49, .mxrdSc ⟨0x49, 0, 0xc, 2, 0, 0, 0, 0, true⟩),
  (64, 0x400000106250044D, .mxwrF ⟨0, 0x4a, 0xc, 2, 0, 0, 0, 0, true⟩),
  (64, 0x4000001062500451, .mxwrI ⟨0, 0x4a, 0xc, 2, 0, 0, 0, 0, true⟩),
  (64, 0x4614001060500455, .mxstF32 ⟨0, 0xa, 0xc, 2, 0, 0, 5, 6, true⟩),
  (64, 0x4614001060500459, .mxstBf16 ⟨0, 0xa, 0xc, 2, 0, 0, 5, 6, true⟩),
  (64, 0x461400106050045D, .mxstF16 ⟨0, 0xa, 0xc, 2, 0, 0, 5, 6, true⟩),
  (64, 0x4614001060500461, .mxstT8 ⟨0, 0xa, 0xc, 2, 0, 0, 5, 6, true⟩),
  (64, 0x4614001060500465, .mxstI32 ⟨0, 0xa, 0xc, 2, 0, 0, 5, 6, true⟩),
  (64, 0x4614001060500469, .mxstI8 ⟨0, 0xa, 0xc, 2, 0, 0, 5, 6, true⟩),
  (64, 0x461402D06050046D, .mxstO8 ⟨0, 0xa, 0xc, 2, 0xb, 0, 5, 6, true⟩),
  (64, 0x461402D060500471, .mxstO4 ⟨0, 0xa, 0xc, 2, 0xb, 0, 5, 6, true⟩),
  (64, 0x4004001000004C75, .mxwait ⟨9, 0, 0, 2, 0, 0, 1, 0, true⟩),
  (64, 0x400002D060504C79, .mxcmd ⟨9, 0xa, 0xc, 2, 0xb, 0, 0, 0, true⟩),
  (64, 0x400000100050047D, .mxsave ⟨0, 0xa, 0, 2, 0, 0, 0, 0, true⟩),
  (64, 0x4000001000500481, .mxload ⟨0, 0xa, 0, 2, 0, 0, 0, 0, true⟩)]

theorem test_decode_matrix : decodesAll wordsMatrix = true := by decide

theorem test_ready_matrix : readyAll wordsMatrix = true := by decide

/-- Words of the spec's encoding, one for each instruction of 0x140 to 0x15F: bits, word, instruction. -/
noncomputable def wordsEngines : List (Nat × Nat × Instr) := [
  (64, 0x404A801000504D01, .copyG ⟨9, 0xa, 0, 2, 0, 0xa, 2, 4, true⟩),
  (64, 0x410A801000504D05, .copyT ⟨9, 0xa, 0, 2, 0, 0xa, 2, 0x10, true⟩),
  (64, 0x404A801000504D09, .copyC ⟨9, 0xa, 0, 2, 0, 0xa, 2, 4, true⟩),
  (64, 0x404A801000504D0D, .copyS ⟨9, 0xa, 0, 2, 0, 0xa, 2, 4, true⟩),
  (64, 0x404A831000504D11, .copyx ⟨9, 0xa, 0, 2, 0xc, 0xa, 2, 4, true⟩),
  (64, 0x4048001058504D15, .fillW ⟨9, 0xa, 0xb, 2, 0, 0, 2, 4, true⟩),
  (64, 0x4048001058504D19, .fillD ⟨9, 0xa, 0xb, 2, 0, 0, 2, 4, true⟩),
  (64, 0x401A801000504D1D, .collSum ⟨9, 0xa, 0, 2, 0, 0xa, 2, 1, true⟩),
  (64, 0x401A801000504D21, .collMax ⟨9, 0xa, 0, 2, 0, 0xa, 2, 1, true⟩),
  (64, 0x404A801000504D25, .collAmax ⟨9, 0xa, 0, 2, 0, 0xa, 2, 4, true⟩),
  (64, 0x401A801000504D29, .collMin ⟨9, 0xa, 0, 2, 0, 0xa, 2, 1, true⟩),
  (64, 0x401A801000504D2D, .cbcast ⟨9, 0xa, 0, 2, 0, 0xa, 2, 1, true⟩),
  (64, 0x401A801000504D31, .cgath ⟨9, 0xa, 0, 2, 0, 0xa, 2, 1, true⟩),
  (64, 0x401A801000504D35, .cscatSum ⟨9, 0xa, 0, 2, 0, 0xa, 2, 1, true⟩),
  (64, 0x401A801000504D39, .cscatMax ⟨9, 0xa, 0, 2, 0, 0xa, 2, 1, true⟩),
  (64, 0x404A801000504D3D, .cscatAmax ⟨9, 0xa, 0, 2, 0, 0xa, 2, 4, true⟩),
  (64, 0x401A801000504D41, .cscatMin ⟨9, 0xa, 0, 2, 0, 0xa, 2, 1, true⟩),
  (64, 0x4010001058500545, .cgrpA ⟨0, 0xa, 0xb, 2, 0, 0, 0, 1, true⟩),
  (64, 0x4010001000000549, .cgrpF ⟨0, 0, 0, 2, 0, 0, 0, 1, true⟩),
  (64, 0x400000105A50054D, .sendRq ⟨0, 0x4a, 0xb, 2, 0, 0, 0, 0, true⟩),
  (64, 0x400000105A500551, .sendRp ⟨0, 0x4a, 0xb, 2, 0, 0, 0, 0, true⟩),
  (64, 0x4000011000024D55, .recvRq ⟨0x49, 0, 0, 2, 4, 0, 0, 0, true⟩),
  (64, 0x4000011000024D59, .recvRp ⟨0x49, 0, 0, 2, 4, 0, 0, 0, true⟩),
  (64, 0x404000105850055D, .mbsetRq ⟨0, 0xa, 0xb, 2, 0, 0, 0, 4, true⟩),
  (64, 0x4040001058500561, .mbsetRp ⟨0, 0xa, 0xb, 2, 0, 0, 0, 4, true⟩),
  (64, 0xFF40281058500565, .dect ⟨1, 0, 0xa, 0xb, 2, 0, 2, 2, 0, false, false, 0x1fe8, 0, false, 0, 0⟩),
  (64, 0x4000001000504D69, .launch ⟨9, 0xa, 0, 2, 0, 0, 0, 0, true⟩),
  (64, 0x4040001000004D6D, .chwin ⟨9, 0, 0, 2, 0, 0, 0, 4, true⟩),
  (64, 0x4040001000004D71, .chstat ⟨9, 0, 0, 2, 0, 0, 0, 4, true⟩),
  (64, 0x4018001000500575, .qset ⟨0, 0xa, 0, 2, 0, 0, 2, 1, true⟩),
  (64, 0x4018001000004D79, .qstat ⟨9, 0, 0, 2, 0, 0, 2, 1, true⟩),
  (64, 0x4010001000504D7D, .taskrd ⟨9, 0xa, 0, 2, 0, 0, 0, 1, true⟩)]

theorem test_decode_engines : decodesAll wordsEngines = true := by decide

theorem test_ready_engines : readyAll wordsEngines = true := by decide

/-- Words of the spec's encoding, one for each instruction of 0x180 to 0x18C: bits, word, instruction. -/
noncomputable def wordsSystem : List (Nat × Nat × Instr) := [
  (64, 0x4000011000004E01, .csrr ⟨9, 0, 0, 2, 4, true⟩),
  (64, 0x4000011000500605, .csrw ⟨0, 0xa, 0, 2, 4, true⟩),
  (64, 0x4000011000504E09, .csrbS ⟨9, 0xa, 0, 2, 4, true⟩),
  (64, 0x4000011000504E0D, .csrbC ⟨9, 0xa, 0, 2, 4, true⟩),
  (64, 0x4000411000000611, .trap ⟨0, 0, 0, 2, 0x104, true⟩),
  (64, 0x4000001000000615, .tret ⟨0, 0, 0, 2, 0, true⟩),
  (64, 0x4000001000000619, .yret ⟨0, 0, 0, 2, 0, true⟩),
  (64, 0x400000100000061D, .yield ⟨0, 0, 0, 2, 0, true⟩),
  (64, 0x4000001000004E21, .timeS ⟨9, 0, 0, 2, 0, true⟩),
  (64, 0x4000001000004E25, .timeC ⟨9, 0, 0, 2, 0, true⟩),
  (64, 0x4000411000004E29, .ecall ⟨9, 0, 0, 2, 0x104, true⟩),
  (64, 0x400000100000062D, .brk ⟨0, 0, 0, 2, 0, true⟩),
  (64, 0x4000001000504E31, .waitt ⟨9, 0xa, 0, 2, 0, true⟩)]

theorem test_decode_system : decodesAll wordsSystem = true := by decide

theorem test_ready_system : readyAll wordsSystem = true := by decide

theorem test_spec_words_scalar_and_vector : decodesAll [
  (64, 0x0000000028201801, .add ⟨3, 4, 5, 0, 0, 0, 0, 0, false⟩),
  (64, 0x00000007F8282801, .add ⟨5, 5, 0xff, 0, 0, 0, 0, 0, false⟩),
  (96, 0x000003E80000000000201806, .addImm ⟨3, 4, 0, 0, 0, 0, 0, false, 0x3e8⟩),
  (64, 0x008020C000102125, .stW ⟨1, 4, 2, 0, 0, 3, 0, 2, 0, false, false, 0x10, 0, false, 0, 0⟩),
  (96, 0x00000400000000000000310A, .ldW ⟨2, 6, 0, 0, 0, 0, 0, 0, 0, false, false, 0, 0, false, 2, 0⟩),
  (64, 0x0000000020100895, .cmpEq ⟨1, 2, 4, 0, 0, 0, 0, 0, false⟩),
  (96, 0x0000000400000000000028B6, .moviW ⟨5, 0, 0, 0, 0, 0, 0, false, 4⟩),
  (64, 0x00000000000030B1, .mov ⟨6, 0, 0, 0, 0, 0, 0, 0, false⟩),
  (64, 0x3FFFFF40002828E5, .loop ⟨5, 5, 0, 0, 0xfffffd, false⟩),
  (64, 0x00000000000000E9, .endF ⟨0, 0, 0, 0, 0, false⟩),
  (64, 0x00000000000000F5, .nop ⟨0, 0, 0, 0, 0, false⟩),
  (64, 0x00000000088818F1, .rep ⟨3, 1, 1, 1, 0, 0⟩),
  (64, 0x0002800262422299, .vaddF ⟨0x44, 0x48, 0x4c, 0, 0, 0xa, 0, 0, false⟩),
  (64, 0x0006814022421BED, .vscale ⟨0x43, 0x48, 4, 0, 5, 0xa, 1, 0, false⟩),
  (64, 0x00068000023213E1, .vcvtT8 ⟨0x42, 0x46, 0, 0, 0, 0xa, 1, 0, false⟩),
  (64, 0x0006C000021243DD, .vcvtF32 ⟨0x48, 0x42, 0, 0, 0, 0xb, 1, 0, false⟩),
  (64, 0x0001000402181371, .vcmpLt ⟨2, 0x43, 0x80, 0, 0, 4, 0, 0, false⟩),
  (64, 0x000100821A022B7D, .vsel ⟨0x45, 0x40, 0x43, 0, 2, 4, 0, 0, false⟩),
  (64, 0x00029402624222E9, .vfmaF ⟨0x44, 0x48, 0x4c, 0, 0x50, 0xa, 0, 0, false⟩),
  (64, 0x00028000024033B5, .vredAmax ⟨6, 0x48, 0, 0, 0, 0xa, 0, 0, false⟩),
  (64, 0x0002800002403BB9, .vredAmaxn ⟨7, 0x48, 0, 0, 0, 0xa, 0, 0, false⟩),
  (64, 0x00028000024033A9, .vredMax ⟨6, 0x48, 0, 0, 0, 0xa, 0, 0, false⟩),
  (64, 0x00028000024033A1, .vredAddf ⟨6, 0x48, 0, 0, 0, 0xa, 0, 0, false⟩),
  (64, 0x00100580A8A000C5, .chkrR ⟨0, 0x14, 0x15, 0, 0x16, 0, 4, 0, false⟩),
  (64, 0x0000080008501159, .aaddD ⟨1, 2, 0xa, 1, 0, 0, 2, 0, 0, false, false, 0, 0, false, 0, 0⟩),
  (64, 0x00000800205019A1, .acasD ⟨1, 3, 0xa, 4, 0, 0, 2, 0, 0, false, false, 0, 0, false, 0, 0⟩),
  (64, 0x00000400085001AD, .raddD ⟨1, 0, 0xa, 1, 0, 0, 1, 0, 0, false, false, 0, 0, false, 0, 0⟩),
  (64, 0x00001000000039C5, .fence ⟨7, 0, 0, 0, 0x40, false⟩),
  (64, 0x00000000003801C9, .fwait ⟨0, 7, 0, 0, 0, false⟩),
  (64, 0x000080000000A1CD, .batchc ⟨1, 0x14, 0, 0, 0, 0, 0, 0, 1, false, false, 0, 0, false, 0, 0⟩),
  (64, 0x000000000000A1D1, .bopen ⟨0x14, 0, 0, 0, 0, false⟩),
  (64, 0x00000000105801E1, .waitv ⟨1, 0, 0xb, 2, 0, 0, 0, 0, 0, false, false, 0, 0, false, 0, 0⟩)] = true := by decide

theorem test_spec_words_system_and_engines : decodesAll [
  (64, 0x40000000180001ED, .swset ⟨1, 0, 0, 3, 0, 0, 0, 0, 0, false, false, 0x800, 0, false, 0, 0⟩),
  (64, 0x40000000200001F1, .swwait ⟨1, 0, 0, 4, 0, 0, 0, 0, 0, false, false, 0x800, 0, false, 0, 0⟩),
  (64, 0x00000000002831F5, .tlwait ⟨6, 5, 0, 0, 0, false⟩),
  (64, 0x00000008005001E9, .noteAll ⟨1, 0, 0xa, 0, 1, 0, 0, 0, 0, false, false, 0, 0, false, 0, 0⟩),
  (96, 0x000002000000000048022936, .vldC ⟨2, 0x45, 0, 9, 0, 0, 0, 0, 0, false, false, 0, 0, false, 1, 0⟩),
  (64, 0x0000000000000401, .mxbegin ⟨0, 0, 0, 0, 0, 0, 0, 0, false⟩),
  (64, 0x0004000000000401, .mxbegin ⟨0, 0, 0, 0, 0, 0, 1, 0, false⟩),
  (64, 0x0000000000000405, .mxend ⟨0, 0, 0, 0, 0, 0, 0, 0, false⟩),
  (64, 0x0000000000000409, .mxzero ⟨0, 0, 0, 0, 0, 0, 0, 0, false⟩),
  (64, 0x0000000000300411, .mxldwS ⟨0, 6, 0, 0, 0, 0, 0, 0, false⟩),
  (64, 0x0000000000280419, .mxmacT8 ⟨0, 5, 0, 0, 0, 0, 0, 0, false⟩),
  (64, 0x0000000400020449, .mxrdSc ⟨0x40, 0, 0x80, 0, 0, 0, 0, 0, false⟩),
  (64, 0x3F00000040380459, .mxstBf16 ⟨0, 7, 8, 0, 0, 0, 0, 0x3f, false⟩),
  (64, 0x0000000000004C75, .mxwait ⟨9, 0, 0, 0, 0, 0, 0, 0, false⟩),
  (64, 0x0000034060585479, .mxcmd ⟨0xa, 0xb, 0xc, 0, 0xd, 0, 0, 0, false⟩),
  (64, 0x0042C00000302D01, .copyG ⟨5, 6, 0, 0, 0, 0xb, 0, 4, false⟩),
  (64, 0x0002C00000889505, .copyT ⟨0x12, 0x11, 0, 0, 0, 0xb, 0, 0, false⟩),
  (64, 0x000000004A10054D, .sendRq ⟨0, 0x42, 9, 0, 0, 0, 0, 0, false⟩),
  (64, 0x0000010000021D55, .recvRq ⟨0x43, 0, 0, 0, 4, 0, 0, 0, false⟩),
  (64, 0x004000003830055D, .mbsetRq ⟨0, 6, 7, 0, 0, 0, 0, 4, false⟩),
  (64, 0x0040200008500565, .dect ⟨1, 0, 0xa, 1, 0, 0, 0, 2, 0, false, false, 8, 0, false, 0, 0⟩),
  (64, 0x000001C000002E01, .csrr ⟨5, 0, 0, 0, 7, false⟩),
  (64, 0x0000010000300605, .csrw ⟨0, 6, 0, 0, 4, false⟩),
  (64, 0x0000014000000611, .trap ⟨0, 0, 0, 0, 5, false⟩),
  (64, 0x0000000000000615, .tret ⟨0, 0, 0, 0, 0, false⟩),
  (64, 0x0000000000000619, .yret ⟨0, 0, 0, 0, 0, false⟩),
  (64, 0x000000000000061D, .yield ⟨0, 0, 0, 0, 0, false⟩),
  (64, 0x000000000000062D, .brk ⟨0, 0, 0, 0, 0, false⟩),
  (64, 0x0000000000003E21, .timeS ⟨7, 0, 0, 0, 0, false⟩),
  (64, 0x0000000000C00631, .waitt ⟨0, 0x18, 0, 0, 0, false⟩)] = true := by decide

/-! ## Ill-formed terms -/

/-- One term for each check of a field, with the item of R171 that it breaks. -/
noncomputable def illFormed : List (Nat × Instr) := [
  -- the specifiers of formats A, I and L (R180)
  (6, .add ⟨0x40, 0xa, 0xc, 0, 0, 0, 0, 0, false⟩), (6, .add ⟨9, 0x4a, 0xc, 0, 0, 0, 0, 0, false⟩),
  (6, .add ⟨9, 0xa, 0x4c, 0, 0, 0, 0, 0, false⟩), (5, .add ⟨9, 0xa, 0xc, 0, 1, 0, 0, 0, false⟩),
  (6, .cmpEq ⟨8, 0xa, 0xc, 0, 0, 0, 0, 0, false⟩), (6, .sel ⟨9, 0xa, 0xc, 0, 8, 0, 0, 0, false⟩),
  (6, .vsel ⟨0x49, 0x4a, 0x4b, 0, 8, 0xa, 0, 0, false⟩), (6, .addImm ⟨0x40, 0xa, 0, 0, 0, 0, 0, false, 1⟩),
  (5, .moviD ⟨9, 1, 0, 0, 0, 0, 0, false, 1⟩)]

noncomputable def illFormedTypes : List (Nat × Instr) := [
  -- element types, KA and KB (R171, R173, R228 to R231)
  (6, .add ⟨9, 0xa, 0xc, 0, 0, 1, 0, 0, false⟩), (6, .vaddF ⟨0x49, 0x4a, 0x4b, 0, 0, 4, 0, 0, false⟩),
  (6, .vaddI ⟨0x49, 0x4a, 0x4b, 0, 0, 10, 0, 0, false⟩), (5, .add ⟨9, 0xa, 0xc, 0, 0, 0, 1, 0, false⟩),
  (5, .add ⟨9, 0xa, 0xc, 0, 0, 0, 0, 1, false⟩), (5, .vpermQ ⟨0x49, 0x4a, 0x4b, 0, 0, 0xa, 4, 0, false⟩),
  (5, .chkrR ⟨0, 0xa, 0xc, 1, 0xb, 0, 5, 6, false⟩), (5, .chkrW ⟨0, 0xa, 0xc, 0, 0xb, 0, 5, 6, true⟩),
  (5, .chkrX ⟨9, 0xa, 0xc, 0, 0xb, 0, 5, 6, false⟩), (6, .mxstF32 ⟨0, 0xa, 0xc, 0, 0, 0, 32, 32, false⟩),
  (6, .vcvtF32 ⟨0x49, 0x4a, 0, 0, 0, 0xa, 0, 0, false⟩), (6, .vcvtO4 ⟨0x49, 0x4a, 0, 0, 0, 0xc, 0, 0, false⟩),
  (6, .vcvtI8 ⟨0x49, 0x4a, 0, 0, 0, 0xa, 4, 0, false⟩), (6, .vcvtI8 ⟨0x49, 0x4a, 0, 0, 0, 0xa, 0, 1, false⟩),
  (5, .vcvtI8 ⟨0x49, 0x4a, 0xc, 0, 0, 0xa, 0, 0, false⟩), (5, .addImm ⟨9, 0xa, 0, 0, 0, 1, 0, false, 1⟩),
  (6, .addImm ⟨9, 0xa, 0, 0, 1, 0, 0, false, 1⟩), (5, .moviD ⟨9, 0, 0, 0, 0, 0, 1, false, 1⟩)]

noncomputable def illFormedMemory : List (Nat × Instr) := [
  -- format M: lengths, ORD and the qualifiers (R175, R251, R252)
  (4, .ldW ⟨0, 9, 0xa, 0xb, 0, 0, 0, 0, 0, false, false, 0, 0, false, 0, 0⟩),
  (4, .batchc ⟨2, 9, 0, 0, 0, 0, 0, 0, 2, false, false, 0, 0, false, 0, 0⟩),
  (6, .ldW ⟨1, 9, 0xa, 0xb, 0, 0, 0, 2, 0, false, false, 0, 0, false, 0, 0⟩),
  (6, .stW ⟨1, 9, 0xa, 0xb, 0, 0, 0, 1, 0, false, false, 0, 0, false, 0, 0⟩),
  (5, .ldW ⟨1, 9, 0xa, 0xb, 0, 1, 0, 0, 0, false, false, 0, 0, false, 0, 0⟩),
  (5, .ldW ⟨1, 9, 0xa, 0xb, 0, 0, 0, 0, 1, false, false, 0, 0, false, 0, 0⟩),
  (5, .ldW ⟨1, 9, 0xa, 0xb, 0, 0, 0, 0, 0, true, false, 0, 0, false, 0, 0⟩),
  (5, .stW ⟨1, 9, 0xa, 0xb, 0, 0, 0, 0, 0, false, true, 0, 0, false, 0, 0⟩),
  (5, .ldW ⟨2, 9, 0xa, 0xb, 0, 0, 0, 0, 0, false, false, 0, 5, true, 0, 0⟩),
  (5, .stW ⟨1, 9, 0xa, 0xb, 0, 0, 0, 2, 0, true, false, 0, 0, false, 0, 0⟩),
  (5, .stW ⟨2, 9, 0xa, 0xb, 0, 0, 0, 0, 0, true, false, 0, 5, true, 0, 0⟩),
  (5, .batchc ⟨1, 9, 0, 0, 0, 0, 0, 0, 2, false, false, 8, 0, false, 0, 0⟩),
  (5, .ldW ⟨1, 9, 0xa, 0xb, 0, 0, 0, 0, 0, false, false, 0, 0, false, 1, 0⟩),
  (5, .stW ⟨3, 9, 0xa, 0xb, 0, 0, 0, 0, 0, false, false, 0, 5, true, 0, 0⟩),
  (5, .ldW ⟨2, 9, 0xa, 0xb, 0, 0, 0, 0, 0, false, false, 0, 0, false, 0, 8⟩),
  (5, .raddW ⟨1, 9, 0xa, 0xb, 0, 0, 0, 0, 0, false, false, 0, 0, false, 0, 0⟩)]

noncomputable def illFormedOthers : List (Nat × Instr) := [
  -- formats B, C and E (R176 to R178)
  (5, .bri ⟨0, 0xa, 0, 0, 4, false⟩), (5, .br ⟨9, 0, 0, 0, 4, false⟩), (6, .loop ⟨9, 0x4a, 0, 0, 4, false⟩),
  (5, .fence ⟨9, 0, 0, 0, 0x80, false⟩), (5, .tlwait ⟨9, 0xa, 0, 0, 8, false⟩), (5, .nop ⟨0, 0, 0, 1, 0, false⟩),
  (5, .nop ⟨0, 0, 0, 0, 0, true⟩), (5, .csrw ⟨9, 0xa, 0, 0, 4, false⟩), (5, .csrr ⟨9, 0, 0, 0, 0x1000, false⟩),
  (6, .cgrpA ⟨0, 0xa, 0xb, 0, 0, 1, 0, 1, false⟩), (5, .cgrpA ⟨0, 0xa, 0xb, 0, 0, 0, 1, 1, false⟩),
  (5, .cgrpA ⟨0, 0xa, 0xb, 0, 0, 0, 0, 4, false⟩), (6, .copyG ⟨9, 0xa, 0, 0, 0, 0xa, 2, 0, false⟩),
  (6, .mbsetRq ⟨0, 0xa, 0xb, 0, 0, 0, 0, 11, false⟩), (6, .sendRq ⟨0, 0xa, 0xb, 0, 0, 0, 0, 0, false⟩)]

/-- Every check refuses its term, with its item of R171. -/
theorem smoke_wellFormed : ((illFormed ++ illFormedTypes ++ illFormedMemory ++ illFormedOthers).all fun p =>
    !p.2.wellFormed && decide (p.2.form.staticItem = some p.1)) = true := by decide +kernel

/-! ## Witnesses: values -/

theorem witness_FloatNaN : (Flt.decodeBin Flt.f32 0x7FC00000).isNan = true ∧ (Flt.decodeBin Flt.f32 0x7F800001).isSnan = true
    ∧ (Flt.decodeBin Flt.f16 0x7C01).isNan = true := by decide

theorem witness_RoundingModes : (-1 : Int) ≤ 0 ∧ (0 : Int) < 1 ∧ 8 % 2 ^ ((3 : Int) - 0).toNat = 0 ∧ 9 % 2 ^ ((3 : Int) - 0).toNat ≠ 0
    ∧ 2 * (3 % 8) < 8 ∧ 8 < 2 * (5 % 8) ∧ 2 * (4 % 8) = 8 := by decide

theorem witness_VectorCompares : Flt.etInt 7 = true ∧ Flt.etInt 8 = false ∧ (Flt.decodeBin (Flt.fmtOf 10) 0x7FC00000).isNan = true
    ∧ (Flt.decodeBin (Flt.fmtOf 10) 0x3F800000).isNan = false ∧ (Flt.decodeBin (Flt.fmtOf 10) 0x80000000).isZero = true
    ∧ (Flt.decodeBin (Flt.fmtOf 10) 0).isZero = true := by decide

theorem witness_VectorReductions : ([0x7FC00000, 0x3F800000].filter fun x => !Flt.isNanCode 10 x).length < [0x7FC00000, 0x3F800000].length
    ∧ ([0x7FC00000].filter fun x => !Flt.isNanCode 10 x) = [] ∧ ([0x7FC00000, 0x3F800000].filter fun x => !Flt.isNanCode 10 x) ≠ []
    ∧ ([0x3F800000].filter fun x => !Flt.isNanCode 10 x).length = [0x3F800000].length := by decide

/-- VRED.ADDF of no active lane: PRED m2, which is zero. -/
def vredNone : AOps := { dst := 6, sa := 0x48, sb := 0, pred := 2, sc := 0, et := 10, ka := 0, kb := 0, pn := false }

theorem witness_EmptyReductions : (∀ k < Flt.etLanes vredNone.et, maskBit (ctx0.predicate vredNone.pred vredNone.pn) k = false)
    ∧ Ready (on ctx0) ctx0 (Instr.vredAddf vredNone).form ∧ Ready (on ctx0) ctx0 (Instr.vredMaxn vredNone).form :=
  ⟨by decide, ready_on (by decide), ready_on (by decide)⟩

/-! ## Witnesses: memory -/

/-- [s0 + 0x1FFF8], the last doubleword of the scratchpad, in M96. -/
def oLast : MOps :=
  { len := 2, dst := 9, sa := 0, sb := 0, pred := 0, strm := 0, scope := 0, ord := 0, batch := 0, bnd := false, grp := false,
    off := 0x1FF8, flag := 0, fl := false, offhi := 0xF, disp := 0 }

/-- [s10], a global address. -/
def oGlobal (ord : BitVec 3) : MOps :=
  { len := 1, dst := 9, sa := 10, sb := 0, pred := 0, strm := 0, scope := 0, ord := ord, batch := 0, bnd := false, grp := false,
    off := 0, flag := 0, fl := false, offhi := 0, disp := 0 }

/-- s10 names the last doubleword of HBM. -/
def ctxHbm : Ctx := { ctx0 with regs := ctx0.regs.setS 10 0x7FFFFFFFF8 }

def tLast : Tgt := { dev := 0, off := 0x10000001FFF8 }
def tHbm : Tgt := { dev := 0, off := 0x7FFFFFFFF8 }

theorem settled_on (c : Ctx) (h : c.order = Order.fresh) : Settled (on c) c :=
  ⟨by rw [h]; rfl, by rw [State.hitsOut, h]; rfl⟩

theorem acquiring_on (c : Ctx) (h : c.order = Order.fresh) : (on c).acquiring c = [] := by rw [State.acquiring, h]; rfl

/-- A context that has accessed nothing can make a synchronising access. -/
theorem syncReady_on (c : Ctx) (ord : BitVec 3) (store : Bool) (lines : List Nat) (h : c.order = Order.fresh) :
    SyncReady (on c) c ord store lines := by
  refine ⟨settled_on c h, acquiring_on c h, by rw [h]; rfl, fun _ => by rw [State.relWaits, h]; rfl,
    fun _ => ⟨by rw [h]; rfl, (by decide : (on ctx0).lost 0 = false)⟩, fun l _ => ?_⟩
  cases store <;> rfl

/-- A context that has accessed nothing can make a plain access to few lines. -/
theorem plainReady_on (c : Ctx) (lines : List Nat) (h : c.order = Order.fresh) (hl : (on ctx0).crowded lines = none) :
    PlainReady (on c) c lines := ⟨settled_on c h, acquiring_on c h, hl⟩

theorem witness_LoadsHere : Ready (on ctx0) ctx0 (Instr.ldD oLast).form ∧ oLast.grp = false
    ∧ (on ctx0).reaches (ctx0.addrIx oLast) 8 8 tLast ∧ tLast.dev = (on ctx0).devNum
    ∧ (on ctx0).heldSeat ctx0.tenant (tLast.bytes 8) = .inl (tLast.bytes 8)
    ∧ oLast.ord = 0 ∧ PlainReady (on ctx0) ctx0 ((on ctx0).raceLines ctx0.tenant (tLast.bytes 8)) :=
  ⟨ready_on (by decide), rfl, ⟨rfl, rfl⟩, rfl, rfl, rfl, plainReady_on _ _ rfl (by decide)⟩

theorem witness_LoadsHere_acquire : Ready (on ctxHbm) ctxHbm (Instr.ldW (oGlobal 1)).form
    ∧ (on ctxHbm).reaches (ctxHbm.addrIx (oGlobal 1)) 4 4 tHbm
    ∧ (on ctxHbm).heldSeat ctxHbm.tenant (tHbm.bytes 4) = .inl (tHbm.bytes 4)
    ∧ SyncReady (on ctxHbm) ctxHbm 1 false ((on ctxHbm).raceLines ctxHbm.tenant (tHbm.bytes 4)) :=
  ⟨ready_on (by decide), ⟨rfl, rfl⟩, rfl, syncReady_on _ _ _ _ rfl⟩

theorem witness_StoresHere : Ready (on ctxHbm) ctxHbm (Instr.stD (oGlobal 4)).form ∧ (oGlobal 4).bnd = false ∧ (oGlobal 4).fl = false
    ∧ (on ctxHbm).reaches (ctxHbm.addrIx (oGlobal 4)) 8 8 tHbm ∧ launchArea tHbm.off = false
    ∧ SyncReady (on ctxHbm) ctxHbm 4 true ((on ctxHbm).raceLines ctxHbm.tenant (tHbm.bytes 8)) :=
  ⟨ready_on (by decide), rfl, rfl, ⟨rfl, rfl⟩, rfl, syncReady_on _ _ _ _ rfl⟩

theorem witness_StoresHere_held : (on ctxHbm).heldSeat ctxHbm.tenant (tHbm.bytes 8) = .inl (tHbm.bytes 8)
    ∧ (on ctxHbm).touchesRecord (tHbm.bytes 8) = false ∧ ∀ x ∈ tHbm.bytes 8, inControl x = false :=
  ⟨by rfl, by decide, by decide⟩

theorem witness_StoresHere_plain : Ready (on ctx0) ctx0 (Instr.stD oLast).form ∧ launchArea tLast.off = false
    ∧ (on ctx0).touchesRecord (tLast.bytes 8) = false ∧ (∀ x ∈ tLast.bytes 8, inControl x = false)
    ∧ PlainReady (on ctx0) ctx0 ((on ctx0).raceLines ctx0.tenant (tLast.bytes 8)) :=
  ⟨ready_on (by decide), by decide, by decide, by decide, plainReady_on _ _ rfl (by decide)⟩

/-- A vector access of all 32 lanes from s10. -/
def oVec : MOps := { oGlobal 0 with dst := 0x49 }

/-- s10 names the last 128 bytes of HBM. -/
def ctxVec : Ctx := { ctx0 with regs := ctx0.regs.setS 10 0x7FFFFFFF80 }

def vecPlace (k : Nat) : Tgt := { dev := 0, off := 0x7FFFFFFF80 + 4 * k }

theorem witness_LoadsLanes : Ready (on ctxVec) ctxVec (Instr.vldL oVec).form ∧ LanesPlaced (on ctxVec) ctxVec .linear oVec vecPlace
    ∧ (on ctxVec).heldSeat ctxVec.tenant ((ctxVec.activeLanes oVec).flatMap fun k => (vecPlace k).bytes 4)
      = .inl ((ctxVec.activeLanes oVec).flatMap fun k => (vecPlace k).bytes 4)
    ∧ PlainReady (on ctxVec) ctxVec ((on ctxVec).raceLines ctxVec.tenant ((ctxVec.activeLanes oVec).flatMap fun k => (vecPlace k).bytes 4)) := by
  refine ⟨ready_on (by decide), ⟨fun i hi => ?_, fun i hi j hj => ?_, rfl⟩, rfl, plainReady_on _ _ rfl (by decide)⟩
  all_goals
    have e : ctxVec.activeLanes oVec = List.range 32 := by decide
    rw [e] at *
  · have : ∀ i ∈ List.range 32, (on ctxVec).testAddr (ctxVec.laneAddr .linear oVec i) 4 = .inr (vecPlace i) ∧ (vecPlace i).off % 4 = 0 := by
      decide
    exact this i hi
  · have : ∀ i ∈ List.range 32, (on ctxVec).place (vecPlace i).dev (vecPlace i).off = (on ctxVec).place 0 0x7FFFFFFF80 := by decide
    exact ⟨rfl, (this i hi).trans (this j hj).symm⟩

/-- No lane is active: PRED m2. -/
def oNone : MOps := { oVec with pred := 2 }

theorem witness_StoresLanes_none : Ready (on ctxVec) ctxVec (Instr.vstL oNone).form ∧ ctxVec.activeLanes oNone = []
    ∧ (on ctxVec).reaches (ctxVec.vBase .linear oNone) 0 4 { dev := 0, off := 0x7FFFFFFF80 } ∧ PlainReady (on ctxVec) ctxVec [] :=
  ⟨ready_on (by decide), by decide, ⟨rfl, rfl⟩, plainReady_on _ _ rfl (by decide)⟩

theorem witness_StoresLanes : Ready (on ctxVec) ctxVec (Instr.vstL oVec).form ∧ ctxVec.activeLanes oVec ≠ []
    ∧ ((ctxVec.activeLanes oVec).filter fun k =>
        !(ctxVec.activeLanes oVec).any fun j => decide (k < j) && (vecPlace j).off == (vecPlace k).off) = List.range 32 :=
  ⟨ready_on (by decide), by decide, by decide⟩

theorem witness_AtomReady : AtomReady (on ctxHbm) ctxHbm (.aaddD (oGlobal 4)) (oGlobal 4) 8 tHbm (tHbm.bytes 8) :=
  ⟨ready_on (by decide), ⟨rfl, rfl⟩, rfl, ⟨rfl, by decide⟩, rfl, rfl, syncReady_on _ _ _ _ rfl, rfl⟩

theorem witness_AtomReady_reduction :
    AtomReady (on ctxHbm) ctxHbm (.raddW { oGlobal 0 with dst := 0 }) { oGlobal 0 with dst := 0 } 4 tHbm (tHbm.bytes 4) :=
  ⟨ready_on (by decide), ⟨rfl, rfl⟩, rfl, ⟨rfl, by decide⟩, rfl, rfl, syncReady_on _ _ _ _ rfl, rfl⟩


/-! ## Witnesses: control -/

/-- A machine with one context and words of 8 bytes in its code. -/
def onCode (c : Ctx) (ws : List Nat) : State :=
  { on c with mem := (ws.zipIdx).foldl (fun m p => m.writeNat (0x10000 + 8 * p.2) 8 p.1) [] }

/-- REP 4 with every step 1 (R186). -/
def oRep : POps := { count := 3, sd := 1, ssa := 1, ssb := 1, ssc := 0, soff := 0 }

/-- MOV s6, s0 refuses a step of SB; ADD s3, s4, s5 takes it. -/
theorem witness_Rep : Ready (onCode ctx0 [0x088818F1, 0x28201801]) ctx0 (Instr.rep oRep).form
    ∧ (onCode ctx0 [0x088818F1, 0x28201801]).repPasses ctx0 oRep = true
    ∧ (onCode ctx0 [0x088818F1, 0x30B1]).repPasses ctx0 oRep = false :=
  ⟨⟨rfl, by decide, by decide, by decide, by decide, fun h => absurd h (by decide)⟩, by decide, by decide⟩

/-- A machine whose context runs a live record: number 1 of partition 0's pool at 0x40000. -/
def onLive (c : Ctx) : State :=
  { on c with
    dcb := [(parttab 0 2, 0x40000), (parttab 0 3, 4)], sched := { Sched.fresh with live := [(0, 1)] } }

def ctxLive : Ctx := { ctx0 with record := 1 }
def oEmpty : COps := { dst := 0, sa := 0, sb := 0, pred := 0, imm := 0, pn := false }

/-- Ready on any machine that has the context in focus. -/
theorem ready_at {s : State} {c : Ctx} {f : Form} (hs : s.cx = some c) (hd : c.decodeItem f = none) (hp : c.predFalse f = false)
    (ho : (c.order.owed.any fun sp => f.uses sp) = false) (hv : f.pvCount = 0) (hn : f.nxCount = 0) : Ready s c f :=
  ⟨hs, hd, hp, ho, by omega, fun h => absurd hn h⟩

theorem mayEnd_live {f : Form} (hd : ctxLive.decodeItem f = none) (hp : ctxLive.predFalse f = false) (hv : f.pvCount = 0)
    (hn : f.nxCount = 0) : MayEnd (onLive ctxLive) ctxLive f :=
  ⟨ready_at rfl hd hp rfl hv hn, ⟨rfl, rfl⟩, rfl, by decide, rfl, rfl, rfl, rfl, by decide⟩

theorem witness_MayEnd : MayEnd (onLive ctxLive) ctxLive (Instr.endF oEmpty).form
    ∧ MayEnd (onLive ctxLive) ctxLive (Instr.endRe oEmpty).form ∧ (onLive ctxLive).portsOf 0 1 = [] ∧ (onLive ctxLive).recChn 0 1 = false
    ∧ (-32768 ≤ (onLive ctxLive).recCnt 0 1 3 + (onLive ctxLive).recInit 0 1 3) :=
  ⟨mayEnd_live (by decide) (by decide) (by decide) (by decide), mayEnd_live (by decide) (by decide) (by decide) (by decide),
   by decide, by decide, by decide⟩

/-- WAITV with s10 naming the last doubleword of HBM. -/
def ctxWaits : Ctx := { ctxLive with regs := ctx0.regs.setS 10 0x7FFFFFFFF8 }
def oWord : MOps := { oGlobal 0 with dst := 0, sb := 9 }

theorem witness_WaitV : MayEnd (onLive ctxWaits) ctxWaits (Instr.waitv oWord).form
    ∧ (onLive ctxWaits).reaches (ctxWaits.addrIx { oWord with sb := 0 }) 8 8 tHbm ∧ (onLive ctxWaits).isHbm tHbm = true :=
  ⟨⟨ready_at rfl (by decide) (by decide) rfl (by decide) (by decide), ⟨rfl, rfl⟩, rfl, by decide, rfl, rfl, rfl, rfl, by decide⟩, ⟨rfl, rfl⟩,
   by decide⟩


theorem witness_Traps : Ready (on ctx0) ctx0 (Instr.trap { oEmpty with imm := 5 }).form ∧ Ready (on ctx0) ctx0 (Instr.brk oEmpty).form
    ∧ Ready (on ctx0) ctx0 (Instr.tret oEmpty).form ∧ ctx0.csrs.tcause.getLsbD 17 = false ∧ ctx0.csrs.tcause.getLsbD 18 = false
    ∧ ctx0.inTrap = false ∧ ctx0.inYield = false ∧ ctx0.handler 3 = none ∧ ctx0.handler 4 = none :=
  ⟨ready_on (by decide), ready_on (by decide), ready_on (by decide), by decide, by decide, by decide, by decide, rfl, rfl⟩

def ctxTraps : Ctx := { ctx0 with code := { ctx0.code with traps := [(3, 0x40), (4, 0x80)] } }

/-- Inside a trap handler that BRK entered, with SKIP and a REP that was interrupted. -/
def ctxInTrap : Ctx := { ctx0 with csrs := { ctx0.csrs with tcause := 0x30004, tinfo := 0x40601 } }

/-- Inside the yield handler. -/
def ctxInYield : Ctx := { ctx0 with csrs := { ctx0.csrs with tcause := 0x40000 } }

theorem witness_Traps_handler : Ready (on ctxTraps) ctxTraps (Instr.trap { oEmpty with imm := 0xFFFF }).form
    ∧ look ctxTraps.code.traps 3 = some 0x40 ∧ Ready (on ctxTraps) ctxTraps (Instr.brk oEmpty).form
    ∧ look ctxTraps.code.traps 4 = some 0x80 :=
  ⟨ready_on (by decide), rfl, ready_on (by decide), rfl⟩

theorem witness_Traps_inside : Ready (on ctxInTrap) ctxInTrap (Instr.tret oEmpty).form ∧ ctxInTrap.csrs.tcause.getLsbD 17 = true
    ∧ ctxInTrap.csrs.tcause.getLsbD 16 = true ∧ ctxInTrap.csrs.tinfo.getLsbD 18 = true
    ∧ Ready (on ctxInTrap) ctxInTrap (Instr.trap oEmpty).form ∧ Ready (on ctxInTrap) ctxInTrap (Instr.brk oEmpty).form
    ∧ ctxInTrap.inTrap = true :=
  ⟨ready_on (by decide), by decide, by decide, by decide, ready_on (by decide), ready_on (by decide), by decide⟩

theorem witness_Yields : Ready (on ctxInYield) ctxInYield (Instr.yret oEmpty).form ∧ ctxInYield.inYield = true
    ∧ ctxInYield.fault = none ∧ Ready (on ctx0) ctx0 (Instr.yret oEmpty).form ∧ Ready (on ctx0) ctx0 (Instr.yield oEmpty).form
    ∧ ctx0.chain = [] ∧ ctx0.order.awaits = [] ∧ ∀ p ∈ (on ctx0).seats, p.1 ≠ (on ctx0).cur :=
  ⟨ready_on (by decide), by decide, rfl, ready_on (by decide), ready_on (by decide), rfl, rfl, fun _ h => absurd h (by simp [on, State.reset])⟩

/-! ## Witnesses: waits, fences and bundles -/

/-- A context with other ordering state. -/
def withOrd (g : Order → Order) : Ctx := { ctx0 with order := g ctx0.order }

/-- An unperformed store to device 5, in batch 1. -/
def outStore : Out :=
  { dev := 5, strm := 0, seq := 0, batch := 1, bundled := false, kind := .store, sync := false, acq := false, bytes := [], hdls := [],
    pc := 0, born := 0, sent := 0 }

/-- Device 5 is lost. -/
def lost5 (c : Ctx) : State := { on c with dcb := [(routeReg 5, 0x8000)] }

def tokens8 : List Token := (List.range 8).map fun k => { slot := k, serial := k, waits := [outStore], lost := [] }
def oFence (m : BitVec 16) : COps := { dst := 7, sa := 0, sb := 0, pred := 0, imm := m, pn := false }
def oFwait : COps := { dst := 9, sa := 7, sb := 0, pred := 0, imm := 0, pn := false }

theorem witness_Fences : Ready (on ctx0) ctx0 (Instr.fence (oFence 0)).form ∧ (oFence 0).imm.toNat % 128 = 0
    ∧ Ready (on ctx0) ctx0 (Instr.fence (oFence 0x7F)).form ∧ (oFence 0x7F).imm.toNat % 128 ≠ 0
    ∧ (on ctx0).fenceWait ctx0 = none ∧ (on ctx0).freeSlot ctx0.order = some 0
    ∧ Ready (on (withOrd fun q => { q with tokens := tokens8 })) (withOrd fun q => { q with tokens := tokens8 })
        (Instr.fence (oFence 0x7F)).form
    ∧ (on (withOrd fun q => { q with tokens := tokens8 })).fenceWait (withOrd fun q => { q with tokens := tokens8 }) = some 0 :=
  ⟨ready_on (by decide), rfl, ready_on (by decide), by decide, by decide, by decide, ready_on (by decide), by decide⟩

theorem witness_Fences_waits : Ready (on ctx0) ctx0 (Instr.fwait oFwait).form ∧ Settled (on ctx0) ctx0
    ∧ (on ctx0).unperformed (ctx0.fenceWaits (ctx0.valA oFwait.sa)).1 = []
    ∧ Ready (lost5 (withOrd fun q => { q with outs := [outStore] })) (withOrd fun q => { q with outs := [outStore] })
        (Instr.fwait oFwait).form
    ∧ (lost5 (withOrd fun q => { q with outs := [outStore] })).unperformed
        ((withOrd fun q => { q with outs := [outStore] }).fenceWaits (ctx0.valA oFwait.sa)).1 = []
    ∧ (lost5 (withOrd fun q => { q with outs := [outStore] })).lostAmong
        ((withOrd fun q => { q with outs := [outStore] }).fenceWaits (ctx0.valA oFwait.sa)).1 = [5]
    ∧ Settled (lost5 (withOrd fun q => { q with outs := [outStore] })) (withOrd fun q => { q with outs := [outStore] })
    ∧ ctx0.csrs.lostla.toNat % 2 ^ 17 = 0 :=
  ⟨ready_on (by decide), settled_on _ rfl, by decide, ready_at rfl (by decide) (by decide) rfl (by decide) (by decide), by decide, by decide,
   ⟨rfl, by decide⟩, by decide⟩

def oBatch : MOps := { oGlobal 0 with dst := 20, sa := 0, batch := 1 }

theorem witness_BatchCloses : Ready (on ctx0) ctx0 (Instr.batchc oBatch).form ∧ (∀ x ∈ ctx0.order.gone, x.1 ≠ 1)
    ∧ (ctx0.order.touched[1]?).getD [] = [] ∧ (∀ x ∈ ctx0.order.closes, x.tag ≠ 1)
    ∧ Ready (on (withOrd fun q => { q with touched := [[], [5], [], []] })) (withOrd fun q => { q with touched := [[], [5], [], []] })
        (Instr.batchc oBatch).form
    ∧ (([[], [5], [], []] : List (List Nat))[1]?).getD [] = [5] ∧ (on ctx0).lost 5 = false
    ∧ (withOrd fun q => { q with touched := [[], [5], [], []] }).closeWait = none :=
  ⟨ready_on (by decide), fun _ h => absurd h (by decide +revert), rfl, fun _ h => absurd h (by decide +revert), ready_on (by decide), rfl,
   by decide, by decide⟩

def oDst : COps := { oEmpty with dst := 20 }
def bundle0 (settled : Bool) : Bundle :=
  { ident := 1, comps := [], lines := 0, doomed := none, stage := if settled then .settled else .opened, waiting := [], mmax := 0,
    stamp := none, latelost := false, lost := [], outcome := if settled then some 0 else none, away := [], since := 0 }

theorem witness_Bundles : Ready (on ctx0) ctx0 (Instr.bopen oDst).form ∧ ctx0.order.bundle = none
    ∧ (on ctx0).deciderFull (identDecider (BitVec.ofNat 64 (2 ^ 32))) = false
    ∧ Ready (on (withOrd fun q => { q with bundle := some (bundle0 false) })) (withOrd fun q => { q with bundle := some (bundle0 false) })
        (Instr.bopen oDst).form
    ∧ Ready (on ctx0) ctx0 (Instr.bclose oDst).form
    ∧ Ready (on (withOrd fun q => { q with bundle := some (bundle0 true) })) (withOrd fun q => { q with bundle := some (bundle0 true) })
        (Instr.bclose oDst).form
    ∧ (bundle0 true).stage = .settled ∧ (bundle0 true).outcome = some 0 ∧ (bundle0 true).lost = [] ∧ Settled (on ctx0) ctx0
    ∧ Settled (on (withOrd fun q => { q with bundle := some (bundle0 true) })) (withOrd fun q => { q with bundle := some (bundle0 true) }) :=
  ⟨ready_on (by decide), rfl, by decide, ready_on (by decide), ready_on (by decide), ready_on (by decide), rfl, rfl, rfl, settled_on _ rfl,
   ⟨rfl, rfl⟩⟩

theorem witness_Groups : Ready (on ctx0) ctx0 (Instr.rgopen oDst).form ∧ ctx0.order.group = none ∧ Settled (on ctx0) ctx0
    ∧ Ready (on (withOrd fun q => { q with group := some { t := 7, lost := some (3, 5), devs := [] } }))
        (withOrd fun q => { q with group := some { t := 7, lost := some (3, 5), devs := [] } }) (Instr.rgopen oDst).form
    ∧ Ready (on (withOrd fun q => { q with group := some { t := 7, lost := some (3, 5), devs := [] } }))
        (withOrd fun q => { q with group := some { t := 7, lost := some (3, 5), devs := [] } }) (Instr.rgclose oDst).form
    ∧ Settled (on (withOrd fun q => { q with group := some { t := 7, lost := some (3, 5), devs := [] } }))
        (withOrd fun q => { q with group := some { t := 7, lost := some (3, 5), devs := [] } }) :=
  ⟨ready_on (by decide), rfl, settled_on _ rfl, ready_on (by decide), ready_on (by decide), ⟨rfl, rfl⟩⟩

theorem witness_Notes : Ready (on ctxHbm) ctxHbm (Instr.noteAll { oGlobal 0 with dst := 0 }).form
    ∧ (on ctxHbm).reaches (ctxHbm.addrIx { oGlobal 0 with dst := 0 }) 8 8 tHbm ∧ (on ctxHbm).isHbm tHbm = true
    ∧ (on ctxHbm).heldAll ctxHbm.tenant [tHbm.off] = .inl [tHbm.off] ∧ ctxHbm.order.outs = [] :=
  ⟨ready_on (by decide), ⟨rfl, rfl⟩, by decide, by rfl, rfl⟩

/-- [s0 + 0x1FFF0], the last sync word of the scratchpad. -/
def oSync : MOps := { oLast with len := 1, dst := 0, off := 0xFF0, offhi := 0 }
def tSync : Tgt := { dev := 0, off := 0x100000000FF0 }

theorem witness_SyncWords : Ready (on ctx0) ctx0 (Instr.swset oSync).form ∧ (on ctx0).reaches (ctx0.addr oSync 0) 16 16 tSync
    ∧ (bankCore tSync.off).isSome = true ∧ launchArea tSync.off = false
    ∧ (on ctx0).heldSeat ctx0.tenant [tSync.off] = .inl [tSync.off] ∧ Ready (on ctx0) ctx0 (Instr.swwait oSync).form
    ∧ (on ctx0).ownPad tSync = true ∧ (on ctx0).unperformed ctx0.order.syncOuts = []
    ∧ ((on ctx0).mem.readNat (tSync.off + 8) 4 + 2 ^ 32 - (ctx0.srcS [oSync.sa] oSync.sb).toNat % 2 ^ 32) % 2 ^ 32 < 2 ^ 31
    ∧ (on ctx0).acquiring ctx0 = [] ∧ Settled (on ctx0) ctx0 :=
  ⟨ready_on (by decide), ⟨rfl, rfl⟩, by decide, by decide, by rfl, ready_on (by decide), by decide, by decide, by decide, rfl, settled_on _ rfl⟩

theorem witness_Timelines : Ready (on ctx0) ctx0 (Instr.tlwait { oDst with sa := 7, imm := 7 }).form
    ∧ min (ctx0.valA 7).toNat (ctx0.vq 7).issued ≤ (ctx0.vq 7).done ∧ (on ctx0).unperformed ctx0.order.syncOuts = []
    ∧ Settled (on ctx0) ctx0 := ⟨ready_on (by decide), by decide, rfl, settled_on _ rfl⟩

/-! ## Witnesses: system -/

theorem witness_Clocks : Ready (on ctxHbm) ctxHbm (Instr.waitt { oDst with sa := 10 }).form
    ∧ (on ctxHbm).time < (ctxHbm.valA 10).toNat ∧ ctxHbm.stall = none
    ∧ Ready (on ctx0) ctx0 (Instr.waitt { oDst with sa := 10 }).form ∧ (ctx0.valA 10).toNat ≤ (on ctx0).time :=
  ⟨ready_on (by decide), by decide, rfl, ready_on (by decide), by decide⟩

def ctxCalls (a : List (BitVec 32 × Option Word)) : Ctx := { ctx0 with ecalls := a }

theorem witness_Calls : Ready (on ctx0) ctx0 (Instr.ecall { oDst with imm := 0x21 }).form ∧ ctx0.ecallAt ctx0.pc = none
    ∧ Ready (on (ctxCalls [(0, none)])) (ctxCalls [(0, none)]) (Instr.ecall oDst).form ∧ (ctxCalls [(0, none)]).ecallAt 0 = some none
    ∧ Ready (on (ctxCalls [(0, some 9)])) (ctxCalls [(0, some 9)]) (Instr.ecall oDst).form
    ∧ (ctxCalls [(0, some 9)]).ecallAt 0 = some (some 9) :=
  ⟨ready_on (by decide), by decide, ready_on (by decide), by decide, ready_on (by decide), by decide⟩


/-! ## Witnesses: the matrix unit -/

/-- A machine whose matrix unit the context in focus owns, with bytes at local address 0x1000 as two words of 8 bytes. -/
def owning (c : Ctx) (lo hi : Nat) : State :=
  { on c with
    cores := [(0, { Core.fresh with mxOwner := some c.num })],
    mem := Memory.writeNat (Memory.writeNat [] (padOff 0 0x1000) 8 lo) (padOff 0 0x1008) 8 hi }

/-- s10 names local address 0x1000. -/
def ctxTile : Ctx := { ctx0 with regs := ctx0.regs.setS 10 0x1000 }

/-- The same with MXSTAT as given. -/
def ctxMx (stat : Word) : Ctx := { ctxTile with mx := { Matrix.fresh with stat := stat } }

def oMx : AOps := { dst := 0, sa := 0, sb := 0, pred := 0, sc := 0, et := 0, ka := 0, kb := 0, pn := false }
def oMxa : AOps := { oMx with sa := 10 }

theorem ready_own {c : Ctx} {f : Form} (lo hi : Nat) (h : readyHere c f = true) (hn : f.nxCount = 0) : Ready (owning c lo hi) c f := by
  obtain ⟨-, h1, h2, h3, h4, -⟩ := ready_on h
  exact ⟨rfl, h1, h2, h3, h4, fun h0 => absurd hn h0⟩

theorem witness_MatrixQueueing : ((owning ctxTile 0 0).core 0).mxOwner = some ctxTile.num ∧ ctxTile.mx.queue.length < 8
    ∧ Ready (owning ctxTile 0 0) ctxTile (Instr.mxbegin { oMx with ka := 1 }).form ∧ mxChain ctxTile.mx.stat = false
    ∧ Ready (owning (ctxMx 0x2000) 0 0) (ctxMx 0x2000) (Instr.mxend oMx).form ∧ mxChain (ctxMx 0x2000).mx.stat = true
    ∧ Ready (owning ctxTile 0 0) ctxTile (Instr.mxend oMx).form ∧ Ready (owning ctxTile 0 0) ctxTile (Instr.mxzero oMx).form
    ∧ Ready (owning ctxTile 0 0) ctxTile (Instr.mxsave oMxa).form ∧ Ready (owning ctxTile 0 0) ctxTile (Instr.mxload oMxa).form
    ∧ placeFault 0x1000 8208 = none ∧ mxAtype (BitVec.ofNat 64 ((owning ctxTile 0 0).mem.readNat (padOff 0 (0x1000 + 8192)) 8)) ≠ 3 :=
  ⟨by decide, by decide, ready_own _ _ (by decide) rfl, by decide, ready_own _ _ (by decide) rfl, by decide,
   ready_own _ _ (by decide) rfl, ready_own _ _ (by decide) rfl, ready_own _ _ (by decide) rfl, ready_own _ _ (by decide) rfl,
   by decide, by decide⟩

/-- A tile header of type `fmt`, E8 127, swizzle `swz`, KLEN `k` and one row (R222): its low and high doublewords. -/
def headLo (fmt swz k : Nat) : Nat := fmt + 2 ^ 8 * 127 + 2 ^ 24 * swz + 2 ^ 32 * k + 2 ^ 48
def headHi (fmt swz : Nat) : Nat := swz + 2 ^ 8 * fmt

/-- The header at 0x1000 passes MXLDW with this swizzle. -/
def ldwPasses (swz k : Nat) : Prop :=
  let h := (owning ctxTile (headLo 11 swz k) (headHi 11 swz)).headerAt 0 0x1000
  ldwTest swz h = none ∧ 0x1000 + 16 + weightBytes h (swz == 2) ≤ 0x20000

theorem witness_MatrixLoads : ldwPasses 0 32 ∧ ldwPasses 2 64 ∧ ldwPasses 3 32 ∧ placeFault 0x1000 16 = none
    ∧ Ready (owning ctxTile (headLo 11 0 32) (headHi 11 0)) ctxTile (Instr.mxldwD oMxa).form
    ∧ Ready (owning ctxTile (headLo 11 2 64) (headHi 11 2)) ctxTile (Instr.mxldwS oMxa).form
    ∧ Ready (owning ctxTile (headLo 11 3 32) (headHi 11 3)) ctxTile (Instr.mxldwT oMxa).form :=
  ⟨⟨by decide, by decide⟩, ⟨by decide, by decide⟩, ⟨by decide, by decide⟩, by decide, ready_own _ _ (by decide) rfl,
   ready_own _ _ (by decide) rfl, ready_own _ _ (by decide) rfl⟩

/-- Weights of type `b` in view, WVALID set. -/
def weightsOf (b k : Nat) : Matrix := { Matrix.fresh with stat := mxSet 0 31 1 1, whdr := BitVec.ofNat 128 (headLo b 0 k + 2 ^ 64 * headHi b 0) }

theorem witness_MatrixMultiplies : (∀ x ∈ [(0x106, 11, 11, 32), (0x107, 0, 0, 32), (0x108, 12, 12, 32), (0x109, 0, 12, 32), (0x10A, 12, 0, 32),
      (0x10B, 13, 13, 64), (0x10C, 13, 12, 32), (0x10D, 12, 13, 32), (0x10E, 8, 8, 32), (0x10F, 9, 9, 32)],
      macTest (macForm (BitVec.ofNat 9 x.1)) (weightsOf x.2.2.1 x.2.2.2)
        (BitVec.ofNat 128 (headLo x.2.1 0 x.2.2.2 + 2 ^ 64 * headHi x.2.1 0)) = none)
    ∧ Ready (owning ctxTile (headLo 11 0 32) (headHi 11 0)) ctxTile (Instr.mxmacT8 oMxa).form
    ∧ (owning ctxTile (headLo 11 0 32) (headHi 11 0)).headerAt 0 0x1000 = BitVec.ofNat 128 (headLo 11 0 32 + 2 ^ 64 * headHi 11 0)
    ∧ 0x1000 + 16 + 32 * 1 * Flt.etWidth 11 / 8 ≤ 0x20000 :=
  ⟨by decide, ready_own _ _ (by decide) rfl, by decide, by decide⟩

def oRead : AOps := { oMx with dst := 0x40, sb := 0xBF }

theorem witness_MatrixReads : Ready (owning (ctxMx 0x800) 0 0) (ctxMx 0x800) (Instr.mxrdF oRead).form ∧ mxAtype (ctxMx 0x800).mx.stat = 1
    ∧ Ready (owning (ctxMx 0x1000) 0 0) (ctxMx 0x1000) (Instr.mxrdI oRead).form ∧ mxAtype (ctxMx 0x1000).mx.stat = 2
    ∧ Ready (owning (ctxMx 0x1000) 0 0) (ctxMx 0x1000) (Instr.mxrdSc oRead).form ∧ (ctxMx 0x800).mx.queue = []
    ∧ Ready (owning ctxTile 0 0) ctxTile (Instr.mxwrF { oMx with sa := 0x49, sb := 0x8A }).form ∧ mxAtype ctxTile.mx.stat = 0
    ∧ Ready (owning (ctxMx 0x800) 0 0) (ctxMx 0x800) (Instr.mxstF32 { oMxa with kb := 63 }).form
    ∧ mxAtype (ctxMx 0x800).mx.stat ≠ 0 ∧ placeFault 0x1000 (64 * 32 * 32 / 8) = none
    ∧ Ready (owning ctxTile 0 0) ctxTile (Instr.mxwait { oMx with dst := 9, ka := 1 }).form ∧ ctxTile.mx.queue = [] :=
  ⟨ready_own _ _ (by decide) rfl, by decide, ready_own _ _ (by decide) rfl, by decide, ready_own _ _ (by decide) rfl, rfl,
   ready_own _ _ (by decide) rfl, by decide, ready_own _ _ (by decide) rfl, by decide, by decide, ready_own _ _ (by decide) rfl, rfl⟩

/-- Context 2 owns the matrix unit, with one accumulator, and stands YIELDED; 4 context buffers. -/
def claimed : State :=
  { on ctx0 with
    cores := [(0, { Core.fresh with mxOwner := some 2 })], dcb := [(ctxcount, 4)],
    saved := [{ ctx0 with num := 2, mx := { Matrix.fresh with acc := [(2047, 5)] } }] }

theorem witness_MatrixClaims : Ready claimed ctx0 (Instr.mxend oMx).form ∧ mxChain ctx0.mx.stat = false
    ∧ (claimed.core claimed.cur.core).mxOwner = some 2
    ∧ claimed.findAny 2 = some { ctx0 with num := 2, mx := { Matrix.fresh with acc := [(2047, 5)] } }
    ∧ 2 < claimed.dcbField ctxcount 0 17 ∧ (([(2047, 5)] : List (Nat × Nat)).map (·.1)).Nodup
    ∧ ∀ p ∈ ([(2047, 5)] : List (Nat × Nat)), p.1 < 2048 :=
  ⟨ready_at rfl (by decide) (by decide) rfl (by decide) (by decide), by decide, by decide, by rfl, by decide, by decide, by decide⟩

/-- MXCMD to the core that s13's word names: core 1535, the last of a partition of every core. -/
def ctxCmd : Ctx := { ctx0 with regs := ctx0.regs.setS 13 (BitVec.ofNat 64 (2 ^ 32 * 1535 + 0x1000)) }
def oCmd : AOps := { oMx with dst := 10, sa := 11, sb := 12, sc := 13 }

/-- Partition 0 on the whole grid (R380): X1 47, Y1 31. -/
def wholeGrid (c : Ctx) (arr : List MxArrival) : State :=
  { on c with dcb := [(parttab 0 0, BitVec.ofNat 64 (2 ^ 6 * 47 + 2 ^ 17 * 31 + 2 ^ 34 * 2))],
              cores := [(1535, { Core.fresh with arrivals := arr }), (0, { Core.fresh with mxOwner := some 1 })] }
def arrival0 : MxArrival := { ctx := 1, num := 0, part := 0, tenant := 0, lslot := 0, cap := 0, word := 0, arg := 0 }

theorem witness_MatrixCommands : Ready (wholeGrid ctxCmd []) ctxCmd (Instr.mxcmd oCmd).form
    ∧ field (ctxCmd.valC oCmd.sa oCmd.sb oCmd.sc).toNat 32 11 = 1535 ∧ (wholeGrid ctxCmd []).inMesh ctxCmd.part 1535 = true
    ∧ (wholeGrid ctxCmd []).ownOut ctxCmd = false ∧ ((wholeGrid ctxCmd []).core 0).mxOwner = some 1
    ∧ ((wholeGrid ctxCmd []).core 1535).arrivals.length < 4
    ∧ Ready (wholeGrid ctxCmd (List.replicate 4 arrival0)) ctxCmd (Instr.mxcmd oCmd).form
    ∧ 4 ≤ ((wholeGrid ctxCmd (List.replicate 4 arrival0)).core 1535).arrivals.length :=
  ⟨ready_at rfl (by decide) (by decide) rfl (by decide) (by decide), by decide, by decide, by decide,
   by decide, by decide, ready_at rfl (by decide) (by decide) rfl (by decide) (by decide), by decide⟩

/-! ## Witnesses: engines, messages and tasks -/

/-- A copy command whose block is the last 64 bytes of the scratchpad, which s10 names, and a collective of binding 3. -/
def oCopy : EOps := { dst := 9, sa := 10, sb := 0, pred := 0, sc := 0, et := 0, vq := 3, ke := 0, pn := false }
def ctxBlock : Ctx :=
  { ctx0 with regs := ctx0.regs.setS 10 0x1FFC0, gbinds := [none, none, none, some { word := 0, timeout := 1, seq := 65535 }] }

theorem witness_EngineCommands : Ready (on ctxBlock) ctxBlock (Instr.copyG oCopy).form
    ∧ Ready (on ctxBlock) ctxBlock (Instr.collSum { oCopy with et := 4, ke := 3 }).form ∧ (ctxBlock.srcS [] oCopy.sa).toNat % 2 ^ 17 = 0x1FFC0
    ∧ 0x1FFC0 % 64 = 0 ∧ ((ctxBlock.gbinds[3]?).getD none).isSome = true ∧ (ctxBlock.vq 3).cmds.length < 16
    ∧ (ctxBlock.vq 7).cmds.length < 16 ∧ isPort ctxBlock.num = false
    ∧ PlainReady (on ctxBlock) ctxBlock ((on ctxBlock).raceLines ctxBlock.tenant ((List.range 64).map fun j => padOff 0 (0x1FFC0 + j))) :=
  ⟨ready_on (by decide), ready_on (by decide), by decide, by decide, by decide, by decide, by decide, by decide, plainReady_on _ _ rfl (by decide)⟩

theorem witness_EngineCommands_held : (on ctxBlock).heldSeat ctxBlock.tenant ((List.range 64).map fun j => padOff 0 (0x1FFC0 + j))
    = .inl ((List.range 64).map fun j => padOff 0 (0x1FFC0 + j)) := by rfl

theorem witness_Bindings : Ready (on ctx0) ctx0 (Instr.cgrpA { oCopy with dst := 0, vq := 0, ke := 3 }).form
    ∧ field (ctx0.srcS [] 10).toNat 16 11 ≤ field (ctx0.srcS [] 10).toNat 27 11 ∧ field (ctx0.srcS [] 10).toNat 38 12 ≠ 0xFFF
    ∧ Ready (on ctx0) ctx0 (Instr.cgrpF { oCopy with dst := 0, sa := 0, vq := 0, ke := 3 }).form
    ∧ Ready (on ctx0) ctx0 (Instr.qset { oCopy with dst := 0, ke := 1 }).form
    ∧ Ready (on ctx0) ctx0 (Instr.qstat { oCopy with sa := 0, ke := 3 }).form :=
  ⟨ready_on (by decide), by decide, by decide, ready_on (by decide), ready_on (by decide), ready_on (by decide)⟩

/-- SEND to core 1535 of this device; a queue with room, and a full one. -/
def oSend : EOps := { oCopy with dst := 0, sa := 0x42, sb := 9, vq := 0 }
def msg0 : Msg :=
  { net := false, core := 0, word := 0, part := 0, tenant := 0, lslot := some 0, cls := 0, dev := 0, ctx := 1, pc := 0, born := 0,
    seq := 0, data := 0 }
def ctxSend (n : Nat) : Ctx :=
  { ctx0 with regs := ctx0.regs.setS 9 1535, sendq := [List.replicate n msg0, List.replicate n msg0] }

theorem witness_Sends : Ready (on (ctxSend 7)) (ctxSend 7) (Instr.sendRq oSend).form ∧ Ready (on (ctxSend 7)) (ctxSend 7) (Instr.sendRp oSend).form
    ∧ Ready (on (ctxSend 8)) (ctxSend 8) (Instr.sendRq oSend).form
    ∧ field ((ctxSend 7).srcS [0x42] 9).toNat 11 1 = 0 ∧ field ((ctxSend 7).srcS [0x42] 9).toNat 24 40 = 0
    ∧ field ((ctxSend 7).srcS [0x42] 9).toNat 0 11 < Config.cores ∧ (on (ctxSend 7)).wordDev ((ctxSend 7).srcS [0x42] 9) = (on (ctxSend 7)).devNum
    ∧ (on (ctxSend 7)).ownOut (ctxSend 7) = false
    ∧ (((ctxSend 7).sendq[netAt true]?).getD []).length < 8 ∧ 8 ≤ (((ctxSend 8).sendq[netAt false]?).getD []).length :=
  ⟨ready_on (by decide), ready_on (by decide), ready_on (by decide), by decide, by decide, by decide, by decide, by decide, by decide,
   by decide⟩

/-- MBSET with its base in s10 and 16 slots, inside a footprint that ends with the scratchpad; and RECV of a message at HEAD. -/
def oBox : EOps := { oCopy with dst := 0, sb := 11, vq := 0, ke := 4 }
def ctxBox : Ctx := { ctx0 with regs := ctx0.regs.setS 10 0x1FC00, footprint := [(0x1F000, 0x1000)] }
def oRecv : EOps := { oCopy with dst := 0x43, sa := 0, sc := 4, vq := 0 }

/-- Core 0 has a request mailbox of 16 slots with one message, in its last slot. -/
def boxed : State :=
  { on ctx0 with
    cores := [(0, { Core.fresh with mbrq := { base := 0x1FC00, lsl := 4, head := 15, tail := 16, record := 0, ctr := 0, part := 0, owner := some 1 } })] }

theorem witness_Mailboxes : Ready (on ctxBox) ctxBox (Instr.mbsetRq oBox).form ∧ ctxBox.srcS [] oBox.sa ≠ 0
    ∧ field (ctxBox.srcS [] oBox.sa).toNat 0 17 % 64 = 0 ∧ oBox.ke.toNat % 16 ≤ 10
    ∧ ctxBox.covers (field (ctxBox.srcS [] oBox.sa).toNat 0 17) (64 * 2 ^ (oBox.ke.toNat % 16)) = true
    ∧ Ready (on ctx0) ctx0 (Instr.mbsetRp oBox).form ∧ ctx0.srcS [] oBox.sa = 0
    ∧ Ready (on ctx0) ctx0 (Instr.recvRq oRecv).form ∧ ((on ctx0).mailboxOf ctx0 0 false).base = 0
    ∧ Ready boxed ctx0 (Instr.recvRq oRecv).form ∧ (boxed.mailboxOf ctx0 0 false).base ≠ 0 ∧ (boxed.mailboxOf ctx0 0 false).count ≠ 0 :=
  ⟨ready_on (by decide), by decide, by decide, by decide, by decide, ready_on (by decide), by decide, ready_on (by decide), by decide,
   ready_at rfl (by decide) (by decide) rfl (by decide) (by decide), by decide, by decide⟩

theorem witness_Mailboxes_held : boxed.heldSeat ctx0.tenant ((List.range 64).map fun j => padOff 0 (0x1FC00 + 64 * (15 % 2 ^ 4) + j))
    = .inl ((List.range 64).map fun j => padOff 0 (0x1FC00 + 64 * (15 % 2 ^ 4) + j))
    ∧ PlainReady boxed ctx0 (boxed.raceLines ctx0.tenant ((List.range 64).map fun j => padOff 0 (0x1FC00 + 64 * (15 % 2 ^ 4) + j))) :=
  ⟨by rfl, ⟨rfl, rfl⟩, rfl, by decide⟩

/-- DECT of counter 3 of record 1 of the pool at 0x40000, which s10 names. -/
def ctxDect : Ctx := { ctxLive with regs := ctx0.regs.setS 10 (0x40000 + 64 + 8 + 6) }
def oDect : MOps := { oGlobal 4 with dst := 0, sb := 1 }

theorem witness_Decrements : Ready (onLive ctxDect) ctxDect (Instr.dect oDect).form
    ∧ ctxDect.addr oDect 0 = .ga 0x4004E ∧ (onLive ctxDect).testAddr (.ga 0x4004E) 2 = .inr { dev := 0, off := 0x4004E }
    ∧ (onLive ctxDect).counterAt 0 0x4004E = some (1, 3) ∧ (onLive ctxDect).lost 0 = false
    ∧ SyncReady (onLive ctxDect) ctxDect (oDect).ord true [] :=
  ⟨ready_at rfl (by decide) (by decide) rfl (by decide) (by decide), by decide, by rfl, by decide, by decide,
   ⟨rfl, rfl⟩, rfl, rfl, fun _ => by decide, fun _ => ⟨rfl, by decide⟩, fun _ h => absurd h (by simp)⟩

/-- LAUNCH of record 3 of a pool of 4, the last, whose words are given; quota 1 in PARTTAB. -/
def oTask : EOps := { oCopy with vq := 0 }
def ctxTask : Ctx := { ctxLive with regs := ctx0.regs.setS 10 3 }
def launching (rec : Nat) (quota : Nat) (ls : List Launch) : State :=
  { onLive ctxTask with
    dcb := [(parttab 0 1, BitVec.ofNat 64 quota), (parttab 0 2, 0x40000), (parttab 0 3, 4)],
    mem := Memory.writeNat [] (0x40000 + 64 * 3) 64 rec, sched := { Sched.fresh with launches := ls } }
def launch0 : Launch := { slot := 0, part := 0, record := 0, tsrs := [], scanned := false, remaining := 1, faulted := false }

theorem witness_Launches : Ready (launching 0 1 []) ctxTask (Instr.launch oTask).form ∧ (launching 0 1 []).inPool 0 3 = true
    ∧ (launching 0 1 []).launchBad 0 3 ((launching 0 1 []).recBits 0 3) = true
    ∧ (launching (1 + 2 ^ 32 * 2) 1 []).launchBad 0 3 ((launching (1 + 2 ^ 32 * 2) 1 []).recBits 0 3) = false
    ∧ ¬ (launching (1 + 2 ^ 32 * 2) 1 []).lquota 0 ≤ 0 ∧ (launching (1 + 2 ^ 32 * 2) 1 []).freeLaunch = some 0
    ∧ (launching (1 + 2 ^ 32 * 2) 1 [launch0]).launchBad 0 3 ((launching (1 + 2 ^ 32 * 2) 1 [launch0]).recBits 0 3) = false
    ∧ (launching (1 + 2 ^ 32 * 2) 1 [launch0]).lquota 0 ≤ [launch0].length
    ∧ (ctxTask.srcS [] oTask.sa).toNat % 2 ^ 32 = 3 ∧ (launching 0 1 []).ownOut ctxTask = false :=
  ⟨ready_at rfl (by decide) (by decide) rfl (by decide) (by decide), by decide +kernel, by decide +kernel, by decide +kernel,
   by decide +kernel, by decide +kernel, by decide +kernel, by decide +kernel, by decide +kernel, by decide⟩

/-- Port 7 bound, as the last of eight, to a descriptor at 0x40000 of HBM, and port 0 bound to nothing. -/
def ctxPorts : Ctx := { ctx0 with ports := List.replicate 7 (0, 0) ++ [(0x40000, 1)], nin := 4 }
def oPort (p : BitVec 10) : EOps := { oCopy with sa := 0, vq := 0, ke := p }

theorem witness_Ports : Ready (on ctxPorts) ctxPorts (Instr.chwin (oPort 7)).form ∧ ctxPorts.ports[7]? = some (0x40000, 1)
    ∧ Ready (on ctxPorts) ctxPorts (Instr.chstat (oPort 0)).form ∧ ctxPorts.ports[0]? = some (0, 0) ∧ ctx0.ports[7]? = none
    ∧ Ready (launching 0 1 []) ctxTask (Instr.taskrd { oTask with ke := 1 }).form :=
  ⟨ready_on (by decide), rfl, ready_on (by decide), rfl, rfl, ready_at rfl (by decide) (by decide) rfl (by decide) (by decide)⟩

/-! ## Witnesses: the tests of the issue, and faults -/

def oPlain : AOps := { dst := 3, sa := 4, sb := 5, pred := 0, sc := 0, et := 0, ka := 0, kb := 0, pn := false }

/-- A chain of two with nothing in its channel, and one whose successor's channel is full. -/
def ctxChain : Ctx := { ctx0 with chain := [1, 2], csrs := { ctx0.csrs with chainpos := 0x20 } }
def chained (n : Nat) : State :=
  { on ctxChain with seats := [({ core := 0, seat := 1 }, { ctxChain with num := 2, pv := List.replicate n 0 })] }

theorem witness_IssueTests : (Instr.add oPlain).encoded = true ∧ ctx0.decodeItem (Instr.add { oPlain with sc := 1 }).form = some 5
    ∧ ctx0.decodeItem (Instr.add { oPlain with pred := 7 }).form = none ∧ ctx0.predFalse (Instr.add { oPlain with pred := 7 }).form = true
    ∧ ctx0.decodeItem (Instr.add oPlain).form = none ∧ ctx0.predFalse (Instr.add oPlain).form = false
    ∧ (Instr.add oPlain).form.uses 4 = true
    ∧ ctxChain.decodeItem (Instr.add { oPlain with sa := specPv }).form = none
    ∧ ctxChain.pv.length < (Instr.add { oPlain with sa := specPv }).form.pvCount
    ∧ ctxChain.decodeItem (Instr.add { oPlain with dst := specNx }).form = none
    ∧ (Instr.add { oPlain with dst := specNx }).form.nxCount ≠ 0 ∧ (chained 2).nxFull ctxChain = true ∧ (chained 1).nxFull ctxChain = false := by
  decide

theorem witness_AccessFaults : Ready (on ctx0) ctx0 (Instr.ldD { oLast with off := 0x1FF9 }).form
    ∧ ctx0.addrIx { oLast with off := 0x1FF9 } = .la 0x1FFF9 ∧ (0x20000 : Int) < 0x1FFF9 + 8
    ∧ ctx0.addrIx { oLast with off := 0x1FFF, offhi := 0x7FFFFF } = .la (-1)
    ∧ (on ctxHbm).testAddr (ctxHbm.addrIx { oGlobal 0 with off := 1 }) 4 = .inr { dev := 0, off := 0x7FFFFFFFF9 }
    ∧ (on ctxHbm).testAddr (ctxHbm.addrIx { oGlobal 0 with off := 8 }) 4 = .inl 1
    ∧ (on ctxHbm).testAddr (ctxHbm.addrIx { oGlobal 0 with off := 5 }) 4 = .inl 2 ∧ field (2 ^ 57) 57 7 ≠ 0 :=
  ⟨ready_on (by decide), rfl, by decide, by decide +kernel, by decide +kernel, by decide +kernel, by decide +kernel, by decide⟩

/-- Core 1535 is out of service. -/
def lessOne : State := { State.reset with dcb := [(oosmap 23, 0x8000000000000000)] }

theorem witness_Holes : lessOne.inService 1535 = false ∧ windowOf 1535 ≤ windowOf 1535 + Config.padSize - 1
    ∧ lessOne.place lessOne.devNum (windowOf 1535 + Config.padSize - 1) = .hole := by decide

/-- A ring of two reports at 0x80000 for partition 0, empty, and the same with two reports in it. -/
def ringed (tail : Nat) : State :=
  { onLive ctxLive with
    dcb := [(fltring 0 0, BitVec.ofNat 64 (0x80000 + 2 ^ 45)), (fltring 0 1, BitVec.ofNat 64 (2 ^ 16 * tail)), (parttab 0 2, 0x40000),
            (parttab 0 3, 4)] }

theorem witness_FaultReports : (ringed 0).cx = some ctxLive ∧ ctxLive.lateFaults true = [] ∧ ctxLive.chain = [] ∧ ctxLive.order.bundle = none ∧ ctxLive.part < 64
    ∧ (ringed 0).recLive 0 1 = true ∧ (ringed 0).dcbField (fltring 0 0) 0 45 ≠ 0 ∧ (0 + 65536 - 0) % 65536 ≠ 2 ^ 1
    ∧ (ringed 2).dcbField (fltring 0 1) 16 16 = 2 ∧ (2 + 65536 - 0) % 65536 = 2 ^ (ringed 2).dcbField (fltring 0 0) 45 5 :=
  ⟨rfl, by decide, rfl, rfl, by decide, by decide, by decide, by decide, by decide, by decide⟩


/-! ## Witnesses: checks and other devices -/

/-- A descriptor of one granule of 64 KiB at 0x40000 of this device: tenant 0, live, generation 1, permissions R and W (R17 to R19). -/
def descAll : Desc := BitVec.ofNat 256 (0x40000 + 2 ^ 64 * 0x10000 + 2 ^ 140 + 2 ^ 142 + 2 ^ 143 + 2 ^ 148)

/-- CHKR.R s0, s10, 24, s12, 8. -/
def oCheck : AOps := { dst := 0, sa := 10, sb := 0x98, pred := 0, sc := 12, et := 0, ka := 8, kb := 0, pn := false }
def ctxCheck (ga : Nat) : Ctx := { ctx0 with regs := (ctx0.regs.setS 10 (BitVec.ofNat 64 ga)).setS 12 0x100001 }

/-- CHKR covers LD.D with an offset of −24; core 0 holds the descriptor at index 1. -/
def checking (ga : Nat) : State :=
  { onCode (ctxCheck ga) [0, 0xFF4018105850490E, 0xFFFFFE00] with cores := [(0, { Core.fresh with rcache := [(1, descAll)] })] }

theorem witness_RegionChecks : (∀ ga ∈ [0x4FFF8, 0x4FFF9], (checking ga).cx = some (ctxCheck ga)
      ∧ (checking ga).fetchOf 0 1 1 = none ∧ (checking ga).cachedDesc 0 1 = some descAll ∧ hIndex 0x100001 = 1
      ∧ (ctxCheck ga).srcS [oCheck.sa, oCheck.sb] oCheck.sc = 0x100001)
    ∧ ∀ f ∈ [(Instr.chkrR oCheck).form, (Instr.chkrW oCheck).form, (Instr.chkrX oCheck).form], readyHere (ctxCheck 0) f = true := by
  decide +kernel

theorem witness_RegionChecks_passes :
    (checking 0x4FFF8).firstFail (ctxCheck 0x4FFF8) oCheck ((checking 0x4FFF8).coverOf (ctxCheck 0x4FFF8) 0) .read 0x100001 descAll 1 0
      = none
    ∧ ((checking 0x4FFF8).coverOf (ctxCheck 0x4FFF8) 0).target.isSome = true ∧ (ctxCheck 0x4FFF8).order.owed = [] := by decide +kernel

theorem witness_RegionChecks_fails :
    (checking 0x4FFF9).firstFail (ctxCheck 0x4FFF9) oCheck ((checking 0x4FFF9).coverOf (ctxCheck 0x4FFF9) 0) .read 0x100001 descAll 1 0
      = some (6, 0x4FFF9, 8)
    ∧ (checking 0x4FFF8).firstFail (ctxCheck 0x4FFF8) oCheck ((checking 0x4FFF8).coverOf (ctxCheck 0x4FFF8) 0) .execute 0x100001 descAll 1 0
      = some (5, 0x4FFF8, 8) := by decide +kernel

/-- s10 names the last doubleword of device 2047's HBM. -/
def ctxFar (g : Order → Order) : Ctx :=
  { ctx0 with regs := ctx0.regs.setS 10 (BitVec.ofNat 64 (2047 * 2 ^ 45 + 0x7FFFFFFFF8)), order := g ctx0.order }
/-- A machine with that context and a route to device 2047: one link, port 23, which is up. -/
def far (c : Ctx) : State := { on c with dcb := [(routeReg 2047, BitVec.ofNat 64 (23 + 2 ^ 10 + 2 ^ 12)), (linkst 23, 1)] }
def tFar : Tgt := { dev := 2047, off := 0x7FFFFFFFF8 }

theorem witness_RemoteAccesses : readyHere (ctxFar id) (Instr.ldD (oGlobal 0)).form = true ∧ readyHere (ctxFar id) (Instr.stD (oGlobal 0)).form = true
    ∧ (far (ctxFar id)).testAddr ((ctxFar id).addrIx (oGlobal 0)) 8 = .inr tFar ∧ tFar.off % 8 = 0 ∧ tFar.dev ≠ (far (ctxFar id)).devNum
    ∧ (far (ctxFar id)).cachedLine 0 2047 (tFar.off / 64 * 64) = none ∧ (ctxFar id).await = none ∧ (far (ctxFar id)).lost 2047 = false
    ∧ (far (ctxFar id)).unperformed ((ctxFar id).order.outs) = [] ∧ (far (ctxFar id)).acquiring (ctxFar id) = [] ∧ launchArea tFar.off = false := by
  decide +kernel

theorem witness_RemoteAccesses_reply :
    let a : Await :=
      { pc := 0, dev := 2047, group := false, key := 0x7FFFFFFFF8, reply := some (.data (bytesOf 8 7) 0 [] 0), kept := [], hdl := 0,
        gas := [], since := 0 }
    let c := ctxFar fun o => { o with awaits := [a] }
    readyHere c (Instr.ldD (oGlobal 0)).form = true ∧ (c.await.bind (·.reply)) = some (.data (bytesOf 8 7) 0 [] 0)
    ∧ (bytesOf 8 7).length = 8 ∧ c.order.lines.length < Config.regionLines ∧ (bytesOf 64 7).length = 64
    ∧ (far c).isHbm { dev := 2047, off := tFar.off / 64 * 64 } = true ∧ c.order.storedAway (2 ^ 45 * 2047 + tFar.off / 64 * 64) = false := by
  decide +kernel

theorem witness_RemoteAccesses_store :
    let q : StreamSeq := { strm := 0, dev := 2047, next := 65535, window := true, asked := true, since := 0 }
    let c := ctxFar fun o => { o with streams := [q] }
    readyHere c (Instr.stD (oGlobal 0)).form = true ∧ c.order.stream 0 2047 = some q ∧ c.order.conflict = none
    ∧ (far c).testAddr (c.addrIx (oGlobal 0)) 8 = .inr tFar ∧ c.order.outs.length < Config.unackedMax := by decide +kernel

/-! ## Witnesses: steps of the memory system -/

def portReq (off : Nat) (op : MemOp) : MemReq := { origin := .port 15, tenant := 0, off := off, len := 8, op := op }

/-- Partition 3 is resident on core 0. -/
def resident0 : State := { State.reset with cores := [(0, { Core.fresh with resident := some 3 })] }

theorem witness_MemorySteps_ports : PortMay State.reset (portReq 0x7FFFFFFFF8 .load) 15 (tHbm.bytes 8) ∧ 0x7FFFFFFFF8 < State.reset.hbmEnd
    ∧ PortMay resident0 (portReq 0x10000001FFF8 .load) 15 (tLast.bytes 8) ∧ (bankCore 0x10000001FFF8).isSome = true :=
  ⟨⟨rfl, by decide +kernel, by decide +kernel, by decide +kernel, by decide +kernel⟩, by decide +kernel,
   ⟨rfl, by decide +kernel, by decide +kernel, by decide +kernel, by decide +kernel⟩, by decide +kernel⟩

theorem witness_MemorySteps_store : PortMay State.reset (portReq 0x7FFFFFFFF8 (.store ((tHbm.bytes 8).map fun a => (a, 5)) none)) 15 (tHbm.bytes 8)
    ∧ ∀ x ∈ (portReq 0x7FFFFFFFF8 .load).offs, launchArea x = false :=
  ⟨⟨rfl, by decide +kernel, by decide +kernel, by decide +kernel, by decide +kernel⟩, by decide +kernel⟩

theorem witness_MemorySteps_refused : (∃ d, State.reset.heldAll 1 (portReq 0x7FFFFFFFF8 .load).offs = .inr d)
    ∧ (portReq 0x1000000000F8 (.store [(0x1000000000F8, 1)] none)).op ≠ .load ∧ (bankCore 0x1000000000F8).isSome = true
    ∧ ∃ x ∈ (portReq 0x1000000000F8 (.store [(0x1000000000F8, 1)] none)).offs, launchArea x = true :=
  ⟨⟨_, rfl⟩, by decide, by decide, 0x1000000000F8, by decide, by decide⟩

theorem witness_MemorySteps_atomic : PortMay State.reset (portReq 0x7FFFFFFFF8 (.atomic .add 8 1 true)) 15 (tHbm.bytes 8)
    ∧ (0x7FFFFFFFF8 + 8 ≤ State.reset.hbmEnd) :=
  ⟨⟨rfl, by decide +kernel, by decide +kernel, by decide +kernel, by decide +kernel⟩, by decide +kernel⟩

/-- Machine with values in the control block. -/
def dcbOf (l : List (Nat × Word)) : State := { State.reset with dcb := l }

theorem witness_MemorySteps_owners : bit ((dcbOf [(omupcmd, 0x800000000003FFFF)]).dcbGet omupcmd).toNat 63 = true
    ∧ (dcbOf [(omupcmd, 0x800000000003FFFF)]).dcbField omupcmd 0 18 = 262143 ∧ (127 : Nat) < 128 ∧ (262143 : Nat) < 262144 := by decide

/-- The last granule is a marked host buffer. -/
def hosted : State :=
  { State.reset with
    mem := Memory.writeNat [] (2 * 262143) 2 0x3000, control := { Control.fresh with hostBuffers := [262143] } }

theorem witness_MemorySteps_dma : hosted.deaf = false ∧ 0x7FFFFFFFF8 + 8 ≤ hosted.hbmEnd
    ∧ (∀ o, 0x7FFFFFFFF8 ≤ o → o < 0x7FFFFFFFF8 + 8 → hosted.control.hostBuffers.contains (o / 0x200000) = true
        ∧ field (hosted.ownerAt (homeSlice (0x200000 * (o / 0x200000))) (o / 0x200000)) 12 2 = 3)
    ∧ hosted.touchesRecord (tHbm.bytes 8) = false ∧ State.reset.control.hostBuffers.contains (0x7FFFFFFFF8 / 0x200000) = false := by
  refine ⟨by decide, by decide +kernel, fun o h1 h2 => ?_, by decide +kernel, by decide⟩
  have h : o / 0x200000 = 262143 := by omega
  rw [h]
  decide +kernel

theorem witness_RegionSteps_write : dcbPlaced rtbase = true ∧ hasBusy rtbase = false ∧ controlW1c rtbase = [] ∧ rtbase ≠ slicectl
    ∧ rtbase ≠ pwrctl ∧ rtbase ≠ modectl ∧ (∀ v, controlClamp rtbase v = v) ∧ dcbPlaced (routeReg 2047) = true :=
  ⟨by decide, by decide, by decide, by decide, by decide, by decide, fun _ => rfl, by decide⟩

theorem witness_RegionSteps_refused : dcbPlaced 0xB8 = false ∧ hasBusy rupcmd = true
    ∧ bit ((dcbOf [(rupcmd, 0x80000000000FFFFF)]).dcbGet rupcmd).toNat 63 = true ∧ bit (State.reset.dcbGet rupcmd).toNat 63 = false := by decide

/-- Core 0 holds the descriptor of the last index, or fetches it. -/
def updating (f : List Fetch) (p : List Instr) : State :=
  { dcbOf [(rupcmd, 0x80000000000FFFFF)] with cores := [(0, { Core.fresh with rcache := [(0xFFFFF, descAll)], fetches := f })], pend := p }

theorem witness_RegionSteps_update : (updating [] []).dcbField rupcmd 0 20 = 0xFFFFF ∧ (updating [] []).allCmds = [] ∧ (updating [] []).running = []
    ∧ (updating [] []).sched.live = [] ∧ (updating [] []).holdersOf 0xFFFFF = [0] ∧ (updating [] []).updateDone 0xFFFFF = true
    ∧ (updating [] [.regionInvalidation 0 0xFFFFF 0]).updateDone 0xFFFFF = false := by decide +kernel

def fetch0 (inval : Option Nat) : Fetch := { ctx := 1, index := 0xFFFFF, desc := descAll, inval := inval, tries := 2 }

theorem witness_RegionSteps_fetch : fetchFailed (fetch0 (some 2)) = false ∧ dGen descAll = 1 ∧ (fetch0 (some 2)).tries < 3
    ∧ (updating [fetch0 none] []).cores.length = 1 := by decide

theorem witness_RegionSteps_ports : State.reset.testAddr (.ga 0x7FFFFFFFF8) 8 = .inr tHbm ∧ tHbm.off < State.reset.hbmEnd
    ∧ State.reset.testAddr (.ga 0x8000000000) 8 = .inl 1 ∧ (onLive ctxLive).findCtx 1 = some ctxLive := by decide +kernel

/-- Port 15 has a form of its own on its way, and waits for its turn; its own form does not wait. -/
def portedForm : State :=
  { State.reset with control := { Control.fresh with ports := [(15, .form 0x40001090000049C5 [] 0)] } }

theorem witness_RegionSteps_portWaits : portedForm.portWaits 15 (.load 0 8) = true ∧ State.reset.portWaits 15 (.load 0 8) = false
    ∧ portedForm.portWaits 15 (.form 0x40001090000049C5 [] 0) = false := by decide +kernel

/-- A context whose next access is covered by the last region. -/
def ctxCovered : Ctx := { ctx0 with chkr := [0], handle := 0xFFFFF }

theorem witness_RegionSteps_covered : (on ctxCovered).running = [(seat0, ctxCovered)] ∧ ctxCovered.coverOn 0xFFFFF = true
    ∧ ctxCovered.finishing = false := by decide +kernel

/-- A FENCE, which is a form that ports issue, and a NOP, which is none. -/
theorem witness_RegionSteps_forms : (match decodeBits 0x40001090000049C5 with
      | .ok f => portForm f
      | .bad _ => false) = true
    ∧ (match decodeBits 0xF5 with
      | .ok f => !portForm f
      | .bad _ => false) = true
    ∧ look State.reset.control.ports 15 = none := by decide +kernel


/-! ## Witnesses: streams and packets -/

/-- A store of a byte at HBM's last byte from stream `strm` of device 5's context 1. -/
def store5 (strm seq : Nat) : StreamStore :=
  { src := { dev := 5, ctx := 1, strm := strm }, seq := seq, tenant := 0, handle := 0, flagHandle := 0, off := 0x7FFFFFFFFF, len := 1,
    bytes := [(0x7FFFFFFFFF, 9)], flag := none, batch := 0, bundle := none }

/-- The fabric with one window of stream 15 of that source. -/
def windowed (next : Nat) (held : List StreamStore) : State :=
  { State.reset with fabric := { Fabric.fresh with windows := [{ src := (store5 15 0).src, next := next, held := held, grants := 1 }] } }

theorem witness_FabricSteps_stores : State.reset.deaf = false ∧ unordered 16 = true ∧ unordered 15 = false ∧ unordered 0 = true
    ∧ State.reset.heldAll 0 ((store5 15 65535).bytes.map (·.1)) = .inl [0x7FFFFFFFFF] ∧ inControl 0x7FFFFFFFFF = false
    ∧ State.reset.touchesRecord [0x7FFFFFFFFF] = false ∧ ((windowed 65535 []).windowOfSrc (store5 15 0).src).held = []
    ∧ (store5 15 65535).seq = ((windowed 65535 []).windowOfSrc (store5 15 0).src).next
    ∧ (windowed 65535 []).heldWrite 0 [0x7FFFFFFFFF] = .inl [0x7FFFFFFFFF] ∧ State.reset.heldWrite 0 [0x7FFFFFFFFF] = .inl [0x7FFFFFFFFF]
    ∧ (store5 15 65535).batch ≠ 5 ∧ State.reset.fabric.closes = [] := by decide +kernel

theorem witness_FabricSteps_early : let w := (windowed 65535 [store5 15 0]).windowOfSrc (store5 15 0).src
    (store5 15 62).seq ≠ w.next ∧ (∀ x ∈ w.held, x.seq ≠ (store5 15 62).seq) ∧ w.held ≠ [] := by decide +kernel

/-- As many windows granted, to streams of device 6. -/
def granted (n : Nat) : State :=
  { State.reset with
    fabric := { Fabric.fresh with windows := (List.range n).map fun k => { src := { dev := 6, ctx := k, strm := 1 }, next := 0, held := [], grants := 1 } } }

theorem witness_FabricSteps_asks : (∀ n ∈ [1023, 1024], ((granted n).windowOfSrc (store5 15 0).src).grants = 0)
    ∧ (granted 1023).windowsUsed < 1024 ∧ 1024 ≤ (granted 1024).windowsUsed ∧ (granted 1024).fabric.asks = [] := by decide +kernel

def close5 (waiting : List Nat) : Close :=
  { num := 4, tag := 3, peers := 2, waiting := waiting, reasons := 0, errpeers := 0, lost := [], refused := 0, since := 0 }
def ctxClosing (waiting : List Nat) : Ctx := { ctx0 with order := { Order.fresh with closes := [close5 waiting], late := [{ num := 4, dst := 9, writes := true, y0 := true }], lateNum := 5 } }

theorem witness_FabricSteps_closes : (windowed 65535 [store5 15 0]).batchWaits 5 1 0 = true ∧ State.reset.batchWaits 5 1 0 = false
    ∧ (on (ctxClosing [5, 6])).findCtx 1 = some (ctxClosing [5, 6]) ∧ [5, 6].filter (· != 5) ≠ [] ∧ [5].filter (· != 5) = []
    ∧ (on (ctxClosing [5])).findCtx 1 = some (ctxClosing [5]) ∧ (ctxClosing [5]).order.closes = [close5 [5]]
    ∧ (ctxClosing [5]).order.late.find? (fun r => r.num == 4) = some { num := 4, dst := 9, writes := true, y0 := true }
    ∧ (close5 [5]).lost = [] ∧ (9 : Spec) ≠ specNx := by decide +kernel

/-- A chain of two whose first member closes a batch for nx. -/
def ctxClosingNx : Ctx :=
  { ctx0 with
    chain := [1, 2], csrs := { ctx0.csrs with chainpos := 0x20 },
    order := { Order.fresh with closes := [close5 [5]], late := [{ num := 4, dst := specNx, writes := true, y0 := true }], lateNum := 5 } }
def closingNx : State := { on ctxClosingNx with seats := [({ core := 0, seat := 1 }, { ctx0 with num := 2 })] }

theorem witness_FabricSteps_closes_nx : closingNx.findCtx 1 = some ctxClosingNx ∧ ctxClosingNx.nextMember = some 2
    ∧ closingNx.findCtx 2 = some { ctx0 with num := 2 } := by decide +kernel

theorem witness_FabricSteps_grant : (on (ctxFar fun o => { o with streams := [{ strm := 15, dev := 2047, next := 0, window := false, asked := true, since := 0 }] })).findCtx 1
      = some (ctxFar fun o => { o with streams := [{ strm := 15, dev := 2047, next := 0, window := false, asked := true, since := 0 }] })
    ∧ (ctxFar fun o => { o with streams := [{ strm := 15, dev := 2047, next := 0, window := false, asked := true, since := 0 }] }).order.stream 15 2047
      = some { strm := 15, dev := 2047, next := 0, window := false, asked := true, since := 0 } := by decide +kernel

def packet5 (dst tenant hop : Nat) (b : PktBody) : Packet :=
  { src := 5, dst := dst, time := 0, hop := hop, tenant := tenant, lslot := none, cls := 0, tagOk := true, keyGen := 255, body := b }

/-- Confidential mode. -/
def sealed : State := dcbOf [(modectl, 1)]

theorem witness_FabricSteps_packets : Opens State.reset (packet5 0 4095 0 (.close 1 3)) ∧ Opens sealed (packet5 0 4095 0 (.regionEnd 1))
    ∧ sealed.confidential = true ∧ sealed.opensGen 4095 254 = false ∧ (packet5 2047 0 0 (.note 1 0 0 false)).dst ≠ State.reset.devNum :=
  ⟨⟨by decide, rfl, Or.inl (by decide), by decide⟩, ⟨by decide, rfl, Or.inr (by decide +kernel), by decide⟩, by decide, by decide +kernel, by decide +kernel⟩

/-- The region table at 0x1000 holds that descriptor at index 1, whose permissions a store at 0x4FFFF has and one at 0x50000 has not. -/
def tabled : State := { dcbOf [(rtbase, 0x1000), (rtcount, 2)] with mem := Memory.writeNat [] 0x1020 32 (descAll.toNat + 2 ^ 128 * 4095) }
def storeAt (off : Nat) : StreamStore := { store5 15 0 with handle := 0x100001, tenant := 4095, off := off, bytes := [(off, 9)] }

theorem witness_FabricSteps_checked : tabled.checkStore (storeAt 0x4FFFF) = none ∧ tabled.checkStore (storeAt 0x50000) = some 6
    ∧ Opens tabled (packet5 0 0 0 (.store (storeAt 0x4FFFF))) ∧ (storeAt 0x50000).batch ≠ 5 :=
  ⟨by decide +kernel, by decide +kernel, ⟨by decide, rfl, Or.inl (by decide), by decide⟩, by decide⟩

/-- That region is being moved; and a NOTE on its last doubleword, which passes, or on the next, which does not. -/
def tabledMoving : State := { tabled with mem := Memory.writeNat [] 0x1020 32 (descAll.toNat + 2 ^ 128 * 4095 + 2 ^ 140) }

theorem witness_FabricSteps_words : tabledMoving.checkStore (storeAt 0x4FFFF) = some 3
    ∧ (on ctx0).checkWord 0 0 0x4FFF8 = none ∧ tabled.checkWord 4095 0x100001 0x50000 = some 6
    ∧ Opens tabled (packet5 0 4095 0 (.note 1 0x100001 0x50000 false)) :=
  ⟨by decide +kernel, by decide +kernel, by decide +kernel, ⟨by decide, rfl, Or.inl (by decide), by decide⟩⟩

theorem witness_FabricSteps_forward : let s := far ctx0
    3 < s.dcbField (routeReg 2047) 12 3 + 3 ∧ s.dcbField (routeReg 2047) 12 3 + 2 ≤ 3 ∧ s.routePorts 2047 = [23] := by decide +kernel

/-- Two ports lead to device 2047, 23 and 22, and a packet of class 0 or one of class 3 waits for port 23. -/
def twoPorts (is : List Instr) (zeros : Nat) : State :=
  { dcbOf [(routeReg 2047, BitVec.ofNat 64 (23 + 2 ^ 5 * 22 + 2 ^ 10 + 2 ^ 11 + 2 ^ 12)), (linkst 23, 1), (linkst 22, 1)] with
    pend := is, fabric := { Fabric.fresh with zeros := [(23, zeros)] } }

theorem witness_FabricSteps_passing : (twoPorts [] 0).routePorts 2047 = [23, 22] ∧ (twoPorts [] 0).letsPass 23 0 = false
    ∧ (twoPorts [] 0).letsPass 22 0 = false
    ∧ ({ far ctx0 with pend := [.fabricForward (packet5 2047 0 0 (.close 1 3))] } : State).letsPass 23 3 = true
    ∧ ({ far ctx0 with pend := [.fabricForward { packet5 2047 0 0 (.close 1 3) with cls := 3 }],
                       fabric := { Fabric.fresh with zeros := [(23, 15)] } } : State).letsPass 23 0 = true
    ∧ (far ctx0).letsPass 23 0 = false ∧ (far ctx0).routePorts 2047 = [23] := by decide +kernel

/-- A store 64 ahead of its window, and one that is the last of it. -/
theorem witness_FabricSteps_ahead : let w := (windowed 65535 []).windowOfSrc (store5 15 0).src
    64 ≤ ((store5 15 63).seq + 65536 - w.next) % 65536 ∧ ((store5 15 62).seq + 65536 - w.next) % 65536 < 64
    ∧ (windowed 65535 []).fabric.closes = [] := by decide +kernel

/-- A window granted to a context that stalls for it, and to one that does not. -/
def ctxAsks (stall : Option Stall) : Ctx :=
  { ctxFar fun o => { o with streams := [{ strm := 15, dev := 2047, next := 0, window := false, asked := true, since := 0 }] } with stall := stall }

theorem witness_FabricSteps_granted : (far (ctxAsks (some .full))).findCtx 1 = some (ctxAsks (some .full))
    ∧ (far (ctxAsks (some .full))).hasSeat 1 = true ∧ (ctxAsks (some .full)).stall = some .full ∧ (ctxAsks none).stall ≠ some .full
    ∧ (far (ctxAsks none)).lost 2047 = false ∧ (far (ctxAsks none)).ended = [] ∧ (ctxAsks none).num = 1 := by decide +kernel

/-- The answer of a close as a packet, and a close whose answer is ready here. -/
theorem witness_FabricSteps_responses : Opens State.reset (packet5 0 0 0 (.response (.closeReply 1 3 0 0)))
    ∧ ({ State.reset with fabric := { Fabric.fresh with batches := [{ dev := 5, ctx := 1, tag := 3, refused := 2, reasons := 4 }] } } : State).batchWaits 5 1 3
      = false ∧ (∀ w ∈ (ctxFar id).order.awaits, w.pc ≠ BitVec.allOnes 32) ∧ (∀ d ∈ (on (ctxClosing [5])).saved, d.num ≠ 1) :=
  ⟨⟨by decide, rfl, Or.inl (by decide), by decide⟩, by decide +kernel, by decide +kernel, by decide +kernel⟩

/-- What this device sent last. -/
def sentOnly (c : Ctx) (b : PktBody) : State := { far c with sent := [.packet { packet5 2047 0 0 b with src := 0 }] }
def mine0 : StreamStore := { store5 15 65535 with src := { dev := 0, ctx := 1, strm := 15 } }

theorem witness_FabricSteps_acks : ((sentOnly ctx0 (.store mine0)).sentStore 1 15 2047 65535).isSome = true
    ∧ ((sentOnly ctx0 (.load { dev := 0, ctx := 1, seat := seat0 } 0 [(0, 8)] false none)).sentLoad 1 2047 none).isSome = true
    ∧ (sentOnly ctx0 (.store mine0)).lost 2047 = false ∧ (sentOnly ctx0 (.store mine0)).findCtx 1 = some ctx0
    ∧ (sentOnly ctx0 (.store mine0)).ended = [] ∧ ctx0.fault = none
    ∧ (∀ x ∈ (sentOnly ctx0 (.store mine0)).allCtx, x.order.bundle = none)
    ∧ ¬ (∃ x ∈ (ctx0.performed 15 2047 65535).order.outs, x.kind = .store ∧ x.strm = 15 ∧ x.dev = 2047)
    ∧ (∃ x ∈ ((withOrd fun q => { q with outs := [{ outStore with dev := 2047, strm := 15, seq := 0 }] }).performed 15 2047 65535).order.outs,
        x.kind = .store ∧ x.strm = 15 ∧ x.dev = 2047)
    ∧ ((withOrd fun q => { q with streams := [{ strm := 15, dev := 2047, next := 0, window := true, asked := true, since := 0 }] }).performed 15 2047 65535).order.stream
        15 2047 = some { strm := 15, dev := 2047, next := 0, window := true, asked := true, since := 0 } := by decide +kernel

theorem witness_FabricSteps_late : let s := { sentOnly ctx0 (.load { dev := 0, ctx := 1, seat := seat0 } 0 [(0, 8)] false none) with time := 2 ^ 40 }
    ∃ p, s.sentLoad 1 2047 none = some p ∧ s.mayRetry p = false :=
  ⟨_, rfl, by decide⟩

theorem witness_FabricSteps_retry : let s := { dcbOf [(linkctl, 1)] with time := 999, fabric := { Fabric.fresh with
      retries := [{ packet := packet5 2047 0 0 (.note 1 0 0 true), since := 0 }, { packet := packet5 2047 0 0 (.store mine0), since := 0 }] } }
    s.fabric.retries.length = 2 ∧ s.time < 0 + 1000 * s.dcbField linkctl 0 14 ∧ mine0.src.strm < 16
    ∧ 0 + 1000 * s.dcbField linkctl 0 14 ≤ ({ s with time := 1000 } : State).time := by decide +kernel

theorem witness_FabricSteps_split : (on ctx0).farRecords ctx0 = [] ∧ ctx0.order.conflict = none ∧ (on ctx0).hitsOut ctx0 = []
    ∧ ctx0.finishing = false
    ∧ (on ctx0).hitsOut (withOrd fun q => { q with outs := [{ outStore with kind := .hit }] }) ≠ []
    ∧ (withOrd fun o => { o with conflict := some { line := 64, mine := true, party := { dev := 0, ctx := 2, seat := seat0 }, other := true } }).num = 1
    ∧ (on ctx0).farRecords (withOrd fun o => { o with conflict := some { line := 64, mine := true, party := { dev := 0, ctx := 2, seat := seat0 }, other := true } })
      = [] := by decide +kernel

/-! ## Witnesses: the bundle protocol -/

/-- Bundle 1 of device 5, whose only byte is the last of HBM. -/
def prepare5 (ident : Word) : Prepare := { ident := ident, comps := [{ dev := 0, slice := 127 }], bytes := [(0x7FFFFFFFFF, 9)], tenant := 0, ctx := 1 }
def lastLine : Nat := 0x7FFFFFFFC0
def ident5 : Word := 0x100000005

theorem witness_BundleSteps_prepare : identDev ident5 = 5 ∧ (prepare5 ident5).bytes ≠ [] ∧ lastLine % 64 = 0 ∧ lastLine + 64 ≤ State.reset.hbmEnd
    ∧ (∀ b ∈ (prepare5 ident5).bytes, lastLine ≤ b.1 ∧ b.1 < lastLine + 64)
    ∧ ownerAccepts (State.reset.ownerAt (homeSlice lastLine) (lastLine / 0x200000)) 0 = true ∧ State.reset.liveAt lastLine = none
    ∧ State.reset.version lastLine = none ∧ State.reset.tarnUsed (homeSlice lastLine) < 4096 := by decide +kernel

/-- A line with a pending version of that bundle, over a prior one. -/
def version5 : Version :=
  { stamp := { t := 4, d := 5 }, prior := some (List.replicate 64 1, { t := 2, d := 5 }), pending := some (List.replicate 64 2),
    ident := ident5, ptime := 5, comps := [], dev := 5, ctx := 1, finalSeen := false }
def versioned (v : Version) : State := { State.reset with slices := { Slices.fresh with versions := [(lastLine, v)] } }

theorem witness_BundleSteps_pending : (versioned version5).version lastLine = some version5 ∧ version5.ident ≠ 0x200000005
    ∧ (versioned version5).liveAt lastLine = none ∧ (List.replicate 64 (2 : Byte)).length = 64
    ∧ ownerAccepts ((versioned version5).ownerAt (homeSlice lastLine) (lastLine / 0x200000)) 0 = true
    ∧ (versioned version5).pendingLines (homeSlice lastLine) ident5 = [(lastLine, version5)] ∧ (versioned version5).slices.serving = [] := by
  decide +kernel

/-- A context with a bundle of this device that has companions on devices 0 and 5. -/
def bundleMine (st : CloseStage) (waiting : List Comp) : Bundle :=
  { ident := 0x100000000, comps := [{ dev := 0, slice := 127 }, { dev := 5, slice := 0 }], lines := 1, doomed := none, stage := st, waiting := waiting,
    mmax := 0, stamp := if st = .committing then some { t := 9, d := 0 } else none, latelost := false, lost := [], outcome := none, away := [],
    since := 0 }
def ctxBundle (st : CloseStage) (waiting : List Comp) : Ctx := { ctx0 with order := { Order.fresh with bundle := some (bundleMine st waiting) } }
def record0 : BRec := { ident := 0x100000000, state := .undecided, qfloor := 7, reason := 0, waiting := [], since := 0 }
def deciding (st : CloseStage) (waiting : List Comp) : State :=
  { on (ctxBundle st waiting) with slices := { Slices.fresh with records := [record0] } }
def five : Comp := { dev := 5, slice := 0 }

theorem witness_BundleSteps_issuer : (deciding .opened []).findCtx 1 = some (ctxBundle .opened [])
    ∧ (deciding .final [five, { dev := 0, slice := 127 }]).findCtx 1 = some (ctxBundle .final [five, { dev := 0, slice := 127 }])
    ∧ [five, { dev := 0, slice := 127 }].filter (· != five) ≠ [] ∧ [five].filter (· != five) = [] ∧ five ∈ [five]
    ∧ (deciding .final [five]).findCtx 1 = some (ctxBundle .final [five]) ∧ (bundleMine .opened []).doomed = none := by decide +kernel

theorem witness_BundleSteps_decide : (deciding .deciding []).bundleCtx 0x100000000 = some (ctxBundle .deciding [])
    ∧ (deciding .deciding []).findAny 1 = some (ctxBundle .deciding [])
    ∧ (deciding .deciding []).slices.records.find? (fun r => r.ident == 0x100000000) = some record0
    ∧ (bundleMine .deciding []).comps.length = 2
    ∧ (deciding .committing [five]).bundleCtx 0x100000000 = some (ctxBundle .committing [five]) ∧ (deciding .committing [five]).ended = []
    ∧ (bundleMine .committing [five]).stamp = some { t := 9, d := 0 } := by decide +kernel

/-- Slice 127 knows that bundle 1 of device 5 aborted. -/
def knowing : State := { State.reset with slices := { Slices.fresh with fates := [(127, ident5, .aborted)], questions := [{ slice := 127, ident := ident5, t := 3, told := false, asked := five, since := 0 }] } }

theorem witness_BundleSteps_fates : knowing.knownFate 127 ident5 = some .aborted ∧ State.reset.knownFate 127 ident5 = none
    ∧ State.reset.lost (identDev ident5) = false ∧ identDev 0x100000000 = State.reset.devNum
    ∧ (deciding .deciding []).knownFate 127 0x100000000 = none ∧ record0.state = .undecided
    ∧ knowing.pendingLines 127 ident5 = [] ∧ knowing.slices.serving = [] ∧ knowing.slices.orphans = [] ∧ knowing.slices.questions.length = 1 := by decide +kernel

/-- Slice 127 resolves that bundle, with two companions still to answer. -/
def orphan5 : Orphan := { slice := 127, ident := ident5, rest := [five, { dev := 6, slice := 1 }], since := 0 }

theorem witness_BundleSteps_orphan :
    let s : State := { State.reset with slices := { Slices.fresh with orphans := [orphan5] } }
    s.slices.orphans = [orphan5] ∧ s.slices.serving = [] ∧ orphan5.rest.filter (· != five) ≠ [] := by decide +kernel

theorem witness_BundleSteps_groups : State.reset.version lastLine = none ∧ lastLine % 64 = 0
    ∧ (versioned { version5 with pending := none }).version lastLine = some { version5 with pending := none }
    ∧ (List.replicate 64 (1 : Byte)).length = 64 ∧ (2 : Nat) ≤ 3 ∧ (3 : Nat) < version5.stamp.t := by decide +kernel

/-! ## Witnesses: links and peers -/

/-- Port 23 is up and there is a route to device 2047 through it and through port 22. -/
def linked : State :=
  dcbOf [(linkst 23, 1), (linkst 22, 1), (routeReg 2047, BitVec.ofNat 64 (23 + 2 ^ 5 * 22 + 2 ^ 10 + 2 ^ 11 + 2 ^ 12))]

theorem witness_LinkSteps_ports : State.reset.portUp 23 = false ∧ State.reset.trainingFailures 23 < 3
    ∧ ({ State.reset with fabric := { Fabric.fresh with failures := [(23, 3)] } } : State).trainingFailures 23 = 3
    ∧ linked.portUp 23 = true ∧ linked.routeDevs = [2047] ∧ linked.routed 2047 = true ∧ (∃ q ∈ linked.routePorts 2047, q ≠ 23) :=
  ⟨by decide, by decide, by decide, by decide, by decide, by decide, 22, by decide, by decide⟩

theorem witness_LinkSteps_down : let s (n : Nat) : State := { State.reset with time := 1000000001, fabric := { Fabric.fresh with retrains := [(23, n, 0)] } }
    look (s 3).fabric.retrains 23 = some (3, 0) ∧ (s 3).portUp 23 = false ∧ 0 + 1000000000 < (s 3).time
    ∧ look (s 2).fabric.retrains 23 = some (2, 0) := by decide +kernel

/-- Device 5 owes the answer to an outcome told at time 0. -/
def owing (time : Nat) : State :=
  { State.reset with time := time, slices := { Slices.fresh with records := [{ record0 with state := .aborted, waiting := [five] }] } }

theorem witness_LinkSteps_overdue : (owing (2 ^ 40)).overdue 5 = true ∧ (owing 0).overdue 5 = false ∧ 5 ≠ (owing 0).devNum := by decide +kernel

/-- A PEERCMD in progress. -/
def peering (op dev : Nat) : State := { State.reset with dcb := [(peercmd, BitVec.ofNat 64 (2 ^ 63 + 2 ^ 12 * op + dev))] }

theorem witness_LinkSteps_peers : (peering 0 2047).peerBusy 0 = true ∧ (peering 1 2047).peerBusy 1 = true ∧ (peering 2 2047).peerBusy 2 = true
    ∧ (peering 1 2047).peerDev = 2047 ∧ (peering 1 0).peerDev = (peering 1 0).devNum ∧ NothingRuns (peering 0 2047)
    ∧ (peering 1 2047).slices = Slices.fresh ∧ (peering 1 2047).sched.abroad = [] :=
  ⟨by decide, by decide, by decide, by decide, by decide, ⟨⟨rfl, rfl⟩, rfl, rfl⟩, rfl, rfl⟩

theorem witness_LinkSteps_complete :
    let s : State := { peering 2 2047 with control := { Control.fresh with started := [(peercmd, 3)] } }
    look s.control.started peercmd = some 3 ∧ (3 : Word).toNat < 4 := by decide +kernel


/-! ## Witnesses: the scheduler -/

def actor0 : Actor :=
  { entry := 8, s := 8, v := 0, cls := 0, radius := 0, home := 1535, nin := 0, nout := 0, rates := [], footprint := [], tmpl := 0 }

/-- A portable object with one actor, its symbol, and this .text. -/
def file0 (text : List Byte) : PFile :=
  { eclass := 2, edata := 1, osabi := 0, etype := 1, machine := 0x5A17, eentry := 0, eflags := 1,
    sections := [{ name := .text, typ := 1, flags := 6, entsize := 0, data := text },
      { name := .actors, typ := 0x70000002, flags := 0, entsize := 32, data := bytesOf 32 (1 + 2 ^ 64 * 8) }],
    symbols := [{ typ := 0, shndx := 0, value := 0 }, { typ := 14, shndx := 2, value := 0 }], relocs := [], tables := [], caps := [] }

/-- One whose code is END. -/
def objectEnd : PFile := file0 [0xE9, 0, 0, 0, 0, 0, 0, 0]
def image5 (binds : List (BitVec 32)) : Image :=
  { id := 5, code := { Code.none with image := 5, igen := 1, base := 0x10000, len := 64, binds := binds }, actors := [actor0], constBase := 0,
    tenant := 7, hash := 0, object := objectEnd, grants := [] }

/-- The bits of a record that runs actor 0 of image 5 with HOME 1535, in a state, with a class and a chain length, and its argument
block at 0x7000. -/
def recordBits (st cls chain : Nat) : Nat :=
  2 ^ 16 * 5 + 2 ^ 32 + 2 ^ 56 * st + 2 ^ 192 * 0x7000 + 2 ^ 256 * 1535 + 2 ^ 274 * cls + 2 ^ 276 * chain

/-- Partition 63 of tenant 7 over the whole grid, its slice running, with image 5 listed, a pool of four at 0x40000, context numbers 0 to 2,
and its records 1, 2, … live with these bits. -/
def staged (recs : List Nat) : State :=
  { State.reset with
    dcb := [(parttab 63 0, BitVec.ofNat 64 (2 ^ 6 * 47 + 2 ^ 17 * 31 + 2 ^ 22 * 7 + 2 ^ 35 + 2 ^ 36)), (parttab 63 2, 0x40000), (parttab 63 3, 4),
            (itbase, 0x10000), (ctxcount, 3), (rtbase, 0x1000), (rtcount, 2)],
    mem := recs.zipIdx.foldl (fun m x => m.writeNat (0x40040 + 64 * x.2) 64 x.1)
      ((Memory.writeNat [] 0x10050 16 (1 + 2 ^ 12 + 2 ^ 14)).writeNat 0x1020 32 (descAll.toNat + 2 ^ 140)),
    sched := { Sched.fresh with images := [image5 []], live := recs.zipIdx.map fun x => (63, x.2 + 1) },
    control := { Control.fresh with slots := [(63, 1)] } }

/-- The scratchpads of some cores resident for it. -/
def residents (cores : List Nat) (s : State) : State := { s with cores := cores.map fun k => (k, { Core.fresh with resident := some 63 }) }

/-- A line of which no version is kept has none pending. -/
theorem unbundled_of_none {s : State} {p idx : Nat} (h : s.version (s.recAddr p idx / 64 * 64) = none) : s.unbundled p idx :=
  fun v hv => by rw [h] at hv; cases hv

theorem witness_SchedulerSteps_counters : (staged [recordBits 1 0 1]).recLive 63 1 = true ∧ (staged [recordBits 1 0 1]).recChn 63 1 = false
    ∧ (staged [recordBits 1 0 1]).recState 63 1 = 1 ∧ State.reset.recLive 63 1 = false
    ∧ (staged [recordBits 1 0 1 + 2 ^ 284]).recChn 63 1 = true ∧ (staged [recordBits 1 0 1]).unbundled 63 1
    ∧ (staged [recordBits 1 0 1]).allCtx ++ (staged [recordBits 1 0 1]).ended = [] ∧ State.reset.allCtx ++ State.reset.ended = [] :=
  ⟨by decide +kernel, by decide +kernel, by decide +kernel, by decide +kernel, by decide +kernel, unbundled_of_none (by decide +kernel),
   by decide +kernel, by decide +kernel⟩

/-- A context whose DECT by 32767 of counter 3 of record 1 has not been applied. -/
def dectOut : Out :=
  { dev := 0, strm := 65, seq := dectSeq 63 1 3 32767, batch := 4, bundled := false, kind := .dect, sync := true, acq := false, bytes := [],
    hdls := [], pc := 0, born := 0, sent := 0 }
def ctxOwes : Ctx := { ctx0 with order := { Order.fresh with outs := [dectOut] } }

theorem witness_SchedulerSteps_dect : let s : State := { staged [recordBits 1 0 1] with cur := seat0, cx := some ctxOwes }
    s.allCtx = [ctxOwes] ∧ s.ended = [] ∧ ctxOwes.order.bundle = none ∧ ctxOwes.order.outs = [dectOut] ∧ dectOut.dev = s.devNum
    ∧ dectOut.acq = false ∧ .dectApply 63 1 3 32767 ∉ s.pend ∧ s.recLive 63 1 = true ∧ s.recChn 63 1 = false := by decide +kernel

theorem witness_SchedulerSteps_go : MayGo (residents [1535] (staged [recordBits 2 0 1])) 63 1
    ∧ (residents [1535] (staged [recordBits 2 0 1])).recChain 63 1 = 1
    ∧ ((residents [1535] (staged [recordBits 2 0 1])).findCore 63 1).map (·.1) = some 1535 :=
  ⟨⟨by decide +kernel, by decide +kernel, by decide +kernel, by decide +kernel⟩, by decide +kernel, by decide +kernel⟩

theorem witness_SchedulerSteps_queues : MayGo (staged [recordBits 2 0 1]) 63 1 ∧ (staged [recordBits 2 0 1]).findCore 63 1 = none :=
  ⟨⟨by decide +kernel, by decide +kernel, by decide +kernel, by decide +kernel⟩, by decide +kernel⟩

theorem witness_SchedulerSteps_held :
    let s := { staged [recordBits 2 0 1] with sched := { (staged [recordBits 2 0 1]).sched with images := [image5 [0x100001]] } }
    s.isReady 63 1 = true ∧ s.queued 63 1 = false ∧ s.starting 63 1 = false ∧ s.dispatchFaultOf 63 1 = none ∧ s.bindsIn 63 1 2 = true := by
  decide +kernel

/-- A READY record whose image binds the region of index 1, which is being moved. -/
def turning : State :=
  let s := staged [recordBits 2 0 1]
  { s with dcb := (rupcmd, 0x8000000000000001) :: s.dcb, sched := { s.sched with images := [image5 [0x100001]] } }

theorem witness_RegionSteps_held : bit (turning.dcbGet rupcmd).toNat 63 = true ∧ turning.dcbField rupcmd 0 20 = 1 ∧ turning.allCmds = []
    ∧ turning.running = [] ∧ turning.sched.live = [(63, 1)] ∧ turning.recState 63 1 = 2 ∧ dState (turning.descAt 1) = 2
    ∧ (∃ h ∈ turning.recBinds 63 1, h ≠ 0 ∧ hIndex h = 1) ∧ Apart (turning.dcbField rtbase 0 45 + 32 * 1) 32 (turning.recAddr 63 1) 64 :=
  ⟨by decide +kernel, by decide +kernel, by decide +kernel, by decide +kernel, by decide +kernel, by decide +kernel, by decide +kernel,
   ⟨0x100001, by decide +kernel, by decide, by decide⟩, Or.inl (by decide +kernel)⟩

def task0 (idx cls : Nat) : QTask := { part := 63, record := idx, cls := cls, weight := 0, stage := false }

/-- Core 1535's dispatch point with a queue. -/
def pointed (q : List QTask) (zeros : Nat) (s : State) : State :=
  { s with sched := { s.sched with points := [(95, { DispatchPoint.fresh with queue := q, zeros := zeros })] } }

theorem witness_SchedulerSteps_notes : (∀ n ∈ [14, 15],
    let s := pointed [task0 1 1, task0 2 0] n (residents [1535] (staged [recordBits 2 1 1, recordBits 2 0 1]))
    (s.point 95).zeros = n ∧ s.fitsNote 1535 (task0 1 1) = true ∧ s.fitsNote 1535 (task0 2 0) = true ∧ s.recState 63 1 = 2 ∧ s.recState 63 2 = 2
    ∧ s.recChain 63 1 = 1 ∧ s.recChain 63 2 = 1 ∧ s.dispatchFaultOf 63 1 = none ∧ s.dispatchFaultOf 63 2 = none)
    ∧ (pointed [task0 1 3] 0 (residents [1535] (staged [recordBits 2 3 1]))).fitsNote 1535 (task0 1 3) = true := by decide +kernel

/-- Its chain of two fits on the first two cores of cluster 95's snake. -/
def chainBits : Nat := recordBits 2 0 2 + 2 ^ 267 * 127

theorem witness_SchedulerSteps_chain : MayGo (residents [coreAt 44 28, coreAt 45 28] (staged [chainBits])) 63 1
    ∧ (residents [coreAt 44 28, coreAt 45 28] (staged [chainBits])).recChain 63 1 = 2
    ∧ (residents [coreAt 44 28, coreAt 45 28] (staged [chainBits])).findRun 63 1 = some [coreAt 44 28, coreAt 45 28] :=
  ⟨⟨by decide +kernel, by decide +kernel, by decide +kernel, by decide +kernel⟩, by decide +kernel, by decide +kernel⟩

/-- A firing of class 3 on core 1535, and a record of class 0 that has waited 10 µs. -/
def victim : Ctx := { Ctx.fresh 1 { core := 1535, seat := 3 } with part := 63, cls := 3, record := 2 }
def displacing : State :=
  let s := pointed [task0 1 0] 0 (residents [1535] (staged [recordBits 2 0 1]))
  { s with seats := [({ core := 1535, seat := 3 }, victim)], time := 10000, sched := { s.sched with ready := [(63, 1, 0)] } }

theorem witness_SchedulerSteps_displacement : displacing.isReady 63 1 = true ∧ displacing.recClass 63 1 = 0 ∧ displacing.queued 63 1 = true
    ∧ displacing.scheduled 63 = true ∧ (63, 1, 0) ∈ displacing.sched.ready ∧ 0 + displacing.displaceAfter ≤ displacing.time
    ∧ displacing.control.pfail = false ∧ displacing.sched.displacing = [] ∧ victim.fault = none
    ∧ victimOf (displacing.displaceable 63 1) = some ({ core := 1535, seat := 3 }, victim)
    ∧ displacing.ctxAt { core := 1535, seat := 3 } = some victim ∧ victim.finishing = false := by decide +kernel

theorem witness_SchedulerSteps_start : let s := residents [1535] (staged [recordBits 2 0 1])
    s.image (s.recImage 63 1) (s.recIgen 63 1) = some (image5 []) ∧ s.recActor 63 1 = some actor0
    ∧ s.seatsHold 63 1 [{ core := 1535, seat := 3 }] = true ∧ s.freeCtxs 1 = [0] ∧ s.recAddr 63 1 + 64 ≤ Config.hbmSize
    ∧ s.mayDispatch 63 1 = true ∧ s.keptCtx 63 1 0 = none ∧ s.saved = [] := by decide +kernel

theorem witness_SchedulerSteps_waits : let s := staged [recordBits 3 0 1]
    s.recLive 63 1 = true ∧ s.recState 63 1 = 3 ∧ 0x7FFFFFFFF8 + 8 ≤ s.hbmEnd
    ∧ ownerAccepts (s.ownerAt (homeSlice 0x7FFFFFFFF8) (0x7FFFFFFFF8 / 0x200000)) (s.partTenant 63) = false
    ∧ s.slices.waiters = [] ∧ s.unbundled 63 1 :=
  ⟨by decide +kernel, by decide +kernel, by decide +kernel, by decide +kernel, by decide +kernel, unbundled_of_none (by decide +kernel)⟩

/-- Granule 262143 is tenant 7's. -/
def owned7 (s : State) : State := { s with dcb := (ombase, 0x200000) :: s.dcb, mem := s.mem.writeNat (0x200000 + 2 * 262143) 2 0x1007 }

theorem witness_SchedulerSteps_parks : let s := owned7 (staged [recordBits 3 0 1])
    ownerAccepts (s.ownerAt (homeSlice 0x7FFFFFFFF8) (0x7FFFFFFFF8 / 0x200000)) (s.partTenant 63) = true
    ∧ s.recLive 63 1 = true ∧ s.recState 63 1 = 3 ∧ s.mem.readNat 0x7FFFFFFFF8 8 = 0 := by decide +kernel

def waiter0 (val : Word) (overflow : Bool) : Waiter := { dev := 0, off := 0x7FFFFFFFF8, part := 63, record := 1, val := val, overflow := overflow }

theorem witness_SchedulerSteps_wakes : ∀ v ∈ [(0, false), (0, true), (1, false)],
    let s : State := { staged [recordBits 5 0 1] with slices := { Slices.fresh with waiters := [waiter0 (BitVec.ofNat 64 v.1) v.2] } }
    s.recLive 63 1 = true ∧ s.recState 63 1 = 5 ∧ (s.slices.waiters.all fun w => w.dev == s.devNum) = true
    ∧ s.mem.readNat 0x7FFFFFFFF8 8 = 0 := by decide +kernel

def stalled : Ctx := { ctx0 with stall := some (.chain true 0), chainStall := some (0, true, 0), cycles := 65536 }

theorem witness_SchedulerSteps_stall : (stalled.faultAt = 0) ∧ (on stalled).ctxAt seat0 = some stalled ∧ (on stalled).findCtx 1 = some stalled ∧ 0 + 65536 ≤ stalled.cycles
    ∧ stalled.chainStall = some (stalled.pc, true, 0) ∧ stalled.fault = none ∧ ({ stalled with cycles := 65535 } : Ctx).cycles < 0 + 65536 := by
  decide +kernel

/-! ## Witnesses: launches -/

/-- A launch of record 1 of partition 63, whose DONEGA is the last doubleword of HBM. -/
def launchBits (first count : Nat) : Nat := first + 2 ^ 32 * count + 2 ^ 192 * 0x7FFFFFFFF8
def launch63 (first : Nat) (scanned : Bool) (n : Nat) : Launch :=
  { slot := 4095, part := 63, record := BitVec.ofNat 512 (launchBits first 1), tsrs := [], scanned := scanned, remaining := n, faulted := false }
def launched (l : Launch) (pend : List Instr) : State :=
  let s := staged [recordBits 0 0 1]
  { s with sched := { s.sched with launches := [l], live := [] }, pend := pend }

theorem witness_LaunchSteps_scan : OneLaunch (launched (launch63 0 false 1) []) (launch63 0 false 1)
    ∧ (∃ i ∈ (launch63 0 false 1).records, (launched (launch63 0 false 1) []).recordBad 63 i = true)
    ∧ (launch63 1 false 1).records = [1] ∧ (launched (launch63 1 false 1) []).recordBad 63 1 = false
    ∧ (launched (launch63 1 false 1) []).control.pfail = false
    ∧ ({ launched (launch63 1 false 1) [] with control := { Control.fresh with pfail := true } } : State).control.pfail = true
    ∧ (launched (launch63 1 false 1) []).portsOf 63 1 = [] ∧ (launched (launch63 1 false 1) []).recChn 63 1 = false
    ∧ tsrBad 0 = true :=
  ⟨⟨rfl, by decide +kernel⟩, ⟨0, by decide +kernel, by decide +kernel⟩, by decide +kernel, by decide +kernel, by decide +kernel, rfl, by decide +kernel,
   by decide +kernel, by decide +kernel⟩

theorem witness_LaunchSteps_complete : OneLaunch (launched (launch63 1 true 0) []) (launch63 1 true 0)
    ∧ (launched (launch63 1 true 0) []).launchBusy (launch63 1 true 0) = false
    ∧ (launched (launch63 1 true 0) [.dectApply 63 1 0 1]).launchBusy (launch63 1 true 0) = true :=
  ⟨⟨rfl, by decide +kernel⟩, by decide +kernel, by decide +kernel⟩

/-- Launch record 3 of that partition lists record 1, or lists itself; its quota is one launch. -/
def posted (first : Nat) (ls : List Launch) : State :=
  let s := staged [recordBits 0 0 1, 0, launchBits first 1]
  { s with dcb := (parttab 63 1, 1) :: s.dcb, sched := { s.sched with launches := ls } }

theorem witness_LaunchSteps_host : State.reset.partLive 63 = false ∧ (posted 1 []).partLive 63 = true ∧ (posted 1 []).inPool 63 4 = false
    ∧ (posted 1 []).inPool 63 3 = true ∧ (posted 3 []).launchBad 63 3 ((posted 3 []).recBits 63 3) = true
    ∧ (posted 1 []).launchBad 63 3 ((posted 1 []).recBits 63 3) = false ∧ (posted 1 []).lquota 63 = 1
    ∧ (posted 1 [launch63 1 true 1]).lquota 63 ≤ ([launch63 1 true 1].filter fun l => l.part == 63).length := by decide +kernel

theorem witness_LaunchSteps_images : let s := { staged [recordBits 1 0 1] with dcb := [(parttab 63 2, 0x40000), (imgcmd, BitVec.ofNat 64 (2 ^ 63 + 5 + 2 ^ 16 + 2 ^ 28 * 4095))] }
    bit (s.dcbGet imgcmd).toNat 63 = true ∧ s.sched.live = [(63, 1)] ∧ s.recImage 63 1 = s.dcbField imgcmd 0 16
    ∧ s.recIgen 63 1 = s.dcbField imgcmd 16 12 ∧ s.dcbField imgcmd 28 12 = 4095 ∧ s.unbundled 63 1 :=
  ⟨by decide +kernel, by decide +kernel, by decide +kernel, by decide +kernel, by decide +kernel, unbundled_of_none (by decide +kernel)⟩

/-- A request to load an object as image 5 of tenant 4095, with its code region bound. -/
def request0 (file : Option PFile) (binds : List PBind) : PObject := { file := file, image := 5, tenant := 4095, binds := binds, nonces := [] }
def bindCode : PBind := { ref := 0, handle := 0x100001, base := 0x40000, foldAsked := false }

/-- The last generation of image 5 is listed. -/
def lastGen : State := { dcbOf [(itbase, 0x10000)] with mem := Memory.writeNat [] 0x10050 16 (2 ^ 12 * 0xFFF + 0xFFF) }

theorem witness_LaunchSteps_objects : State.reset.objectOf (request0 none []) = none
    ∧ (staged []).objectOf (request0 none []) = some objectEnd ∧ objectEnd.portable = true
    ∧ ({ objectEnd with etype := 2 } : PFile).portable = false
    ∧ State.reset.rejection (objectEnd.read [] 5 4095) = none ∧ State.reset.listGen 5 ≠ 0xFFF
    ∧ State.reset.rejection ((file0 [0xE9, 0, 0, 0]).read [] 5 4095) = some (2, 0)
    ∧ tabled.rejection (objectEnd.read [bindCode] 5 4095) = none ∧ ((objectEnd.read [bindCode] 5 4095).bindOf 0).isSome = true
    ∧ (objectEnd.read [bindCode] 5 4095).bindOf 1 = none ∧ (objectEnd.read [bindCode] 5 4095).bindOf 2 = none
    ∧ lastGen.rejection (objectEnd.read [] 5 4095) = none ∧ lastGen.listGen 5 = 0xFFF := by decide +kernel


/-! ## Witnesses: engines -/

/-- The block of a copy or collective of `len` (R326), with handles and a status record's LA. -/
def blockOf (dga sga hdl len stla : Nat) : BitVec 512 :=
  BitVec.ofNat 512 (dga + 2 ^ 64 * sga + 2 ^ 128 * hdl + 2 ^ 160 * hdl + 2 ^ 192 * len + 2 ^ 288 * stla)
def land64 : Land := { src := [(0, 64)], lit := [], dst := 0, len := 64, kind := .elems }
def padTop : Nat := padOff 0 0x1FFC0
def command (op : BitVec 9) (b : BitVec 512) (ph : CmdPhase) (src : Nat) (lands : List Land) : Cmd :=
  { num := 1, op := op, block := b, et := 10, ke := 0, pattern := 0, indexLa := 0, rank := 0, rm := 0, pc := 0, bind := 0, timeout := 10, inst := 0,
    phase := ph, src := src, dst := padTop, srcHdl := 0, dstHdl := 0, srcBase := 0, dstBase := 0, lands := lands, dests := [], asked := false, fetched := false, acks := 0, done := 0,
    status := 0, flags := 0, arrived := 0, missing := [], stop := none, born := 0, times := [] }
def ctxQueue (qi : Nat) (k : Cmd) : Ctx :=
  { ctx0 with footprint := [(0x1F000, 0x1000)], queues := ctx0.queues.set qi { VQ.fresh with issued := 1, credit := 1, cmds := [k] } }
def copying : Cmd := command 0x140 (blockOf padTop 0x7FFFFFFFC0 0 64 0x1FFB0) .active 0x7FFFFFFFC0 [land64]

theorem witness_EngineSteps_landing :
    (on (ctxQueue 0 copying)).landers 0 0x1FFC0 64 = [(ctxQueue 0 copying, 0, copying, land64)]
    ∧ (on (ctxQueue 0 copying)).sourceBytes (ctxQueue 0 copying) copying land64 = .inl (List.replicate 64 0) ∧ copying.swla = 0
    ∧ (on (ctxQueue 0 copying)).heldEngine (ctxQueue 0 copying) ((List.range 64).map fun i => padOff 0 (0x1FFC0 + i))
      = .inl ((List.range 64).map fun i => padOff 0 (0x1FFC0 + i))
    ∧ (on (ctxQueue 0 copying)).landers 1 0x1FFC0 64 = [] := by decide +kernel

/-- A copy within the own scratchpad, which is accepted, and one whose source lies outside the footprint, which is not. -/
def issuedCopy (sla : Nat) : Cmd := command 0x140 (blockOf padTop (padOff 0 sla) 0 64 0x1FFB0) .issued 0 []

theorem witness_EngineSteps_accept : let c := ctxQueue 3 (issuedCopy 0x1F000)
    (on c).findCtx 1 = some c ∧ (c.vq 3).cmd 1 = some (issuedCopy 0x1F000) ∧ (on c).mayMove c 3 = true
    ∧ (match (on c).acceptCopy c (issuedCopy 0x1F000) with
      | .inr p => p.lands == [land64] && p.reads
      | .inl _ => false) = true
    ∧ (match (on c).acceptCopy c (issuedCopy 0x1EFFF) with
      | .inl r => r == (6, 0)
      | .inr _ => false) = true := by decide +kernel

/-- A broadcast rooted here, index 0, within the region of index 1. -/
def issuedColl : Cmd := command 0x14B (blockOf 0x40000 0x4FFC0 0x100001 16 0x1FFB0) .issued 0 []

def collecting : State := { on (ctxQueue 7 issuedColl) with dcb := [(rtbase, 0x1000), (rtcount, 2)], mem := Memory.writeNat [] 0x1020 32 descAll.toNat }

theorem witness_EngineSteps_collective : collecting.findCtx 1 = some (ctxQueue 7 issuedColl) ∧ ((ctxQueue 7 issuedColl).vq 7).cmd 1 = some issuedColl
    ∧ collecting.acceptColl (ctxQueue 7 issuedColl) issuedColl = none := by decide +kernel

/-- An accepted copy whose source is on device 5. -/
def farCopy : Cmd := command 0x140 (blockOf padTop (5 * 2 ^ 45) 0 64 0) .accepted (5 * 2 ^ 45) [land64]

theorem witness_EngineSteps_start : let c := ctxQueue 3 farCopy
    (on c).queuesAt .copy 0 = [(c, 0), (c, 1), (c, 2), (c, 3)] ∧ (c.vq 3).head = some farCopy ∧ (∀ j < 4, j ≠ 3 → (c.vq j).cmds = []) ∧ (on c).mayMove c 3 = true
    ∧ activeAt [(c, 3)] < 8 ∧ 0 < (c.vq 3).credit ∧ (on c).lostSides farCopy = []
    ∧ (gaPlace farCopy.src 0).dev ≠ (on c).devNum ∧ farCopy.lands.flatMap farCopy.srcOffs ≠ [] := by decide +kernel

def doneCopy : Cmd := { copying with lands := [], done := 64 }

theorem witness_EngineSteps_complete : let c := ctxQueue 3 doneCopy
    (on c).findCtx 1 = some c ∧ (c.vq 3).cmd 1 = some doneCopy ∧ doneCopy.stla = 0x1FFB0 ∧ doneCopy.stop = none ∧ c.seatAt.core < 1536
    ∧ ((on c).core c.seatAt.core).resident = none := by decide +kernel

def part0 (dev root nm1 : Nat) : Contribution :=
  { tenant := 0, group := 1, seq := 0, index := 0, nm1 := nm1, rootDev := root, form := 0x14B, et := 10, len := 1, nanign := false, rm := 0,
    data := [0, 0, 0, 0], dev := dev, ctx := 1, vq := 3, num := 1, timeout := 10, keyGen := 0 }
def slotted (t : Nat) : State :=
  { State.reset with
    fabric := { Fabric.fresh with slots := [{ tenant := 0, group := 1, seq := 0, parts := [part0 0 0 1], deadline := 10000, mismatch := false }] }, time := t }

theorem witness_EngineSteps_parts : State.reset.confidential = false ∧ State.reset.deaf = false ∧ (part0 0 0 1).rootDev = State.reset.devNum
    ∧ (part0 5 0 1).nm1 = 1 ∧ (part0 0 0 0).nm1 = 0 ∧ (part0 0 5 1).rootDev ≠ State.reset.devNum
    ∧ (slotted 10000).fabric.slots.length = 1 ∧ (10000 : Nat) ≤ (slotted 10000).time ∧ (slotted 9999).time < 10000 := by decide +kernel

def waitingColl : Cmd := { issuedColl with phase := .active, asked := true }

theorem witness_EngineSteps_result : (on (ctxQueue 7 waitingColl)).findCtx 1 = some (ctxQueue 7 waitingColl)
    ∧ ((ctxQueue 7 waitingColl).vq 7).cmd 1 = some waitingColl ∧ waitingColl.rootDev = State.reset.devNum := by decide +kernel

/-! ## Witnesses: messages and the matrix unit -/

/-- A message from device 5 for core 1535, whose ring's last slot comes next. -/
def msg5 (tenant : Nat) : Msg := { net := true, core := 1535, word := 0, part := 0, tenant := tenant, lslot := none, cls := 3, dev := 5, ctx := 1, pc := 0, born := 0, seq := 1, data := 3 }
def boxed63 : State :=
  let s := staged [recordBits 1 0 1]
  { s with
    cores := [(1535, { Core.fresh with resident := some 63, mbrp := { base := 0x1FC00, lsl := 4, head := 65535, tail := 65535, record := 1, ctr := 0, part := 63, owner := none } })],
    fabric := { Fabric.fresh with msgs := [msg5 7] } }

theorem witness_MessageAndMatrixSteps_land : boxed63.nextMsg true 1535 = some (msg5 7) ∧ (msg5 7).dev ≠ boxed63.devNum ∧ boxed63.msgPart (msg5 7) = some 63
    ∧ boxed63.purged (msg5 7) = false ∧ boxed63.fabric.spilled = [] ∧ boxed63.inMesh 63 1535 = true ∧ boxed63.scheduled 63 = true ∧ 0x1FC00 + 64 * 2 ^ 4 ≤ 0x20000
    ∧ boxed63.nextMsg false 1535 = none := by decide +kernel

theorem witness_MessageAndMatrixSteps_drop : let s : State := { State.reset with fabric := { Fabric.fresh with msgs := [msg5 7] } }
    s.nextMsg true 1535 = some (msg5 7) ∧ s.msgPart (msg5 7) = none ∧ (msg5 7).dev ≠ s.devNum ∧ s.purged (msg5 7) = false ∧ (msg5 7).part < 64 := by
  decide +kernel

/-- The same where the partition was formed without that core. -/
theorem witness_MessageAndMatrixSteps_outside :
    let s : State := { boxed63 with control := { boxed63.control with members := [(63, 0)] } }
    s.nextMsg true 1535 = some (msg5 7) ∧ s.msgPart (msg5 7) = some 63 ∧ s.inMesh 63 1535 = false ∧ s.purged (msg5 7) = false := by decide +kernel

/-- A queued matrix command. -/
def queuedMx (op : BitVec 9) (start : Option Nat) : MxCmd :=
  { op := op, la := 0x1000, hdr := BitVec.ofNat 128 (headLo 0 0 64 + 2 ^ 64 * headHi 0 0), wla := 0, whdr := BitVec.ofNat 128 (headLo 0 0 64 + 2 ^ 64 * headHi 0 0),
    wsparse := false, rm := 0, row := 31, vec := 5, zp := 0, eo := 0, row0 := 0, nrow := 0, atype := 1, asc := 0, chain := false, seq := false, start := start,
    step := 0, awaited := false, pc := 0, born := 0 }

/-- MXZERO as a command word (R318), a capability for core 1535 and tenant 0 with every right, and a context there that owns the unit. -/
def capAll : Word := BitVec.ofNat 64 (511 + 2 ^ 22 * 15 + 2 ^ 40)
def capNone : Word := BitVec.ofNat 64 (511 + 2 ^ 40)
def ctxArrives (cap : Word) (n : Nat) : Ctx :=
  { Ctx.fresh 1 { core := 1535, seat := 0 } with
    csrs := { Csrs.fresh with mxcap := cap },
    mx := { Matrix.fresh with queue := List.replicate n (queuedMx 0x102 none) } }
def arrives (c : Option Ctx) (word : Word) : State :=
  { State.reset with
    cur := { core := 1535, seat := 0 }, cx := c,
    cores := [(1535, { Core.fresh with mxOwner := c.map (·.num), arrivals := [{ ctx := 2, num := 4, part := 0, tenant := 0, lslot := 0, cap := capAll, word := word, arg := 0 }] })] }

theorem witness_MessageAndMatrixSteps_arrivals : (arrives none 0x409).mxRunning 1535 = none
    ∧ (arrives (some (ctxArrives 0 0)) 0x409).mxRunning 1535 = some (ctxArrives 0 0)
    ∧ (arrives (some (ctxArrives capAll 8)) 0x409).mxRunning 1535 = some (ctxArrives capAll 8)
    ∧ (mxWord 0x409).map (·.1) = some 0x102 ∧ mxWord 0xF5 = none ∧ field capAll.toNat 0 10 = 1535 % 1024 ∧ field capAll.toNat 10 12 = 0
    ∧ bit capAll.toNat (22 + rightOf 0x102) = true ∧ bit capNone.toNat (22 + rightOf 0x102) = false
    ∧ (arrives (some (ctxArrives capNone 0)) 0x409).mxRunning 1535 = some (ctxArrives capNone 0) ∧ 8 ≤ (ctxArrives capAll 8).mx.queue.length
    ∧ (∀ n ∈ [0, 7], (arrives (some (ctxArrives capAll n)) 0x409).mxRunning 1535 = some (ctxArrives capAll n)
      ∧ (arrives (some (ctxArrives capAll n)) 0x409).findCtx 1 = some (ctxArrives capAll n) ∧ (ctxArrives capAll n).mx.queue.length < 8) := by
  decide +kernel

theorem witness_MessageAndMatrixSteps_reply : (on (ctxClosing [5])).findCtx 1 = some (ctxClosing [5]) ∧ (ctxClosing [5]).nextMember = none
    ∧ (ctxClosing [5]).order.late.find? (fun x => x.num == 4) = some { num := 4, dst := 9, writes := true, y0 := true }
    ∧ (on (ctxClosing [5])).saved = [] ∧ (∃ d ∈ ({ State.reset with saved := [ctxClosing [5]] } : State).saved, d.num = 1)
    ∧ ({ State.reset with saved := [ctxClosing [5]] } : State).findCtx 1 = some (ctxClosing [5]) := by
  decide +kernel

def sequencing (op : BitVec 9) (start : Option Nat) : Ctx := { ctx0 with mx := { Matrix.fresh with stat := 0x800, queue := [queuedMx op start] } }
def unitOf (c : Ctx) : State := { on c with cores := [(0, { Core.fresh with mxOwner := some 1, weights := List.replicate 64 1 })] }

theorem witness_MessageAndMatrixSteps_sequencer : (∀ op ∈ [0x102, 0x103, 0x113, 0x114, 0x115, 0x11C, 0x11F, 0x120, 0x107],
      (unitOf (sequencing op none)).mxRunning 0 = some (sequencing op none)
      ∧ (unitOf (sequencing op none)).findCtx 1 = some (sequencing op none))
    ∧ isMac 0x107 = true ∧ (queuedMx 0x107 none).chain = false ∧ (queuedMx 0x113 none).row < 64 ∧ ((unitOf (sequencing 0x107 none)).core 0).weights ≠ []
    ∧ ((sequencing 0x11F none).mx.acc.map (·.1)).Nodup ∧ (∀ p ∈ (sequencing 0x11F none).mx.acc, p.1 < 2048 ∧ p.2 < 2 ^ 32)
    ∧ (unitOf (sequencing 0x107 (some 0))).mxRunning 0 = some (sequencing 0x107 (some 0))
    ∧ (queuedMx 0x107 (some 0)).step < hKlen (queuedMx 0x107 (some 0)).hdr / macSpan (macForm 0x107) false := by decide +kernel

/-- Two chained products that may be taken in either order, and the first step of one with sparse weights. -/
def product : MxCmd := { queuedMx 0x107 none with chain := true }
def unordered : Ctx := { ctx0 with mx := { Matrix.fresh with stat := 0x800, queue := [product, product] } }
def sparseOne : Ctx := { ctx0 with mx := { Matrix.fresh with stat := 0x800, queue := [{ queuedMx 0x107 (some 0) with wsparse := true }] } }

theorem witness_MessageAndMatrixSteps_pick : (unitOf unordered).mxRunning 0 = some unordered ∧ (unitOf unordered).findCtx 1 = some unordered
    ∧ [product, product][1]? = some product ∧ (∀ x ∈ [product, product].take 2, isMac x.op = true ∧ x.chain = true ∧ x.seq = false)
    ∧ 1 < hKlen product.hdr / macSpan (macForm product.op) product.wsparse := by decide +kernel

theorem witness_MessageAndMatrixSteps_sparse : (unitOf sparseOne).mxRunning 0 = some sparseOne ∧ (unitOf sparseOne).findCtx 1 = some sparseOne
    ∧ 0 < hKlen (queuedMx 0x107 none).hdr / macSpan (macForm 0x107) true
    ∧ badUnit (queuedMx 0x107 none).whdr (List.replicate 64 1) 0 (macSpan (macForm 0x107) true) ≠ none := by decide +kernel

theorem witness_MessageAndMatrixSteps_answers : (on (ctxCalls [(0, none)])).findCtx 1 = some (ctxCalls [(0, none)])
    ∧ (on { ctx0 with stall := some (.time 1) }).ctxAt seat0 = some { ctx0 with stall := some (.time 1) } ∧ State.reset.time < 1 := by decide +kernel


/-! ## Witnesses: preemption -/

def ctxPhase (ph : Phase) (traps : List (Nat × Nat)) : Ctx := { ctx0 with phase := ph, code := { ctx0.code with traps := traps } }

theorem witness_PreemptionSteps_quiesce : (on (ctxPhase .quiesce [(0, 0x40)])).ctxAt seat0 = some (ctxPhase .quiesce [(0, 0x40)])
    ∧ (ctxPhase .quiesce [(0, 0x40)]).copying = false ∧ (ctxPhase .quiesce [(0, 0x40)]).handler 0 = some 0x40
    ∧ (ctxPhase .quiesce []).handler 0 = none ∧ (ctxPhase .quiesce []).inYield = false ∧ (ctxPhase .quiesce []).finishing = false
    ∧ ({ ctxQueue 0 { copying with acks := 1 } with phase := .quiesce } : Ctx).copying = true := by decide +kernel

theorem witness_PreemptionSteps_budget : let c := { ctxPhase .handler [] with csrs := { Csrs.fresh with tcause := 0x40000 }, budgetEnd := 8192 }
    (on c).ctxAt seat0 = some c ∧ c.inYield = true ∧ c.cycles < c.budgetEnd ∧ (on { c with cycles := 8192 }).ctxAt seat0 = some { c with cycles := 8192 }
    ∧ c.budgetEnd ≤ ({ c with cycles := 8192 } : Ctx).cycles := by decide +kernel

/-- A context that leaves its seat, and one that has left it, of a partition that is scheduled on its core. -/
def leaving : Ctx := { Ctx.fresh 1 { core := 1535, seat := 3 } with part := 63, record := 1, phase := .saving, csrs := { Csrs.fresh with tenantid := 7 } }
def savedCtx (traps : List (Nat × Nat)) : Ctx := { leaving with phase := .yielded, code := { Code.none with traps := traps } }
def resuming (traps : List (Nat × Nat)) : State := { residents [1535] (staged [recordBits 4 0 1]) with saved := [savedCtx traps] }

theorem witness_PreemptionSteps_saves : let s : State := { staged [recordBits 3 0 1] with cur := { core := 1535, seat := 3 }, cx := some leaving }
    s.ctxAt { core := 1535, seat := 3 } = some leaving ∧ leaving.copying = false ∧ leaving.inYield = false ∧ leaving.chain = []
    ∧ s.recLive 63 1 = true := by decide +kernel

theorem witness_PreemptionSteps_resumes : ∀ traps ∈ [[], [(1, 0x40)]],
    (resuming traps).findCtx 1 = some (savedCtx traps) ∧ (resuming traps).recState 63 1 = 4 ∧ (resuming traps).recLive 63 1 = true
    ∧ (resuming traps).queued 63 1 = false ∧ (resuming traps).resumeHolds 63 1 [{ core := 1535, seat := 3 }] = true
    ∧ (savedCtx traps).forced = false ∧ (savedCtx traps).clobbered = false ∧ (savedCtx traps).inTrap = false
    ∧ (resuming traps).codeOf (savedCtx traps) = (savedCtx traps).code ∧ (savedCtx traps).code.binds = []
    ∧ (savedCtx traps).handler 1 = (traps.head?.map (·.2)) ∧ (∀ q ∈ (savedCtx traps).queues, q.cmds = []) ∧ (savedCtx traps).sendq = [[], []]
    ∧ (resuming traps).sched.launches = [] ∧ (resuming traps).buffered (savedCtx traps) = true
    ∧ (savedCtx traps).mx.queue = [] ∧ (savedCtx traps).order.heldLost = [] := by decide +kernel

def flt0 : Flt := { code := 18, sub := 2, val := 1, aux1 := 0, aux2 := 0, pc := 8, detail := 0 }

theorem witness_PreemptionSteps_fault : (on { ctx0 with fault := some flt0, retires := 33 }).findCtx 1 = some { ctx0 with fault := some flt0, retires := 33 }
    ∧ ({ ctx0 with fault := some flt0 } : Ctx).finishing = false ∧ isPort 1 = false ∧ isPort 0x10000F = true
    ∧ ({ State.reset with saved := [{ ctx0 with num := 0x10000F, fault := some flt0 }] } : State).findCtx 0x10000F
      = some { ctx0 with num := 0x10000F, fault := some flt0 } := by decide +kernel

/-- Two partitions over the whole grid that take turns, 63 now and 62 in slice 1; a context of 63. -/
def turns (resident : Nat) (time : Nat) : State :=
  let s := staged [recordBits 3 0 1]
  { s with
    dcb := (parttab 62 0, BitVec.ofNat 64 (2 ^ 6 * 47 + 2 ^ 17 * 31 + 2 ^ 22 * 6 + 2 ^ 35 + 2 ^ 37)) :: (parttab 62 5, 0x1000000000) :: (parttab 63 5, 0x2000000000) :: s.dcb,
    control := { s.control with slots := [(63, 1), (62, 2)], sliceNow := BitVec.ofNat 64 (1000 + 2 ^ 24) }, time := time,
    cores := [(1535, { Core.fresh with resident := some resident })] }

def ctx63 : Ctx := { Ctx.fresh 1 seat0 with part := 63, record := 1 }

theorem witness_PreemptionSteps_boundary : (turns 63 1000000).boundaryDue = some (BitVec.ofNat 64 (1000 + 2 ^ 24), 1) ∧ (turns 63 1000000).deaf = false
    ∧ (turns 63 1000000).running = []
    ∧ ((turns 63 1000000).enterSlice (BitVec.ofNat 64 (1000 + 2 ^ 24)) 1).scheduled 63 = false
    ∧ ((turns 63 1000000).enterSlice (BitVec.ofNat 64 (1000 + 2 ^ 24)) 1).scheduledAt 1535 = some 62 ∧ (turns 63 1000000).scheduled 62 = false
    ∧ ({ turns 63 1000000 with cx := some ctx63 } : State).running = [(seat0, ctx63)] ∧ ctx63.phase = .running := by decide +kernel

theorem witness_PreemptionSteps_swap : (turns 62 0).mem.wf = true ∧ (turns 62 0).scheduledAt 1535 = some 63 ∧ (turns 62 0).inService 1535 = true
    ∧ (turns 62 0).coreIdle 1535 = true ∧ ((turns 62 0).core 1535).resident = some 62
    ∧ Apart (padOff 1535 0) 0x20000 ((turns 62 0).swapImage 63 1535) 0x20000 ∧ Apart (padOff 1535 0) 0x20000 ((turns 62 0).swapImage 62 1535) 0x20000
    ∧ Apart ((turns 62 0).swapImage 63 1535) 0x20000 ((turns 62 0).swapImage 62 1535) 0x20000 := by
  refine ⟨by decide +kernel, by decide +kernel, by decide +kernel, by decide +kernel, by decide +kernel, Or.inr ?_, Or.inr ?_, Or.inr ?_⟩ <;>
    decide +kernel

theorem witness_PreemptionSteps_slicectl : (∀ n ∈ [100, 100000], field (BitVec.ofNat 64 n : Word).toNat 0 24 = n ∧ field (BitVec.ofNat 64 n : Word).toNat 27 37 = 0)
    ∧ State.reset.dcbField slicectl 27 37 = 0 := by decide +kernel

/-! ## Witnesses: kills and partitions -/

/-- A kill of tenant 7 in progress. -/
def killing (c : Option Ctx) (live : List (Nat × Nat)) : State :=
  let s := staged [recordBits 2 0 1]
  { s with dcb := (killcmd, BitVec.ofNat 64 (2 ^ 63 + 7)) :: s.dcb, cx := c, sched := { s.sched with live := live } }
def ctxTenant : Ctx := { ctx63 with csrs := { Csrs.fresh with tenantid := 7 } }

theorem witness_KillAndPartitionSteps_kills : bit ((killing none []).dcbGet killcmd).toNat 63 = true ∧ (killing none []).control.purges = []
    ∧ (killing (some ctxTenant) []).running = [(seat0, ctxTenant)] ∧ ctxTenant.inScope 7 none = true ∧ ctxTenant.order.bundle = none
    ∧ (killing none [(63, 1)]).partTenant 63 = (killing none [(63, 1)]).dcbField killcmd 0 12 ∧ (killing none [(63, 1)]).dcbField killcmd 12 1 = 0
    ∧ NothingRuns (killing none [(63, 1)]) :=
  ⟨by decide +kernel, rfl, by decide +kernel, by decide +kernel, rfl, by decide +kernel, by decide +kernel, ⟨⟨rfl, rfl⟩, rfl, rfl⟩⟩

def purging (cores : List Nat) (clock : Nat) : State :=
  { State.reset with
    control := { Control.fresh with
      purges := [{ tenant := 7, slot := none, cores := cores, release := none, start := 0, clock := 0, contexts := 65535, packets := 65536 }] }, clock := clock }

theorem witness_KillAndPartitionSteps_windows : (purging [1535] 4096).control.purges.length = 1 ∧ [1535].filter (· != 1535) = [] ∧ 0 + 4096 ≤ (purging [1535] 4096).clock
    ∧ (purging [1535] 4095).clock < 0 + 4096 ∧ ((purging [] 4096).control.purges.all fun d => d.cores.isEmpty && d.release.isNone) = true := by decide +kernel

/-- A PARTCMD on partition 63. -/
def commanding (op : Nat) (word : Nat) : State :=
  { State.reset with dcb := [(partcmd, BitVec.ofNat 64 (2 ^ 63 + 2 ^ 6 * op + 63)), (parttab 63 0, BitVec.ofNat 64 word), (parttab 63 5, 0x2000000000)] }

theorem witness_KillAndPartitionSteps_commands : (commanding 0 (2 ^ 6 * 47 + 2 ^ 17 * 31 + 2 ^ 22 * 7 + 2 ^ 36)).partBusy 0 = true
    ∧ (commanding 0 (2 ^ 6 * 47 + 2 ^ 17 * 31 + 2 ^ 22 * 7 + 2 ^ 36)).cmdPart = 63
    ∧ (commanding 1 0).partBusy 1 = true ∧ (commanding 1 0).partLive 63 = false ∧ (commanding 1 (2 ^ 35)).partLive 63 = true
    ∧ NothingRuns (commanding 1 (2 ^ 35)) ∧ (commanding 2 0).partBusy 2 = true :=
  ⟨by decide, by decide, by decide, by decide, by decide, ⟨⟨rfl, rfl⟩, rfl, rfl⟩, by decide⟩

theorem witness_KillAndPartitionSteps_complete : ∀ op < 3,
    let s : State := { commanding op (2 ^ 34) with control := { Control.fresh with started := [(partcmd, 0)] } }
    look s.control.started partcmd = some 0 ∧ s.cmdPart = 63 ∧ s.dcbField partcmd 6 2 = op ∧ s.control.purges = [] := by decide +kernel

/-! ## Witnesses: security -/

/-- A rotation of the keys of world 7 whose next generation is installed. -/
def rotating (next : Bool) : State :=
  { dcbOf [(keycmd, 0x8000000000000007)] with
    control := { Control.fresh with started := [(keycmd, 7)], resetting := true, keys := [{ tenant := 7, gen := 0, phase := ofBool next }] } }

theorem witness_SecuritySteps_modes : bit ((dcbOf [(modectl, 0x8000000000000002)]).dcbGet modectl).toNat 63 = true
    ∧ (dcbOf [(modectl, 0x8000000000000002)]).control.resetting = false ∧ (dcbOf [(modectl, 0x8000000000000002)]).control.pfail = false
    ∧ bit ((dcbOf [(keycmd, 0x8000000000000FFF)]).dcbGet keycmd).toNat 63 = true ∧ look State.reset.control.started keycmd = none
    ∧ (∀ next, look (rotating next).control.started keycmd = some 7 ∧ (rotating next).nextInstalled 7 = next)
    ∧ bit ((rotating true).dcbGet keycmd).toNat 63 = true ∧ (rotating true).control.resetting = true := by decide +kernel

theorem witness_SecuritySteps_attestation : (staged []).partLive 63 = true ∧ (staged []).deaf = false ∧ State.reset.partLive 63 = false := by decide +kernel

/-- The region of index 1 of tenant 7, whose granule the owner map gives that tenant. -/
def worked : State :=
  let s := staged []
  { s with
    dcb := (ombase, 0x200000) :: s.dcb,
    mem := (Memory.writeNat [] 0x1020 32 (descAll.toNat + 2 ^ 128 * 7)).writeNat 0x200000 2 0x1007 }
def work (w : Option (List Byte)) : WorkReq := { port := 1, pair := 9, verb := .rdma, part := 63, handle := 0x100001, off := 0xFFF8, write := w, len := 8 }
def workBytes : List Nat := (List.range 8).map (0x4FFF8 + ·)

theorem witness_SecuritySteps_work : WorkMay worked (work none) 8 workBytes ∧ WorkMay worked (work (some (bytesOf 8 5))) 8 workBytes
    ∧ (bytesOf 8 5).length = 8 :=
  ⟨⟨by decide +kernel, by decide +kernel, by decide +kernel, by decide +kernel, by decide +kernel⟩,
   ⟨by decide +kernel, by decide +kernel, by decide +kernel, by decide +kernel, by decide +kernel⟩, by decide⟩

/-- A SEND of the same bytes, a receive request that takes it, and a machine that holds that. -/
def sending (w : Option (List Byte)) : WorkReq := { work w with verb := .send }
def receiving : WorkReq := { work none with verb := .receive }
def listening : State := { worked with control := { worked.control with receives := [receiving] } }

theorem witness_SecuritySteps_queues : WorkMay worked (sending none) 8 workBytes ∧ worked.partLive 63 = true ∧ receiving.port < 2
    ∧ listening.control.receives = [receiving] ∧ receiving.pair = (sending none).pair ∧ (bytesOf 8 5).length ≤ receiving.len
    ∧ WorkMay listening { receiving with write := some (bytesOf 8 5) } 8 workBytes ∧ listening.deaf = false ∧ listening.confidential = false
    ∧ (2 : Nat) ≤ ({ work none with port := 2 } : WorkReq).port :=
  ⟨⟨by decide +kernel, by decide +kernel, by decide +kernel, by decide +kernel, by decide +kernel⟩, by decide +kernel, by decide, rfl, rfl, by decide,
   ⟨by decide +kernel, by decide +kernel, by decide +kernel, by decide +kernel, by decide +kernel⟩, by decide +kernel, by decide +kernel, by decide⟩

theorem witness_SecuritySteps_packets : sealed.confidential = true ∧ sealed.opensGen 7 255 = true ∧ sealed.opensGen 7 254 = false ∧ sealed.deaf = false
    ∧ State.reset.confidential = false := by decide +kernel

/-! ## Witnesses: power and failure -/

theorem witness_PowerAndFailureSteps_power : State.reset.control.power.pins < 8 ∧ State.reset.control.power.i3c < 8 ∧ (7 : Byte).toNat < 8
    ∧ 8 ≤ (8 : Byte).toNat ∧ (let s : State := { State.reset with time := 1000001 }
      s.control.power.sampled + 10000 ≤ s.time ∧ s.control.pfail = false ∧ s.levelNow = 0 ∧ (3600 : Nat) < 3601
      ∧ s.control.power.since + 1000000 < s.time) ∧ State.reset.time < State.reset.control.power.sampled + 10000 := by decide +kernel

theorem witness_PowerAndFailureSteps_fails : (on (ctxBundle .opened [])).control.pfail = false ∧ (on (ctxBundle .opened [])).pend = []
    ∧ (on (ctxBundle .opened [])).seats = [] ∧ (ctxBundle .opened []).fault = none ∧ (ctxBundle .opened []).inYield = false
    ∧ (ctxBundle .opened []).order.owed = [] ∧ (ctxBundle .opened []).order.bundle = some (bundleMine .opened [])
    ∧ ({ on ctx0 with control := { Control.fresh with pfail := true } } : State).control.drained = false := by decide +kernel

/-- A flash image with the last byte of core 1535's scratchpad, of partition 63. -/
def image0 (conf : Bool) : FlashImage :=
  { ctxs := [], pads := [(padOff 1535 0x1FFFF, 1)], resident := [(1535, 63)], boxes := [], weights := [], tarns := [], conf := conf }

theorem witness_PowerAndFailureSteps_restore : let s : State := { staged [] with dcb := (parttab 63 3, 0) :: (staged []).dcb, control := { (staged []).control with flash := some (image0 false) } }
    s.control.flash = some (image0 false) ∧ s.deaf = false ∧ (image0 false).conf = s.confidential ∧ (image0 true).conf ≠ s.confidential
    ∧ s.partLive 63 = true ∧ s.poolCnt 63 = 0 ∧ s.mem.wf = true ∧ (image0 false).pads.wf = true := by decide +kernel

theorem witness_PowerAndFailureSteps_errors : State.reset.inService 1535 = true ∧ (on ctx0).findCtx 1 = some ctx0 ∧ State.reset.running = []
    ∧ State.reset.control.removing = [] ∧ bit ((dcbOf [(rowflush, 0x8000000000000000)]).dcbGet rowflush).toNat 63 = true
    ∧ (dcbOf [(errthr, 1)]).dcbField errthr 0 16 = 1 := by decide +kernel

/-! ## Witnesses: the step -/


/-- The step of ADD s3, s4, s5 at the program counter: its bytes decode to a well-formed instruction. -/
theorem witness_StepRunsDecoded_decodes : let s := onCode ctx0 [0x28201801]
    s.agenda = [] ∧ s.pend = [] ∧ s.control.drained = false ∧ s.cx = some ctx0 ∧ ctx0.phase = .running ∧ ctx0.fault = none ∧ ctx0.coverLost = false
    ∧ ctx0.repActive = false ∧ ctx0.pc.toNat % 4 = 0
    ∧ ctx0.pc.toNat + lengthOfLen ((s.codeBits ctx0 ctx0.pc.toNat).extractLsb' 0 2) ≤ ctx0.code.len
    ∧ (Instr.add oPlain).form ≠ .event ∧ decodeAt ctx0.pc.toNat (s.codeBits ctx0 ctx0.pc.toNat) = .ok (Instr.add oPlain).form
    ∧ s.confidential = false := by decide +kernel

/-- A step of a machine whose memory is in its canonical form gives a next state. -/
theorem witness_MemoryForm : Memory.wf (onCode ctx0 [0x28201801]).mem = true
    ∧ (match step (onCode ctx0 [0x28201801]) with
      | .next _ => true
      | _ => false) = true := by decide +kernel

/-- Every word of the decode tests is that of a well-formed instruction with an encoding of its own. -/
theorem witness_RoundTrip : (Instr.add oPlain).encoded = true ∧ (Instr.add oPlain).wellFormed = true := by decide

/-! ## Single steps -/

/-! ## Single steps, with results worked out from the rules -/

/-- The context that an instruction leaves. -/
def after (i : Instr) (s : State) : Option Ctx := match exec i s with
  | .next t => t.cx
  | _ => none

/-- s4, s5 and s6 set. -/
def ctxS (a b c : Word) : Ctx := { ctx0 with regs := ((ctx0.regs.setS 4 a).setS 5 b).setS 6 c }

/-- What an instruction leaves in s3. -/
def s3 (i : Instr) (a b c : Word) : Option Word := (after i (on (ctxS a b c))).map fun d => d.regs.getS 3

/-- s3 from s4, s5 and s6. -/
def aS : AOps := { dst := 3, sa := 4, sb := 5, pred := 0, sc := 0, et := 0, ka := 0, kb := 0, pn := false }

/-- R235: sums wrap. -/
theorem test_add_wraps : s3 (.add aS) 0xFFFFFFFFFFFFFFFF 1 0 = some 0 := by decide +kernel
/-- R234: SB 0xFF is −1. -/
theorem test_add_immediate : s3 (.add { aS with sb := 0xFF }) 0 7 0 = some 0xFFFFFFFFFFFFFFFF := by decide +kernel
/-- R182: a scalar result is written to y0 as well, and s0 takes none. -/
theorem test_result_y0 : (after (.sub { aS with dst := 0 }) (on (ctxS 3 5 0))).map (fun d => (d.regs.y0, d.regs.getS 0))
    = some (0xFFFFFFFFFFFFFFFE, 0) := by decide +kernel
/-- R235: −1 × −1 has the high half 0 signed and 2^64 − 2 unsigned. -/
theorem test_mulh : s3 (.mulhS aS) 0xFFFFFFFFFFFFFFFF 0xFFFFFFFFFFFFFFFF 0 = some 0
    ∧ s3 (.mulhU aS) 0xFFFFFFFFFFFFFFFF 0xFFFFFFFFFFFFFFFF 0 = some 0xFFFFFFFFFFFFFFFE := by decide +kernel
/-- R236's examples: −7 by 2, and 7 by 0. -/
theorem test_division : s3 (.divS aS) 0xFFFFFFFFFFFFFFF9 2 0 = some 0xFFFFFFFFFFFFFFFD
    ∧ s3 (.remS aS) 0xFFFFFFFFFFFFFFF9 2 0 = some 0xFFFFFFFFFFFFFFFF ∧ s3 (.divU aS) 7 0 0 = some 0xFFFFFFFFFFFFFFFF
    ∧ s3 (.remU aS) 7 0 0 = some 7 := by decide +kernel
/-- R236: −2^63 by −1. -/
theorem test_division_overflow : s3 (.divS aS) 0x8000000000000000 0xFFFFFFFFFFFFFFFF 0 = some 0x8000000000000000
    ∧ s3 (.remS aS) 0x8000000000000000 0xFFFFFFFFFFFFFFFF 0 = some 0 := by decide +kernel
/-- R235: a shift takes its count modulo 64. -/
theorem test_shift_count : s3 (.shl aS) 1 65 0 = some 2 ∧ s3 (.shrA aS) 0x8000000000000000 63 0 = some 0xFFFFFFFFFFFFFFFF := by decide +kernel
/-- R237's examples: the fields that run past bit 63. -/
theorem test_fields : s3 (.extU { aS with kb := 8 }) 0xF000000000000000 60 0 = some 0xF
    ∧ s3 (.extS { aS with kb := 8 }) 0xF000000000000000 60 0 = some 0xFFFFFFFFFFFFFFFF
    ∧ s3 (.ins { aS with sc := 6, kb := 8 }) 0 0xFF 60 = some 0xF000000000000000 := by decide +kernel
/-- R237: with b > c, CLAMP gives c. -/
theorem test_clamp : s3 (.clampS { aS with sc := 6 }) 0 5 3 = some 3 := by decide +kernel
/-- R238: every bit of the mask, and no y0. -/
theorem test_compare : (after (.cmpLt { aS with dst := 1 }) (on (ctxS 0xFFFFFFFFFFFFFFFF 0 0))).map (fun d => (d.regs.getM 1, d.regs.y0))
    = some (BitVec.allOnes 128, 0) := by decide +kernel
/-- R245: BR counts words from its own address. -/
theorem test_branch_back : (after (.br { dst := 0, sa := 0, sb := 0, pred := 0, off := 0xFFFFFE, pn := false }) (on { ctx0 with pc := 0x20 })).map (·.pc)
    = some 0x18 := by decide +kernel
/-- R245: CALLI reads SA before it writes the link. -/
theorem test_call_link : (after (.calli { dst := 4, sa := 4, sb := 0, pred := 0, off := 0, pn := false }) (on (ctxS 0x40 0 0))).map
    (fun d => (d.pc, d.regs.getS 4)) = some (0x40, 8) := by decide +kernel
/-- R245: a LOOP whose counter reaches 0 falls through. -/
theorem test_loop_ends : (after (.loop { dst := 3, sa := 4, sb := 0, pred := 0, off := 4, pn := false }) (on (ctxS 1 0 0))).map
    (fun d => (d.pc, d.regs.getS 3)) = some (8, 0) := by decide +kernel
/-- R184: a false predicate leaves the register. -/
theorem test_predicate : (after (.add { aS with pred := 7 }) (on (ctxS 1 2 0))).map (fun d => (d.pc, d.regs.getS 3)) = some (8, 0) := by
  decide +kernel

/-- A byte 0x80 at LA 0x1000 of core 0. -/
def padByte (c : Ctx) : State := { on c with mem := [(padOff 0 0x1000, 0x80)] }
def mS : MOps :=
  { len := 1, dst := 3, sa := 0, sb := 0, pred := 0, strm := 0, scope := 0, ord := 0, batch := 0, bnd := false, grp := false, off := 0xFF8,
    flag := 0, fl := false, offhi := 0, disp := 0 }

/-- R258: LD.BS extends the sign, LD.B does not; an index of 8 is added to the offset 0xFF8. -/
theorem test_load_signs : (after (.ldBs { mS with sb := 4 }) (padByte (ctxS 8 0 0))).map (fun d => d.regs.getS 3) = some 0xFFFFFFFFFFFFFF80
    ∧ (after (.ldB { mS with sb := 4 }) (padByte (ctxS 8 0 0))).map (fun d => d.regs.getS 3) = some 0x80 := by decide +kernel
/-- R2, R49: a store puts its least significant byte at the lowest address. -/
theorem test_store_order : (match exec (.stW { mS with dst := 4 }) (on (ctxS 0x11223344 0 0)) with
    | .next t => (t.mem.get (padOff 0 0xFF8), t.mem.get (padOff 0 0xFFB), t.mem.get (padOff 0 0xFFC))
    | _ => (0, 0, 0)) = (0x44, 0x11, 0) := by decide +kernel
/-- R263: an atomic add returns the old word, zero-extended. -/
theorem test_atomic_add : (match exec (.aaddW { mS with sb := 5, off := 0xFFC }) { on (ctxS 0 2 0) with mem := [(padOff 0 0xFFF, 0xFF)] } with
    | .next t => (t.cx.map (fun d => d.regs.getS 3), t.mem.readNat (padOff 0 0xFFC) 4)
    | _ => (none, 0)) = (some 0xFF000000, 0xFF000002) := by decide +kernel

/-- v10 and v11 with the same code in every lane of `w` bits. -/
def ctxV (w n a b : Nat) : Ctx :=
  let fill (x : Nat) : Vec := ofLanes w ((List.range n).map fun _ => x)
  { ctx0 with regs := { ctx0.regs with v := (ctx0.regs.v.set 10 (fill a)).set 11 (fill b) } }
def aV (et : BitVec 4) : AOps := { dst := 0x49, sa := 0x4A, sb := 0x4B, pred := 0, sc := 0, et := et, ka := 0, kb := 0, pn := false }

/-- Lane 0 and the last lane of v9, and FSTAT's low byte, after a vector instruction. -/
def lanes9 (w n : Nat) (i : Instr) (c : Ctx) : Option (Nat × Nat × Nat) :=
  (after i (on c)).map fun d => (lane w (d.regs.getV 9) 0, lane w (d.regs.getV 9) (n - 1), d.csrs.fstat.toNat % 256)

/-- R282: wrapping and saturating 8-bit sums of 100 and 100. -/
theorem test_vector_sums : lanes9 8 128 (.vaddI (aV 0)) (ctxV 8 128 100 100) = some (200, 200, 0)
    ∧ lanes9 8 128 (.vaddIs (aV 0)) (ctxV 8 128 100 100) = some (127, 127, 32) := by decide +kernel
/-- R283: 1.5 + 2.25 in f32. -/
theorem test_float_sum : lanes9 32 32 (.vaddF (aV 10)) (ctxV 32 32 0x3FC00000 0x40100000) = some (0x40700000, 0x40700000, 0) := by
  decide +kernel
/-- R284: −0 lies below +0, and VABS.F clears the sign. -/
theorem test_float_order : lanes9 32 32 (.vminF (aV 10)) (ctxV 32 32 0x80000000 0) = some (0x80000000, 0x80000000, 0)
    ∧ lanes9 32 32 (.vabsF { aV 10 with sb := 0 }) (ctxV 32 32 0xBF800000 0) = some (0x3F800000, 0x3F800000, 0) := by decide +kernel

/-- R355, R356: TRAP 7 at 0x20 with a SOFT handler: TPC is the next instruction, TVAL the code, and the handler runs. -/
theorem test_trap_entry : (after (.trap { dst := 0, sa := 0, sb := 0, pred := 0, imm := 7, pn := false }) (on { ctxTraps with pc := 0x20 })).map
    (fun d => (d.pc, d.csrs.tpc, d.csrs.tval, d.csrs.tcause)) = some (0x40, 0x28, 7, 0x20003) := by decide +kernel
/-- R355, R356: BRK's TPC is the BRK itself, and TRET goes back to it. -/
theorem test_break_and_return :
    (after (.brk { dst := 0, sa := 0, sb := 0, pred := 0, imm := 0, pn := false }) (on { ctxTraps with pc := 0x20 })).map (fun d => (d.pc, d.csrs.tpc))
      = some (0x80, 0x20)
    ∧ (after (.tret { dst := 0, sa := 0, sb := 0, pred := 0, imm := 0, pn := false })
        (on { ctxTraps with csrs := { Csrs.fresh with tcause := 0x20004, tpc := 0x20 } })).map (fun d => (d.pc, d.csrs.tcause)) = some (0x20, 4) := by
  decide +kernel
/-- R349: TIME.S reads the synchronised time in ns. -/
theorem test_time : (after (.timeS { dst := 3, sa := 0, sb := 0, pred := 0, imm := 0, pn := false }) { on ctx0 with time := 1234 }).map
    (fun d => d.regs.getS 3) = some 1234 := by decide +kernel
/-- R189, R347: CHAINPOS of a single firing is position 0 of length 1. -/
theorem test_chainpos : (after (.csrr { dst := 3, sa := 0, sb := 0, pred := 0, imm := 3, pn := false }) (on ctx0)).map (fun d => d.regs.getS 3)
    = some 0x10 := by decide +kernel

/-- The step runs ADD s3, s4, s5 (R235) from the bytes at the program counter, and moves on by its 8 bytes. -/
theorem test_step_fetches : (match step (onCode (ctxS 2 3 0) [0x28201801]) with
    | .next t => t.cx.map fun d => (d.pc, d.regs.getS 3)
    | _ => none) = some (8, 5) := by decide +kernel
/-- The same from the word that `withFetchWord` places. -/
theorem test_fetch_word : (match step (State.reset.withFetchWord 64 0x28201801) with
    | .next t => t.cx.map fun d => (d.pc, d.regs.getS 3)
    | _ => none) = some (8, 0) := by decide +kernel

/-- The four results of R227's table, by mode RNE, RZ, RU, RD, and FSTAT's bits. -/
def t8row (v : Flt.Val) : List Nat := (List.range 4).map fun r => (Flt.encodeT8 (BitVec.ofNat 2 r) v).1
/-- R227's table of conversions to t8: −0.3 (as the Flt.f32 0xBE99999A), 1.03125, −2^−21, 20.0. -/
theorem test_t8_conversions : t8row (Flt.decodeBin Flt.f32 0xBE99999A) = [0xB2, 0xB1, 0xB1, 0xB2]
    ∧ t8row (Flt.decodeBin Flt.f32 0x3F840000) = [0x40, 0x40, 0x41, 0x40]
    ∧ t8row (Flt.Val.fin true 1 (-21)) = [0, 0, 0, 0x81] ∧ t8row (Flt.Val.fin false 20 0) = [0x7F, 0x7F, 0x7F, 0x7F]
    ∧ (Flt.encodeT8 0 (Flt.Val.fin false 20 0)).2 = Flt.SAT ||| Flt.NX := by decide +kernel
/-- R231's example: VCVT.T8 v2, v6 et=f32 ka=1 (its word 0x0006_8000_0232_13E1). -/
theorem test_round_trip_through_t8 : ((after (.vcvtT8 { dst := 0x42, sa := 0x46, sb := 0, pred := 0, sc := 0, et := 10, ka := 1, kb := 0, pn := false })
        (on { ctx0 with regs := { ctx0.regs with v := ctx0.regs.v.set 6 (ofLanes 32 ([0xBE99999A, 0x41A00000, 0x3F840000, 0x7FC00000, 0x36400000, 0x40580000] ++ List.replicate 26 0)) } })).map
      fun d => ((List.range 7).map fun k => lane 8 (d.regs.getV 2) (32 + k), d.csrs.fstat.toNat)) =
    some ([0xB2, 0x7F, 0x40, 0x80, 0x02, 0x5B, 0], 0x30) := by decide +kernel

end Sys2Proof.Tests
end

section
/-! PROOF. O43: every step keeps the memory in its canonical form (log entry 10). One lemma for each operation on the state, in
the order of the model: `h.report` says that a report written to a formed state leaves a formed state, and so on. The lemma of an
operation composes those of the operations it calls in the shape of its definition: a chain of updates is a chain of dots, a
branch is `ite` or a `split`, a loop is `foldl`, and what runs last is a hypothesis on the continuation. Memory itself is written
in a few places only, each by one of the rules `Memory.wf_…`. -/

namespace Sys2Proof.Machine

open Sys2Proof.Bits


/-- The memory of a state is in its canonical form (log entry 10). -/
def State.Formed (s : State) : Prop := Memory.wf s.mem = true

/-- The next state of an outcome, if there is one, has its memory in canonical form. -/
def Result.Formed : Result → Prop
  | .next t => t.Formed
  | _ => True

/-- A state whose memory is canonical is formed, whatever its other parts are. -/
theorem State.formed_mk {cur cx seats saved ended mem dcb cores slices sched fabric control devNum time clock fresh pend}
    {agenda sent} (h : Memory.wf mem = true) :
    (State.mk cur cx seats saved ended mem dcb cores slices sched fabric control devNum time clock fresh pend agenda
      sent).Formed := h

variable {s : State}

/-- An update of other parts of a state. -/
theorem State.Formed.update {cur cx seats saved ended dcb cores slices sched fabric control devNum time clock fresh pend}
    {agenda sent} (h : s.Formed) :
    (State.mk cur cx seats saved ended s.mem dcb cores slices sched fabric control devNum time clock fresh pend agenda
      sent).Formed := h

theorem State.Formed.foldl {α : Type} {f : State → α → State} {l : List α} (h : s.Formed)
    (hf : ∀ t a, t.Formed → (f t a).Formed) : (l.foldl f s).Formed := by
  induction l generalizing s with
  | nil => exact h
  | cons a l ih => exact ih (hf s a h)

theorem State.Formed.foldl_fst {α β : Type} {f : State × β → α → State × β} {l : List α} {x : State × β}
    (h : x.1.Formed) (hf : ∀ x a, x.1.Formed → (f x a).1.Formed) : (l.foldl f x).1.Formed := by
  induction l generalizing x with
  | nil => exact h
  | cons a l ih => exact ih (hf x a h)

/-- Both branches of a condition. -/
theorem State.Formed.ite {c : Prop} {_ : Decidable c} {a b : State} (ha : a.Formed) (hb : b.Formed) :
    (if c then a else b).Formed := by
  split
  · exact ha
  · exact hb

/-- The state of a pair that is formed. -/
theorem State.Formed.of_fst {α : Type} {x : State × α} {t : State} {a : α} (h : x.1.Formed) (e : x = (t, a)) :
    t.Formed := by
  rw [e] at h; exact h

/-- The next state of a formed outcome. -/
theorem Result.Formed.of_next {r : Result} {t : State} (h : Result.Formed r) (e : r = .next t) : t.Formed := by
  rw [e] at h; exact h

theorem Memory.wf_foldl {α : Type} {f : Memory → α → Memory} {l : List α} {m : Memory} (h : Memory.wf m = true)
    (hf : ∀ m a, Memory.wf m = true → Memory.wf (f m a) = true) : Memory.wf (l.foldl f m) = true := by
  induction l generalizing m with
  | nil => exact h
  | cons a l ih => exact ih (hf m a h)

/-! ## Mem -/

theorem State.Formed.dcbSet {off v} (h : s.Formed) : (s.dcbSet off v).Formed := h

theorem State.Formed.dcbSetField {off lo len v} (h : s.Formed) : (s.dcbSetField off lo len v).Formed := h.dcbSet

/-! ## Operands -/

theorem State.Formed.setCx {c} (h : s.Formed) : (s.setCx c).Formed := h

theorem State.Formed.mapCx {f} (h : s.Formed) : (s.mapCx f).Formed := h

theorem State.Formed.updCtx {n f} (h : s.Formed) : (s.updCtx n f).Formed := h

theorem State.Formed.dropCtx {n} (h : s.Formed) : (s.dropCtx n).Formed := h

theorem State.Formed.focus {id} (h : s.Formed) : (s.focus id).Formed := h.ite h.update

theorem State.Formed.mapCore {k f} (h : s.Formed) : (s.mapCore k f).Formed := h

theorem State.Formed.mapCores {f} (h : s.Formed) : (s.mapCores f).Formed := h

theorem State.Formed.owe {i} (h : s.Formed) : (s.owe i).Formed := h

theorem State.Formed.send {x} (h : s.Formed) : (s.send x).Formed := h

theorem State.Formed.pushNx {w} (h : s.Formed) : (s.pushNx w).Formed := by
  unfold State.pushNx
  split
  · exact h
  · split
    · exact h
    · exact h.updCtx

theorem State.Formed.putScalar {sp w} (h : s.Formed) : (s.putScalar sp w).Formed := h.mapCx.pushNx.ite h.mapCx

theorem State.Formed.putVector {sp w} (h : s.Formed) : (s.putVector sp w).Formed := h.mapCx.pushNx.ite h.mapCx

theorem State.Formed.putMask {n w} (h : s.Formed) : (s.putMask n w).Formed := h.mapCx

/-! ## Records -/

theorem State.Formed.tarnNote {slice} (h : s.Formed) : (s.tarnNote slice).Formed := h.dcbSet

theorem State.Formed.setVersion {line v} (h : s.Formed) : (s.setVersion line v).Formed :=
  h.update.tarnNote.ite h.update.tarnNote

theorem State.Formed.doom {slice ident reason} (h : s.Formed) : (s.doom slice ident reason).Formed := h.ite h.update

theorem State.Formed.discardPending {line} (h : s.Formed) : (s.discardPending line).Formed := by
  unfold State.discardPending
  split
  · exact h
  · exact h.setVersion

theorem State.Formed.nonBundled {line} (h : s.Formed) : (s.nonBundled line).Formed := by
  unfold State.nonBundled
  split
  · exact h
  · exact h.discardPending.doom.ite h

theorem State.Formed.recPut {p idx lo len v} (h : s.Formed) : (s.recPut p idx lo len v).Formed :=
  formed_mk (Memory.wf_writeNat _ _ _ h.nonBundled)

theorem State.Formed.setRecState {p idx st} (h : s.Formed) : (s.setRecState p idx st).Formed := h.recPut.update

theorem State.Formed.setRecCnt {p idx c v} (h : s.Formed) : (s.setRecCnt p idx c v).Formed := h.recPut

/-! ## Registers -/

theorem State.Formed.packet0 {dev body} (h : s.Formed) : (s.packet0 dev body).Formed := h.send

theorem State.Formed.answer {world x} (h : s.Formed) : (s.answer world x).Formed := h.send

theorem State.Formed.controlWrite {off mask val} (h : s.Formed) : (s.controlWrite off mask val).Formed := by
  unfold State.controlWrite
  dsimp only
  split
  · exact h
  · split
    · exact h
    · split
      · exact h.owe
      · split
        · exact h.owe
        · split
          · exact h.dcbSet.owe.ite h.dcbSet
          · split
            · split
              · exact h.dcbSet
              · split
                · exact h.dcbSet.owe
                · exact h.dcbSet
            · exact h.dcbSet.ite h.dcbSet

theorem State.Formed.controlBytes {bytes} (h : s.Formed) : (s.controlBytes bytes).Formed :=
  h.foldl fun _ _ ht => ht.controlWrite

/-! ## Save -/

theorem State.Formed.saveRows {c} (h : s.Formed) : (s.saveRows c).Formed := (formed_mk (Memory.wf_write _ _ h)).ite h

theorem State.Formed.saveEntries {c} (h : s.Formed) : (s.saveEntries c).Formed := by
  unfold State.saveEntries
  split
  · have h1 : (s.mem.write (s.bufferOf c.num + 0x200) (bytesOf 8 c.regs.y0.toNat)).wf = true := Memory.wf_write _ _ h
    dsimp only
    split
    · exact formed_mk (Memory.wf_write _ _ h1)
    · exact Formed.saveRows (formed_mk (Memory.wf_write _ _ h1))
  · exact h

theorem State.Formed.putLate {n num w} (h : s.Formed) : (s.putLate n num w).Formed := by
  unfold State.putLate
  split
  · exact h
  · split
    · exact h
    · extract_lets d s1
      have h1 : s1.Formed := h.updCtx.saveEntries.ite h.updCtx
      split
      · exact h1.updCtx.ite h1
      · exact h1

/-! ## Lines -/

theorem State.Formed.cacheOwner {slice granule} (h : s.Formed) : (s.cacheOwner slice granule).Formed := h

theorem State.Formed.cacheOwners {offs} (h : s.Formed) : (s.cacheOwners offs).Formed :=
  h.update.foldl fun _ _ ht => ht.cacheOwner

theorem State.Formed.takeLine {u off} (h : s.Formed) : (s.takeLine u off).Formed := by
  unfold State.takeLine
  split
  · exact h
  · exact h.update.ite h

theorem State.Formed.askSplit {p} (h : s.Formed) : (s.askSplit p).Formed := (h.ite h.owe).ite h.packet0

theorem State.Formed.recordRace {line p store} (h : s.Formed) : (s.recordRace line p store).Formed := h

theorem State.Formed.clearParties {gone} (h : s.Formed) : (s.clearParties gone).Formed := h

theorem State.Formed.clearRaces {ctx} (h : s.Formed) : (s.clearRaces ctx).Formed := h.clearParties

theorem State.Formed.noteWrite {line p} (h : s.Formed) : (s.noteWrite line p).Formed := h

theorem State.Formed.forgetWrites {gone} (h : s.Formed) : (s.forgetWrites gone).Formed := h

theorem State.Formed.writeBytes {bytes} (h : s.Formed) : (s.writeBytes bytes).Formed :=
  (formed_mk (Memory.wf_writeEach _ (h.foldl fun _ _ ht => ht.nonBundled))).controlBytes

theorem State.Formed.writeWord {off n v} (h : s.Formed) : (s.writeWord off n v).Formed := h.writeBytes

theorem State.Formed.landSync {off n} (h : s.Formed) : (s.landSync off n).Formed :=
  h.ite (formed_mk (Memory.wf_writeNat _ _ _ h))

theorem State.Formed.atomicAt {op off w b} (h : s.Formed) : (s.atomicAt op off w b).1.Formed := h.writeBytes.ite h

theorem State.Formed.flagAt {sync off n} (h : s.Formed) : (s.flagAt sync off n).Formed := h.landSync.ite h.atomicAt

/-! ## Ops -/

theorem State.Formed.chargeCtx {n pj} (h : s.Formed) : (s.chargeCtx n pj).Formed := h.updCtx

theorem State.Formed.addPenergy {c} (h : s.Formed) : (s.addPenergy c).Formed := h.ite h.dcbSet

theorem State.Formed.retire {f} (h : s.Formed) : (s.retire f).Formed := h.mapCx

theorem State.Formed.retireTo {f pc} (h : s.Formed) : (s.retireTo f pc).Formed := h.mapCx

theorem State.Formed.stallOn {k} (h : s.Formed) : (s.stallOn k).Formed := h.mapCx

theorem State.Formed.stallChain {nx takes} (h : s.Formed) : (s.stallChain nx takes).Formed := h.mapCx

theorem State.Formed.report {r f precise replay skid} (h : s.Formed) : (s.report r f precise replay skid).Formed :=
  h.dcbSetField.ite h.writeWord.dcbSetField

theorem State.Formed.packet {c dev body} (h : s.Formed) : (s.packet c dev body).Formed := h.send

theorem State.Formed.countRecord {slot faulted} (h : s.Formed) : (s.countRecord slot faulted).Formed :=
  h.update.owe.ite h.update

theorem State.Formed.faultLaunch {slot} (h : s.Formed) : (s.faultLaunch slot).Formed := h

theorem State.Formed.depart {c} (h : s.Formed) : (s.depart c).Formed :=
  (h.foldl fun _ _ ht => ht.packet).foldl fun _ _ ht => ht.packet

theorem State.Formed.cleanEnded (h : s.Formed) : s.cleanEnded.Formed :=
  (h.update.foldl fun _ _ ht => ht.depart).foldl fun _ _ ht => ht.owe.ite ht

theorem State.Formed.endKept {p idx} (h : s.Formed) : (s.endKept p idx).Formed :=
  h.ite (h.foldl fun _ _ ht => ht.addPenergy).update.cleanEnded

theorem State.Formed.endRecord {p idx st} (h : s.Formed) : (s.endRecord p idx st).Formed :=
  h.setRecState.countRecord.endKept.ite h

theorem State.Formed.requestReplacement (h : s.Formed) : s.requestReplacement.Formed := h.dcbSetField.send

theorem State.Formed.countCores (h : s.Formed) : s.countCores.Formed := h.dcbSetField

theorem State.Formed.removeCore {core} (h : s.Formed) : (s.removeCore core).Formed :=
  h.dcbSetField.update.countCores.requestReplacement

theorem State.Formed.noteFree {core part} (h : s.Formed) : (s.noteFree core part).Formed :=
  h.removeCore.ite ((h.owe.ite h).foldl fun _ _ ht => ht.owe)

theorem State.Formed.abortLocal {ident} (h : s.Formed) : (s.abortLocal ident).Formed :=
  h.foldl fun _ _ ht => ht.discardPending

theorem State.Formed.mapBrec {ident f} (h : s.Formed) : (s.mapBrec ident f).Formed := h

theorem State.Formed.tell {c here away} (h : s.Formed) : (s.tell c here away).Formed := h.owe.ite h.answer

theorem State.Formed.freeBrecs (h : s.Formed) : s.freeBrecs.Formed := h

theorem State.Formed.abortBundle {b reason} (h : s.Formed) : (s.abortBundle b reason).Formed :=
  (h.mapBrec.foldl fun _ _ ht => ht.tell).freeBrecs

theorem State.Formed.clearWait {c} (h : s.Formed) : (s.clearWait c).Formed := by
  unfold State.clearWait
  split
  · exact formed_mk (Memory.wf_writeNat _ _ _ h)
  · exact h

theorem State.Formed.forgetGroups {ctx} (h : s.Formed) : (s.forgetGroups ctx).Formed := h

theorem State.Formed.release {c all kept} (h : s.Formed) : (s.release c all kept).Formed := by
  unfold State.release
  extract_lets rest far s0 s1 s2 s3
  have h0 : s0.Formed := h.clearWait.foldl fun _ _ ht => ht.packet
  have h2 : s2.Formed := h0.dropCtx.clearRaces.forgetGroups.mapCores
  have h3 : s3.Formed := h2.update.ite h2.depart
  exact (h3.ite h3.addPenergy).noteFree

theorem State.Formed.settleBundle {c} (h : s.Formed) : (s.settleBundle c).Formed := by
  unfold State.settleBundle
  split
  · exact h
  · exact h.ite h.abortBundle

theorem State.Formed.settle {c} (h : s.Formed) : (s.settle c).Formed :=
  (h.foldl fun _ _ ht => ht.settleBundle.release).endRecord

theorem State.Formed.reportAll {c fs} (h : s.Formed) : (s.reportAll c fs).Formed := h.foldl fun _ _ ht => ht.report

theorem State.Formed.fatal {c f precise skid} (h : s.Formed) : (s.fatal c f precise skid).Formed :=
  h.settle.report.reportAll.foldl fun _ _ ht => ht.reportAll

theorem State.Formed.fault {code sub val aux1 aux2} (h : s.Formed) : (s.fault code sub val aux1 aux2).Formed := by
  unfold State.fault
  split
  · exact h
  · exact h.fatal

theorem State.Formed.decodeFault {item bits} (h : s.Formed) : (s.decodeFault item bits).Formed := h.fault

theorem State.Formed.accessFault {sub addr len} (h : s.Formed) : (s.accessFault sub addr len).Formed := h.fault

theorem State.Formed.contextFault {sub code} (h : s.Formed) : (s.contextFault sub code).Formed := h.fault

theorem State.Formed.imprecise {ctx f after} (h : s.Formed) : (s.imprecise ctx f after).Formed := by
  unfold State.imprecise
  split
  · split
    · exact h.faultLaunch.reportAll
    · exact h
  · exact h.updCtx.ite h.updCtx.owe

theorem State.Formed.deliverFault {ctx} (h : s.Formed) : (s.deliverFault ctx).Formed := by
  unfold State.deliverFault
  split
  · exact h
  · split
    · exact h
    · exact h.fatal

theorem State.Formed.modelFault {c k more} (h : s.Formed) : (s.modelFault c k more).Formed := h.fatal

theorem State.Formed.memoryModel {k more} (h : s.Formed) : (s.memoryModel k more).Formed := by
  unfold State.memoryModel
  split
  · exact h
  · exact h.modelFault

theorem State.Formed.clearRegionOf {c} (h : s.Formed) : (s.clearRegionOf c).Formed :=
  (h.clearRaces.foldl fun _ _ ht => ht.packet).updCtx

theorem State.Formed.clearRegion (h : s.Formed) : s.clearRegion.Formed := by
  unfold State.clearRegion
  split
  · exact h
  · exact h.clearRegionOf

theorem State.Formed.closingWith {own k} (h : s.Formed) (hk : ∀ t, t.Formed → (k t).Formed) :
    (s.closingWith own k).Formed := by
  unfold State.closingWith
  split
  · exact h
  · dsimp only
    split
    · exact h.stallOn
    · split
      · exact h.stallOn.ite h.memoryModel
      · exact h.stallOn.ite h.memoryModel
      · exact hk _ h.clearRegion

theorem State.Formed.closing {k} (h : s.Formed) (hk : ∀ t, t.Formed → (k t).Formed) : (s.closing k).Formed :=
  h.closingWith hk

theorem State.Formed.flushReads {core} (h : s.Formed) : (s.flushReads core).Formed := h.ite h.mapCore

theorem State.Formed.dropLines {core dev lines} (h : s.Formed) : (s.dropLines core dev lines).Formed := h.ite h.mapCore

theorem State.Formed.acquire (h : s.Formed) : s.acquire.Formed := h.flushReads

theorem State.Formed.orLostMap {core la devs} (h : s.Formed) : (s.orLostMap core la devs).Formed :=
  h.foldl fun _ _ ht => formed_mk (Memory.wf_set _ _ ht)

theorem State.Formed.peerLost {ctx op devs} (h : s.Formed) : (s.peerLost ctx op devs).Formed := by
  unfold State.peerLost
  split
  · exact (h.ite h.orLostMap).updCtx
  · exact h.updCtx

theorem State.Formed.mapSeat {id f} (h : s.Formed) : (s.mapSeat id f).Formed := h

theorem State.Formed.leaveOthers {c} (h : s.Formed) : (s.leaveOthers c).Formed := h.foldl fun _ _ ht => ht.mapSeat.owe

theorem State.Formed.forceSave {id} (h : s.Formed) : (s.forceSave id).Formed := by
  unfold State.forceSave
  split
  · exact h
  · exact (h.leaveOthers.ite h).mapSeat.ite (h.leaveOthers.ite h).clearWait.mapSeat.owe

theorem State.Formed.trapEntry {code val} (h : s.Formed) : (s.trapEntry code val).Formed := by
  unfold State.trapEntry
  split
  · exact h
  · split
    · exact h.contextFault
    · split
      · exact h.forceSave
      · split
        · exact h.contextFault
        · exact h.mapCx

theorem State.Formed.trapReturn (h : s.Formed) : s.trapReturn.Formed := by
  unfold State.trapReturn
  split
  · exact h
  · exact h.contextFault.ite h.mapCx

/-! ## Regions -/

theorem State.Formed.useDesc {core idx d} (h : s.Formed) : (s.useDesc core idx d).Formed := h.mapCore

theorem State.Formed.dropFetch {core ctx idx} (h : s.Formed) : (s.dropFetch core ctx idx).Formed := h.mapCore

theorem State.Formed.startFetch {core ctx idx tries} (h : s.Formed) : (s.startFetch core ctx idx tries).Formed :=
  h.dropFetch.mapCore.owe

theorem State.Formed.regionFault {reason ga hdl len cause} (h : s.Formed) :
    (s.regionFault reason ga hdl len cause).Formed := by
  unfold State.regionFault
  split
  · exact h
  · exact h.report.forceSave.ite h.fatal

theorem State.Formed.chkrCheck {c at' o kind j k} (h : s.Formed) (hk : ∀ t, t.Formed → (k t).Formed) :
    (s.chkrCheck c at' o kind j k).Formed := by
  unfold State.chkrCheck
  dsimp only
  split
  · exact h.stallOn
  · split
    · exact h.dropFetch.regionFault.ite h.stallOn
    · split
      · split
        · exact h.useDesc.regionFault
        · exact hk _ h.useDesc
      · exact h.startFetch.stallOn

theorem State.Formed.chkr {op o kind} (h : s.Formed) : (s.chkr op o kind).Formed := by
  unfold State.chkr
  split
  · exact h
  · exact h.chkrCheck fun _ ht => ht.retire.mapCx

theorem State.Formed.recheck {k} (h : s.Formed) (hk : ∀ t, t.Formed → (k t).Formed) : (s.recheck k).Formed := by
  unfold State.recheck
  split
  · exact h
  · split
    · exact hk _ h
    · extract_lets one
      have hone : ∀ a (k : State → State) (t : State), (∀ u, u.Formed → (k u).Formed) → t.Formed →
          (one a k t).Formed := by
        intro a k t hk ht
        dsimp only [one]
        split
        · exact (ht.chkrCheck fun _ hu => hk _ hu.mapCx).ite (hk _ ht)
        · exact hk _ ht
      clear_value one
      have hlast : ∀ t : State, t.Formed → (k (t.mapCx fun d => { d with coverLost := false })).Formed :=
        fun _ ht => hk _ ht.mapCx
      split
      · exact hone _ _ _ hlast h
      · exact hone _ _ _ (fun _ ht => hone _ _ _ hlast ht) h
      · exact hlast _ h

/-! ## Issue -/

theorem State.Formed.done {f} (h : s.Formed) : (s.done f).Formed := h.mapCx.retire

theorem State.Formed.issue {f effect} (h : s.Formed) (heffect : ∀ x0 t, t.Formed → (effect x0 t).Formed) :
    (s.issue f effect).Formed := by
  unfold State.issue
  split
  · exact h
  · split
    · exact h.decodeFault
    · split
      · exact h.retire
      · exact h.stallOn.ite (h.stallChain.ite (h.stallChain.ite (heffect _ _ h)))

theorem State.Formed.run {f effect} (h : s.Formed) (heffect : ∀ x0 t, t.Formed → (effect x0 t).Formed) :
    Result.Formed (s.run f effect) :=
  h.issue heffect

theorem State.Formed.scalar {f dst v} (h : s.Formed) : Result.Formed (s.scalar f dst v) :=
  h.run fun _ _ ht => ht.putScalar.done

/-! ## Bundles -/

theorem State.Formed.discardPrior {line} (h : s.Formed) : (s.discardPrior line).Formed := by
  unfold State.discardPrior
  split
  · exact h
  · exact h.update.setVersion.dcbSetField

theorem State.Formed.tarnRoom {slice line t} (h : s.Formed) (e : s.tarnRoom slice line = some t) : t.Formed := by
  unfold State.tarnRoom at e
  split at e
  · cases e; exact h
  · obtain ⟨l, -, rfl⟩ := Option.map_eq_some_iff.mp e
    exact h.discardPrior

theorem State.Formed.prepareLine {line ident comps dev ctx bytes} (h : s.Formed) :
    (s.prepareLine line ident comps dev ctx bytes).1.Formed := by
  unfold State.prepareLine
  extract_lets slice s1 start
  have hstart : start.1.Formed := by
    dsimp only [start]
    split
    · exact h.dcbSetField.doom
    · exact (h.tarnRoom ‹_›).setVersion
  clear_value start
  split
  · exact hstart
  · split
    · exact hstart
    · split
      · exact h.setVersion
      · exact h.doom

theorem State.Formed.prepareAll {ident comps dev ctx bytes} (h : s.Formed) :
    (s.prepareAll ident comps dev ctx bytes).1.Formed :=
  h.foldl_fst fun _ _ ht => ht.prepareLine

theorem State.Formed.noteFate {slice ident f} (h : s.Formed) : (s.noteFate slice ident f).Formed := h

theorem State.Formed.dropOwn {ctx dev lines} (h : s.Formed) : (s.dropOwn ctx dev lines).Formed := by
  unfold State.dropOwn
  split
  · exact h.dropLines
  · exact h

theorem State.Formed.installLine {line c} (h : s.Formed) : (s.installLine line c).Formed := by
  unfold State.installLine
  split
  · exact h
  · split
    · exact h
    · exact ((formed_mk (Memory.wf_write _ _ h)).dropOwn.ite (formed_mk (Memory.wf_write _ _ h))).setVersion

theorem State.Formed.installAt {slice ident c} (h : s.Formed) : (s.installAt slice ident c).Formed :=
  (h.foldl fun _ _ ht => ht.installLine).noteFate

theorem State.Formed.abortAt {slice ident} (h : s.Formed) : (s.abortAt slice ident).Formed :=
  (h.foldl fun _ _ ht => ht.discardPending).noteFate.update

theorem State.Formed.finalAt {slice ident comps} (h : s.Formed) : (s.finalAt slice ident comps).1.Formed := by
  unfold State.finalAt
  dsimp only
  split
  · exact h
  · exact h

theorem State.Formed.askDecider {ident t} (h : s.Formed) : (s.askDecider ident t).1.Formed := by
  unfold State.askDecider
  split
  · exact h
  · split
    · exact h.mapBrec
    · exact h

theorem State.Formed.commitPoint {ident m} (h : s.Formed) : (s.commitPoint ident m).1.Formed := by
  unfold State.commitPoint
  dsimp only
  split
  · exact h
  · exact h.mapBrec

theorem State.Formed.fateHere {slice v t} (h : s.Formed) : (s.fateHere slice v t).1.Formed := by
  unfold State.fateHere
  dsimp only
  split
  · split
    · exact h.askDecider
    · exact h
  · split
    · exact h
    · split
      · split
        · exact h.askDecider
        · exact h
      · split
        · split
          · exact h
          · split
            · exact h.askDecider
            · exact h
        · split
          · exact h.askDecider
          · exact h

theorem State.Formed.groupLine {line q} (h : s.Formed) : (s.groupLine line q).1.Formed := by
  unfold State.groupLine
  dsimp only
  split
  · exact h
  · split
    · exact h
    · split
      · exact h
      · split
        · exact h
        · split
          · exact (h.update.fateHere.of_fst ‹_›).installAt
          · exact (h.update.fateHere.of_fst ‹_›).abortAt
          · exact h.update.fateHere.of_fst ‹_›
          · exact h.update.fateHere.of_fst ‹_›

theorem State.Formed.askAway {slice ident t c} (h : s.Formed) : (s.askAway slice ident t c).Formed :=
  h.ite h.update.answer

theorem State.Formed.groupLines {q ls} (h : s.Formed) : (s.groupLines q ls).1.Formed := by
  induction ls generalizing s with
  | nil => exact h
  | cons l ls ih =>
    unfold State.groupLines
    split
    · exact (h.groupLine.of_fst ‹_›).askAway
    · have ht := ih (h.groupLine.of_fst ‹_›)
      split
      · exact ht.of_fst ‹_›
      · exact ht.of_fst ‹_›

theorem State.Formed.mapGroup {f} (h : s.Formed) : (s.mapGroup f).Formed := h.mapCx

theorem State.Formed.execBopen {o} (h : s.Formed) : Result.Formed (execBopen o s) := by
  unfold Machine.execBopen
  refine h.run fun _ t ht => ?_
  split
  · exact ht.putScalar.done
  · exact ht.stallOn.ite ht.mapCore.update.mapCx.putScalar.done

theorem State.Formed.mapBundle {n f} (h : s.Formed) : (s.mapBundle n f).Formed := h.updCtx

theorem State.Formed.closeLost {n lost} (h : s.Formed) : (s.closeLost n lost).Formed := h.ite h.peerLost

theorem State.Formed.abortClose {n b reason c} (h : s.Formed) : (s.abortClose n b reason c).Formed :=
  h.abortBundle.mapBundle.closeLost

theorem State.Formed.finishCommit {n b} (h : s.Formed) : (s.finishCommit n b).Formed :=
  (h.foldl fun _ _ ht => ht.dropOwn).mapBundle.closeLost

theorem State.Formed.startClose {n b} (h : s.Formed) : (s.startClose n b).Formed := by
  unfold State.startClose
  split
  · exact h.abortClose
  · exact h.abortClose
  · split
    · split
      · exact (h.commitPoint.of_fst ‹_›).mapBundle.finishCommit.freeBrecs
      · exact h.commitPoint.of_fst ‹_›
    · exact h.mapBundle.foldl fun _ _ ht => ht.tell

theorem State.Formed.runCloses (h : s.Formed) : s.runCloses.Formed := by
  unfold State.runCloses
  refine h.foldl fun t _ ht => ?_
  split
  · exact ht.startClose.ite ht
  · exact ht

theorem State.Formed.closeBundle {c b k} (h : s.Formed) (hk : ∀ x0 t, t.Formed → (k x0 t).Formed) :
    (s.closeBundle c b k).Formed := by
  unfold State.closeBundle
  dsimp only
  split
  · split
    · split
      · exact h.startClose
      · split
        · exact h.startClose
        · split
          · exact hk _ _ h.startClose.mapCx
          · exact h.startClose.stallOn
    · exact h.mapBundle.stallOn
  · split
    · exact h
    · split
      · exact h
      · split
        · exact hk _ _ h.mapCx
        · exact h.stallOn

theorem State.Formed.execBclose {o} (h : s.Formed) : Result.Formed (execBclose o s) := by
  unfold Machine.execBclose
  refine h.run fun _ t ht => ?_
  split
  · exact ht.closing fun _ ht2 => ht2.putScalar.done
  · split
    · exact ht.closing fun _ ht2 => ht2
    · exact ht.closeBundle fun _ _ ht2 => ht2.closing fun _ ht3 => ht3.putScalar.done

theorem State.Formed.execRgopen {o} (h : s.Formed) : Result.Formed (execRgopen o s) := by
  unfold Machine.execRgopen
  refine h.run fun _ t ht => ?_
  refine ht.closing fun t2 ht2 => ?_
  dsimp only
  split
  · exact ht2.acquire.putScalar.done
  · exact ht2.acquire.mapCx.putScalar.done

/-! ## Access -/

theorem State.Formed.withAddr {a len align k} (h : s.Formed) (hk : ∀ x0 t, t.Formed → (k x0 t).Formed) :
    (s.withAddr a len align k).Formed := by
  unfold State.withAddr
  split
  · exact h.accessFault
  · exact h.accessFault.ite (hk _ _ h)

theorem State.Formed.denied {c d ga} (h : s.Formed) : (s.denied c d ga).Formed := by
  unfold State.denied
  split
  · exact h.imprecise
  · exact h.imprecise

theorem State.Formed.remoteFault {c sub ga dev reason} (h : s.Formed) : (s.remoteFault c sub ga dev reason).Formed :=
  h.imprecise

theorem State.Formed.addVerdict {line store v} (h : s.Formed) : (s.addVerdict line store v).Formed := by
  unfold State.addVerdict
  split
  · exact h
  · exact h.mapCx

theorem State.Formed.detectLine {p store late l} (h : s.Formed) : (s.detectLine p store late l).Formed :=
  (h.recordRace.addVerdict.noteWrite.ite h.recordRace.addVerdict).mapCx

theorem State.Formed.detect {p store lines} (h : s.Formed) : (s.detect p store lines).Formed :=
  h.foldl fun _ _ ht => ht.detectLine

theorem State.Formed.withRoom {c dev lines k} (h : s.Formed) (hk : ∀ t, t.Formed → (k t).Formed) :
    (s.withRoom c dev lines k).Formed := by
  unfold State.withRoom
  dsimp only
  split
  · exact h.askSplit.stallOn
  · exact (hk _ h).ite (h.closing hk)

theorem State.Formed.fillLine {core l} (h : s.Formed) : (s.fillLine core l).Formed := h.mapCore

theorem State.Formed.plainLine {c line} (h : s.Formed) : (s.plainLine c line).Formed := by
  unfold State.plainLine
  dsimp only
  split
  · split
    · exact h.detectLine.fillLine
    · exact h.detectLine.fillLine
  · exact h.detectLine

theorem State.Formed.loadHere {c f acq offs fin} (h : s.Formed) (hfin : ∀ x0 t, t.Formed → (fin x0 t).Formed) :
    (s.loadHere c f acq offs fin).Formed := by
  unfold State.loadHere
  split
  · exact h.stallOn
  · split
    · exact (h.closing fun _ ht => ht.denied.done).ite h.denied.done
    · dsimp only
      split
      · exact h.cacheOwners.closingWith fun _ ht => hfin _ _ ht.acquire
      · exact h.cacheOwners.withRoom fun _ ht => hfin _ _ (ht.foldl fun _ _ ht2 => ht2.plainLine)

theorem State.Formed.takeReply (h : s.Formed) : s.takeReply.Formed := h.mapCx

theorem State.Formed.failAway {c f sub ga dev reason} (h : s.Formed) : (s.failAway c f sub ga dev reason).Formed :=
  h.takeReply.remoteFault.done

theorem State.Formed.askDevice {c f dev ga bytes group kept gas body fin} (h : s.Formed) (hfin : ∀ x0 t, t.Formed →
    (fin x0 t).Formed) :
    (s.askDevice c f dev ga bytes group kept gas body fin).Formed := by
  unfold State.askDevice
  split
  · exact h.failAway.ite h.packet.mapCx.stallOn
  · split
    · exact h.stallOn
    · exact h.failAway
    · split
      · exact h.takeReply.denied.done
      · exact h.failAway
    · exact hfin _ _ h.takeReply

theorem State.Formed.expect {ctx dev lines} (h : s.Formed) : (s.expect ctx dev lines).Formed := h.mapCore

theorem State.Formed.fillAway {ctx dev offs bytes filled} (h : s.Formed) :
    (s.fillAway ctx dev offs bytes filled).Formed :=
  (h.mapCore.foldl fun _ _ ht => ht.fillLine).ite h.mapCore

theorem State.Formed.addOut {x} (h : s.Formed) : (s.addOut x).Formed := h.mapCx

theorem State.Formed.sendHits {c dev offs hits} (h : s.Formed) : (s.sendHits c dev offs hits).Formed :=
  h.ite (h.foldl fun _ _ ht => ht.fillLine.packet.addOut)

theorem State.Formed.loadAway {c f acq dev offs fin} (h : s.Formed) (hfin : ∀ x t, t.Formed → (fin x t).Formed) :
    (s.loadAway c f acq dev offs fin).Formed := by
  unfold State.loadAway
  extract_lets ga lines gas cacheable hits kept rest record value waits refused whole go
  have hrecord : ∀ t, t.Formed → (record t).Formed := fun _ ht => ht.mapCx
  clear_value ga lines cacheable kept rest record value waits refused whole
  have hgo : ∀ t, t.Formed → (go t).Formed := by
    intro t ht
    have h0 : (t.sendHits c dev offs hits).Formed := ht.sendHits
    dsimp only [go]
    split
    · exact hfin _ _ (hrecord _ h0)
    · refine Formed.askDevice ?_ fun r u hu => ?_
      · split
        · exact h0.expect
        · exact h0
      · split
        · split
          · exact hu.memoryModel
          · exact hfin _ _ hu.acquire
          · refine hfin _ _ ((hrecord _ ?_).foldl fun _ _ hv => hv.addVerdict)
            split
            · exact hu.fillAway
            · exact hu
        · exact hfin _ _ hu
  clear_value go
  split
  · exact h.stallOn
  · split
    · exact h.stallOn
    · split
      · exact h.withRoom hgo
      · split
        · exact h.closing hgo
        · exact hgo _ h

theorem State.Formed.loadGroup {c f g acq dev offs fin} (h : s.Formed) (hfin : ∀ x t, t.Formed → (fin x t).Formed) :
    (s.loadGroup c f g acq dev offs fin).Formed := by
  unfold State.loadGroup
  extract_lets after close waits
  have hafter : ∀ bytes cause devs t, t.Formed → (after bytes cause devs t).Formed := by
    intro bytes cause devs t ht
    refine hfin _ _ ?_
    split
    · exact ht.mapGroup.acquire
    · exact ht.mapGroup
  have hclose : ∀ k : State → State, (∀ t, t.Formed → (k t).Formed) → (close k).Formed := by
    intro k hk
    dsimp only [close]
    split
    · exact h.closing hk
    · exact hk _ h
  clear_value after close
  split
  · exact h.stallOn
  · split
    · split
      · split
        · exact h.stallOn
        · exact hafter _ _ _ _ h.takeReply
        · exact hafter _ _ _ _ h.takeReply
      · split
        · exact hclose _ fun t ht => ht.denied.done
        · refine hclose _ fun t ht => ?_
          dsimp only
          split
          · have h1 := ht.cacheOwners.groupLines.of_fst ‹_›
            exact Formed.stallOn (Formed.mapCx (Formed.mapGroup h1.update))
          · exact hafter _ _ _ _ (ht.cacheOwners.groupLines.of_fst ‹_›)
    · refine hclose _ fun t ht => ht.askDevice fun r u hu => ?_
      split
      · exact hafter _ _ _ _ hu
      · exact hafter _ _ _ _ hu
      · exact hafter _ _ _ _ hu

theorem State.Formed.load {c f o dev offs addr len fin} (h : s.Formed) (hfin : ∀ x0 t, t.Formed → (fin x0 t).Formed) :
    (s.load c f o dev offs addr len fin).Formed := by
  unfold State.load
  dsimp only
  split
  · exact h.stallOn
  · split
    · exact (h.closing fun _ ht => hfin _ _ ht.acquire).ite (hfin _ _ h)
    · split
      · split
        · exact h.accessFault
        · split
          · exact h.accessFault
          · exact h.loadGroup hfin
      · exact (h.loadHere hfin).ite (h.loadAway hfin)

theorem State.Formed.touch {batch dev} (h : s.Formed) : (s.touch batch dev).Formed := h.mapCx

theorem State.Formed.doomOpen {c reason comp} (h : s.Formed) : (s.doomOpen c reason comp).Formed := h.mapBundle

theorem State.Formed.sendStore {c f o r bundle} (h : s.Formed) : (s.sendStore c f o r bundle).Formed := by
  unfold State.sendStore
  extract_lets strm batch sync flagged mk before s1 unacked
  split
  · have h1 : s1.Formed := by
      dsimp only [s1]
      split
      · exact h.doomOpen
      · exact h
    exact h1.touch.addOut.done
  · split
    · exact h.stallOn
    · split
      · exact h.packet.mapCx.stallOn
      · exact h.packet.mapCx.stallOn.ite (h.stallOn.ite h.packet.mapCx.touch.addOut.done)

theorem State.Formed.storeHere {c f detected sync r} (h : s.Formed) : (s.storeHere c f detected sync r).Formed := by
  unfold State.storeHere
  extract_lets offs refuse lines
  split
  · exact h.denied.done
  · exact h.denied.done
  · extract_lets hbm s0 write
    have h0 : s0.Formed := h.cacheOwners.dropLines
    have hwrite : ∀ t, t.Formed → (write t).Formed := by
      intro t ht
      have h1 : (if sync then lines.foldl (fun s l => s.noteWrite l (s.party c)) t else t).Formed :=
        (ht.foldl fun _ _ hu => hu.noteWrite).ite ht
      refine Formed.done ?_
      split
      · exact h1.writeBytes.flagAt
      · exact h1.writeBytes
    exact h.denied.done.ite ((h0.withRoom fun _ ht => hwrite _ ht.detect).ite (hwrite _ h0))

theorem State.Formed.storeParts {c f detected sync r} (h : s.Formed) : (s.storeParts c f detected sync r).Formed := by
  unfold State.storeParts
  split
  · exact h.storeHere
  · dsimp only
    split
    · refine Formed.done (h.foldl fun t _ ht => ?_)
      split
      · exact ht.denied
      · exact ht
    · refine Formed.storeHere (h.foldl fun t _ ht => ?_)
      split
      · exact ht.denied
      · exact ht

theorem State.Formed.storeBundled {c f o r} (h : s.Formed) : (s.storeBundled c f o r).Formed := by
  unfold State.storeBundled
  split
  · exact h.accessFault.ite (h.done.ite h.sendStore)
  · split
    · exact h.done
    · dsimp only
      split
      · exact h.doomOpen.done
      · split
        · exact h.doomOpen.done
        · split
          · split
            · exact h.mapBundle.dropLines.sendStore.mapBundle
            · exact h.mapBundle.dropLines.sendStore
          · split
            · exact h.denied.done
            · split
              · exact h.denied.done
              · split
                · exact (h.mapBundle.cacheOwners.dropLines.prepareAll.of_fst ‹_›).done
                · exact (h.mapBundle.cacheOwners.dropLines.prepareAll.of_fst ‹_›).doomOpen.done

theorem State.Formed.releasing {c f ord dev op own k} (h : s.Formed) (hk : ∀ t, t.Formed → (k t).Formed) :
    (s.releasing c f ord dev op own k).Formed := by
  unfold State.releasing
  split
  · exact h.stallOn.ite ((hk _ h).ite (h.closing fun _ ht => ht.peerLost.done))
  · exact ((hk _ h).ite h.stallOn).ite (hk _ h)

theorem State.Formed.store {c f o r} (h : s.Formed) : (s.store c f o r).Formed := by
  unfold State.store
  split
  · exact h.stallOn
  · split
    · exact h.accessFault.ite h.storeBundled
    · refine h.releasing fun t ht => ?_
      dsimp only
      split
      · exact ht.dropLines.sendStore.ite ht.storeParts
      · exact ht.closingWith fun _ ht2 => ht2.dropLines.sendStore.ite ht2.storeParts

theorem State.Formed.withFlag {c o data k} (h : s.Formed) (hk : ∀ x0 t, t.Formed → (k x0 t).Formed) :
    (s.withFlag c o data k).Formed := by
  unfold State.withFlag
  split
  · exact hk _ _ h
  · dsimp only
    split
    · exact h.accessFault
    · exact h.accessFault.ite (((hk _ _ h).ite h.accessFault).ite ((hk _ _ h).ite h.accessFault))

theorem State.Formed.atomic {c f o t op w b ret fin} (h : s.Formed) (hfin : ∀ x y u, u.Formed → (fin x y u).Formed) :
    (s.atomic c f o t op w b ret fin).Formed := by
  unfold State.atomic
  extract_lets acq offs finish ask
  have hfinish : ∀ old fl u, u.Formed → (finish old fl u).Formed := fun _ _ _ hu => (hfin _ _ _ hu).ite hu.done
  clear_value finish
  have hask : ∀ u, u.Formed → (ask u).Formed := by
    refine fun u hu => hu.askDevice fun r v hv => ?_
    extract_lets s1 s2
    have h2 : s2.Formed := hv.dropLines.acquire.ite hv.dropLines
    split
    · exact hfinish _ _ _ h2
    · exact hfinish _ _ _ h2
  clear_value ask
  split
  · exact hask _ h
  · refine h.releasing fun u hu => hu.stallOn.ite (hu.closing fun v hv => ?_)
    split
    · split
      · exact hv.denied.done
      · refine hv.denied.done.ite ?_
        extract_lets s0 r wrote s1
        have hr : r.1.Formed := hv.cacheOwners.takeLine.atomicAt
        have h1 : s1.Formed := hr.dropLines.ite hr
        exact hfinish _ _ _ (h1.acquire.ite h1)
    · exact (hask _ hv.dropLines).ite (hv.peerLost.done.ite hv.dropLines.packet.mapCx.addOut.done)

/-! ## Sched -/

theorem State.Formed.makeReady {p idx} (h : s.Formed) : (s.makeReady p idx).Formed :=
  h.setRecState.update.owe.ite h.setRecState.update.owe

theorem State.Formed.checkReady {p idx} (h : s.Formed) : (s.checkReady p idx).Formed := h.makeReady.ite h

theorem State.Formed.recount {p idx} (h : s.Formed) : (s.recount p idx).Formed := h.setRecCnt.checkReady.ite h

theorem State.Formed.decrement {p idx c n} (h : s.Formed) : (s.decrement p idx c n).Formed :=
  h.update.ite h.setRecCnt.checkReady

theorem State.Formed.loadCounters {p idx} (h : s.Formed) : (s.loadCounters p idx).Formed :=
  h.foldl fun _ _ ht => ht.setRecCnt

theorem State.Formed.rearmCounters {p idx} (h : s.Formed) : (s.rearmCounters p idx).Formed :=
  h.foldl fun _ _ ht => ht.setRecCnt

theorem State.Formed.advance {p idx} (h : s.Formed) : (s.advance p idx).Formed :=
  (h.foldl fun _ _ ht => ht.writeWord.ite ht.writeWord).foldl fun _ _ ht => ht.recount

theorem State.Formed.reweigh {p idx} (h : s.Formed) : (s.reweigh p idx).Formed := h.ite (h.recPut.ite (h.recPut.ite h))

theorem State.Formed.mapPoint {u f} (h : s.Formed) : (s.mapPoint u f).Formed := h

theorem State.Formed.unqueue {gone} (h : s.Formed) : (s.unqueue gone).Formed := h

theorem State.Formed.queueTask {p idx front} (h : s.Formed) : (s.queueTask p idx front).Formed := h.mapPoint

theorem State.Formed.yieldRecord {c} (h : s.Formed) : (s.yieldRecord c).Formed := h.ite h.setRecState.recPut.queueTask

theorem State.Formed.wakeRecord {p idx cause} (h : s.Formed) : (s.wakeRecord p idx cause).Formed :=
  h.recPut.recPut.makeReady

theorem State.Formed.faultRecord {p idx f} (h : s.Formed) : (s.faultRecord p idx f).Formed := h.endRecord.report

theorem State.Formed.dispatchFault {p idx sub aux2} (h : s.Formed) : (s.dispatchFault p idx sub aux2).Formed :=
  h.faultRecord

theorem State.Formed.noteChecked {hdl x} (h : s.Formed) : (s.noteChecked hdl x).Formed := h

theorem State.Formed.oweChecked {hdl i} (h : s.Formed) : (s.oweChecked hdl i).Formed := h.noteChecked.owe

theorem State.Formed.checkedDone {isIt} (h : s.Formed) : (s.checkedDone isIt).Formed := h

theorem State.Formed.applyEnding {p idx e} (h : s.Formed) : (s.applyEnding p idx e).Formed := by
  unfold State.applyEnding
  split
  · exact h.advance.reweigh.endRecord
  · exact h.advance.reweigh.setRecState.recPut.recPut.rearmCounters.checkReady
  · dsimp only
    split
    · exact h.recPut.recPut.recPut.oweChecked
    · split
      · exact h.recPut.recPut.recPut.wakeRecord
      · exact h.recPut.recPut.recPut.setRecState.update.noteChecked.send

theorem State.Formed.saveArgs {c} (h : s.Formed) : (s.saveArgs c).Formed := h.foldl fun _ _ ht => ht.ite ht.writeWord

theorem State.Formed.endFiring {c e} (h : s.Formed) : (s.endFiring c e).Formed := by
  unfold State.endFiring
  split
  · exact h.release.applyEnding
  · dsimp only
    split
    · exact h.release
    · split
      · split
        · exact h.release.update.applyEnding
        · exact h.release.update
      · split
        · exact h.release.update.yieldRecord
        · exact h.release.update

theorem State.Formed.ending {f e before} (h : s.Formed) (hbefore : ∀ x0 t, t.Formed → (before x0 t).Formed) :
    (s.ending f e before).Formed := by
  unfold State.ending
  split
  · exact h
  · split
    · exact h.closing fun _ ht => ht
    · split
      · exact h.stallOn
      · dsimp only
        split
        · refine h.closing fun t ht => ?_
          split
          · exact (hbefore _ _ ht).retire
          · exact (hbefore _ _ ht).retire.endFiring
        · refine h.closeBundle fun _ t ht => ?_
          refine ht.closing fun t2 ht2 => ?_
          split
          · exact (hbefore _ _ ht2).retire
          · exact (hbefore _ _ ht2).retire.endFiring

theorem State.Formed.relink {off} (h : s.Formed) : (s.relink off).Formed := h.foldl fun _ _ ht => ht.recPut

theorem State.Formed.wakeWaiter {w} (h : s.Formed) : (s.wakeWaiter w).Formed :=
  (h.update.relink.recPut.wakeRecord.ite h.update.relink).ite h.update.relink.packet0

theorem State.Formed.enqueueWait {dev part rec off val} (h : s.Formed) : (s.enqueueWait dev part rec off val).Formed :=
  (h.wakeRecord.ite h.packet0).ite (h.update.setRecState.relink.ite h.update)

theorem State.Formed.noteAt {off all} (h : s.Formed) : (s.noteAt off all).Formed :=
  (h.foldl fun _ _ ht => ht.wakeWaiter).foldl fun _ _ ht => ht.wakeWaiter

/-! ## Control -/

theorem State.Formed.doneTo {f pc} (h : s.Formed) : (s.doneTo f pc).Formed := h.mapCx.retireTo

theorem State.Formed.execUnassignedOpValue {item bits} (h : s.Formed) :
    Result.Formed (execUnassignedOpValue item bits s) :=
  h.decodeFault

/-! ## Int -/

theorem State.Formed.binary {op o g} (h : s.Formed) : Result.Formed (s.binary op o g) := h.scalar

theorem State.Formed.binaryImm {op o g} (h : s.Formed) : Result.Formed (s.binaryImm op o g) := h.scalar

theorem State.Formed.unary {op o g} (h : s.Formed) : Result.Formed (s.unary op o g) := h.scalar

theorem State.Formed.ternary {op o g} (h : s.Formed) : Result.Formed (s.ternary op o g) := h.scalar

theorem State.Formed.compare {op o g} (h : s.Formed) : Result.Formed (s.compare op o g) :=
  h.run fun _ _ ht => ht.putMask.done

/-! ## MemScalar -/

theorem State.Formed.ld {op o w sg} (h : s.Formed) : Result.Formed (s.ld op o w sg) :=
  h.run fun _ _ ht => ht.withAddr fun _ _ ht2 => ht2.load fun _ _ ht3 => ht3.putScalar.done

theorem State.Formed.st {op o w} (h : s.Formed) : Result.Formed (s.st op o w) :=
  h.run fun _ _ ht => ht.withAddr fun _ _ ht2 => ht2.accessFault.ite (ht2.withFlag fun _ _ ht3 => ht3.store)

theorem State.Formed.atomAddr {c o w k} (h : s.Formed) (hk : ∀ x0 t, t.Formed → (k x0 t).Formed) :
    (s.atomAddr c o w k).Formed :=
  h.withAddr fun _ _ ht => ht.accessFault.ite (hk _ _ ht)

theorem State.Formed.atom {op o w k} (h : s.Formed) : Result.Formed (s.atom op o w k) :=
  h.run fun _ _ ht => ht.atomAddr fun _ _ ht2 => ht2.atomic fun _ _ _ ht3 => ht3.putScalar.done

theorem State.Formed.reduce {op o w k} (h : s.Formed) : Result.Formed (s.reduce op o w k) :=
  h.run fun _ _ ht => ht.atomAddr fun _ _ ht2 => ht2.atomic fun _ _ _ ht3 => ht3.done

theorem State.Formed.cas {op o w} (h : s.Formed) : Result.Formed (s.cas op o w) :=
  h.run fun _ _ ht => ht.atomAddr fun _ _ ht2 => ht2.atomic fun _ _ _ ht3 => ht3.putScalar.done

/-! ## MemVector -/

theorem State.Formed.withLanes {c sh o k} (h : s.Formed) (hk : ∀ x0 t, t.Formed → (k x0 t).Formed) :
    (s.withLanes c sh o k).Formed := by
  unfold State.withLanes
  dsimp only
  split
  · exact h.accessFault
  · split
    · exact h.accessFault
    · split
      · exact h.accessFault
      · split
        · exact h.accessFault
        · exact hk _ _ h

theorem State.Formed.vld {op o sh} (h : s.Formed) : Result.Formed (s.vld op o sh) :=
  h.run fun _ _ ht => ht.withLanes fun _ _ ht2 => ht2.load fun _ _ ht3 => ht3.putVector.done

theorem State.Formed.vst {op o sh} (h : s.Formed) : Result.Formed (s.vst op o sh) := by
  unfold State.vst
  refine h.run fun _ t ht => ?_
  dsimp only
  split
  · exact ht.withAddr fun _ _ ht2 => ht2.withFlag fun _ _ ht3 => ht3.store
  · refine ht.withLanes fun _ t2 ht2 => ?_
    split
    · exact ht2
    · split
      · exact ht2.accessFault
      · exact ht2.accessFault.ite (ht2.withFlag fun _ _ ht3 => ht3.store)

/-! ## Vector -/

theorem State.Formed.putLanes {c f dst w n active z g} (h : s.Formed) : (s.putLanes c f dst w n active z g).Formed :=
  h.mapCx.putVector.done

theorem State.Formed.velem {op o z g} (h : s.Formed) : Result.Formed (s.velem op o z g) :=
  h.run fun _ _ ht => ht.putLanes

theorem State.Formed.vmove {op o g} (h : s.Formed) : Result.Formed (s.vmove op o g) := h.run fun _ _ ht => ht.putLanes

theorem State.Formed.vcmp {op o r} (h : s.Formed) : Result.Formed (s.vcmp op o r) :=
  h.run fun _ _ ht => ht.mapCx.putMask.done

theorem State.Formed.vred {op o g} (h : s.Formed) : Result.Formed (s.vred op o g) :=
  h.run fun _ _ ht => ht.mapCx.putScalar.done

theorem State.Formed.vcvt {op o} (h : s.Formed) : Result.Formed (s.vcvt op o) := h.run fun _ _ ht => ht.putLanes

/-! ## Matrix -/

theorem State.Formed.saveAccumulators {c} (h : s.Formed) : (s.saveAccumulators c).Formed :=
  (formed_mk (Memory.wf_writeEach _ (Memory.wf_zero _ _ h))).ite h

theorem State.Formed.oweSequencer {core c} (h : s.Formed) : (s.oweSequencer core c).Formed := by
  unfold State.oweSequencer
  split
  · exact h
  · exact h.owe.ite h.owe

theorem State.Formed.claimMatrix {core c} (h : s.Formed) : (s.claimMatrix core c).Formed := by
  unfold State.claimMatrix
  split
  · exact h
  · refine Formed.oweSequencer (Formed.mapCore ?_)
    split
    · exact h
    · split
      · exact h.saveAccumulators
      · exact h

theorem State.Formed.queueMx {core n k view} (h : s.Formed) : (s.queueMx core n k view).Formed :=
  h.updCtx.owe.ite h.updCtx

theorem State.Formed.mxForm {f effect} (h : s.Formed) (heffect : ∀ x0 t, t.Formed → (effect x0 t).Formed) :
    Result.Formed (s.mxForm f effect) :=
  h.run fun _ _ ht => heffect _ _ ht.claimMatrix

theorem State.Formed.mxQueued {f test} (h : s.Formed) : Result.Formed (s.mxQueued f test) := by
  unfold State.mxQueued
  refine h.mxForm fun _ t ht => ?_
  split
  · exact ht.stallOn
  · split
    · exact ht.accessFault
    · exact ht.fault
    · exact ht.queueMx.done

theorem State.Formed.execMxbegin {o} (h : s.Formed) : Result.Formed (execMxbegin o s) := by
  unfold Machine.execMxbegin
  refine h.mxForm fun _ t ht => ?_
  split
  · exact ht.stallOn
  · dsimp only
    split
    · exact ht.queueMx.ite ht
    · exact (ht.queueMx.ite ht).stallOn.ite (ht.queueMx.ite ht).queueMx.done

theorem State.Formed.mxmac {op o} (h : s.Formed) : Result.Formed (s.mxmac op o) := h.mxQueued

theorem State.Formed.mxDrained {c k} (h : s.Formed) (hk : ∀ t, t.Formed → (k t).Formed) : (s.mxDrained c k).Formed :=
  (h.stallOn.ite (hk _ h)).ite ((hk _ h).ite h.mapCx.stallOn)

theorem State.Formed.mxrd {op o types g} (h : s.Formed) : Result.Formed (s.mxrd op o types g) :=
  h.mxForm fun _ _ ht => ht.fault.ite (ht.mxDrained fun _ ht2 => ht2.mapCx.putVector.done)

theorem State.Formed.mxwr {op o atype} (h : s.Formed) : Result.Formed (s.mxwr op o atype) := h.mxQueued

theorem State.Formed.mxst {op o} (h : s.Formed) : Result.Formed (s.mxst op o) := h.mxQueued

theorem State.Formed.meshDrop {part ctx val pc after} (h : s.Formed) : (s.meshDrop part ctx val pc after).Formed :=
  h.dcbSetField.imprecise

theorem State.Formed.execMxcmd {o} (h : s.Formed) : Result.Formed (execMxcmd o s) := by
  unfold Machine.execMxcmd
  refine h.mxForm fun _ t ht => ?_
  dsimp only
  split
  · exact ht.stallOn
  · exact ht.mapCx.meshDrop.done.ite (ht.mapCx.owe.done.ite ht.mapCx.mapCore.owe.done)

theorem State.Formed.finishMx {core n pick} (h : s.Formed) : (s.finishMx core n pick).Formed := by
  unfold State.finishMx
  dsimp only
  split
  · exact h.updCtx.oweSequencer
  · exact h.updCtx

theorem State.Formed.stickMx {n w} (h : s.Formed) : (s.stickMx n w).Formed := h.updCtx

theorem State.Formed.loadWeights {core la hdl sparse} (h : s.Formed) : (s.loadWeights core la hdl sparse).Formed :=
  h.mapCore

theorem State.Formed.runMx {core c k} (h : s.Formed) : (s.runMx core c k).Formed := by
  unfold State.runMx
  dsimp only
  split
  · exact h.updCtx
  · split
    · exact h.loadWeights
    · split
      · exact h.updCtx
      · split
        · exact (formed_mk (Memory.wf_write _ _ h)).stickMx
        · split
          · exact formed_mk (Memory.wf_writeNat _ _ _ (Memory.wf_writeEach _ (Memory.wf_zero _ _ h)))
          · exact h.updCtx.stickMx.ite h

theorem State.Formed.metadataFault {n k sub pos off} (h : s.Formed) : (s.metadataFault n k sub pos off).Formed :=
  h.imprecise

theorem State.Formed.refillWeights {core k t} (h : s.Formed) (e : s.refillWeights core k = some t) : t.Formed := by
  unfold State.refillWeights at e
  dsimp only at e
  split at e
  · cases e; exact h
  · split at e
    · cases e
    · cases e; exact h.loadWeights

theorem State.Formed.execSequencerCommand {core pick start} (h : s.Formed) :
    Result.Formed (execSequencerCommand core pick start s) := by
  show State.Formed _
  split
  · exact h
  · split
    · exact h
    · split
      · split
        · split
          · exact h.metadataFault
          · have h1 := h.refillWeights ‹_›
            exact h1.updCtx.owe
        · exact h.runMx.finishMx
      · exact h.oweSequencer

theorem State.Formed.execKstep {core} (h : s.Formed) : Result.Formed (execKstep core s) := by
  show State.Formed _
  split
  · exact h
  · split
    · exact h
    · split
      · exact h
      · split
        · exact h.metadataFault
        · have h0 := h.refillWeights ‹_›
          extract_lets f span total k0 b hb a r anan s1
          split
          · exact h0.metadataFault
          · split
            · exact Formed.finishMx h0.updCtx
            · exact Formed.owe h0.updCtx

theorem State.Formed.mxArrive {core a} (h : s.Formed) : (s.mxArrive core a).1.Formed := by
  unfold State.mxArrive
  dsimp only
  split
  · exact h
  · split
    · exact h
    · split
      · exact h
      · split
        · exact h
        · split
          · exact h
          · exact h
          · exact h.queueMx

theorem State.Formed.execMxcmdArrival {core} (h : s.Formed) : Result.Formed (execMxcmdArrival core s) := by
  unfold Machine.execMxcmdArrival
  split
  · exact h
  · dsimp only
    split
    · exact (h.mapCore.mxArrive.of_fst ‹_›).owe
    · exact h.owe

/-! ## Sync -/

theorem State.Formed.execFence {o} (h : s.Formed) : Result.Formed (execFence o s) := by
  unfold Machine.execFence
  refine h.run fun _ t ht => ?_
  dsimp only
  split
  · exact ht.mapCx.putScalar.done
  · split
    · exact ht.stallOn
    · exact ht
    · exact ht.mapCx.mapCx.putScalar.done

theorem State.Formed.execFwait {o} (h : s.Formed) : Result.Formed (execFwait o s) := by
  unfold Machine.execFwait
  refine h.run fun _ t ht => ?_
  dsimp only
  split
  · exact ht.stallOn
  · exact ht.closing fun _ ht2 => (ht2.acquire.ite ht2.acquire.peerLost).mapCx.putScalar.done

theorem State.Formed.completeCloses {n fuel} (h : s.Formed) : (s.completeCloses n fuel).Formed := by
  induction fuel generalizing s with
  | zero => exact h
  | succ fuel ih =>
    unfold State.completeCloses
    split
    · exact h
    · split
      · exact h
      · refine ih (Formed.putLate (Formed.updCtx ?_))
        split
        · exact h
        · exact h.peerLost

theorem State.Formed.execBatchc {o} (h : s.Formed) : Result.Formed (execBatchc o s) := by
  unfold Machine.execBatchc
  refine h.run fun _ t ht => ?_
  dsimp only
  split
  · exact ht.stallOn
  · split
    · exact (ht.mapCx.ite ht.mapCx.peerLost).putScalar.done
    · exact (ht.mapCx.foldl fun _ _ ht2 => ht2.packet).mapCx.done

theorem State.Formed.withWord {c o k} (h : s.Formed) (hk : ∀ x0 t, t.Formed → (k x0 t).Formed) :
    (s.withWord c o k).Formed :=
  h.withAddr fun _ _ ht => (hk _ _ ht).ite ht.accessFault

theorem State.Formed.note {op o all} (h : s.Formed) : (s.note op o all).Formed := by
  unfold State.note
  split
  · exact h
  · refine h.withWord fun _ t ht => ?_
    split
    · exact ht.stallOn
    · split
      · split
        · exact ht.denied.done
        · exact ht.oweChecked.done
      · exact ht.done.ite ht.packet.noteChecked.mapCx.done

theorem State.Formed.execSwset {o} (h : s.Formed) : Result.Formed (execSwset o s) := by
  unfold Machine.execSwset
  refine h.run fun _ t ht => ?_
  refine ht.withAddr fun _ t2 ht2 => ?_
  split
  · exact ht2.accessFault
  · split
    · exact ht2.stallOn
    · split
      · exact ht2.denied.done
      · exact (formed_mk (Memory.wf_writeNat _ _ _ ht2)).done

theorem State.Formed.execSwwait {o} (h : s.Formed) : Result.Formed (execSwwait o s) := by
  unfold Machine.execSwwait
  refine h.run fun _ t ht => ?_
  refine ht.withAddr fun _ t2 ht2 => ?_
  split
  · exact ht2.accessFault
  · dsimp only
    split
    · exact ht2.stallOn.ite (ht2.closing fun _ ht3 => ht3.acquire.done)
    · exact (formed_mk (Memory.wf_writeNat _ _ _ ht2)).stallOn

/-! ## Engine -/

theorem State.Formed.mapCmd {ctx qi num f} (h : s.Formed) : (s.mapCmd ctx qi num f).Formed := h.updCtx

theorem State.Formed.withBlock {c f la k} (h : s.Formed) (hk : ∀ x0 t, t.Formed → (k x0 t).Formed) :
    (s.withBlock c f la k).Formed :=
  (hk _ _ h).ite (h.loadHere hk)

theorem State.Formed.engineForm {op o} (h : s.Formed) : Result.Formed (s.engineForm op o) := by
  unfold State.engineForm
  refine h.run fun _ t ht => ?_
  extract_lets
  split
  · exact ht.accessFault
  · split
    · exact ht.accessFault
    · split
      · exact ht.accessFault
      · exact ht.stallOn.ite (ht.withBlock fun _ _ ht2 => ht2.mapCx.putScalar.owe.done)

theorem State.Formed.engineFault {ctx qi k reason hdl} (h : s.Formed) : (s.engineFault ctx qi k reason hdl).Formed :=
  h.imprecise

theorem State.Formed.retireCmd {c qi num} (h : s.Formed) : (s.retireCmd c qi num).Formed := h.updCtx.owe.cleanEnded

theorem State.Formed.refuseCmd {c qi k reason hdl} (h : s.Formed) : (s.refuseCmd c qi k reason hdl).Formed :=
  h.engineFault.retireCmd

theorem State.Formed.putPad {c core la bytes} (h : s.Formed) : (s.putPad c core la bytes).Formed := by
  unfold State.putPad
  dsimp only
  split
  · exact formed_mk (Memory.wf_writeEach _ h)
  · exact h

theorem State.Formed.writeStatus {c core k} (h : s.Formed) : (s.writeStatus c core k).Formed := h.ite h.putPad

theorem State.Formed.writeMap {c core k} (h : s.Formed) : (s.writeMap c core k).Formed := h.ite h.putPad

theorem State.Formed.engineError {d o} (h : s.Formed) : (s.engineError d o).Formed := by
  unfold State.engineError
  split
  · exact h
  · exact h

theorem State.Formed.faultCmd {c qi k f} (h : s.Formed) : (s.faultCmd c qi k f).Formed :=
  h.mapCmd.imprecise.owe.ite h.mapCmd.imprecise

theorem State.Formed.breachCmd {c qi k d ga} (h : s.Formed) : (s.breachCmd c qi k d ga).Formed := h.engineError.faultCmd

theorem State.Formed.sendLand {c qi k l bytes} (h : s.Formed) : (s.sendLand c qi k l bytes).Formed := h.packet

theorem State.Formed.pumpFrom {ctx qi num fuel} (h : s.Formed) : (s.pumpFrom ctx qi num fuel).Formed := by
  induction fuel generalizing s with
  | zero => exact h
  | succ fuel ih =>
    unfold State.pumpFrom
    split
    · exact h
    · split
      · exact h
      · split
        · split
          · exact h.owe
          · exact h
        · extract_lets t
          split
          · exact h
          · split
            · exact h
            · split
              · split
                · exact h
                · split
                  · exact h.breachCmd
                  · exact ih h.update.sendLand.mapCmd
              · split
                · exact h.owe
                · split
                  · exact h
                  · split
                    · exact h.breachCmd
                    · exact h.mapCmd.owe

theorem State.Formed.pump {ctx qi num} (h : s.Formed) : (s.pump ctx qi num).Formed := h.pumpFrom

theorem State.Formed.askQuiet {ctx} (h : s.Formed) : (s.askQuiet ctx).Formed := by
  unfold State.askQuiet
  split
  · exact h.owe.ite (h.owe.ite h)
  · exact h

theorem State.Formed.afterLanding {ctx qi num} (h : s.Formed) : (s.afterLanding ctx qi num).Formed := by
  unfold State.afterLanding
  dsimp only
  split
  · exact h.askQuiet
  · exact h.askQuiet.owe.ite h.askQuiet.pump

theorem State.Formed.landed {ctx qi num n} (h : s.Formed) : (s.landed ctx qi num n).Formed := h.mapCmd.afterLanding

theorem State.Formed.land {core la n} (h : s.Formed) : (s.land core la n).Formed := by
  unfold State.land
  split
  · exact h
  · split
    · exact h.breachCmd
    · dsimp only
      split
      · refine Formed.afterLanding (Formed.mapCmd ?_)
        split
        · exact h.writeBytes.landSync
        · exact h.writeBytes
      · exact h.breachCmd
      · exact h.breachCmd

theorem State.Formed.loseCmd {ctx qi num} (h : s.Formed) : (s.loseCmd ctx qi num).Formed := h.mapCmd.owe

theorem State.Formed.beginCopy {c qi k} (h : s.Formed) : (s.beginCopy c qi k).Formed :=
  h.loseCmd.ite (h.mapCmd.packet.ite h.pump)

theorem State.Formed.copyReply {c qi k dev off r} (h : s.Formed) : (s.copyReply c qi k dev off r).Formed := by
  unfold State.copyReply
  dsimp only
  split
  · exact h.chargeCtx.mapCmd.pump
  · exact h.chargeCtx.mapCmd.pump
  · exact h.faultCmd
  · exact h.loseCmd

theorem State.Formed.completeCmd {ctx qi num} (h : s.Formed) : (s.completeCmd ctx qi num).Formed := by
  unfold State.completeCmd
  split
  · exact h
  · split
    · exact h
    · split
      · exact h
      · refine Formed.askQuiet (Formed.retireCmd ?_)
        split
        · exact h.chargeCtx.engineFault
        · exact (h.chargeCtx.peerLost.ite h.chargeCtx).writeMap.writeStatus

theorem State.Formed.openRound {qs} (h : s.Formed) : (s.openRound qs).Formed := h.foldl fun _ _ ht => ht.updCtx

theorem State.Formed.setLastQueue {e place key} (h : s.Formed) : (s.setLastQueue e place key).Formed := by
  unfold State.setLastQueue
  split
  · exact h.mapCore
  · exact h

theorem State.Formed.startAt {e place begin'} (h : s.Formed)
    (hbegin' : ∀ c n k t, t.Formed → (begin' c n k t).Formed) : (s.startAt e place begin').Formed := by
  unfold State.startAt
  extract_lets cap qs ready s1 credit cands last
  split
  · exact h
  · have h1 : s1.Formed := h.ite h.openRound
    split
    · exact h1
    · split
      · exact h1
      · exact hbegin' _ _ _ _ h1.updCtx.setLastQueue.owe

theorem State.Formed.goOnCmd {ctx qi num} (h : s.Formed) : (s.goOnCmd ctx qi num).Formed := by
  unfold State.goOnCmd
  split
  · exact h
  · exact h.ite h.mapCmd.pump.owe

theorem State.Formed.regionCmd {d idx ctx qi k} (h : s.Formed) : (s.regionCmd d idx ctx qi k).Formed := by
  unfold State.regionCmd
  dsimp only
  split
  · exact h
  · split
    · exact h.mapCmd
    · exact h.mapCmd.goOnCmd.ite ((h.goOnCmd.ite h).ite (h.mapCmd.ite h.mapCmd.owe))

theorem State.Formed.regionCmds {idx} (h : s.Formed) : (s.regionCmds idx).Formed := h.foldl fun _ _ ht => ht.regionCmd

theorem State.Formed.loseCmds {dev} (h : s.Formed) : (s.loseCmds dev).Formed := h.foldl fun _ _ ht => ht.loseCmd.ite ht

/-! ## Coll -/

theorem State.Formed.execCopyAccept {e ctx vq num} (h : s.Formed) : Result.Formed (execCopyAccept e ctx vq num s) := by
  unfold Machine.execCopyAccept
  extract_lets
  split
  · exact h
  · split
    · exact h
    · split
      · exact h
      · split
        · split
          · exact h.refuseCmd
          · exact h.mapCmd.owe
        · split
          · exact h
          · split
            · exact h.refuseCmd
            · extract_lets
              split
              · exact h.mapCmd.writeStatus.retireCmd
              · exact h.mapCmd.owe

theorem State.Formed.contribute {c qi k data} (h : s.Formed) : (s.contribute c qi k data).Formed := h.mapCmd.owe

theorem State.Formed.beginColl {c qi k} (h : s.Formed) : (s.beginColl c qi k).Formed := by
  unfold State.beginColl
  split
  · exact h.loseCmd
  · split
    · exact h.contribute
    · dsimp only
      split
      · exact h.loseCmd.ite h.mapCmd.packet
      · split
        · exact h.contribute
        · exact h.breachCmd

theorem State.Formed.collReply {c qi k dev off r} (h : s.Formed) : (s.collReply c qi k dev off r).Formed := by
  unfold State.collReply
  dsimp only
  split
  · exact h.chargeCtx.mapCmd.owe.ite h.chargeCtx.contribute
  · exact h.chargeCtx.mapCmd.owe.ite h.chargeCtx.contribute
  · exact h.faultCmd
  · exact h.loseCmd

theorem State.Formed.execCommandStart {e place} (h : s.Formed) : Result.Formed (execCommandStart e place s) := by
  unfold Machine.execCommandStart
  refine h.startAt fun _ _ _ t ht => ?_
  split
  · exact ht.beginCopy
  · exact ht.beginColl

theorem State.Formed.sendResult {p status arrived flags missing data} (h : s.Formed) :
    (s.sendResult p status arrived flags missing data).Formed :=
  h.owe.ite h.answer

theorem State.Formed.setSlots {slots} (h : s.Formed) : (s.setSlots slots).Formed := h

theorem State.Formed.placeContribution {c} (h : s.Formed) : (s.placeContribution c).Formed := by
  unfold State.placeContribution
  split
  · exact h.setSlots
  · exact h.update.ite h.setSlots

theorem State.Formed.endSlot {r} (h : s.Formed) : (s.endSlot r).Formed := by
  unfold State.endSlot
  dsimp only
  split
  · exact h.setSlots.update.foldl fun _ _ ht => ht.sendResult
  · exact h.setSlots.update.foldl fun _ _ ht => ht.sendResult

theorem State.Formed.passOn {c} (h : s.Formed) : (s.passOn c).Formed := by
  unfold State.passOn
  split
  · exact h
  · exact (h.endSlot.ite h).ite (h.chargeCtx.mapCmd.send.ite h)

theorem State.Formed.serveFrom {fuel} (h : s.Formed) : (s.serveFrom fuel).Formed := by
  induction fuel generalizing s with
  | zero => exact h
  | succ fuel ih =>
    unfold State.serveFrom
    split
    · exact h
    · split
      · exact h
      · exact ih ((h.update.foldl fun _ _ ht => ht.placeContribution).foldl fun _ _ ht => ht.passOn)

theorem State.Formed.serveQueued (h : s.Formed) : s.serveQueued.Formed := h.serveFrom

theorem State.Formed.completeSlot {r} (h : s.Formed) : (s.completeSlot r).Formed := h.endSlot.serveQueued

theorem State.Formed.execCollContribution {c} (h : s.Formed) : Result.Formed (execCollContribution c s) := by
  unfold Machine.execCollContribution
  split
  · exact h
  · split
    · exact h
    · exact h.placeContribution.passOn.serveQueued

theorem State.Formed.execCollSlotDeadline {tenant group seq} (h : s.Formed) :
    Result.Formed (execCollSlotDeadline tenant group seq s) := by
  unfold Machine.execCollSlotDeadline
  dsimp only
  split
  · exact h.update.foldl fun _ _ ht => ht.sendResult
  · split
    · exact h.update.foldl fun _ _ ht => ht.sendResult
    · split
      · exact (h.update.foldl fun _ _ ht => ht.sendResult).completeSlot
      · exact (h.update.foldl fun _ _ ht => ht.sendResult).setSlots.serveQueued

theorem State.Formed.execCollResult {ctx vq num status arrived flags missing data} (h : s.Formed) :
    Result.Formed (execCollResult ctx vq num status arrived flags missing data s) := by
  unfold Machine.execCollResult
  split
  · exact h
  · dsimp only
    split
    · exact h
    · split
      · exact h
      · split
        · exact h
        · exact ((h.ite h.setSlots.serveQueued).ite (h.ite h.setSlots.serveQueued).chargeCtx).mapCmd.pump

/-! ## Message -/

theorem State.Formed.setMailbox {core net m} (h : s.Formed) : (s.setMailbox core net m).Formed := h.mapCore

theorem State.Formed.mbset {op o net} (h : s.Formed) : Result.Formed (s.mbset op o net) :=
  h.run fun _ _ ht => ht.setMailbox.owe.done.ite (ht.accessFault.ite ht.setMailbox.owe.done)

theorem State.Formed.recv {op o net} (h : s.Formed) : Result.Formed (s.recv op o net) := by
  unfold State.recv
  refine h.run fun _ t ht => ?_
  dsimp only
  split
  · exact ht.putMask.done
  · exact ht.loadHere fun _ _ ht2 => ht2.setMailbox.putMask.putVector.owe.done

theorem State.Formed.freeEntry {m} (h : s.Formed) : (s.freeEntry m).Formed := h.updCtx

theorem State.Formed.answerMsg {m dropped} (h : s.Formed) : (s.answerMsg m dropped).Formed := by
  unfold State.answerMsg
  split
  · dsimp only
    split
    · exact h.freeEntry
    · exact h.freeEntry.ite h.freeEntry.imprecise
  · exact h.answer

theorem State.Formed.takeMsg {m} (h : s.Formed) : (s.takeMsg m).Formed := h

theorem State.Formed.dropMsg {m sub} (h : s.Formed) : (s.dropMsg m sub).Formed :=
  (h.takeMsg.dcbSetField.ite h.takeMsg).answerMsg

theorem State.Formed.spillMsg {p m} (h : s.Formed) : (s.spillMsg p m).Formed := h.ite (h.ite h.writeWord.update)

theorem State.Formed.landMsg {p b m} (h : s.Formed) : (s.landMsg p b m).Formed :=
  (formed_mk (Memory.wf_writeEach _ h)).setMailbox.takeMsg.owe.answerMsg.owe

theorem State.Formed.absorbMsg {m} (h : s.Formed) : (s.absorbMsg m).Formed := h.update.takeMsg.answerMsg

theorem State.Formed.execMessageLand {net core} (h : s.Formed) : Result.Formed (execMessageLand net core s) := by
  unfold Machine.execMessageLand
  split
  · exact h
  · dsimp only
    split
    · exact (h.absorbMsg.ite h.dropMsg).owe
    · split
      · exact h.absorbMsg.owe
      · split
        · exact h.dropMsg.owe
        · split
          · exact h.spillMsg.owe
          · split
            · exact h.dropMsg.owe
            · exact h.landMsg

theorem State.Formed.launchMsg {c m} (h : s.Formed) : (s.launchMsg c m).Formed :=
  h.update.owe.ite (h.dropMsg.ite h.packet.chargeCtx)

theorem State.Formed.sendForm {op o net} (h : s.Formed) : Result.Formed (s.sendForm op o net) :=
  h.run fun _ _ ht => ht.accessFault.ite (ht.trapEntry.ite (ht.stallOn.ite ht.update.mapCx.launchMsg.done))

theorem State.Formed.withdrawMsgs {ctx} (h : s.Formed) : (s.withdrawMsgs ctx).Formed := h

theorem State.Formed.resendMsgs {ctx} (h : s.Formed) : (s.resendMsgs ctx).Formed := by
  unfold State.resendMsgs
  split
  · exact h
  · exact h.foldl fun _ _ ht => ht.launchMsg

theorem State.Formed.dropLost {dev} (h : s.Formed) : (s.dropLost dev).Formed := h.foldl fun _ _ ht => ht.dropMsg

theorem State.Formed.execDect {o} (h : s.Formed) : Result.Formed (execDect o s) := by
  unfold Machine.execDect
  refine h.run fun _ t ht => ?_
  dsimp only
  split
  · exact ht.accessFault
  · split
    · exact ht.accessFault
    · split
      · exact ht.accessFault
      · split
        · exact ht.accessFault
        · refine ht.releasing fun t2 ht2 => ?_
          split
          · exact ht2.stallOn
          · exact ht2.closing fun _ ht3 => (ht3.owe.addOut.acquire.ite ht3.owe.addOut).done

theorem State.Formed.dectPerformed {part rec' c n} (h : s.Formed) : (s.dectPerformed part rec' c n).Formed := by
  unfold State.dectPerformed
  dsimp only
  split
  · exact h
  · exact h.ite (h.updCtx.flushReads.ite h.updCtx).runCloses.cleanEnded

theorem State.Formed.placeLaunch {p idx} (h : s.Formed) : (s.placeLaunch p idx).1.Formed := by
  unfold State.placeLaunch
  dsimp only
  split
  · exact h
  · split
    · exact h
    · split
      · exact h
      · exact h.update.owe

theorem State.Formed.execChwin {o} (h : s.Formed) : Result.Formed (execChwin o s) := by
  unfold Machine.execChwin
  refine h.run fun _ t ht => ?_
  dsimp only
  split
  · exact ht.update.putScalar.done.ite ht.putScalar.done
  · exact ht.update.putScalar.done

theorem State.Formed.execChstat {o} (h : s.Formed) : Result.Formed (execChstat o s) := by
  unfold Machine.execChstat
  refine h.run fun _ t ht => ?_
  dsimp only
  split
  · exact ht.update.putScalar.done.ite ht.putScalar.done
  · exact ht.update.putScalar.done

/-! ## System -/

theorem State.Formed.csrForm {op o w} (h : s.Formed) : Result.Formed (s.csrForm op o w) := by
  unfold State.csrForm
  refine h.run fun _ t ht => ?_
  dsimp only
  split
  · exact ht.mapCx.done
  · exact ht.mapCx.putScalar.done

theorem State.Formed.execEcall {o} (h : s.Formed) : Result.Formed (execEcall o s) := by
  unfold Machine.execEcall
  refine h.run fun _ t ht => ?_
  split
  · exact ht.mapCx.send.stallOn
  · exact ht.stallOn
  · exact ht.mapCx.putScalar.done

/-! ## Yield -/

theorem State.Formed.writeSaveArea {c forced} (h : s.Formed) : (s.writeSaveArea c forced).Formed := by
  unfold State.writeSaveArea
  split
  · exact h
  · dsimp only
    split
    · exact (formed_mk (Memory.wf_write _ _ (Memory.wf_zero _ _ (Memory.wf_foldl (Memory.wf_foldl (Memory.wf_foldl
          (Memory.wf_zero _ _ h) fun _ _ ht => Memory.wf_write _ _ ht) fun _ _ ht => Memory.wf_writeNat _ _ _ ht) fun _
          _ ht => Memory.wf_writeNat _ _ _ ht)))).saveAccumulators.saveRows
    · exact formed_mk (Memory.wf_foldl (Memory.wf_foldl (Memory.wf_foldl (Memory.wf_zero _ _ h) fun _ _ ht =>
          Memory.wf_write _ _ ht) fun _ _ ht => Memory.wf_writeNat _ _ _ ht) fun _ _ ht => Memory.wf_writeNat _ _ _ ht)

theorem State.Formed.saveFootprint {c} (h : s.Formed) : (s.saveFootprint c).Formed :=
  h.ite (formed_mk (Memory.wf_foldl h fun _ _ ht => Memory.wf_copyRange _ _ _ ht))

theorem State.Formed.restoreFootprint {c core} (h : s.Formed) : (s.restoreFootprint c core).Formed :=
  h.ite (formed_mk (Memory.wf_foldl h fun _ _ ht => Memory.wf_copyRange _ _ _ ht))

theorem State.Formed.saveContext {id forced} (h : s.Formed) : (s.saveContext id forced).Formed := by
  unfold State.saveContext
  split
  · exact h
  · split
    · exact h.deliverFault
    · refine Formed.noteFree (Formed.yieldRecord ?_)
      split
      · exact h.withdrawMsgs.dropCtx.update.writeSaveArea.saveFootprint
      · exact h.withdrawMsgs.dropCtx.update.writeSaveArea

/-! ## Fetch -/

theorem State.Formed.fetchFault {c} (h : s.Formed) : (s.fetchFault c).Formed := h.fatal

theorem State.Formed.endRep {c size} (h : s.Formed) : (s.endRep c size).Formed := h.mapCx

/-! ## Meaning -/

/-- Every meaning of a table keeps the memory in its canonical form. -/
def TableFormed {α : Type} (table : List (Nat × (α → State → Result))) : Prop :=
  ∀ p ∈ table, ∀ o (s : State), s.Formed → Result.Formed (p.2 o s)

theorem TableFormed.nil {α : Type} : TableFormed (α := α) [] := nofun

theorem TableFormed.cons {α : Type} {k : Nat} {g : α → State → Result}
    {table : List (Nat × (α → State → Result))} (hg : ∀ {o} {s : State}, s.Formed → Result.Formed (g o s))
    (ht : TableFormed table) : TableFormed ((k, g) :: table) := by
  intro p hp o s h
  rcases List.mem_cons.mp hp with rfl | hp
  · exact hg h
  · exact ht p hp o s h

theorem TableFormed.append {α : Type} {a b : List (Nat × (α → State → Result))} (ha : TableFormed a)
    (hb : TableFormed b) : TableFormed (a ++ b) := fun p hp => (List.mem_append.mp hp).elim (ha p) (hb p)

theorem TableFormed.runOp {α : Type} {table : List (Nat × (α → State → Result))} {op o}
    (ht : TableFormed table) (h : s.Formed) : Result.Formed (runOp table op o s) := by
  unfold Machine.runOp
  split
  · rename_i g hg
    obtain ⟨p, hp, rfl⟩ := Option.map_eq_some_iff.mp hg
    exact ht p (List.mem_of_find?_eq_some hp) o s h
  · exact h

theorem State.Formed.runA0 : TableFormed runA0 :=
  .cons binary <| .cons binary <| .cons binary <| .cons binary <| .cons binary <| .cons binary <| .cons binary <|
  .cons binary <| .cons binary <| .cons binary <| .cons binary <| .cons binary <| .cons binary <| .cons binary <|
  .cons binary <| .cons binary <| .cons binary <| .cons binary <| .cons binary <| .cons binary <| .cons ternary <|
  .cons ternary <| .cons unary <| .cons unary <| .cons unary <| .cons binary <| .cons binary <| .cons binary <|
  .cons ternary <| .cons ternary <| .cons scalar <| .cons compare <| .cons compare <| .cons compare <| .cons compare <|
  .cons compare <| .cons compare <| .cons (fun h => h.run fun _ _ ht => ht.putMask.done) <| .cons unary <|
  .cons binary <| .nil

theorem State.Formed.runA1 : TableFormed runA1 :=
  .cons unary <| .cons (fun h => h.run fun _ _ ht => ht.chkr) <| .cons (fun h => h.run fun _ _ ht => ht.chkr) <|
  .cons (fun h => h.run fun _ _ ht => ht.chkr) <| .cons velem <| .cons velem <| .cons velem <| .cons velem <|
  .cons velem <| .cons velem <| .cons velem <| .cons velem <| .cons velem <| .cons velem <| .cons velem <|
  .cons velem <| .cons velem <| .cons velem <| .cons velem <| .cons velem <| .cons velem <| .cons velem <|
  .cons velem <| .cons velem <| .cons velem <| .cons velem <| .cons velem <| .cons velem <| .cons velem <|
  .cons velem <| .cons velem <| .cons velem <| .cons velem <| .cons velem <| .cons velem <| .cons velem <|
  .cons velem <| .cons velem <| .cons velem <| .cons velem <| .nil

theorem State.Formed.runA2 : TableFormed runA2 :=
  .cons velem <| .cons velem <| .cons velem <| .cons velem <| .cons velem <| .cons velem <| .cons velem <|
  .cons velem <| .cons velem <| .cons velem <| .cons velem <| .cons velem <| .cons velem <| .cons velem <|
  .cons velem <| .cons velem <| .cons velem <| .cons velem <| .cons velem <| .cons velem <| .cons velem <|
  .cons velem <| .cons vcmp <| .cons vcmp <| .cons vcmp <| .cons vcmp <| .cons vcmp <| .cons vmove <| .cons vmove <|
  .cons vmove <| .cons vmove <| .cons vmove <| .cons vmove <| .cons (fun h => h.run fun _ _ ht => ht.putLanes) <|
  .cons scalar <| .cons vred <| .cons vred <| .cons vred <| .cons vred <| .cons vred <| .nil

theorem State.Formed.runA3 : TableFormed runA3 :=
  .cons vred <| .cons vred <| .cons vred <| .cons vcvt <| .cons vcvt <| .cons vcvt <| .cons vcvt <| .cons vcvt <|
  .cons vcvt <| .cons vcvt <| .cons vcvt <| .cons vcvt <| .cons vcvt <| .cons vcvt <| .cons vcvt <|
  .cons (fun h => h.run fun _ _ ht => ht.putLanes) <| .cons vmove <| .cons execMxbegin <|
  .cons (fun h => h.mxForm fun _ _ ht => ht.done.ite (ht.stallOn.ite ht.queueMx.done)) <| .cons mxQueued <|
  .cons mxQueued <| .cons mxQueued <| .cons mxQueued <| .cons mxmac <| .cons mxmac <| .cons mxmac <| .cons mxmac <|
  .cons mxmac <| .cons mxmac <| .cons mxmac <| .cons mxmac <| .cons mxmac <| .cons mxmac <| .cons mxrd <| .cons mxrd <|
  .cons mxrd <| .cons mxwr <| .cons mxwr <| .cons mxst <| .cons mxst <| .nil

theorem State.Formed.runA4 : TableFormed runA4 :=
  .cons mxst <| .cons mxst <| .cons mxst <| .cons mxst <| .cons mxst <| .cons mxst <|
  .cons (fun h => h.mxForm fun _ _ ht => ht.mxDrained fun _ ht2 => (ht2.putScalar.mapCx.ite ht2.putScalar).done) <|
  .cons execMxcmd <| .cons mxQueued <| .cons mxQueued <| .nil

theorem State.Formed.runA : TableFormed runA :=
  runA0.append <| runA1.append <| runA2.append <| runA3.append runA4

theorem State.Formed.runI : TableFormed runI :=
  .cons binaryImm <| .cons binaryImm <| .cons binaryImm <| .cons binaryImm <| .cons binaryImm <| .cons binaryImm <|
  .cons scalar <| .nil

theorem State.Formed.runL : TableFormed runL :=
  .cons scalar <| .nil

theorem State.Formed.runM0 : TableFormed runM0 :=
  .cons ld <| .cons ld <| .cons ld <| .cons ld <| .cons ld <| .cons ld <| .cons ld <| .cons st <| .cons st <|
  .cons st <| .cons st <| .cons vld <| .cons vld <| .cons vld <| .cons vld <| .cons vld <| .cons vst <| .cons vst <|
  .cons vst <| .cons vst <| .cons vst <| .cons atom <| .cons atom <| .cons atom <| .cons atom <| .cons atom <|
  .cons atom <| .cons atom <| .cons atom <| .cons atom <| .cons atom <| .cons atom <| .cons atom <| .cons atom <|
  .cons atom <| .cons atom <| .cons atom <| .cons atom <| .cons atom <| .cons cas <| .nil

theorem State.Formed.runM1 : TableFormed runM1 :=
  .cons cas <|
  .cons (fun h => h.run fun _ _ ht => ht.atomAddr fun _ _ ht2 => ht2.atomic fun _ _ _ ht3 => ht3.putScalar.mapCx.done)
    <|
  .cons reduce <| .cons reduce <|
  .cons (fun h => h.run fun _ _ ht => ht.atomAddr fun _ _ ht2 => ht2.atomic fun _ _ _ ht3 => ht3.done) <|
  .cons reduce <| .cons reduce <| .cons reduce <| .cons reduce <| .cons execBatchc <|
  .cons (fun h => h.run fun _ _ ht => ht.withWord fun _ _ ht2 => ht2.ending fun _ _ ht3 => ht3.saveArgs.ite ht3) <|
  .cons (fun h => h.run fun _ _ ht => ht.note) <| .cons (fun h => h.run fun _ _ ht => ht.note) <| .cons execSwset <|
  .cons execSwwait <| .cons execDect <| .nil

theorem State.Formed.runM : TableFormed runM := runM0.append runM1

theorem State.Formed.runB : TableFormed runB :=
  .cons (fun h => h.run fun _ _ ht => ht.doneTo) <| .cons (fun h => h.run fun _ _ ht => ht.doneTo) <|
  .cons (fun h => h.run fun _ _ ht => ht.putScalar.doneTo) <|
  .cons (fun h => h.run fun _ _ ht => ht.putScalar.doneTo) <| .cons (fun h => h.run fun _ _ ht => ht.doneTo) <|
  .cons (fun h => h.run fun _ _ ht => ht.putScalar.doneTo) <| .nil

theorem State.Formed.runC : TableFormed runC :=
  .cons (fun h => h.run fun _ _ ht => ht.ending fun _ _ ht2 => ht2) <|
  .cons (fun h => h.run fun _ _ ht => ht.ending fun _ _ ht2 => ht2) <| .cons (fun h => h.run fun _ _ ht => ht.done) <|
  .cons execFence <| .cons execFwait <| .cons execBopen <| .cons execBclose <| .cons execRgopen <|
  .cons (fun h => h.run fun _ _ ht => ht.closing fun _ ht2 => ht2.mapCx.putScalar.done) <|
  .cons (fun h => h.run fun _ _ ht => ht.stallOn.ite (ht.stallOn.ite (ht.closing fun _ ht2 =>
    ht2.acquire.putScalar.done))) <|
  .cons (fun h => h.run fun _ _ ht => ht.putScalar.done) <| .cons (fun h => h.run fun _ _ ht => ht.putScalar.done) <|
  .cons csrForm <| .cons csrForm <| .cons csrForm <|
  .cons (fun h => h.run fun _ _ ht => (ht.ite ht.mapCx).trapEntry) <|
  .cons (fun h => h.run fun _ _ ht => ht.trapReturn) <|
  .cons (fun h => h.run fun _ _ ht => ht.contextFault.ite ht.mapCx.saveContext) <|
  .cons (fun h => h.run fun _ _ ht => ht.forceSave.ite ht.done.forceSave) <|
  .cons (fun h => h.run fun _ _ ht => ht.putScalar.done) <| .cons (fun h => h.run fun _ _ ht => ht.putScalar.done) <|
  .cons execEcall <| .cons (fun h => h.run fun _ _ ht => ht.trapEntry) <|
  .cons (fun h => h.run fun _ _ ht => ht.putScalar.done.ite ht.stallOn) <| .nil

theorem State.Formed.runE : TableFormed runE :=
  .cons engineForm <| .cons engineForm <| .cons engineForm <| .cons engineForm <| .cons engineForm <|
  .cons engineForm <| .cons engineForm <| .cons engineForm <| .cons engineForm <| .cons engineForm <|
  .cons engineForm <| .cons engineForm <| .cons engineForm <| .cons engineForm <| .cons engineForm <|
  .cons engineForm <| .cons engineForm <| .cons (fun h => h.run fun _ _ ht => ht.accessFault.ite ht.mapCx.done) <|
  .cons (fun h => h.run fun _ _ ht => ht.mapCx.done) <| .cons sendForm <| .cons sendForm <| .cons recv <| .cons recv <|
  .cons mbset <| .cons mbset <|
  .cons (fun h => h.run fun _ _ ht => ht.accessFault.ite (ht.stallOn.ite ht.placeLaunch.putScalar.done)) <|
  .cons execChwin <| .cons execChstat <| .cons (fun h => h.run fun _ _ ht => ht.mapCx.done) <|
  .cons (fun h => h.run fun _ _ ht => (ht.mapCx.ite ht).putScalar.done) <|
  .cons (fun h => h.run fun _ _ ht => ht.accessFault.ite ht.putScalar.done) <| .nil

theorem State.Formed.runP : TableFormed runP :=
  .cons (fun h => h.run fun _ _ ht => ht.decodeFault.ite ht.mapCx) <| .nil

theorem State.Formed.runForm {f} (h : s.Formed) : Result.Formed (runForm f s) := by
  cases f with
  | a op o => exact runA.runOp h
  | i op o => exact runI.runOp h
  | l op o => exact runL.runOp h
  | m op o => exact runM.runOp h
  | b op o => exact runB.runOp h
  | c op o => exact runC.runOp h
  | e op o => exact runE.runOp h
  | p op o => exact runP.runOp h
  | pad => exact h.mapCx
  | event => exact h

theorem State.Formed.runFetched {c x} (h : s.Formed) : Result.Formed (s.runFetched c x) := by
  unfold State.runFetched
  split
  · exact h.fetchFault
  · exact h.execUnassignedOpValue
  · split
    · split
      · exact h.runForm
      · split
        · split
          · exact h.endRep
          · exact h.runForm
        · exact h.endRep
    · exact h.runForm

theorem State.Formed.seatRun (h : s.Formed) : Result.Formed s.seatRun := by
  unfold State.seatRun
  split
  · exact h
  · split
    · exact h
    · split
      · exact h.deliverFault
      · split
        · exact h.recheck fun _ ht => ht
        · exact h.runFetched

theorem Result.Formed.afterRun {r} (hr : Result.Formed r) : Result.Formed (s.afterRun r) := by
  unfold State.afterRun
  split
  · have ht : State.Formed _ := hr
    split
    · split
      · exact ht.owe
      · exact ht
    · exact ht
  · exact hr

theorem State.Formed.seatStep (h : s.Formed) : Result.Formed s.seatStep := Result.Formed.afterRun h.seatRun

/-! ## Preempt -/

theorem State.Formed.withhold {id} (h : s.Formed) : (s.withhold id).Formed := h.mapSeat

theorem State.Formed.stopSeat {id forced} (h : s.Formed) : (s.stopSeat id forced).Formed := by
  unfold State.stopSeat
  split
  · exact h
  · split
    · exact h.forceSave.ite h
    · split
      · exact h
      · split
        · exact h.deliverFault
        · exact h.mapSeat.ite (h.withhold.forceSave.ite h.withhold.clearWait.mapSeat.owe)

theorem State.Formed.enterYield {id} (h : s.Formed) : (s.enterYield id).Formed := by
  unfold State.enterYield
  split
  · exact h
  · split
    · exact h.forceSave
    · exact h.mapSeat

theorem State.Formed.stopHolder {id idx} (h : s.Formed) : (s.stopHolder id idx).Formed := by
  unfold State.stopHolder
  split
  · exact h
  · split
    · exact h
    · dsimp only
      split
      · exact h
      · exact h.mapSeat.ite (h.deliverFault.ite (h.withhold.report.forceSave.ite h.fatal))

theorem State.Formed.execCopyQuiesceDone {id} (h : s.Formed) : Result.Formed (execCopyQuiesceDone id s) := by
  unfold Machine.execCopyQuiesceDone
  split
  · exact h
  · split
    · split
      · exact h
      · split
        · exact h.stopHolder
        · exact h.stopSeat
    · split
      · exact h.enterYield
      · exact h

theorem State.Formed.execYieldBudgetOverrun {id} (h : s.Formed) : Result.Formed (execYieldBudgetOverrun id s) := by
  unfold Machine.execYieldBudgetOverrun
  split
  · exact h
  · split
    · exact h.forceSave
    · exact h

theorem State.Formed.execForcedSaveComplete {id} (h : s.Formed) : Result.Formed (execForcedSaveComplete id s) := by
  unfold Machine.execForcedSaveComplete
  split
  · exact h
  · split
    · exact h.saveContext
    · exact h

theorem State.Formed.execImpreciseFaultDelivery {ctx} (h : s.Formed) :
    Result.Formed (execImpreciseFaultDelivery ctx s) := by
  unfold Machine.execImpreciseFaultDelivery
  split
  · exact h
  · split
    · exact h.updCtx.send
    · split
      · exact h
      · exact h.deliverFault

theorem State.Formed.giveFootprint {core ctx fp} (h : s.Formed) : (s.giveFootprint core ctx fp).Formed := h

theorem State.Formed.evictRows {c} (h : s.Formed) : (s.evictRows c).Formed := h.saveRows.updCtx

theorem State.Formed.giveGranules {core ctx need} (h : s.Formed) : (s.giveGranules core ctx need).Formed :=
  h.foldl fun _ _ ht => ht.evictRows

theorem State.Formed.fillLaunchArea {core slot} (h : s.Formed) : (s.fillLaunchArea core slot).Formed := by
  unfold State.fillLaunchArea
  split
  · exact h
  · split
    · exact h
    · exact (formed_mk (Memory.wf_foldl (Memory.wf_zero _ _ h) fun _ _ ht => Memory.wf_writeNat _ _ _ ht)).mapCore

theorem State.Formed.putOnSeat {id c} (h : s.Formed) : (s.putOnSeat id c).Formed :=
  h.mapCore.update.ite h.mapCore.update

theorem State.Formed.abandonCopies {n} (h : s.Formed) : (s.abandonCopies n).Formed := by
  unfold State.abandonCopies
  split
  · exact h
  · exact h.foldl fun _ _ ht => ht.foldl fun _ _ ht2 => ht2.completeCmd.ite ht2.writeStatus.chargeCtx.updCtx

theorem State.Formed.continueCopies {n} (h : s.Formed) : (s.continueCopies n).Formed := by
  unfold State.continueCopies
  split
  · exact h
  · refine h.foldl fun t _ ht => ?_
    refine ht.foldl fun t2 _ ht2 => ?_
    split
    · exact ht2.completeCmd
    · split
      · exact ht2.owe
      · exact ht2.owe
      · exact ht2.pump
      · exact ht2

theorem State.Formed.applyHeld {n} (h : s.Formed) : (s.applyHeld n).Formed := by
  unfold State.applyHeld
  split
  · exact h
  · exact h.updCtx.foldl fun _ _ ht => ht.peerLost

theorem State.Formed.resumeMatrix {n} (h : s.Formed) : (s.resumeMatrix n).Formed := by
  unfold State.resumeMatrix
  split
  · exact h
  · exact h.oweSequencer.ite (h.mapCores.ite h.mapCores.claimMatrix)

theorem State.Formed.resumeHandler {n} (h : s.Formed) : (s.resumeHandler n).Formed := h.updCtx

theorem State.Formed.resumeOn {n id} (h : s.Formed) : (s.resumeOn n id).Formed := by
  unfold State.resumeOn
  split
  · exact h
  · extract_lets same goOn kept info s0 back s1 s2 old s3 s4 s5 s6
    have h1 : s1.Formed := (h.ite h.evictRows).giveGranules.giveFootprint.fillLaunchArea.flushReads
    have h2 : s2.Formed := h1.restoreFootprint.ite h1
    have h3 : s3.Formed := h2.dropCtx.putOnSeat
    have h4 : s4.Formed := Formed.resumeMatrix (h3.saveAccumulators.ite h3)
    have h5 : s5.Formed := h4.continueCopies.ite h4.abandonCopies
    exact h5.applyHeld.resendMsgs.updCtx.resumeHandler

/-! ## Requests -/

theorem State.Formed.refuseReq {r d off} (h : s.Formed) : (s.refuseReq r d off).Formed := by
  unfold State.refuseReq
  dsimp only
  split
  · exact h.imprecise
  · split
    · exact h.mapCmd
    · split
      · exact h.mapCmd
      · exact h.mapCmd.breachCmd
  · split
    · exact h.engineError.report
    · exact h.engineError
  · split
    · exact h.engineError.report
    · exact h.engineError
  · exact h.send

theorem State.Formed.answerReq {r val bytes} (h : s.Formed) : (s.answerReq r val bytes).Formed := by
  unfold State.answerReq
  split
  · exact h.landed
  · exact h.send
  · exact h

theorem State.Formed.armSync {off target} (h : s.Formed) : (s.armSync off target).Formed :=
  formed_mk (Memory.wf_writeNat _ _ _ h)

theorem State.Formed.performReq {r} (h : s.Formed) : (s.performReq r).Formed := by
  unfold State.performReq
  split
  · exact h
  · split
    · exact h.refuseReq
    · split
      · exact h.refuseReq
      · exact h.refuseReq
      · extract_lets
        split
        · exact h.cacheOwners.answerReq
        · split
          · exact h.cacheOwners.refuseReq
          · refine Formed.answerReq ?_
            split
            · exact h.cacheOwners.writeBytes.flagAt
            · exact h.cacheOwners.writeBytes
        · exact h.cacheOwners.refuseReq.ite h.cacheOwners.atomicAt.answerReq
        · exact h.cacheOwners.noteAt.answerReq
        · exact h.cacheOwners.armSync.answerReq

theorem State.Formed.execHomeSliceRequest {r} (h : s.Formed) : Result.Formed (execHomeSliceRequest r s) := by
  unfold Machine.execHomeSliceRequest
  split
  · exact h.performReq
  · exact h

theorem State.Formed.execWindowRequest {r} (h : s.Formed) : Result.Formed (execWindowRequest r s) := by
  unfold Machine.execWindowRequest
  split
  · exact h.performReq
  · exact h

theorem State.Formed.execClusterUnitAtomic {scope r} (h : s.Formed) :
    Result.Formed (execClusterUnitAtomic scope r s) := by
  unfold Machine.execClusterUnitAtomic
  split
  · split
    · exact h.performReq.takeLine
    · exact h
  · exact h

theorem State.Formed.execOwnerEntryFetchReturn {slice granule} (h : s.Formed) :
    Result.Formed (execOwnerEntryFetchReturn slice granule s) := by
  unfold Machine.execOwnerEntryFetchReturn
  split
  · exact h.cacheOwner
  · exact h

theorem State.Formed.execOwnerMapUpdate {granule} (h : s.Formed) : Result.Formed (execOwnerMapUpdate granule s) := by
  unfold Machine.execOwnerMapUpdate
  split
  · exact h.update.owe
  · exact h

theorem State.Formed.execOwnerMapUpdateComplete (h : s.Formed) : Result.Formed (execOwnerMapUpdateComplete s) := by
  unfold Machine.execOwnerMapUpdateComplete
  split
  · exact ((formed_mk (Memory.wf_zero _ _ h)).ite h.update).dcbSetField
  · exact h

/-! ## Fabric -/

theorem State.Formed.mapCtxs {f} (h : s.Formed) : (s.mapCtxs f).Formed := h

theorem State.Formed.linkFail (h : s.Formed) : s.linkFail.Formed := h.dcbSetField

theorem State.Formed.countPurged {tenant lslot} (h : s.Formed) : (s.countPurged tenant lslot).Formed := h

theorem State.Formed.countRefused {st code} (h : s.Formed) : (s.countRefused st code).Formed := h.ite h.update

theorem State.Formed.ackStore {st refused} (h : s.Formed) : (s.ackStore st refused).Formed := by
  unfold State.ackStore
  split
  · exact h
  · refine Formed.answer ?_
    split
    · exact h.countRefused
    · exact h

theorem State.Formed.performStore {st} (h : s.Formed) : (s.performStore st).Formed := by
  unfold State.performStore
  extract_lets offs word
  split
  · exact h.ackStore
  · exact h.ackStore
  · extract_lets hbm s0 s1 s2
    have h0 : s0.Formed := h.cacheOwners
    have h2 : s2.Formed := by
      dsimp only [s2]
      split
      · exact h0.writeBytes.flagAt
      · exact h0.writeBytes
    clear_value s0 s2
    split
    · exact h0.ackStore
    · split
      · split
        · exact (h0.prepareAll.of_fst ‹_›).ackStore
        · exact (h0.prepareAll.of_fst ‹_›).ackStore.answer
      · exact h2.ackStore

theorem State.Formed.setWindow {w} (h : s.Formed) : (s.setWindow w).Formed := h

theorem State.Formed.releaseStores {src fuel} (h : s.Formed) : (s.releaseStores src fuel).Formed := by
  induction fuel generalizing s with
  | zero => exact h
  | succ fuel ih =>
    unfold State.releaseStores
    dsimp only
    split
    · exact h
    · exact ih h.setWindow.performStore

theorem State.Formed.replyClose {dev ctx tag} (h : s.Formed) : (s.replyClose dev ctx tag).Formed := h.update.answer

theorem State.Formed.answerCloses (h : s.Formed) : s.answerCloses.Formed := h.update.foldl fun _ _ ht => ht.replyClose

theorem State.Formed.grantWindow {src next} (h : s.Formed) : (s.grantWindow src next).Formed :=
  h.update.setWindow.answer

theorem State.Formed.grantAsks {asks} (h : s.Formed) : (s.grantAsks asks).Formed := by
  induction asks generalizing s with
  | nil => exact h
  | cons a rest ih =>
    unfold State.grantAsks
    split
    · exact ih h.grantWindow
    · exact h

theorem State.Formed.askWindow {src next} (h : s.Formed) : (s.askWindow src next).Formed :=
  h.grantWindow.ite h.grantAsks

theorem State.Formed.backWindow {src} (h : s.Formed) : (s.backWindow src).Formed := h.setWindow.ite h.update.grantAsks

theorem State.Formed.freeSources {mine} (h : s.Formed) : (s.freeSources mine).Formed := h.update.grantAsks

theorem State.Formed.execStreamStoreArrival {st} (h : s.Formed) : Result.Formed (execStreamStoreArrival st s) := by
  unfold Machine.execStreamStoreArrival
  split
  · exact h
  · split
    · exact h.performStore.answerCloses
    · dsimp only
      split
      · exact h.answerCloses
      · split
        · exact h.setWindow.performStore.releaseStores.answerCloses
        · exact h.setWindow

theorem State.Formed.giveBack {c w} (h : s.Formed) : (s.giveBack c w).Formed := h.packet.updCtx

theorem State.Formed.execReorderWindowGrant {ctx strm dev} (h : s.Formed) :
    Result.Formed (execReorderWindowGrant ctx strm dev s) := by
  unfold Machine.execReorderWindowGrant
  split
  · exact h
  · split
    · exact h
    · split
      · exact h
      · split
        · exact h.packet
        · split
          · exact h.updCtx
          · exact h.giveBack.cleanEnded

theorem State.Formed.execBatchCloseArrival {dev ctx tag} (h : s.Formed) :
    Result.Formed (execBatchCloseArrival dev ctx tag s) := by
  unfold Machine.execBatchCloseArrival
  split
  · exact h
  · split
    · exact h
    · exact h.replyClose

theorem State.Formed.execBatchCloseReply {ctx tag dev refused reasons} (h : s.Formed) :
    Result.Formed (execBatchCloseReply ctx tag dev refused reasons s) := by
  unfold Machine.execBatchCloseReply
  split
  · exact h
  · split
    · exact h
    · split
      · exact h
      · exact h.updCtx.completeCloses

theorem State.Formed.forgetMoved {st} (h : s.Formed) : (s.forgetMoved st).Formed := h

theorem State.Formed.passOver {st} (h : s.Formed) : (s.passOver st).Formed := h.owe

theorem State.Formed.arriveStore {st} (h : s.Formed) : (s.arriveStore st).Formed := by
  unfold State.arriveStore
  dsimp only
  split
  · exact h.forgetMoved.owe
  · exact h.forgetMoved.update.answer.ite h.forgetMoved.ackStore.passOver

theorem State.Formed.abandonStore {st} (h : s.Formed) : (s.abandonStore st).Formed :=
  h.forgetMoved.countRefused.passOver.ite h

theorem State.Formed.serveLoad {tenant p hdl parts sync own} (h : s.Formed) :
    (s.serveLoad tenant p hdl parts sync own).Formed := by
  unfold State.serveLoad
  dsimp only
  split
  · exact h.answer
  · split
    · exact h.answer
    · exact (h.ite (h.foldl fun _ _ ht => ht.recordRace)).cacheOwners.answer

theorem State.Formed.serveHit {tenant p hdl line filled parts} (h : s.Formed) :
    (s.serveHit tenant p hdl line filled parts).Formed := by
  unfold State.serveHit
  dsimp only
  split
  · exact h.answer
  · split
    · exact h.answer
    · exact h.cacheOwners.recordRace.answer

theorem State.Formed.serveEngine {tenant dev ctx vq num hdl parts} (h : s.Formed) :
    (s.serveEngine tenant dev ctx vq num hdl parts).Formed := by
  unfold State.serveEngine
  dsimp only
  split
  · exact h.answer
  · split
    · exact h.answer
    · exact h.cacheOwners.answer

theorem State.Formed.serveAtomic {tenant dev ctx hdl off op w b ret} (h : s.Formed) :
    (s.serveAtomic tenant dev ctx hdl off op w b ret).Formed := by
  unfold State.serveAtomic
  dsimp only
  split
  · exact h.answer
  · split
    · exact h.answer
    · exact h.cacheOwners.takeLine.answer.ite h.cacheOwners.takeLine.atomicAt.answer

theorem State.Formed.wakeAbroad {p idx cause} (h : s.Formed) : (s.wakeAbroad p idx cause).Formed :=
  (h.checkedDone.update.wakeRecord.ite h.checkedDone.update).ite h

theorem State.Formed.noteRetry {p} (h : s.Formed) : (s.noteRetry p).Formed := h.ite h.update

theorem State.Formed.dropRetry {p} (h : s.Formed) : (s.dropRetry p).Formed := h

theorem State.Formed.waitRefused {dev p idx code} (h : s.Formed) : (s.waitRefused dev p idx code).Formed := by
  unfold State.waitRefused
  split
  · exact h
  · dsimp only
    split
    · exact h
    · exact h.noteRetry.ite h.dropRetry.checkedDone.update.faultRecord

theorem State.Formed.noteMade {ctx dev off} (h : s.Formed) : (s.noteMade ctx dev off).Formed := by
  unfold State.noteMade
  dsimp only
  split
  · exact h.checkedDone.dropRetry
  · exact h.checkedDone

theorem State.Formed.noteRefused {ctx dev off code} (h : s.Formed) : (s.noteRefused ctx dev off code).Formed := by
  unfold State.noteRefused
  split
  · exact h.noteRetry.ite h.noteMade.imprecise
  · exact h

theorem State.Formed.resetStreams {dev} (h : s.Formed) : (s.resetStreams dev).Formed := h.mapCtxs.freeSources

theorem State.Formed.purgedReply {p} (h : s.Formed) : (s.purgedReply p).Formed := by
  unfold State.purgedReply
  split
  · exact h.answer
  · exact h.answer
  · exact h.answer
  · exact h.answer
  · exact h.answer
  · exact h.answer
  · exact h.answer
  · exact h.answer
  · exact h

theorem State.Formed.execFabricRequestArrival {p} (h : s.Formed) : Result.Formed (execFabricRequestArrival p s) := by
  unfold Machine.execFabricRequestArrival
  split
  · exact h
  · split
    · exact h.owe
    · split
      · exact h.linkFail
      · split
        · exact h.countPurged.purgedReply
        · split
          · exact h.askSplit.owe
          · split
            · exact h.arriveStore
            · exact h.abandonStore
            · exact h.serveLoad
            · exact h.serveHit
            · exact h.serveEngine
            · exact h.clearParties
            · exact h.owe
            · dsimp only
              split
              · exact h.answer
              · split
                · exact h.answer
                · exact h.cacheOwners.owe
            · exact h.serveAtomic
            · split
              · exact h.answer
              · exact h.noteAt.answer
            · split
              · exact h.packet0
              · exact h.enqueueWait.answer
            · exact h.askWindow
            · exact h.backWindow
            · exact h.freeSources
            · exact h
            · exact h.resetStreams
            · exact h.owe
            · exact h.wakeAbroad.ite h.waitRefused
            · exact h.owe
            · exact h.update.owe

theorem State.Formed.execFabricForward {p} (h : s.Formed) : Result.Formed (execFabricForward p s) := by
  unfold Machine.execFabricForward
  split
  · exact h
  · split
    · exact h
    · split
      · exact h.dcbSetField
      · dsimp only
        split
        · exact h
        · split
          · exact h.owe
          · exact (h.update.ite h).update.send

theorem State.Formed.storeFault {ctx x st dev code} (h : s.Formed) : (s.storeFault ctx x st dev code).Formed := by
  unfold State.storeFault
  split
  · exact h.imprecise
  · exact h.imprecise

theorem State.Formed.returnWindow {c strm dev} (h : s.Formed) : (s.returnWindow c strm dev).Formed := by
  unfold State.returnWindow
  split
  · exact h
  · exact h.ite h.giveBack

theorem State.Formed.answeredAway {c dev bytes} (h : s.Formed) : (s.answeredAway c dev bytes).Formed :=
  h.dropLines.runCloses.cleanEnded

theorem State.Formed.storeAnswered {ctx strm dev seq refused} (h : s.Formed) :
    (s.storeAnswered ctx strm dev seq refused).Formed := by
  unfold State.storeAnswered
  dsimp only
  split
  · refine Formed.answeredAway ?_
    split
    · exact h.updCtx.dropRetry.returnWindow.storeFault
    · exact h.updCtx.dropRetry.returnWindow
  · exact h.updCtx.cleanEnded

theorem State.Formed.landingAnswered {ctx qi seq dev refused} (h : s.Formed) :
    (s.landingAnswered ctx qi seq dev refused).Formed := by
  unfold State.landingAnswered
  extract_lets num sent s00 s0 ga s1
  clear_value sent
  have h00 : s00.Formed := by
    dsimp only [s00]
    split
    · exact h.dropRetry
    · exact h
  have h0 : s0.Formed := h00.mapCmd
  clear_value s0
  split
  · exact h0.chargeCtx.landed
  · split
    · exact h0.mapCmd
    · split
      · exact h0.mapCmd.breachCmd
      · exact h0.mapCmd.faultCmd

theorem State.Formed.messageAnswered {ctx strm seq dropped} (h : s.Formed) :
    (s.messageAnswered ctx strm seq dropped).Formed := by
  unfold State.messageAnswered
  split
  · exact h
  · exact h.answerMsg

theorem State.Formed.reductionAnswered {ctx dev refused} (h : s.Formed) :
    (s.reductionAnswered ctx dev refused).Formed := by
  unfold State.reductionAnswered
  split
  · exact h
  · refine Formed.answeredAway ?_
    split
    · exact (h.updCtx.flushReads.ite h.updCtx).imprecise
    · exact h.updCtx.flushReads.ite h.updCtx

theorem State.Formed.giveUpStore {p st} (h : s.Formed) : (s.giveUpStore p st).Formed :=
  h.send.storeAnswered.ite h.send.landingAnswered

theorem State.Formed.execStoreAck {ctx strm dev seq refused} (h : s.Formed) :
    Result.Formed (execStoreAck ctx strm dev seq refused s) := by
  unfold Machine.execStoreAck
  split
  · exact h
  · split
    · exact h
    · split
      · split
        · split
          · exact h.noteRetry
          · exact h.dropRetry.reductionAnswered
        · exact h.reductionAnswered
      · split
        · split
          · exact h.noteRetry.ite h.giveUpStore
          · exact h
        · split
          · exact h.storeAnswered
          · split
            · exact h.reductionAnswered
            · split
              · exact h.landingAnswered
              · split
                · split
                  · exact h.noteRefused
                  · exact h.noteMade
                · split
                  · exact h.checkedDone
                  · exact h.messageAnswered

theorem State.Formed.replyCame {ctx dev group r} (h : s.Formed) : (s.replyCame ctx dev group r).Formed := by
  unfold State.replyCame
  dsimp only
  split
  · exact (h.updCtx.updCtx.ite h.updCtx).owe.ite (h.updCtx.updCtx.ite h.updCtx)
  · exact h.updCtx.updCtx.ite h.updCtx

theorem State.Formed.engineReply {ctx k p r} (h : s.Formed) : (s.engineReply ctx k p r).Formed := by
  unfold State.engineReply
  split
  · exact h
  · split
    · exact h
    · dsimp only
      split
      · exact h.mapCmd.mapCmd.breachCmd
      · exact h.mapCmd.copyReply.ite h.mapCmd.collReply

theorem State.Formed.hitAnswered {ctx dev line r} (h : s.Formed) : (s.hitAnswered ctx dev line r).Formed := by
  unfold State.hitAnswered
  refine Formed.cleanEnded ?_
  split
  · exact h.updCtx.imprecise
  · exact h.updCtx

theorem State.Formed.execLoadReply {ctx dev cmd r} (h : s.Formed) : Result.Formed (execLoadReply ctx dev cmd r s) := by
  unfold Machine.execLoadReply
  split
  · exact h
  · dsimp only
    split
    · exact h
    · split
      · exact h
      · split
        · split
          · exact h.noteRetry
          · split
            · exact h.dropRetry.replyCame
            · exact h.dropRetry.hitAnswered.ite (h.dropRetry.replyCame.ite h.dropRetry.engineReply)
        · split
          · exact h.noteRetry
          · split
            · exact h.dropRetry.replyCame
            · exact h.dropRetry.hitAnswered.ite (h.dropRetry.replyCame.ite h.dropRetry.engineReply)

theorem State.Formed.execRemoteMovingRetry {k} (h : s.Formed) : Result.Formed (execRemoteMovingRetry k s) := by
  unfold Machine.execRemoteMovingRetry
  split
  · exact h
  · dsimp only
    split
    · exact (h.dropRetry.ite h).send
    · split
      · exact h.dropRetry.giveUpStore
      · exact h.dropRetry.replyCame
      · exact h.dropRetry.hitAnswered
      · exact h.dropRetry.replyCame
      · exact h.dropRetry.replyCame
      · exact h.dropRetry.reductionAnswered
      · exact h.dropRetry.engineReply
      · exact h.dropRetry.noteRefused
      · exact h.dropRetry.waitRefused
      · exact h.dropRetry

theorem State.Formed.execSplitRequest {ctx} (h : s.Formed) : Result.Formed (execSplitRequest ctx s) := by
  unfold Machine.execSplitRequest
  split
  · exact h
  · split
    · exact h
    · split
      · exact h.owe
      · split
        · exact h.modelFault
        · exact h.clearRegionOf

/-! ## Protocol -/

theorem State.Formed.serveAgain (h : s.Formed) : s.serveAgain.Formed := h.foldl fun _ _ ht => ht.ite ht.owe

theorem State.Formed.dropSettled (h : s.Formed) : s.dropSettled.Formed := h.update.cleanEnded

theorem State.Formed.execBundlePrepare {p} (h : s.Formed) : Result.Formed (execBundlePrepare p s) := by
  unfold Machine.execBundlePrepare
  split
  · exact h
  · split
    · exact h
    · split
      · exact h
      · split
        · exact (h.prepareAll.of_fst ‹_›).answer
        · exact (h.prepareAll.of_fst ‹_›).answer

theorem State.Formed.execPrepareAck {ctx ident comp refused} (h : s.Formed) :
    Result.Formed (execPrepareAck ctx ident comp refused s) := by
  unfold Machine.execPrepareAck
  split
  · exact h
  · split
    · split
      · exact h.doomOpen
      · exact h
    · exact h

theorem State.Formed.execBundleFinal {slice ident comps} (h : s.Formed) :
    Result.Formed (execBundleFinal slice ident comps s) := by
  unfold Machine.execBundleFinal
  split
  · exact h
  · dsimp only
    split
    · split
      · exact h.finalAt.owe
      · exact h.finalAt
    · exact h.finalAt.answer

theorem State.Formed.execFinalReply {ctx dev slice ans} (h : s.Formed) :
    Result.Formed (execFinalReply ctx dev slice ans s) := by
  unfold Machine.execFinalReply
  split
  · exact h
  · dsimp only
    split
    · exact h
    · split
      · exact h
      · split
        · exact h.abortClose
        · split
          · exact h.mapBundle.owe
          · exact h.mapBundle

theorem State.Formed.execBundleDecide {ident m} (h : s.Formed) : Result.Formed (execBundleDecide ident m s) := by
  unfold Machine.execBundleDecide
  split
  · exact h
  · split
    · exact h
    · split
      · exact h
      · split
        · exact h
        · split
          · exact h
          · exact (h.commitPoint.of_fst ‹_›).mapBrec.mapBundle.foldl fun _ _ ht => ht.tell

theorem State.Formed.ackOutcome {slice ident} (h : s.Formed) : (s.ackOutcome slice ident).Formed := h.owe.ite h.answer

theorem State.Formed.execBundleCommit {slice ident c} (h : s.Formed) :
    Result.Formed (execBundleCommit slice ident c s) := by
  unfold Machine.execBundleCommit
  split
  · exact h
  · exact h.installAt.ackOutcome.serveAgain

theorem State.Formed.execBundleAbort {slice ident} (h : s.Formed) : Result.Formed (execBundleAbort slice ident s) := by
  unfold Machine.execBundleAbort
  split
  · exact h
  · exact h.abortAt.ackOutcome.serveAgain

theorem State.Formed.commitStep {ident comp} (h : s.Formed) : (s.commitStep ident comp).Formed := by
  unfold State.commitStep
  split
  · exact h
  · split
    · exact h
    · exact h.ite (h.mapBundle.finishCommit.dropSettled.ite h.mapBundle)

theorem State.Formed.execCommitAck {ident dev slice} (h : s.Formed) :
    Result.Formed (execCommitAck ident dev slice s) := by
  unfold Machine.execCommitAck
  split
  · exact h
  · exact h.mapBrec.commitStep.freeBrecs

theorem State.Formed.tellFate {asker ident t replier f} (h : s.Formed) : (s.tellFate asker ident t replier f).Formed :=
  h.owe.ite h.answer

theorem State.Formed.execFateQuestion {ident t slice asker} (h : s.Formed) :
    Result.Formed (execFateQuestion ident t slice asker s) := by
  unfold Machine.execFateQuestion
  split
  · exact h
  · dsimp only
    split
    · exact h.tellFate
    · split
      · exact h.askDecider.tellFate
      · split
        · exact h.tellFate
        · exact h.answer

theorem State.Formed.orphanStep {slice ident rest} (h : s.Formed) : (s.orphanStep slice ident rest).Formed :=
  h.update.abortAt.ite h.update

theorem State.Formed.orphan {slice ident} (h : s.Formed) : (s.orphan slice ident).Formed := by
  unfold State.orphan
  split
  · exact h
  · split
    · exact h.abortAt
    · dsimp only
      split
      · exact h.installAt
      · exact (h.foldl fun _ _ ht => ht.answer).orphanStep

theorem State.Formed.forgetAsked {slice ident} (h : s.Formed) : (s.forgetAsked slice ident).Formed := h

theorem State.Formed.noteReplier {slice ident a} (h : s.Formed) : (s.noteReplier slice ident a).Formed :=
  h.update.foldl fun _ _ ht => ht.updCtx

theorem State.Formed.execFateReply {slice ident answer} (h : s.Formed) :
    Result.Formed (execFateReply slice ident answer s) := by
  unfold Machine.execFateReply
  split
  · exact h
  · extract_lets t
    have ht : t.Formed := h.noteReplier
    show State.Formed _
    split
    · exact ht.installAt.forgetAsked.serveAgain
    · exact ht.orphanStep.serveAgain
    · exact ht.abortAt.forgetAsked.serveAgain
    · exact Formed.serveAgain ht.update

theorem State.Formed.execGroupLoadServe {dev ctx hdl parts t} (h : s.Formed) :
    Result.Formed (execGroupLoadServe dev ctx hdl parts t s) := by
  unfold Machine.execGroupLoadServe
  split
  · exact h
  · dsimp only
    split
    · exact h
    · split
      · split
        · exact (h.update.groupLines.of_fst ‹_›).update.updCtx
        · exact (h.update.groupLines.of_fst ‹_›).update
      · exact (h.update.groupLines.of_fst ‹_›).replyCame.ite (h.update.groupLines.of_fst ‹_›).answer

/-! ## Links -/

theorem State.Formed.loseReplies {dev} (h : s.Formed) : (s.loseReplies dev).Formed :=
  h.foldl fun _ _ ht => ht.foldl fun _ _ ht2 => ht2.replyCame

theorem State.Formed.settleCloses (h : s.Formed) : s.settleCloses.Formed := h.foldl fun _ _ ht => ht.completeCloses

theorem State.Formed.loseBundle {c b dev} (h : s.Formed) : (s.loseBundle c b dev).Formed := by
  unfold State.loseBundle
  split
  · exact h
  · split
    · exact h.doomOpen
    · exact h.doomOpen
    · exact h.abortClose
    · exact h.abortClose
    · exact h.mapBundle.finishCommit.dropSettled.ite h.mapBundle
    · exact h

theorem State.Formed.loseBundles {dev} (h : s.Formed) : (s.loseBundles dev).Formed := by
  unfold State.loseBundles
  refine Formed.serveAgain (Formed.update (Formed.foldl (Formed.foldl (Formed.dropSettled (Formed.freeBrecs
      (Formed.update (h.foldl fun t _ ht => ?_)))) fun _ _ ht => ht.orphanStep) fun _ _ ht => ht.orphan))
  split
  · exact ht.loseBundle
  · exact ht

theorem State.Formed.loseFabric {dev} (h : s.Formed) : (s.loseFabric dev).Formed := h.freeSources.update

theorem State.Formed.loseReductions {dev} (h : s.Formed) : (s.loseReductions dev).Formed :=
  h.foldl fun _ _ ht => ht.peerLost.ite ht

theorem State.Formed.loseWaits {dev} (h : s.Formed) : (s.loseWaits dev).Formed :=
  (h.foldl fun _ _ ht => ht.wakeAbroad).update.update

theorem State.Formed.markLost {dev} (h : s.Formed) : (s.markLost dev).Formed := by
  unfold State.markLost
  split
  · exact h
  · extract_lets s1 s2 s3 s4 s5
    have h3 : s3.Formed := h.dcbSetField.mapCtxs.loseReplies.loseReductions.settleCloses.loseBundles
    have h4 : s4.Formed := h3.loseCmds.loseFabric.loseWaits
    exact h4.clearParties.forgetWrites.dropLost.runCloses.cleanEnded

theorem State.Formed.execLinkTimeout {dev} (h : s.Formed) : Result.Formed (execLinkTimeout dev s) := by
  unfold Machine.execLinkTimeout
  split
  · exact h
  · exact h.markLost

theorem State.Formed.countLinks (h : s.Formed) : s.countLinks.Formed := h.dcbSetField

theorem State.Formed.execLinkUp {port peer} (h : s.Formed) : Result.Formed (execLinkUp port peer s) := by
  unfold Machine.execLinkUp
  split
  · exact h
  · exact h.dcbSet.update.countLinks

theorem State.Formed.execLinkDown {port} (h : s.Formed) : Result.Formed (execLinkDown port s) := by
  unfold Machine.execLinkDown
  split
  · exact h
  · exact h.dcbSetField.update.countLinks.foldl fun _ _ ht => ht.markLost

theorem State.Formed.execFlitRetry {port} (h : s.Formed) : Result.Formed (execFlitRetry port s) := by
  unfold Machine.execFlitRetry
  split
  · exact h
  · exact h.dcbSetField.dcbSetField

theorem State.Formed.execLinkTrainingFailure {port} (h : s.Formed) :
    Result.Formed (execLinkTrainingFailure port s) := by
  unfold Machine.execLinkTrainingFailure
  split
  · exact h
  · exact h

theorem State.Formed.execLinkDownReplreqTimeout {port} (h : s.Formed) :
    Result.Formed (execLinkDownReplreqTimeout port s) := by
  unfold Machine.execLinkDownReplreqTimeout
  split
  · exact h
  · split
    · exact h
    · exact h.requestReplacement

theorem State.Formed.started {off status next} (h : s.Formed) : (s.started off status next).Formed := h.update.owe

theorem State.Formed.readmit {dev} (h : s.Formed) : (s.readmit dev).Formed :=
  (h.dcbSetField.mapCtxs.ite h).resetStreams.packet0

theorem State.Formed.execPeerReadmit {answers} (h : s.Formed) : Result.Formed (execPeerReadmit answers s) := by
  unfold Machine.execPeerReadmit
  split
  · exact h
  · exact (h.readmit.ite h).started

theorem State.Formed.execPeerMarklost (h : s.Formed) : Result.Formed (execPeerMarklost s) := by
  unfold Machine.execPeerMarklost
  split
  · exact h
  · exact h.started.ite h.markLost.started

theorem State.Formed.execPeerRetrain (h : s.Formed) : Result.Formed (execPeerRetrain s) := by
  unfold Machine.execPeerRetrain
  split
  · exact h
  · dsimp only
    split
    · exact h.started
    · exact (h.foldl fun _ _ ht => ht.update).started

theorem State.Formed.execPeercmdComplete (h : s.Formed) : Result.Formed (execPeercmdComplete s) := by
  unfold Machine.execPeercmdComplete
  split
  · exact h
  · exact h.update.dcbSetField.dcbSetField

/-! ## RegionUpdates -/

theorem State.Formed.freeHeld (h : s.Formed) : s.freeHeld.Formed := h.foldl fun _ _ ht => ht.makeReady

theorem State.Formed.holdReady {idx} (h : s.Formed) : (s.holdReady idx).Formed := by
  unfold State.holdReady
  dsimp only
  split
  · exact h
  · split
    · exact h.unqueue.foldl fun _ _ ht => ht.setRecState
    · exact (h.unqueue.foldl fun _ _ ht => ht.dispatchFault).ite h

theorem State.Formed.stopHolders {idx} (h : s.Formed) : (s.stopHolders idx).Formed :=
  h.foldl fun _ _ ht => ht.stopHolder

theorem State.Formed.execRegionUpdate {index} (h : s.Formed) : Result.Formed (execRegionUpdate index s) := by
  unfold Machine.execRegionUpdate
  split
  · exact h
  · refine Formed.owe (Formed.freeHeld (Formed.holdReady ?_))
    split
    · exact (h.foldl fun _ _ ht => ht.owe).regionCmds.stopHolders.mapCores
    · exact (h.foldl fun _ _ ht => ht.owe).regionCmds

theorem State.Formed.execRegionUpdateComplete (h : s.Formed) : Result.Formed (execRegionUpdateComplete s) := by
  unfold Machine.execRegionUpdateComplete
  dsimp only
  split
  · exact h
  · exact (h.stopHolders.ite h).dcbSetField.ite (h.stopHolders.ite h).owe

theorem State.Formed.execDescriptorFetchReturn {ctx} (h : s.Formed) :
    Result.Formed (execDescriptorFetchReturn ctx s) := by
  unfold Machine.execDescriptorFetchReturn
  split
  · exact h
  · extract_lets
    split
    · exact h.dropFetch.useDesc
    · split
      · exact h.startFetch
      · split
        · exact h.mapCore
        · exact h.dropFetch

/-! ## Ports -/

theorem State.Formed.portPacket {dev body} (h : s.Formed) : (s.portPacket dev body).Formed := h.send

theorem State.Formed.portRequest {k t len op} (h : s.Formed) : (s.portRequest k t len op).Formed :=
  h.owe.ite (h.owe.ite h.performReq)

theorem State.Formed.portRefused {k} (h : s.Formed) : (s.portRefused k).Formed := h.send

theorem State.Formed.putPort {c} (h : s.Formed) : (s.putPort c).Formed := h

theorem State.Formed.portFaults {k} (h : s.Formed) : (s.portFaults k).Formed := h.clearRaces.putPort.update.portRefused

theorem State.Formed.portRun {k r f regs vec} (h : s.Formed) : (s.portRun k r f regs vec).Formed := by
  unfold State.portRun
  dsimp only
  split
  · split
    · exact h.portFaults
    · split
      · exact h.portFaults
      · split
        · exact (h.update.focus.update.runForm.of_next ‹_›).update.focus.putPort.update.owe
        · exact (h.update.focus.update.runForm.of_next ‹_›).update.focus.putPort.update.send
  · exact h.portFaults

theorem State.Formed.portCopy {k dst src len} (h : s.Formed) : (s.portCopy k dst src len).Formed := by
  unfold State.portCopy
  dsimp only
  split
  · exact h.portRefused.ite h.writeBytes.send
  · exact h.portRefused

theorem State.Formed.execRuntimePortAccess {k r} (h : s.Formed) : Result.Formed (execRuntimePortAccess k r s) := by
  unfold Machine.execRuntimePortAccess
  split
  · exact h
  · split
    · exact h.owe
    · split
      · split
        · exact h.portRefused
        · exact h.portRefused.ite h.portRun
      · split
        · exact h.portRefused
        · exact h.portRequest.ite h.portRefused
      · split
        · exact h.portRefused
        · exact h.portRequest.ite h.portRefused
      · split
        · exact h.portRefused
        · exact h.portRequest.ite h.portRefused
      · split
        · exact h.portRefused
        · exact h.portRequest.ite h.portRefused
      · exact h.portRefused.ite h.placeLaunch.send
      · split
        · exact h.portRefused
        · split
          · exact h.owe
          · exact h.portRefused
      · split
        · exact h.portCopy.ite h.portRefused
        · exact h.portRefused
      · exact h.portRefused.ite (h.update.owe.ite h.portPacket)
      · exact h
      · split
        · exact h.portRefused
        · exact h
      · exact h
      · exact h.updCtx

/-! ## Placement -/

theorem State.Formed.walkOn {p idx rest} (h : s.Formed) : (s.walkOn p idx rest).Formed := h

/-! ## Dispatching -/

theorem State.Formed.dispatching {p idx k} (h : s.Formed) (hk : ∀ t, t.Formed → (k t).Formed) :
    (s.dispatching p idx k).Formed := by
  unfold State.dispatching
  split
  · exact h.dispatchFault
  · exact h.setRecState.ite (hk _ h)

theorem State.Formed.execDispatchPacket {part rec'} (h : s.Formed) :
    Result.Formed (execDispatchPacket part rec' s) := by
  unfold Machine.execDispatchPacket
  split
  · exact h
  · refine h.dispatching fun t ht => ?_
    split
    · exact ht.queueTask
    · split
      · exact ht.walkOn.owe
      · exact ht.queueTask

theorem State.Formed.claimSeats {p idx cores} (h : s.Formed) : (s.claimSeats p idx cores).1.Formed :=
  h.foldl_fst fun _ _ ht => ht.mapCore

theorem State.Formed.releaseClaims {p idx ids} (h : s.Formed) : (s.releaseClaims p idx ids).Formed :=
  h.foldl fun _ _ ht => ht.mapCore.noteFree

theorem State.Formed.execChainClaim {part rec'} (h : s.Formed) : Result.Formed (execChainClaim part rec' s) := by
  unfold Machine.execChainClaim
  split
  · exact h
  · refine h.dispatching fun t ht => ?_
    split
    · exact ht.queueTask
    · split
      · exact ht.claimSeats.owe
      · exact ht.queueTask

theorem State.Formed.execFreeNote {core cluster} (h : s.Formed) : Result.Formed (execFreeNote core cluster s) := by
  unfold Machine.execFreeNote
  split
  · exact h
  · dsimp only
    split
    · split
      · split
        · exact h.mapPoint.owe
        · exact h.mapPoint
      · exact h.mapPoint.owe
    · split
      · exact h.mapPoint
      · split
        · exact h.mapPoint.owe
        · exact h.mapPoint.dispatching fun _ ht => ht.owe

theorem State.Formed.execPacketReturn {part rec' cluster} (h : s.Formed) :
    Result.Formed (execPacketReturn part rec' cluster s) := by
  unfold Machine.execPacketReturn
  split
  · exact h
  · exact h.mapPoint

theorem State.Formed.writeTemplates {core i a} (h : s.Formed) : (s.writeTemplates core i a).Formed :=
  h.ite (h.foldl fun _ _ ht => (formed_mk (Memory.wf_writeNat _ _ _ ht)).ite ht)

theorem State.Formed.startOn {c i a cont id} (h : s.Formed) : (s.startOn c i a cont id).Formed := by
  unfold State.startOn
  refine Formed.putOnSeat ?_
  split
  · exact h.update.giveGranules.fillLaunchArea.giveFootprint.flushReads
  · exact h.update.giveGranules.fillLaunchArea.giveFootprint.flushReads.writeTemplates

theorem State.Formed.goOnWalk {p idx} (h : s.Formed) : (s.goOnWalk p idx).Formed := by
  unfold State.goOnWalk
  split
  · exact h.owe
  · split
    · exact h.walkOn.owe
    · exact h.walkOn.queueTask

theorem State.Formed.execFiringStart {part rec' places} (h : s.Formed) :
    Result.Formed (execFiringStart part rec' places s) := by
  unfold Machine.execFiringStart
  extract_lets seats off back
  have hoff : ∀ t, t.Formed → (off t).Formed := fun _ ht => ht.releaseClaims.walkOn
  have hback : ∀ t, t.Formed → (back t).Formed := fun _ ht => ht.releaseClaims.queueTask.ite ht.goOnWalk
  clear_value seats off back
  split
  · exact hoff _ h
  · split
    · exact (hoff _ h).dispatching fun _ ht => ht
    · refine h.dispatching fun t ht => ?_
      split
      · extract_lets nums cont chain members s1 s2
        have h2 : s2.Formed := ht.setRecState.recPut.walkOn.foldl fun _ _ hu => hu.startOn
        exact (hback _ ht).ite (h2.ite h2.update)
      · exact hback _ ht

theorem State.Formed.stopRevoked {id} (h : s.Formed) : (s.stopRevoked id).Formed := by
  unfold State.stopRevoked
  split
  · exact h.stopHolder
  · exact h

theorem State.Formed.execContextResume {ctxs places} (h : s.Formed) :
    Result.Formed (execContextResume ctxs places s) := by
  unfold Machine.execContextResume
  dsimp only
  split
  · exact h
  · split
    · split
      · exact h
      · split
        · exact h.queueTask
        · exact (h.setRecState.recPut.foldl fun _ _ ht => ht.resumeOn).foldl fun _ _ ht => ht.stopRevoked
    · split
      · exact h
      · split
        · exact h.queueTask
        · exact (h.setRecState.recPut.foldl fun _ _ ht => ht.resumeOn).foldl fun _ _ ht => ht.stopRevoked

theorem State.Formed.execDisplacement {part rec'} (h : s.Formed) : Result.Formed (execDisplacement part rec' s) := by
  unfold Machine.execDisplacement
  dsimp only
  split
  · exact h
  · split
    · exact h
    · exact h.update.stopSeat

theorem State.Formed.execWaitEnqueue {part rec' off val} (h : s.Formed) :
    Result.Formed (execWaitEnqueue part rec' off val s) := by
  unfold Machine.execWaitEnqueue
  split
  · exact h
  · split
    · exact h.faultRecord
    · exact h.enqueueWait

theorem State.Formed.execChainStallTimeout {id} (h : s.Formed) : Result.Formed (execChainStallTimeout id s) := by
  unfold Machine.execChainStallTimeout
  split
  · exact h
  · split
    · split
      · exact h
      · exact h.imprecise
    · exact h

/-! ## Launches -/

theorem State.Formed.endLaunch {l amount} (h : s.Formed) : (s.endLaunch l amount).Formed :=
  h.atomicAt.update.mapCores.owe

theorem State.Formed.openChannels {p idx} (h : s.Formed) : (s.openChannels p idx).Formed :=
  h.foldl fun _ _ ht => ht.ite ht.writeWord

theorem State.Formed.launchRecord {p idx slot} (h : s.Formed) : (s.launchRecord p idx slot).Formed :=
  h.openChannels.recPut.setRecState.recPut.recPut.recPut.update.loadCounters

theorem State.Formed.execLaunchScan {slot} (h : s.Formed) : Result.Formed (execLaunchScan slot s) := by
  unfold Machine.execLaunchScan
  split
  · exact h
  · split
    · exact h
    · split
      · exact h.endLaunch
      · exact ((h.update.foldl fun _ _ ht => ht.launchRecord).foldl fun _ _ ht => ht.recount).foldl fun _ _ ht =>
            ht.checkReady

theorem State.Formed.execLaunchComplete {slot} (h : s.Formed) : Result.Formed (execLaunchComplete slot s) := by
  unfold Machine.execLaunchComplete
  split
  · exact h
  · split
    · exact h.owe
    · exact h.endLaunch

theorem State.Formed.execHostLaunchMessage {part index} (h : s.Formed) :
    Result.Formed (execHostLaunchMessage part index s) := by
  unfold Machine.execHostLaunchMessage
  split
  · exact h
  · split
    · exact h.send
    · split
      · exact h.send
      · exact h.placeLaunch.send

theorem State.Formed.execHostServiceMessage {fn data} (h : s.Formed) :
    Result.Formed (execHostServiceMessage fn data s) := by
  unfold Machine.execHostServiceMessage
  split
  · exact h
  · split
    · exact h.send
    · exact h

theorem State.Formed.execVfReset {fn} (h : s.Formed) : Result.Formed (execVfReset fn s) := by
  unfold Machine.execVfReset
  split
  · exact h
  · exact h

theorem State.Formed.execHostDma {a} (h : s.Formed) : Result.Formed (execHostDma a s) := by
  unfold Machine.execHostDma
  extract_lets
  split
  · exact h
  · split
    · exact h.send
    · split
      · exact h
      · exact h.writeBytes

theorem State.Formed.execImageGenRewrite (h : s.Formed) : Result.Formed (execImageGenRewrite s) := by
  unfold Machine.execImageGenRewrite
  split
  · exact h
  · exact (h.foldl fun _ _ ht => ht.recPut).owe

theorem State.Formed.execImageGenRewriteComplete (h : s.Formed) : Result.Formed (execImageGenRewriteComplete s) := by
  unfold Machine.execImageGenRewriteComplete
  split
  · exact h.dcbSetField
  · exact h

/-! ## Kill -/

theorem State.Formed.freeWindows {c} (h : s.Formed) : (s.freeWindows c).Formed := h.foldl fun _ _ ht => ht.packet

theorem State.Formed.killCtx {c} (h : s.Formed) : (s.killCtx c).Formed :=
  h.mapCores.update.freeWindows.forgetWrites.settleBundle.release

theorem State.Formed.killRecords {rs} (h : s.Formed) : (s.killRecords rs).1.Formed := by
  unfold State.killRecords
  refine Formed.foldl (Formed.foldl (Formed.update (h.unqueue.foldl fun t _ ht => ?_)) fun _ _ ht => ht.relink) fun _ _
      ht => ht.endRecord
  split
  · exact ht.releaseClaims
  · exact ht

theorem State.Formed.killPackets {d} (h : s.Formed) : (s.killPackets d).1.Formed :=
  (h.freeSources.foldl fun _ _ ht => ht.answer).foldl fun _ _ ht => ht.takeMsg.answerMsg

theorem State.Formed.flood {tenant slot release} (h : s.Formed) : (s.flood tenant slot release).Formed :=
  ((h.foldl fun _ _ ht => ht.freeWindows).update.foldl fun _ _ ht =>
      ht.killCtx).cleanEnded.killRecords.killPackets.update

theorem State.Formed.execKill (h : s.Formed) : Result.Formed (execKill s) := by
  unfold Machine.execKill
  split
  · exact h
  · exact h.flood

theorem State.Formed.execKillConfirm (h : s.Formed) : Result.Formed (execKillConfirm s) := by
  unfold Machine.execKillConfirm
  split
  · exact h
  · exact h.update.dcbSet.dcbSetField

theorem State.Formed.setPartState {p st} (h : s.Formed) : (s.setPartState p st).Formed := h.dcbSetField

theorem State.Formed.setMembers {p} (h : s.Formed) : (s.setMembers p).Formed := h

theorem State.Formed.execPartitionForm (h : s.Formed) : Result.Formed (execPartitionForm s) := by
  unfold Machine.execPartitionForm
  split
  · exact h
  · exact ((formed_mk (Memory.wf_zero _ _ h)).setMembers.setPartState.ite h).started

theorem State.Formed.execPartitionRelease (h : s.Formed) : Result.Formed (execPartitionRelease s) := by
  unfold Machine.execPartitionRelease
  split
  · exact h
  · dsimp only
    split
    · exact h.started
    · exact h.update.flood.setPartState

theorem State.Formed.execPartitionReslot (h : s.Formed) : Result.Formed (execPartitionReslot s) := by
  unfold Machine.execPartitionReslot
  split
  · exact h
  · exact (h.update.ite h).started

theorem State.Formed.scrubCore {core} (h : s.Formed) : (s.scrubCore core).Formed :=
  (formed_mk (Memory.wf_zero _ _ h)).mapCore

theorem State.Formed.formed {p} (h : s.Formed) : (s.formed p).Formed :=
  h.setPartState.update.foldl fun _ _ ht => ht.mapCore.ite ht

theorem State.Formed.unformed {p} (h : s.Formed) : (s.unformed p).Formed :=
  (h.foldl fun _ _ ht => ht.scrubCore).mapCores.update.setPartState

theorem State.Formed.execPartcmdComplete (h : s.Formed) : Result.Formed (execPartcmdComplete s) := by
  unfold Machine.execPartcmdComplete
  split
  · exact h
  · dsimp only
    split
    · exact h
    · exact (h.ite (h.formed.ite (h.unformed.ite h))).update.dcbSetField.dcbSetField

/-! ## Slices -/

theorem State.Formed.enterSlice {v n} (h : s.Formed) : (s.enterSlice v n).Formed := h

theorem State.Formed.holdWaits {boundary} (h : s.Formed) : (s.holdWaits boundary).Formed := h

theorem State.Formed.execSliceBoundary (h : s.Formed) : Result.Formed (execSliceBoundary s) := by
  unfold Machine.execSliceBoundary
  split
  · exact h
  · split
    · exact h
    · exact (h.holdWaits.enterSlice.foldl fun _ _ ht => ht.stopSeat).foldl fun _ _ ht => ht.owe

theorem State.Formed.swapIn {core p} (h : s.Formed) : (s.swapIn core p).Formed := by
  unfold State.swapIn
  refine Formed.mapCore (formed_mk (Memory.wf_copyRange _ _ _ ?_))
  split
  · exact Memory.wf_copyRange _ _ _ h
  · exact h

theorem State.Formed.serveCore {core p} (h : s.Formed) : (s.serveCore core p).Formed :=
  (h.foldl fun _ _ ht => ht.owe).foldl fun _ _ ht => ht.owe.ite ht

theorem State.Formed.execScratchpadSwap {core} (h : s.Formed) : Result.Formed (execScratchpadSwap core s) := by
  unfold Machine.execScratchpadSwap
  split
  · exact h
  · split
    · exact h
    · split
      · exact h.serveCore
      · split
        · exact h
        · exact h.swapIn.serveCore

/-! ## Power -/

theorem State.Formed.serveAll (h : s.Formed) : s.serveAll.Formed :=
  h.foldl fun _ _ ht => ht.foldl fun _ _ ht2 => ht2.serveCore

theorem State.Formed.setStage {n} (h : s.Formed) : (s.setStage n).Formed := by
  unfold State.setStage
  dsimp only
  split
  · exact (h.update.dcbSetField.ite (h.update.dcbSetField.foldl fun _ _ ht => ht.dcbSetField)).serveAll
  · exact h.update.dcbSetField.ite (h.update.dcbSetField.foldl fun _ _ ht => ht.dcbSetField)

theorem State.Formed.applyLevel {old} (h : s.Formed) : (s.applyLevel old).Formed := by
  unfold State.applyLevel
  dsimp only
  split
  · exact h.dcbSetField.dcbSetField
  · exact h.dcbSetField.dcbSetField.update.setStage.ite h.dcbSetField.dcbSetField.update

theorem State.Formed.execI3cPowerLevel {data} (h : s.Formed) : Result.Formed (execI3cPowerLevel data s) := by
  unfold Machine.execI3cPowerLevel
  split
  · exact h
  · exact h.update.applyLevel

theorem State.Formed.execPowerSample {watts} (h : s.Formed) : Result.Formed (execPowerSample watts s) := by
  unfold Machine.execPowerSample
  dsimp only
  split
  · exact h
  · exact (h.dcbSetField.dcbSetField.ite h.dcbSetField).update.setStage

/-! ## Security -/

theorem State.Formed.scrubbed (_ : s.Formed) : s.scrubbed.Formed := formed_mk rfl

theorem State.Formed.execModeReset (h : s.Formed) : Result.Formed (execModeReset s) := by
  unfold Machine.execModeReset
  split
  · exact h
  · exact h.scrubbed.dcbSetField.dcbSetField.update.owe

theorem State.Formed.execModeResetBootDone (h : s.Formed) : Result.Formed (execModeResetBootDone s) := by
  unfold Machine.execModeResetBootDone
  split
  · exact h
  · exact h.update.dcbSetField

theorem State.Formed.setKey {k} (h : s.Formed) : (s.setKey k).Formed := h

theorem State.Formed.execKeyRotation (h : s.Formed) : Result.Formed (execKeyRotation s) := by
  unfold Machine.execKeyRotation
  split
  · exact h
  · split
    · exact h.update.setKey.owe
    · dsimp only
      split
      · exact h
      · exact h.setKey.dcbSetField.owe

theorem State.Formed.execKeyRotationComplete (h : s.Formed) : Result.Formed (execKeyRotationComplete s) := by
  unfold Machine.execKeyRotationComplete
  split
  · exact h
  · dsimp only
    split
    · exact h
    · exact h.update.dcbSetField

theorem State.Formed.execAttestationRequest {part nonce} (h : s.Formed) :
    Result.Formed (execAttestationRequest part nonce s) := by
  unfold Machine.execAttestationRequest
  split
  · exact h
  · exact h.send

theorem State.Formed.execFirmwareActivationComplete {m} (h : s.Formed) :
    Result.Formed (execFirmwareActivationComplete m s) := by
  unfold Machine.execFirmwareActivationComplete
  split
  · exact h
  · exact h

theorem State.Formed.workBytes {w n write go} (h : s.Formed) (hgo : ∀ x0, (go x0).Formed) :
    (s.workBytes w n write go).Formed := by
  unfold State.workBytes
  dsimp only
  split
  · exact h.send
  · split
    · split
      · exact h.send
      · split
        · exact h.send
        · split
          · exact h.refuseReq.send
          · exact h.refuseReq.send.ite (hgo _)
    · split
      · exact h.send
      · split
        · exact h.send
        · split
          · exact h.refuseReq.send
          · exact h.refuseReq.send.ite (hgo _)

theorem State.Formed.serveWork {w} (h : s.Formed) : (s.serveWork w).Formed := by
  unfold State.serveWork
  split
  · exact h.workBytes fun _ => h.cacheOwners.answer
  · exact h.workBytes fun _ => h.cacheOwners.writeBytes.send

theorem State.Formed.takeSend {w} (h : s.Formed) : (s.takeSend w).Formed := by
  unfold State.takeSend
  dsimp only
  split
  · exact h.update.send.ite h.update.serveWork
  · exact h.send

theorem State.Formed.execScaleoutWorkRequest {w} (h : s.Formed) : Result.Formed (execScaleoutWorkRequest w s) := by
  unfold Machine.execScaleoutWorkRequest
  split
  · exact h
  · split
    · exact h.send.ite h.update
    · exact h.serveWork
    · exact h.serveWork

theorem State.Formed.execScaleoutPacket {tenant keyGen tagOk w} (h : s.Formed) :
    Result.Formed (execScaleoutPacket tenant keyGen tagOk w s) := by
  unfold Machine.execScaleoutPacket
  split
  · exact h
  · split
    · exact h.linkFail
    · split
      · exact h.serveWork
      · exact h.takeSend
      · exact h

/-! ## Failures -/

theorem State.Formed.execPowerFail (h : s.Formed) : Result.Formed (execPowerFail s) := by
  unfold Machine.execPowerFail
  split
  · exact h
  · refine Formed.update (Formed.setStage (Formed.update (Formed.foldl (Formed.foldl ?_ fun _ _ ht => ht.deliverFault)
        fun _ _ ht => ht.withhold)))
    split
    · split
      · exact h.execKill.of_next ‹_›
      · exact h
    · exact h

theorem State.Formed.execFlashDrainDone (h : s.Formed) : Result.Formed (execFlashDrainDone s) := by
  unfold Machine.execFlashDrainDone
  split
  · exact h
  · exact h.update.send

theorem State.Formed.restoreCtx {c} (h : s.Formed) : (s.restoreCtx c).Formed :=
  h.update.writeSaveArea.saveFootprint.completeCloses

theorem State.Formed.restoreRecord {p idx} (h : s.Formed) : (s.restoreRecord p idx).Formed := by
  unfold State.restoreRecord
  dsimp only
  split
  · exact (h.update.ite h.update).yieldRecord
  · exact h.update.ite h.update

theorem State.Formed.settleYielded {p} (h : s.Formed) : (s.settleYielded p).Formed := by
  unfold State.settleYielded
  refine h.foldl fun t _ ht => ?_
  dsimp only
  split
  · exact ht.update.endRecord
  · exact ht.update.restoreRecord

theorem State.Formed.restoreCore {img core p} (h : s.Formed) : (s.restoreCore img core p).Formed :=
  (formed_mk (Memory.wf_writeEach _ (Memory.wf_zero _ _ h))).mapCore

theorem State.Formed.execPowerFailRestore {sigOk accept} (h : s.Formed) :
    Result.Formed (execPowerFailRestore sigOk accept s) := by
  unfold Machine.execPowerFailRestore
  split
  · exact h
  · split
    · exact h
    · dsimp only
      split
      · exact h
      · exact (((h.update.foldl fun _ _ ht => ht.restoreCore).foldl fun _ _ ht => ht.restoreCtx).foldl fun _ _ ht =>
            ht.restoreRecord).foldl fun _ _ ht => ht.settleYielded

theorem State.Formed.execRowFlush (h : s.Formed) : Result.Formed (execRowFlush s) := by
  unfold Machine.execRowFlush
  split
  · exact h
  · exact (h.foldl fun _ _ ht => ht.saveRows).owe

theorem State.Formed.eccFault {n e} (h : s.Formed) : (s.eccFault n e).Formed := by
  unfold State.eccFault
  split
  · exact h
  · exact h.imprecise.deliverFault

theorem State.Formed.coreError {e} (h : s.Formed) : (s.coreError e).Formed := by
  unfold State.coreError
  dsimp only
  split
  · exact ((h.foldl fun _ _ ht => ht.eccFault).foldl fun _ _ ht => ht.stopSeat).removeCore
  · exact (h.foldl fun _ _ ht => ht.eccFault).foldl fun _ _ ht => ht.stopSeat

theorem State.Formed.execUncorrectableError {e} (h : s.Formed) : Result.Formed (execUncorrectableError e s) := by
  unfold Machine.execUncorrectableError
  split
  · exact h
  · split
    · exact h.coreError
    · extract_lets t
      have ht : t.Formed := h.dcbSetField.ite h
      show State.Formed _
      split
      · split
        · exact ht.imprecise
        · exact ht
      · exact ht

theorem State.Formed.execCorrectedError {core} (h : s.Formed) : Result.Formed (execCorrectedError core s) := by
  unfold Machine.execCorrectedError
  split
  · exact h
  · dsimp only
    split
    · exact h.mapCore
    · exact h.mapCore.update.removeCore.ite h.mapCore.update

theorem State.Formed.execDeviceReset {failed} : Result.Formed (execDeviceReset failed s) :=
  (Formed.dcbSetField (formed_mk reset_wf)).foldl fun _ _ ht => ht.removeCore

/-! ## Translate -/

theorem State.Formed.seal {r o} (h : s.Formed) : (s.seal r o).Formed := by
  unfold State.seal
  extract_lets is file text code i s1 m1 m2 m3
  have h1 : m1.wf = true := by
    dsimp only [m1]
    split
    · exact Memory.wf_write _ _ h
    · exact h
  have h2 : m2.wf = true := by
    dsimp only [m2]
    split
    · exact Memory.wf_writeEach _ (Memory.wf_write _ _ h1)
    · exact h1
  refine Formed.ite h (formed_mk ?_)
  dsimp only [m3]
  split
  · exact Memory.wf_write _ _ h2
  · exact h2

theorem State.Formed.execObjectTranslate {o} (h : s.Formed) : Result.Formed (execObjectTranslate o s) := by
  unfold Machine.execObjectTranslate
  split
  · exact h
  · dsimp only
    split
    · exact h.send
    · exact h.ite h.seal

/-! ## Timing -/

theorem State.Formed.oweOnce {i} (h : s.Formed) : (s.oweOnce i).Formed := h.ite h.owe

theorem State.Formed.oweAll {is} (h : s.Formed) : (s.oweAll is).Formed := h.foldl fun _ _ ht => ht.oweOnce

theorem State.Formed.elapse {ns cycles} (h : s.Formed) : (s.elapse ns cycles).Formed := h.update.oweAll

theorem State.Formed.sealAfter {old} (h : s.Formed) : (s.sealAfter old).Formed := by
  unfold State.sealAfter
  split
  · exact h
  · exact h

/-! ## Dispatch -/

/-- The steps of the other parts. -/
theorem State.Formed.execEvent {i : Instr} (hi : i.form = .event) (h : s.Formed) : Result.Formed (exec i s) := by
  cases i with
  | runtimePortAccess => exact h.execRuntimePortAccess
  | controlBlockWrite => exact h.controlWrite
  | regionUpdate => exact h.execRegionUpdate
  | regionUpdateComplete => exact h.execRegionUpdateComplete
  | regionInvalidation => exact h.mapCore.foldl fun _ _ ht => ht.mapSeat
  | descriptorFetchReturn => exact h.execDescriptorFetchReturn
  | ownerMapUpdate => exact h.execOwnerMapUpdate
  | ownerMapUpdateComplete => exact h.execOwnerMapUpdateComplete
  | ownerEntryFetchReturn => exact h.execOwnerEntryFetchReturn
  | homeSliceRequest => exact h.execHomeSliceRequest
  | windowRequest => exact h.execWindowRequest
  | loadReply => exact h.execLoadReply
  | splitRequest => exact h.execSplitRequest
  | reorderWindowGrant => exact h.execReorderWindowGrant
  | streamStoreArrival => exact h.execStreamStoreArrival
  | storeAck => exact h.execStoreAck
  | fabricRequestArrival => exact h.execFabricRequestArrival
  | fabricForward => exact h.execFabricForward
  | remoteMovingRetry => exact h.execRemoteMovingRetry
  | batchCloseArrival => exact h.execBatchCloseArrival
  | batchCloseReply => exact h.execBatchCloseReply
  | linkTimeout => exact h.execLinkTimeout
  | bundlePrepare => exact h.execBundlePrepare
  | prepareAck => exact h.execPrepareAck
  | bundleFinal => exact h.execBundleFinal
  | finalReply => exact h.execFinalReply
  | bundleDecide => exact h.execBundleDecide
  | bundleCommit => exact h.execBundleCommit
  | commitAck => exact h.execCommitAck
  | bundleAbort => exact h.execBundleAbort
  | fateQuestion => exact h.execFateQuestion
  | fateReply => exact h.execFateReply
  | groupLoadServe => exact h.execGroupLoadServe
  | landing => exact h.land
  | dectApply => exact h.decrement.dectPerformed
  | dispatchPacket => exact h.execDispatchPacket
  | packetReturn => exact h.execPacketReturn
  | freeNote => exact h.execFreeNote
  | chainClaim => exact h.execChainClaim
  | displacement => exact h.execDisplacement
  | firingStart => exact h.execFiringStart
  | launchScan => exact h.execLaunchScan
  | launchComplete => exact h.execLaunchComplete
  | hostLaunchMessage => exact h.execHostLaunchMessage
  | hostServiceMessage => exact h.execHostServiceMessage
  | waitEnqueue => exact h.execWaitEnqueue
  | noteWake => exact h.noteAt
  | overflowRecheck => exact h.foldl fun _ _ ht => ht.wakeWaiter
  | chainStallTimeout => exact h.execChainStallTimeout
  | imageGenRewrite => exact h.execImageGenRewrite
  | imageGenRewriteComplete => exact h.execImageGenRewriteComplete
  | objectTranslate => exact h.execObjectTranslate
  | copyAccept => exact h.execCopyAccept
  | commandStart => exact h.execCommandStart
  | commandComplete => exact h.completeCmd
  | copyQuiesceDone => exact h.execCopyQuiesceDone
  | collContribution => exact h.execCollContribution
  | collSlotDeadline => exact h.execCollSlotDeadline
  | collResult => exact h.execCollResult
  | messageLand => exact h.execMessageLand
  | mxcmdArrival => exact h.execMxcmdArrival
  | mxcmdReply => exact h.putLate
  | sequencerCommand => exact h.execSequencerCommand
  | kstep => exact h.execKstep
  | sliceBoundary => exact h.execSliceBoundary
  | scratchpadSwap => exact h.execScratchpadSwap
  | yieldBudgetOverrun => exact h.execYieldBudgetOverrun
  | forcedSaveComplete => exact h.execForcedSaveComplete
  | contextResume => exact h.execContextResume
  | impreciseFaultDelivery => exact h.execImpreciseFaultDelivery
  | kill => exact h.execKill
  | killDiscardWindowEnd => exact h.update.foldl fun _ _ ht => ht.owe
  | killConfirm => exact h.execKillConfirm
  | partitionForm => exact h.execPartitionForm
  | partitionRelease => exact h.execPartitionRelease
  | partitionReslot => exact h.execPartitionReslot
  | partcmdComplete => exact h.execPartcmdComplete
  | slicectlWrite => exact h.dcbSet.update
  | modeReset => exact h.execModeReset
  | modeResetBootDone => exact h.execModeResetBootDone
  | keyRotation => exact h.execKeyRotation
  | keyRotationComplete => exact h.execKeyRotationComplete
  | attestationRequest => exact h.execAttestationRequest
  | firmwareActivationComplete => exact h.execFirmwareActivationComplete
  | linkUp => exact h.execLinkUp
  | linkDown => exact h.execLinkDown
  | flitRetry => exact h.execFlitRetry
  | peerReadmit => exact h.execPeerReadmit
  | peerMarklost => exact h.execPeerMarklost
  | peerRetrain => exact h.execPeerRetrain
  | peercmdComplete => exact h.execPeercmdComplete
  | scaleoutWorkRequest => exact h.execScaleoutWorkRequest
  | scaleoutPacket => exact h.execScaleoutPacket
  | hostLinkReset => exact h
  | vfReset => exact h.execVfReset
  | hostDma => exact h.execHostDma
  | powerStep => exact h.update.applyLevel
  | i3cPowerLevel => exact h.execI3cPowerLevel
  | powerCapWrite => exact h.dcbSetField.applyLevel
  | powerSample => exact h.execPowerSample
  | powerFail => exact h.execPowerFail
  | flashDrainDone => exact h.execFlashDrainDone
  | powerFailRestore => exact h.execPowerFailRestore
  | rowFlush => exact h.execRowFlush
  | rowFlushComplete => exact h.dcbSetField
  | uncorrectableError => exact h.execUncorrectableError
  | correctedError => exact h.execCorrectedError
  | deviceReset => exact State.Formed.execDeviceReset
  | ecallAnswer => exact h.updCtx
  | waittExpiry => exact h
  | unassignedOpValue => exact h.execUnassignedOpValue
  | clusterUnitAtomic => exact h.execClusterUnitAtomic
  | linkTrainingFailure => exact h.execLinkTrainingFailure
  | linkDownReplreqTimeout => exact h.execLinkDownReplreqTimeout
  | firmwareActivationStart => exact h
  | ieee1588TimeSync => exact h
  | _ => exact nomatch hi

theorem State.Formed.exec {i} (h : s.Formed) : Result.Formed (exec i s) := by
  by_cases hi : i.form = .event
  · exact h.execEvent hi
  · rw [← run_eq_exec i s hi]; exact h.runForm

/-! ## Step -/

theorem State.Formed.deliver {k} (h : s.Formed) : Result.Formed (s.deliver k) := by
  unfold State.deliver
  split
  · exact h
  · exact h.update.exec

theorem State.Formed.event {i} (h : s.Formed) : Result.Formed (s.event i) := by
  unfold State.event
  split
  · exact h.exec
  · split
    · exact h.update.exec
    · exact h

theorem State.Formed.auto (h : s.Formed) : Result.Formed s.auto := by
  unfold State.auto
  split
  · exact h.deliver
  · split
    · exact h.seatStep
    · exact h.deliver

theorem State.Formed.act {a} (h : s.Formed) : Result.Formed (s.act a) := by
  cases a with
  | seat id => exact h.focus.seatStep
  | event i => exact h.event
  | deliver k => exact h.deliver
  | elapse ns cycles => exact h.elapse

theorem Result.Formed.sealed {r} (hr : Result.Formed r) : Result.Formed (sealed s r) := by
  cases r with
  | next t => exact State.Formed.sealAfter hr
  | fault f => trivial
  | refused r => trivial

theorem State.Formed.step (h : s.Formed) : Result.Formed (step s) := by
  unfold Machine.step
  split
  · split
    · trivial
    · exact (State.Formed.update h).act.sealed
  · split
    · trivial
    · exact h.auto.sealed

/-- Settles O43: each operation of the model keeps the canonical form, so each step does. -/
theorem memoryForm : Obligations.MemoryForm := fun _ _ h e => (State.Formed.step h).of_next e

end Sys2Proof.Machine
end

section
/-! PROOF. O48: the requests of the runtime ports, the owner map's entries and host DMA (R2, R33, R34, R36, R56, R80, R81, R139,
R389, R392). What a write of bytes outside the control block does is said once, by `Wrote`: the bytes, and beside them only the versions
of lines that the home slices keep. Each step is then one equation, and its clause follows from the equation. -/

namespace Sys2Proof.Machine

open Sys2Proof.Bits

/-! ## Bytes and numbers -/

theorem length_bytesOf (n v : Nat) : (bytesOf n v).length = n := by
  induction n generalizing v with
  | zero => rfl
  | succ n ih => simp [bytesOf, ih]

theorem valOf_bytesOf (n v : Nat) : valOf (bytesOf n v) = v % 2 ^ (8 * n) := by
  induction n generalizing v with
  | zero => simp [bytesOf, valOf, Nat.mod_one]
  | succ n ih =>
    have hp : 2 ^ (8 * (n + 1)) = 2 ^ 8 * 2 ^ (8 * n) := by rw [← Nat.pow_add]; congr 1; omega
    simp only [bytesOf, valOf, ih, BitVec.toNat_ofNat]
    exact hp ▸ Nat.mod_mul.symm

theorem valOf_lt (bs : List Byte) : valOf bs < 2 ^ (8 * bs.length) := by
  induction bs with
  | nil => simp [valOf]
  | cons b bs ih =>
    have hp : 2 ^ (8 * (bs.length + 1)) = 256 * 2 ^ (8 * bs.length) := by rw [Nat.mul_succ, Nat.pow_add, Nat.mul_comm]
    have hb : b.toNat < 256 := b.isLt
    simp only [valOf, List.length_cons, hp]
    omega

/-- Below a bit that is cleared, a word keeps its fields. -/
theorem field_clear {w lo len : Nat} (h : lo + len ≤ 63) :
    field (setField w 63 1 0 % 2 ^ 64) lo len = field w lo len := by
  have hs : setField w 63 1 0 % 2 ^ 64 = w % 2 ^ 63 := by
    unfold setField field
    rw [Nat.shiftRight_eq_div_pow]
    omega
  rw [hs]
  unfold field
  apply Nat.eq_of_testBit_eq
  intro i
  simp only [Nat.testBit_mod_two_pow, Nat.testBit_shiftRight]
  by_cases hi : i < len
  · simp [hi, show lo + i < 63 by omega]
  · simp [hi]

theorem bit_clear (w : Nat) : bit (setField w 63 1 0 % 2 ^ 64) 63 = false := by
  unfold bit setField field
  simp only [Nat.shiftRight_eq_div_pow, beq_eq_false_iff_ne]
  omega

/-! ## Offsets -/

theorem hbmEnd_le (s : State) : s.hbmEnd ≤ Config.hbmSize := by
  unfold State.hbmEnd
  split
  · decide
  · exact Nat.le_refl _

theorem inControl_of_hbm {s : State} {o : Nat} (h : o < s.hbmEnd) : inControl o = false := by
  have hle : o < 0x8000000000 := Nat.lt_of_lt_of_le h (hbmEnd_le s)
  have hn : ¬ Config.controlBase ≤ o := by
    show ¬ 0x180000000000 ≤ o
    omega
  simp [inControl, hn]

theorem launchArea_of_hbm {s : State} {o : Nat} (h : o < s.hbmEnd) : launchArea o = false := by
  have hle : o < 0x8000000000 := Nat.lt_of_lt_of_le h (hbmEnd_le s)
  have hn : ¬ Config.windowBase ≤ o := by
    show ¬ 0x100000000000 ≤ o
    omega
  simp [launchArea, bankCore, hn]

theorem State.byteAt_plain {s : State} {o : Nat} (h : inControl o = false) : s.byteAt o = s.mem.get o := by
  simp [State.byteAt, h]

/-- A read for no bundle sees no pending version (R116). -/
theorem State.readBytes_none (s : State) (offs : List Nat) : s.readBytes none offs = offs.map s.byteAt := by
  refine List.map_congr_left fun o _ => ?_
  have h : s.ownPending (o / 64 * 64) none = none := by
    unfold State.ownPending
    split
    · rfl
    · simp
  rw [h]

theorem State.readBytes_plain {s : State} {offs : List Nat} (h : ∀ x ∈ offs, inControl x = false) :
    s.readBytes none offs = offs.map s.mem.get := by
  rw [s.readBytes_none]
  exact List.map_congr_left fun o ho => State.byteAt_plain (h o ho)

/-- The bytes of HBM are held at their own offsets. -/
theorem State.heldAll_hbm {s : State} {tenant : Nat} {offs held : List Nat} (h : ∀ o ∈ offs, o < s.hbmEnd)
    (e : s.heldAll tenant offs = .inl held) : held = offs := by
  induction offs generalizing held with
  | nil => simpa [State.heldAll] using e.symm
  | cons o offs ih =>
    obtain ⟨ho, hs⟩ := List.forall_mem_cons.mp h
    simp only [State.heldAll, State.heldAt, State.placeOf, ho, if_true] at e
    split at e
    · cases e
    · rename_i x hx
      split at e
      · cases e
      · rename_i xs hxs
        cases e
        split at hx
        · cases hx
          rw [ih hs hxs]
        · cases hx

/-! ## Writes -/

theorem Memory.map_get_writeEach (m : Memory) {offs : List Nat} {bs : List Byte} (hn : offs.Nodup) (hl : offs.length = bs.length) :
    offs.map (m.writeEach (offs.zip bs)).get = bs := by
  have hf : (offs.zip bs).map Prod.fst = offs := List.map_fst_zip (Nat.le_of_eq hl)
  have hs : (offs.zip bs).map Prod.snd = bs := List.map_snd_zip (Nat.le_of_eq hl.symm)
  calc offs.map (m.writeEach (offs.zip bs)).get
      = (offs.zip bs).map fun p => (m.writeEach (offs.zip bs)).get p.1 := (congrArg (List.map _) hf.symm).trans List.map_map
    _ = (offs.zip bs).map Prod.snd := List.map_congr_left fun p hp => m.get_writeEach_inside _ (by rwa [hf]) hp
    _ = bs := hs

/-- `t` is `s` with these bytes written one by one; beside them only the versions that the home slices keep of lines change, and TARNSTAT,
which counts them (R59, R116). -/
structure Wrote (s t : State) (bytes : List (Nat × Byte)) : Prop where
  control : ∀ off, (∀ h, off ≠ tarnstat h) → t.dcbGet off = s.dcbGet off
  rest : t = { s with mem := s.mem.writeEach bytes, dcb := t.dcb, slices := t.slices }

variable {s t u : State} {bytes : List (Nat × Byte)}

theorem Wrote.refl (s : State) : Wrote s s [] := ⟨fun _ _ => rfl, rfl⟩

theorem Wrote.slices (s : State) (x : Slices) : Wrote s { s with slices := x } [] := ⟨fun _ _ => rfl, rfl⟩

/-- A write after a change of versions only. -/
theorem Wrote.after (h : Wrote s t []) (k : Wrote t u bytes) : Wrote s u bytes :=
  ⟨fun off ho => (k.control off ho).trans (h.control off ho), by
    have hr := k.rest
    rw [h.rest] at hr
    exact hr⟩

theorem Wrote.foldl {α : Type} {f : State → α → State} (hf : ∀ s a, Wrote s (f s a) []) (l : List α) (s : State) :
    Wrote s (l.foldl f s) [] := by
  induction l generalizing s with
  | nil => exact .refl s
  | cons a l ih => exact (hf s a).after (ih (f s a))

theorem Wrote.tarnNote (s : State) (slice : Nat) : Wrote s (s.tarnNote slice) [] :=
  ⟨fun off ho => by
    unfold State.tarnNote
    rw [State.dcbGet_dcbSet, if_neg fun e => ho slice e.symm], rfl⟩

theorem Wrote.setVersion (s : State) (line : Nat) (v : Version) : Wrote s (s.setVersion line v) [] := by
  unfold State.setVersion
  extract_lets h s1 s2
  split
  · exact (Wrote.slices s _).after (.tarnNote _ _)
  · exact (Wrote.slices s _).after (.tarnNote _ _)

theorem Wrote.discardPending (s : State) (line : Nat) : Wrote s (s.discardPending line) [] := by
  unfold State.discardPending
  split
  · exact .refl s
  · exact .setVersion s _ _

theorem Wrote.doom (s : State) (slice : Nat) (ident : Word) (reason : Nat) : Wrote s (s.doom slice ident reason) [] := by
  unfold State.doom
  split
  · exact .refl s
  · exact .slices s _

theorem Wrote.nonBundled (s : State) (line : Nat) : Wrote s (s.nonBundled line) [] := by
  unfold State.nonBundled
  split
  · exact .refl s
  · split
    · exact (Wrote.discardPending s line).after (.doom _ _ _ _)
    · exact .refl s

/-- Bytes outside the control block are written where they are held. -/
theorem Wrote.writeBytes (s : State) (h : ∀ b ∈ bytes, inControl b.1 = false) : Wrote s (s.writeBytes bytes) bytes := by
  have hmem : (bytes.filter fun b => !inControl b.1) = bytes := List.filter_eq_self.mpr fun b hb => by simp [h b hb]
  have hctl : (bytes.filter fun b => inControl b.1) = [] := List.filter_eq_nil_iff.mpr fun b hb => by simp [h b hb]
  unfold State.writeBytes
  rw [hmem, hctl]
  have hv : Wrote s ((linesOf (bytes.map (·.1))).foldl (fun s l => s.nonBundled l) s) [] := .foldl .nonBundled _ s
  exact hv.after ⟨fun _ _ => rfl, rfl⟩

theorem Wrote.writesOnly (h : Wrote s t bytes) {held : List Nat} (hw : ∀ b ∈ bytes, b.1 ∈ held) : WritesOnly s t held where
  bytes a ha := by
    rw [h.rest]
    refine Memory.get_writeEach_outside _ _ _ fun hm => ?_
    obtain ⟨b, hb, rfl⟩ := List.mem_map.mp hm
    exact ha (hw b hb)
  control := h.control
  sched := (congrArg State.sched h.rest :)
  fabric := (congrArg State.fabric h.rest :)
  complex := (congrArg State.control h.rest :)
  clocks := ⟨(congrArg State.time h.rest :), (congrArg State.clock h.rest :), (congrArg State.devNum h.rest :)⟩
  owes := (congrArg State.pend h.rest :)

theorem Wrote.mem (h : Wrote s t bytes) : t.mem = s.mem.writeEach bytes := (congrArg State.mem h.rest :)

theorem Wrote.sent (h : Wrote s t bytes) : t.sent = s.sent := (congrArg State.sent h.rest :)

theorem Wrote.contextsKeep (h : Wrote s t bytes) : ContextsKeep s t where
  focus := ⟨(congrArg State.cur h.rest :), (congrArg State.cx h.rest :)⟩
  seats := (congrArg State.seats h.rest :)
  saved := ⟨(congrArg State.saved h.rest :), (congrArg State.ended h.rest :)⟩
  cores := (congrArg State.cores h.rest :)

theorem WritesOnly.send {held : List Nat} (h : WritesOnly s t held) (x : Sent) : WritesOnly s (t.send x) held :=
  ⟨h.bytes, h.control, h.sched, h.fabric, h.complex, h.clocks, h.owes⟩

theorem ContextsKeep.send (h : ContextsKeep s t) (x : Sent) : ContextsKeep s (t.send x) := ⟨h.focus, h.seats, h.saved, h.cores⟩

/-- A list of bytes zipped to where they are held. -/
theorem forall_zip_fst {P : Nat → Prop} {held : List Nat} {bs : List Byte} (h : ∀ x ∈ held, P x) : ∀ b ∈ held.zip bs, P b.1 :=
  fun b hb => h b.1 (List.of_mem_zip (a := b.1) (b := b.2) hb).1

theorem nodup_zip_fst {held : List Nat} (h : held.Nodup) (bs : List Byte) : ((held.zip bs).map (·.1)).Nodup := by
  induction held generalizing bs with
  | nil => simp
  | cons x held ih =>
    cases bs with
    | nil => simp
    | cons b bs =>
      obtain ⟨hx, hh⟩ := List.nodup_cons.mp h
      refine List.nodup_cons.mpr ⟨fun hm => hx ?_, ih hh bs⟩
      obtain ⟨p, hp, rfl⟩ := List.mem_map.mp hm
      exact forall_zip_fst (P := (· ∈ held)) (fun _ hy => hy) p hp

/-! ## Requests at a coherence point -/

/-- An owner entry that is cached changes the home slices alone (R33). -/
theorem State.cacheOwners_eq (s : State) (offs : List Nat) : ∃ x, s.cacheOwners offs = { s with slices := x } := by
  have hf : ∀ (l : List (Nat × Nat)) (x : Slices), ∃ y,
      l.foldl (fun s p => s.cacheOwner p.1 p.2) { s with slices := x } = { s with slices := y } := by
    intro l
    induction l with
    | nil => exact fun x => ⟨x, rfl⟩
    | cons p l ih => exact fun x => ih _
  exact hf _ _

theorem State.stale_port {r : MemReq} {k : Nat} (h : r.origin = .port k) (s : State) : s.stale r = false := by
  simp [State.stale, h]

theorem State.refuseReq_port {r : MemReq} {k : Nat} (h : r.origin = .port k) (s : State) (d : Deny) (off : Nat) :
    s.refuseReq r d off = s.send (.portReply k 0 []) := by
  simp [State.refuseReq, h]

theorem State.answerReq_port {r : MemReq} {k : Nat} (h : r.origin = .port k) (s : State) (val : Nat) (bs : List Byte) :
    s.answerReq r val bs = s.send (.portReply k (BitVec.ofNat 64 val) bs) := by
  simp [State.answerReq, h]

theorem State.heldWrite_nil (s : State) (tenant : Nat) : s.heldWrite tenant [] = .inl [] := rfl

theorem State.heldWrite_open {tenant : Nat} {offs : List Nat} (h : ∀ x ∈ offs, launchArea x = false) :
    s.heldWrite tenant offs = s.heldAll tenant offs := by
  have : offs.any launchArea = false := List.any_eq_false.mpr fun x hx => by simp [h x hx]
  simp [State.heldWrite, this]

section
variable {r : MemReq} {k : Nat} {held : List Nat}

/-- A port's request that is not owned, that writes a launch area, or that meets a record, is answered and moves nothing (R34, R46, R72). -/
theorem performReq_port_refused (ho : r.origin = .port k)
    (h : (∃ d, s.heldAll r.tenant r.offs = .inr d) ∨ (r.op ≠ .load ∧ ∃ x ∈ r.offs, launchArea x = true) ∨ s.portConflict r = true) :
    s.performReq r = s.send (.portReply k 0 []) := by
  by_cases hc : s.portConflict r = true
  · simp [State.performReq, State.stale_port ho, hc, State.refuseReq_port ho]
  · have hd : ∃ d, s.heldReq r = .inr d := by
      unfold State.heldReq State.heldWrite
      obtain ⟨d, hd⟩ | ⟨hl, x, hx, ha⟩ | hr := h
      · split
        · exact ⟨d, hd⟩
        · split
          · exact ⟨_, rfl⟩
          · exact ⟨d, hd⟩
      · have : r.offs.any launchArea = true := List.any_eq_true.mpr ⟨x, hx, ha⟩
        exact ⟨.breach 0, by simp [hl, this]⟩
      · exact absurd hr hc
    obtain ⟨d, hd⟩ := hd
    simp [State.performReq, State.stale_port ho, hc, hd, State.refuseReq_port ho]

theorem performReq_port_load (h : PortMay s r k held) (hop : r.op = .load) :
    ∃ x, s.performReq r = ({ s with slices := x } : State).send (.portReply k 0 (s.readBytes none held)) := by
  obtain ⟨x, hx⟩ := s.cacheOwners_eq held
  have hheld : s.heldReq r = .inl held := by simp [State.heldReq, hop, h.owned]
  have hflag : r.flag = none := by simp [MemReq.flag, hop]
  refine ⟨x, ?_⟩
  simp only [State.performReq, State.stale_port h.origin, h.races, hheld, hflag, hop, hx, Option.toList_none,
    State.heldWrite_nil, State.answerReq_port h.origin, State.readBytes_none]
  rfl

theorem performReq_port_store {bs : List (Nat × Byte)} (h : PortMay s r k held) (hop : r.op = .store bs none)
    (hl : ∀ x ∈ r.offs, launchArea x = false) :
    ∃ u, Wrote s u (held.zip (bs.map (·.2))) ∧ s.performReq r = u.send (.portReply k 0 []) := by
  obtain ⟨x, hx⟩ := s.cacheOwners_eq held
  have hheld : s.heldReq r = .inl held := by simp [State.heldReq, hop, State.heldWrite_open hl, h.owned]
  have hflag : r.flag = none := by simp [MemReq.flag, hop]
  have hfree : ({ s with slices := x } : State).touchesRecord held = false := h.free
  refine ⟨({ s with slices := x } : State).writeBytes (held.zip (bs.map (·.2))),
    (Wrote.slices s x).after (.writeBytes _ (forall_zip_fst h.plain.1)), ?_⟩
  simp only [State.performReq, State.stale_port h.origin, h.races, hheld, hflag, hop, hx, Option.toList_none, Option.any_none,
    State.heldWrite_nil, State.answerReq_port h.origin, if_neg Bool.false_ne_true, List.append_nil, hfree]
  rfl

/-- The sum of an addition is written where the word is held, and the port is answered with the old value (R34, R80). -/
theorem performReq_port_add {w : Nat} {b : Word} {ret : Bool} (h : PortMay s r k held) (hop : r.op = .atomic .add w b ret)
    (hend : r.off + w ≤ s.hbmEnd) (hw : 0 < w) :
    ∃ u, Wrote s u (held.zip (bytesOf w ((valOf (s.readBytes none held) + b.toNat) % 2 ^ (8 * w))))
      ∧ s.performReq r = u.send (.portReply k (BitVec.ofNat 64 (valOf (s.readBytes none held))) []) := by
  obtain ⟨x, hx⟩ := s.cacheOwners_eq held
  have hoffs : r.offs = (List.range w).map (r.off + ·) := by simp [MemReq.offs, hop]
  have hin : ∀ o ∈ r.offs, o < s.hbmEnd := by
    intro o ho
    rw [hoffs] at ho
    obtain ⟨j, hj, rfl⟩ := List.mem_map.mp ho
    have := List.mem_range.mp hj
    omega
  have heq : held = (List.range w).map (r.off + ·) := (State.heldAll_hbm hin h.owned).trans hoffs
  have hhead : held.headD r.off = r.off := by
    obtain ⟨n, rfl⟩ := Nat.exists_eq_succ_of_ne_zero (Nat.ne_of_gt hw)
    rw [heq, List.range_succ_eq_map]
    rfl
  have hheld : s.heldReq r = .inl held := by
    simp [State.heldReq, hop, State.heldWrite_open fun o ho => launchArea_of_hbm (hin o ho), h.owned]
  have hflag : r.flag = none := by simp [MemReq.flag, hop]
  have hfree : ({ s with slices := x } : State).touchesRecord held = false := h.free
  refine ⟨({ s with slices := x } : State).writeBytes
      (held.zip (bytesOf w ((valOf (s.readBytes none held) + b.toNat) % 2 ^ (8 * w)))),
    (Wrote.slices s x).after (.writeBytes _ (forall_zip_fst h.plain.1)), ?_⟩
  simp only [State.performReq, State.stale_port h.origin, h.races, hheld, hflag, hop, hx, Option.toList_none,
    State.heldWrite_nil, State.answerReq_port h.origin, hfree, hhead, State.atomicAt, ← heq, AtomOp.apply, State.readBytes_none]
  rfl

end

/-! ## Steps that serve a port -/

/-- A step that performs the requests that are its own serves the ports (R2, R34). -/
theorem servesPorts_of_performs {i : MemReq → Instr} {here : State → Nat → Prop}
    (hi : ∀ s r, here s r.off → exec (i r) s = .next (s.performReq r)) : ServesPorts i here := by
  refine ⟨fun s r k held hh h => ⟨fun hop => ?_, fun bs hop hl => ?_⟩, fun s r k hh ho h => ?_⟩
  · obtain ⟨x, hx⟩ := performReq_port_load h hop
    have hw : Wrote s { s with slices := x } [] := .slices s x
    exact ⟨_, (hi s r hh).trans (congrArg _ hx), (hw.writesOnly nofun).send _, hw.contextsKeep.send _, rfl⟩
  · obtain ⟨u, hw, hu⟩ := performReq_port_store h hop hl
    refine ⟨_, (hi s r hh).trans (congrArg _ hu), fun p hp => ?_, (hw.writesOnly (forall_zip_fst fun _ hx => hx)).send _,
      hw.contextsKeep.send _, congrArg _ hw.sent⟩
    show u.mem.get p.1 = p.2
    rw [hw.mem]
    exact Memory.get_writeEach_inside _ _ (nodup_zip_fst h.plain.2 _) hp
  · rw [hi s r hh, performReq_port_refused ho h]

theorem homeSliceRequest_serves : ServesPorts .homeSliceRequest fun s off => off < s.hbmEnd :=
  servesPorts_of_performs fun _ _ h => if_pos h

theorem windowRequest_serves : ServesPorts .windowRequest fun _ off => (bankCore off).isSome = true :=
  servesPorts_of_performs fun _ _ h => if_pos h

/-- A port has no unit of its own, so the line stays with its home slice (R81). -/
theorem clusterUnitAtomic_port {r : MemReq} {k w : Nat} {op : AtomOp} {b : Word} {ret : Bool} (ho : r.origin = .port k)
    (hop : r.op = .atomic op w b ret) (h : r.off < s.hbmEnd) : exec (.clusterUnitAtomic 1 r) s = .next (s.performReq r) := by
  show execClusterUnitAtomic 1 r s = _
  unfold execClusterUnitAtomic
  simp only [hop, ho, h, State.takeLine]
  rfl

theorem clusterUnitAtomic_adds {r : MemReq} {k : Nat} {held : List Nat} {w : Nat} {b : Word} {ret : Bool} (h : PortMay s r k held)
    (hop : r.op = .atomic .add w b ret) (hend : r.off + w ≤ s.hbmEnd) (hw : 0 < w) :
    let old := valOf (s.readBytes none held)
    ∃ t, exec (.clusterUnitAtomic 1 r) s = .next t ∧ exec (.homeSliceRequest r) s = .next t
      ∧ valOf (t.readBytes none held) = (old + b.toNat) % 2 ^ (8 * w) ∧ WritesOnly s t held ∧ ContextsKeep s t
      ∧ t.sent = .portReply k (BitVec.ofNat 64 old) [] :: s.sent := by
  intro old
  have hoff : r.off < s.hbmEnd := by omega
  obtain ⟨u, hu, he⟩ := performReq_port_add h hop hend hw
  have hlen : held.length = w := by
    have hin : ∀ o ∈ r.offs, o < s.hbmEnd := by
      simp only [MemReq.offs, hop, List.mem_map, List.mem_range]
      rintro _ ⟨j, hj, rfl⟩
      omega
    rw [State.heldAll_hbm hin h.owned]
    simp [MemReq.offs, hop]
  refine ⟨_, (clusterUnitAtomic_port h.origin hop hoff).trans (congrArg _ he), (if_pos hoff).trans (congrArg _ he), ?_,
    (hu.writesOnly (forall_zip_fst fun _ hx => hx)).send _, hu.contextsKeep.send _, congrArg _ hu.sent⟩
  rw [State.readBytes_plain h.plain.1]
  show valOf (held.map u.mem.get) = _
  rw [hu.mem, Memory.map_get_writeEach _ h.plain.2 (hlen.trans (length_bytesOf _ _).symm), valOf_bytesOf, Nat.mod_mod]

/-! ## Owner entries -/

/-- The value of an owner entry has 16 bits (R33). -/
theorem State.ownerAt_lt (s : State) (slice granule : Nat) : s.ownerAt slice granule < 2 ^ 16 := by
  unfold State.ownerAt
  split
  · exact BitVec.isLt _
  · have := valOf_lt (s.mem.read (s.dcbField ombase 0 45 + 2 * granule) 2)
    rwa [Memory.read_eq, List.length_map, List.length_range, ← Memory.read_eq] at this

theorem ownerEntryFetchReturn_caches (s : State) {slice granule : Nat} (hs : slice < 128) (hg : granule < 262144) :
    ∃ t, exec (.ownerEntryFetchReturn slice granule) s = .next t
      ∧ (∃ o ∈ t.slices.owners, o.slice = slice ∧ o.granule = granule ∧ o.entry.toNat = s.ownerAt slice granule)
      ∧ t.ownerAt slice granule = s.ownerAt slice granule
      ∧ (∀ o, o.slice ≠ slice → (o ∈ t.slices.owners ↔ o ∈ s.slices.owners))
      ∧ t = { s with slices := { s.slices with owners := t.slices.owners } } := by
  have he : (BitVec.ofNat 16 (s.ownerAt slice granule)).toNat = s.ownerAt slice granule :=
    (BitVec.toNat_ofNat _ _).trans (Nat.mod_eq_of_lt (s.ownerAt_lt slice granule))
  refine ⟨s.cacheOwner slice granule, if_pos ⟨hs, hg⟩, ⟨_, List.mem_cons_self, rfl, rfl, he⟩, ?_, fun o ho => ?_, rfl⟩
  · rw [State.ownerAt, State.cacheOwner]
    simp only [List.cons_append, List.find?_cons, beq_self_eq_true, Bool.and_self, he]
  · have hh : o ∉ (s.slices.owners.filter fun o => o.slice == slice && o.granule != granule).take 255 := by
      intro hm
      have := (List.mem_filter.mp (List.mem_of_mem_take hm)).2
      simp [ho] at this
    have hne : o ≠ { slice := slice, granule := granule, entry := BitVec.ofNat 16 (s.ownerAt slice granule) } :=
      fun e => ho (congrArg OwnerEntry.slice e)
    simp [State.cacheOwner, hh, hne, ho]

theorem ownerMapUpdate_drops {g : Nat} (h : bit (s.dcbGet omupcmd).toNat 63 = true) :
    ∃ t, exec (.ownerMapUpdate g) s = .next t ∧ (∀ o, o ∈ t.slices.owners ↔ o ∈ s.slices.owners ∧ o.granule ≠ g)
      ∧ t = { s with slices := { s.slices with owners := t.slices.owners }, pend := s.pend ++ [.ownerMapUpdateComplete] } :=
  ⟨_, if_pos h, fun o => by simp [State.owe], rfl⟩

/-- The entry that an update leaves, and the granule of a changed one in confidential mode (R36, R392). -/
def State.ownerChanged (s : State) : State :=
  let g := s.dcbField omupcmd 0 18
  let e := s.ownerWord g % 2 ^ 14
  let s0 : State := { s with control := { s.control with owned := put s.control.owned g e } }
  if s.confidential = true ∧ e ≠ (look s.control.owned g).getD 0 then
    { s0 with mem := s0.mem.zero (0x200000 * g) 0x200000,
              control := { s0.control with seals := s0.control.seals.filter fun x => x.1 / 4096 != g } }
  else s0

theorem ownerMapUpdateComplete_eq (h : bit (s.dcbGet omupcmd).toNat 63 = true) :
    exec .ownerMapUpdateComplete s = .next (s.ownerChanged.dcbSetField omupcmd 63 1 0) := if_pos h

theorem State.ownerChanged_rest (s : State) :
    s.ownerChanged = { s with mem := s.ownerChanged.mem, control := s.ownerChanged.control } := by
  unfold State.ownerChanged
  extract_lets g e s0
  split
  · rfl
  · rfl

theorem State.ownerChanged_spec (s : State) :
    let g := s.dcbField omupcmd 0 18
    let e := s.ownerWord g % 2 ^ 14
    let zeroed := s.confidential = true ∧ e ≠ (look s.control.owned g).getD 0
    (∀ a, s.ownerChanged.mem.get a = if zeroed ∧ a / 0x200000 = g then 0 else s.mem.get a)
    ∧ (∀ x, x ∈ s.ownerChanged.control.seals ↔ x ∈ s.control.seals ∧ (zeroed → x.1 / 4096 ≠ g))
    ∧ look s.ownerChanged.control.owned g = some e := by
  intro g e zeroed
  have hlook : look (put s.control.owned g e) g = some e := (look_put _ _ _ _).trans (if_pos rfl)
  by_cases hz : zeroed
  · rw [show s.ownerChanged = _ from if_pos hz]
    refine ⟨fun a => ?_, fun x => ?_, hlook⟩
    · rw [Memory.get_zero]
      have hr : (0x200000 * g ≤ a ∧ a < 0x200000 * g + 0x200000) ↔ zeroed ∧ a / 0x200000 = g := by
        simp only [hz, true_and]
        omega
      exact ite_congr (propext hr) (fun _ => rfl) fun _ => rfl
    · have hx : (x.1 / 4096 != g) = true ↔ (zeroed → x.1 / 4096 ≠ g) := by simp [hz]
      exact List.mem_filter.trans (and_congr_right fun _ => hx)
  · rw [show s.ownerChanged = _ from if_neg hz]
    exact ⟨fun a => by simp [hz], fun x => by simp [hz], hlook⟩

theorem dcbField_clear_busy (s : State) (off : Nat) {lo len : Nat} (h : lo + len ≤ 63) :
    (s.dcbSetField off 63 1 0).dcbField off lo len = s.dcbField off lo len := by
  unfold State.dcbField State.dcbSetField
  rw [State.dcbGet_dcbSet, if_pos rfl, BitVec.toNat_ofNat]
  exact field_clear h

theorem dcbGet_clear_busy (s : State) (off : Nat) : bit ((s.dcbSetField off 63 1 0).dcbGet off).toNat 63 = false := by
  unfold State.dcbSetField
  rw [State.dcbGet_dcbSet, if_pos rfl, BitVec.toNat_ofNat]
  exact bit_clear _

theorem dcbGet_dcbSetField_other (s : State) {off k : Nat} (lo len v : Nat) (h : k ≠ off) :
    (s.dcbSetField off lo len v).dcbGet k = s.dcbGet k := by
  unfold State.dcbSetField
  rw [State.dcbGet_dcbSet, if_neg (Ne.symm h)]

theorem ownerMapUpdateComplete_clears (h : bit (s.dcbGet omupcmd).toNat 63 = true) :
    ∃ t, exec .ownerMapUpdateComplete s = .next t
      ∧ (let g := s.dcbField omupcmd 0 18
        let e := s.ownerWord g % 2 ^ 14
        let zeroed := s.confidential = true ∧ e ≠ (look s.control.owned g).getD 0
        (∀ a, t.mem.get a = if zeroed ∧ a / 0x200000 = g then 0 else s.mem.get a)
        ∧ (∀ x, x ∈ t.control.seals ↔ x ∈ s.control.seals ∧ (zeroed → x.1 / 4096 ≠ g))
        ∧ look t.control.owned g = some e)
      ∧ bit (t.dcbGet omupcmd).toNat 63 = false ∧ (∀ lo len, lo + len ≤ 63 → t.dcbField omupcmd lo len = s.dcbField omupcmd lo len)
      ∧ (∀ off, off ≠ omupcmd → t.dcbGet off = s.dcbGet off)
      ∧ ContextsKeep s t ∧ t.slices = s.slices ∧ t.sched = s.sched ∧ t.fabric = s.fabric ∧ t.pend = s.pend ∧ t.sent = s.sent := by
  have hspec := s.ownerChanged_spec
  refine ⟨_, ownerMapUpdateComplete_eq h, ?_⟩
  obtain ⟨m, k, hrest⟩ : ∃ m k, s.ownerChanged = { s with mem := m, control := k } := ⟨_, _, s.ownerChanged_rest⟩
  rw [hrest] at hspec ⊢
  exact ⟨hspec, dcbGet_clear_busy _ _, fun lo len hl => dcbField_clear_busy _ _ hl,
    fun off ho => dcbGet_dcbSetField_other _ _ _ _ ho, ⟨⟨rfl, rfl⟩, rfl, ⟨rfl, rfl⟩, rfl⟩, rfl, rfl, rfl, rfl, rfl⟩

/-! ## Host DMA -/

/-- The granules that a range of `n` bytes meets are all marked host buffers of the runtime, and the device hears (R34, R389). -/
def State.hostMay (s : State) (off n : Nat) : Prop :=
  s.deaf = false ∧ off + n ≤ s.hbmEnd ∧ ∀ o, off ≤ o → o < off + n →
    s.control.hostBuffers.contains (o / 0x200000) = true
      ∧ field (s.ownerAt (homeSlice (0x200000 * (o / 0x200000))) (o / 0x200000)) 12 2 = 3

/-- What the host's request tests before it moves a byte. -/
def State.hostTest (s : State) (off n : Nat) : Bool :=
  !s.deaf && decide (off + n ≤ s.hbmEnd) && ((((List.range n).map (off + ·)).map (· / 0x200000)).eraseDups).all fun g =>
    s.control.hostBuffers.contains g && field (s.ownerAt (homeSlice (0x200000 * g)) g) 12 2 == 3

theorem State.hostTest_iff (s : State) (off n : Nat) : s.hostTest off n = true ↔ s.hostMay off n := by
  have hr : ∀ P : Nat → Prop, (∀ g ∈ (((List.range n).map (off + ·)).map (· / 0x200000)).eraseDups, P g)
      ↔ ∀ o, off ≤ o → o < off + n → P (o / 0x200000) := by
    intro P
    simp only [List.mem_eraseDups, List.mem_map, List.mem_range]
    constructor
    · exact fun hp o h1 h2 => hp _ ⟨o, ⟨o - off, by omega, by omega⟩, rfl⟩
    · rintro hp _ ⟨_, ⟨j, hj, rfl⟩, rfl⟩
      exact hp (off + j) (by omega) (by omega)
  simp only [State.hostTest, State.hostMay, Bool.and_eq_true, Bool.not_eq_true', decide_eq_true_eq, List.all_eq_true, beq_iff_eq,
    hr fun g => s.control.hostBuffers.contains g = true ∧ field (s.ownerAt (homeSlice (0x200000 * g)) g) 12 2 = 3, and_assoc]

theorem hostDma_read_eq (s : State) (off n : Nat) : exec (.hostDma { off := off, write := none, len := n }) s
    = if !s.hostTest off n then .next s else .next (s.send (.hostData (s.readBytes none ((List.range n).map (off + ·))))) := rfl

theorem hostDma_write_eq (s : State) (off n : Nat) (bs : List Byte) : exec (.hostDma { off := off, write := some bs, len := n }) s
    = if !s.hostTest off bs.length then .next s
      else if s.touchesRecord ((List.range bs.length).map (off + ·)) then .next s
      else .next (s.writeBytes (((List.range bs.length).map (off + ·)).zip bs)) := rfl

theorem hostDma_refused {off n : Nat} {w : Option (List Byte)} (h : ¬ s.hostMay off ((w.map List.length).getD n)) :
    exec (.hostDma { off := off, write := w, len := n }) s = .next s := by
  have ht : s.hostTest off ((w.map List.length).getD n) = false := Bool.eq_false_iff.mpr fun e => h ((s.hostTest_iff _ _).mp e)
  cases w with
  | none => rw [hostDma_read_eq, show s.hostTest off n = false from ht]; rfl
  | some bs => rw [hostDma_write_eq, show s.hostTest off bs.length = false from ht]; rfl

theorem hostDma_reads {off n : Nat} (h : s.hostMay off n) : exec (.hostDma { off := off, write := none, len := n }) s
    = .next (s.send (.hostData (s.readBytes none ((List.range n).map (off + ·))))) := by
  rw [hostDma_read_eq, (s.hostTest_iff off n).mpr h]
  rfl

theorem hostDma_writes {off n : Nat} {bs : List Byte} (h : s.hostMay off bs.length)
    (hf : s.touchesRecord ((List.range bs.length).map (off + ·)) = false) :
    ∃ t, exec (.hostDma { off := off, write := some bs, len := n }) s = .next t
      ∧ t.mem.read off bs.length = bs ∧ WritesOnly s t ((List.range bs.length).map (off + ·)) ∧ ContextsKeep s t := by
  have hctl : ∀ x ∈ (List.range bs.length).map (off + ·), inControl x = false := by
    obtain ⟨_, hend, _⟩ := h
    simp only [List.mem_map, List.mem_range]
    rintro _ ⟨j, hj, rfl⟩
    exact inControl_of_hbm (s := s) (by omega)
  have hnd : ((List.range bs.length).map (off + ·)).Nodup :=
    List.Pairwise.map (off + ·) (fun _ _ hne e => hne (Nat.add_left_cancel e)) List.nodup_range
  have hw := Wrote.writeBytes s (forall_zip_fst (bs := bs) hctl)
  refine ⟨_, ?_, ?_, hw.writesOnly (forall_zip_fst fun _ hx => hx), hw.contextsKeep⟩
  · rw [hostDma_write_eq, (s.hostTest_iff off bs.length).mpr h, hf]
    rfl
  · have hread := Memory.map_get_writeEach s.mem (bs := bs) hnd (by simp)
    rw [List.map_map] at hread
    rw [hw.mem, Memory.read_eq]
    exact hread

/-- Settles O48, clause by clause. -/
theorem memorySteps : Obligations.MemorySteps :=
  ⟨homeSliceRequest_serves, windowRequest_serves, fun _ _ _ _ _ _ _ h hop hend hw => clusterUnitAtomic_adds h hop hend hw,
    fun s _ _ hs hg => ownerEntryFetchReturn_caches s hs hg, fun _ _ h => ownerMapUpdate_drops h,
    fun _ h => ownerMapUpdateComplete_clears h,
    fun _ _ => ⟨fun _ h => hostDma_reads h, fun _ _ h hf => hostDma_writes h hf, fun _ _ h => hostDma_refused h⟩⟩

end Sys2Proof.Machine
end

section
/-! PROOF. O26: notes, sync words and timelines (R51, R60, R61, R150, R273 to R277). The seat's own step is said once, for an
instruction that has changed no more of the contexts than its own ordering state before it retires (`Reorders`); the end of a sync region
followed by an acquire is such a change, and `RegionEnds` of what lies outside the contexts. The sync word is read and written as two
numbers of 8 bytes. -/

namespace Sys2Proof.Machine

open Sys2Proof.Bits

/-! ## Numbers in memory -/

theorem valOf_append (as bs : List Byte) : valOf (as ++ bs) = valOf as + 2 ^ (8 * as.length) * valOf bs := by
  induction as with
  | nil => simp [valOf]
  | cons a as ih =>
    have hp : 2 ^ (8 * (as.length + 1)) = 256 * 2 ^ (8 * as.length) := by rw [Nat.mul_succ, Nat.pow_add, Nat.mul_comm]
    rw [List.cons_append, valOf, ih, List.length_cons, hp, valOf, Nat.mul_add, Nat.mul_assoc, Nat.add_assoc]

theorem bytesOf_valOf (bs : List Byte) : bytesOf bs.length (valOf bs) = bs := by
  induction bs with
  | nil => rfl
  | cons b bs ih =>
    have hb : b.toNat < 256 := b.isLt
    have hd : (b.toNat + 256 * valOf bs) / 256 = valOf bs := by omega
    have hm : BitVec.ofNat 8 (b.toNat + 256 * valOf bs) = b := BitVec.eq_of_toNat_eq (by simp only [BitVec.toNat_ofNat]; omega)
    simp only [List.length_cons, valOf, bytesOf, hd, hm, ih]

theorem Memory.length_read (m : Memory) (a n : Nat) : (m.read a n).length = n := by simp [Memory.read_eq]

theorem Memory.read_add (m : Memory) (a j k : Nat) : m.read a (j + k) = m.read a j ++ m.read (a + j) k := by
  simp only [Memory.read_eq, List.range_add, List.map_append, List.map_map, Function.comp_def, Nat.add_assoc]

theorem Memory.readNat_add (m : Memory) (a j k : Nat) :
    m.readNat a (j + k) = m.readNat a j + 2 ^ (8 * j) * m.readNat (a + j) k := by
  unfold Memory.readNat
  rw [m.read_add, valOf_append, m.length_read]

theorem Memory.readNat_lt (m : Memory) (a n : Nat) : m.readNat a n < 2 ^ (8 * n) := by
  have h := valOf_lt (m.read a n)
  rwa [m.length_read] at h

/-- A range just written reads as written. -/
theorem Memory.read_write (m : Memory) (a : Nat) (bs : List Byte) : (m.write a bs).read a bs.length = bs := by
  rw [Memory.read_eq]
  refine List.ext_getElem (by simp) fun k _ hk => ?_
  rw [List.getElem_map, List.getElem_range, m.get_write_inside a bs k hk]

/-- Bytes written back behind a write are no change. -/
theorem Memory.get_write_back (m : Memory) (a n : Nat) (bs : List Byte) (x : Nat) :
    (m.write a (bs ++ m.read (a + bs.length) n)).get x = (m.write a bs).get x := by
  have hl : (bs ++ m.read (a + bs.length) n).length = bs.length + n := by rw [List.length_append, m.length_read]
  rcases Nat.lt_or_ge x a with hx | hx
  · rw [m.get_write_outside _ _ _ (.inl hx), m.get_write_outside _ _ _ (.inl hx)]
  obtain ⟨k, rfl⟩ := Nat.exists_eq_add_of_le hx
  rcases Nat.lt_or_ge k bs.length with hk | hk
  · rw [m.get_write_inside a _ k (by omega), m.get_write_inside a bs k hk, List.getElem_append_left hk]
  rw [m.get_write_outside a bs _ (by omega)]
  rcases Nat.lt_or_ge k (bs.length + n) with hn | hn
  · rw [m.get_write_inside a _ k (by omega), List.getElem_append_right hk]
    simp only [Memory.read_eq, List.getElem_map, List.getElem_range]
    congr 1
    omega
  · exact m.get_write_outside _ _ _ (by omega)

theorem Memory.readNat_writeNat (m : Memory) (a n v : Nat) : (m.writeNat a n v).readNat a n = v % 2 ^ (8 * n) := by
  have h := m.read_write a (bytesOf n v)
  rw [length_bytesOf] at h
  unfold Memory.readNat Memory.writeNat
  rw [h, valOf_bytesOf]

theorem Memory.readNat_congr {m m' : Memory} (h : ∀ a, m.get a = m'.get a) (a n : Nat) : m.readNat a n = m'.readNat a n := by
  simp only [Memory.readNat, Memory.read_eq, h]

/-- A number written leaves the bytes outside its range. -/
theorem Memory.get_writeNat_outside (m : Memory) (a n v x : Nat) (h : x ∉ (List.range n).map (a + ·)) :
    (m.writeNat a n v).get x = m.get x := by
  refine m.get_write_outside a _ x ?_
  rw [length_bytesOf]
  refine Decidable.byContradiction fun hin => h ?_
  exact List.mem_map.mpr ⟨x - a, List.mem_range.mpr (by omega), by omega⟩

/-! ## Sync words -/

/-- TARGET set and COUNT cleared: the low half of a sync word is TARGET alone, the high half stays (R51). -/
theorem setField_target_count {lo : Nat} (h : lo < 2 ^ (8 * 8)) (hi : Nat) {target : Nat} (ht : target < 2 ^ 32) :
    setField (setField (lo + 2 ^ (8 * 8) * hi) 0 32 target) 32 32 0 = target + 2 ^ (8 * 8) * hi := by
  simp only [setField, field, Nat.shiftRight_eq_div_pow]
  omega

/-- What arming a sync word writes: TARGET with COUNT 0, and the bytes above as they were. -/
theorem Memory.armed_valOf (m : Memory) (x : Nat) {target : Nat} (ht : target < 2 ^ 32) :
    setField (setField (m.readNat x (8 + 8)) 0 32 target) 32 32 0 = valOf (bytesOf 8 target ++ m.read (x + 8) 8) := by
  have ht' : target < 2 ^ (8 * 8) := Nat.lt_trans ht (by decide)
  rw [m.readNat_add x 8 8, setField_target_count (m.readNat_lt x 8) _ ht, valOf_append, length_bytesOf, valOf_bytesOf,
    Nat.mod_eq_of_lt ht', Memory.readNat]

theorem Memory.armed_bytes (m : Memory) (x target : Nat) :
    bytesOf (8 + 8) (valOf (bytesOf 8 target ++ m.read (x + 8) 8)) = bytesOf 8 target ++ m.read (x + 8) 8 := by
  have h := bytesOf_valOf (bytesOf 8 target ++ m.read (x + 8) 8)
  rwa [List.length_append, length_bytesOf, Memory.length_read] at h

/-- A sync word is armed (R51): to a reader of bytes, TARGET alone has been written, as 8 bytes. -/
theorem State.armSync_get (s : State) (x : Nat) (target : BitVec 32) (a : Nat) :
    (s.armSync x target).mem.get a = (s.mem.writeNat x 8 target.toNat).get a := by
  have h := s.mem.get_write_back x 8 (bytesOf 8 target.toNat) a
  rw [length_bytesOf] at h
  show (s.mem.write x (bytesOf (8 + 8) (setField (setField (s.mem.readNat x (8 + 8)) 0 32 target.toNat) 32 32 0))).get a = _
  rw [s.mem.armed_valOf x target.isLt, s.mem.armed_bytes, h]
  rfl

/-- A sync word that is armed changes in memory alone, in its first 8 bytes, which hold TARGET and COUNT 0 (R51). -/
theorem State.armSync_spec (s : State) (x : Nat) (target : BitVec 32) : ∃ m, s.armSync x target = { s with mem := m }
    ∧ (∀ a, a ∉ (List.range 8).map (x + ·) → m.get a = s.mem.get a) ∧ m.readNat x 8 = target.toNat := by
  refine ⟨_, rfl, fun a ha => (s.armSync_get x target a).trans (s.mem.get_writeNat_outside x 8 _ a ha), ?_⟩
  refine (Memory.readNat_congr (s.armSync_get x target) x 8).trans ((s.mem.readNat_writeNat x 8 _).trans ?_)
  exact Nat.mod_eq_of_lt (Nat.lt_trans target.isLt (by decide))

/-- GEN is the third word of a sync word (R51). -/
theorem Memory.field_gen (m : Memory) (a : Nat) : field (m.readNat a 16) 64 32 = m.readNat (a + 8) 4 := by
  have h8 := m.readNat_lt a 8
  have h4 := m.readNat_lt (a + 8) 4
  rw [m.readNat_add a 8 8, m.readNat_add (a + 8) 4 4]
  simp only [field, Nat.shiftRight_eq_div_pow]
  omega

/-! ## Retiring after a change of the ordering state -/

/-- From `s` to `u` the context in focus, `c`, became `e`, which differs in the ordering state only, and every other context stays. -/
structure Reorders (s u : State) (c e : Ctx) : Prop where
  focus : u.cx = some e
  rest : e = { c with order := e.order }
  others : ∀ n, n ≠ c.num → u.findCtx n = s.findCtx n

section
variable {s t u : State} {c e : Ctx} {i : Instr} {pre : State → Ctx → Prop} {change : State → Ctx → Ctx}
  {frame : State → Ctx → State → Prop}

/-- Nothing of any context has changed. -/
theorem Reorders.same (h : u.cx = s.cx) (hs : u.seats = s.seats) (hv : u.saved = s.saved) (hc : s.cx = some c) : Reorders s u c c where
  focus := h.trans hc
  rest := rfl
  others n _ := by unfold State.findCtx; rw [h, hs, hv]

theorem Reorders.nextPc (h : Reorders s u c e) (f : Form) : e.nextPc f = c.nextPc f := by
  rw [h.rest]
  rfl

theorem Reorders.othersKeep (h : Reorders s u c e) {out : Option Vec} (k : OthersKeep u t e out) : OthersKeep s t c out := by
  intro n hn
  have hnum : e.num = c.num := by rw [h.rest]
  have hnext : e.nextMember = c.nextMember := by rw [h.rest]; rfl
  rw [k n (hnum ▸ hn), h.others n hn, hnext]

/-- An instruction that completes with no result once it has changed its context's ordering state. -/
theorem gives_done (h : ∀ s c, Ready s c i.form → pre s c →
      ∃ u, exec i s = .next (u.done i.form) ∧ Reorders s u c (change s c) ∧ frame s c (u.done i.form)) :
    Gives i pre change none frame := by
  intro s c hr hp
  obtain ⟨u, he, hu, hf⟩ := h s c hr hp
  obtain ⟨d, hd, hregs, hadv, -, hoth⟩ :=
    result_spec (s := u) (u := u) i.form id none 0 hu.focus (by simp) (by simp [State.pushOpt, State.mapCx])
  have hr' : (change s c).regs = c.regs := by rw [hu.rest]
  exact ⟨_, d, he, hd, hu.nextPc i.form ▸ hadv, hf, hregs.trans hr', hu.othersKeep hoth⟩

/-- An instruction that completes with a scalar result once it has changed its context's ordering state. -/
theorem gives_result {dst : Spec} {w : State → Ctx → Word} (h : ∀ s c, Ready s c i.form → pre s c →
      ∃ u, exec i s = .next ((u.putScalar dst (w s c)).done i.form) ∧ Reorders s u c (change s c) ∧ ∀ t, Quiet u t → frame s c t) :
    Gives i pre change (some (dst, w)) frame := by
  intro s c hr hp
  obtain ⟨u, he, hu, hf⟩ := h s c hr hp
  obtain ⟨d, hd, hregs, hadv, hquiet, hoth⟩ := scalar_result i.form dst (w s c) 0 hu.focus
  rw [mapCx_raise_zero] at hd hquiet hoth
  have hr' : (change s c).regs = c.regs := by rw [hu.rest]
  exact ⟨_, d, he, hd, hu.nextPc i.form ▸ hadv, hf _ hquiet, hr' ▸ hregs, hu.othersKeep hoth⟩

theorem quiet_done (s : State) (f : Form) : Quiet s (s.done f) := (quiet_mapCx s _).trans (quiet_mapCx _ _)

/-! ## The end of a sync region, and the acquire -/

/-- Packets leave whatever the home slices hold as it is. -/
theorem foldl_packet_slices (c : Ctx) (body : PktBody) (x : Slices) (l : List Nat) (s : State) :
    l.foldl (fun s d => s.packet c d body) { s with slices := x } = { l.foldl (fun s d => s.packet c d body) s with slices := x } := by
  induction l generalizing s with
  | nil => rfl
  | cons d l ih => exact ih (s.packet c d body)

/-- Packets change only what the device has sent. -/
theorem foldl_packet_rest (c : Ctx) (body : PktBody) (l : List Nat) (s : State) :
    l.foldl (fun s d => s.packet c d body) s = { s with sent := (l.foldl (fun s d => s.packet c d body) s).sent } := by
  induction l generalizing s with
  | nil => rfl
  | cons d l ih => exact ih (s.packet c d body)

/-- The end of a context's sync region: its records here go, other devices hear of it, and its next region begins (R67). -/
theorem State.clearRegionOf_eq (s : State) (c : Ctx) : s.clearRegionOf c
    = ({ s with slices := (s.clearRaces c.num).slices,
                sent := ((s.farRecords c).foldl (fun s d => s.packet c d (.regionEnd c.num)) s).sent } : State).updCtx c.num Ctx.newRegion := by
  have h := foldl_packet_slices c (.regionEnd c.num) (s.clearRaces c.num).slices (s.farRecords c) s
  rw [foldl_packet_rest c (.regionEnd c.num) (s.farRecords c) s] at h
  exact congrArg (fun t : State => t.updCtx c.num Ctx.newRegion) h

/-- A settled region ends, and the instruction goes on. -/
theorem Settled.closing (h : Settled s c) (hc : s.cx = some c) (k : State → State) : s.closing k = k (s.clearRegionOf c) := by
  unfold State.closing State.closingWith State.clearRegion
  simp [hc, h.clean, h.verdicts]

/-- An acquire changes only the core's read cache, and what is on its way there (R54). -/
theorem State.acquire_spec (s : State) : ∃ x, s.acquire = { s with cores := x }
    ∧ ∀ k, s.acquire.core k = if k = s.cur.core then { s.core k with lines := [], arriving := [] } else s.core k := by
  unfold State.acquire State.flushReads
  split
  · rename_i he
    simp only [List.isEmpty_iff] at he
    obtain ⟨hl, ha⟩ := he
    refine ⟨s.cores, rfl, fun k => ?_⟩
    split
    · rename_i hk
      rw [hk, ← hl, ← ha]
    · rfl
  · refine ⟨_, rfl, fun k => ?_⟩
    unfold State.core
    rw [State.mapCore_cores, look_put]
    split
    · rename_i hk
      rw [← hk, if_pos rfl]
      rfl
    · rename_i hk
      rw [if_neg (Ne.symm hk)]

theorem Reorders.acquire (h : Reorders s u c e) : Reorders s u.acquire c e := by
  obtain ⟨x, hx, -⟩ := u.acquire_spec
  rw [hx]
  exact ⟨h.focus, h.rest, h.others⟩

theorem RegionEnds.acquire (h : RegionEnds false s c u) (hcur : u.cur = s.cur) : RegionEnds true s c u.acquire := by
  obtain ⟨x, hx, hcore⟩ := u.acquire_spec
  rw [hx] at hcore ⊢
  refine ⟨h.bytes, h.control, h.races, fun k => (hcore k).trans ?_, h.sched, h.fabric, h.complex, h.clocks, h.owes, h.sent⟩
  have hk : u.core k = s.core k := by simpa using h.cores k
  rw [hcur, hk]
  simp only [true_and]

theorem State.clearRegionOf_reorders (hc : s.cx = some c) : Reorders s (s.clearRegionOf c) c c.newRegion := by
  rw [s.clearRegionOf_eq c]
  refine ⟨by simp [hc], rfl, fun n hn => ?_⟩
  rw [findCtx_updCtx (g := Ctx.newRegion) (fun _ => rfl)]
  show (s.findCtx n).map _ = _
  cases hs : s.findCtx n with
  | none => rfl
  | some d => simp [findCtx_num hs, hn]

theorem State.clearRegionOf_ends (s : State) (c : Ctx) : RegionEnds false s c (s.clearRegionOf c) := by
  rw [s.clearRegionOf_eq c]
  exact ⟨fun _ => rfl, fun _ => rfl, rfl, fun _ => (if_neg (by simp)).symm, rfl, rfl, rfl, ⟨rfl, rfl, rfl⟩, rfl, rfl⟩

/-- The region's end and the acquire, together. -/
theorem State.acquired_ends (s : State) (c : Ctx) : RegionEnds true s c (s.clearRegionOf c).acquire :=
  (s.clearRegionOf_ends c).acquire (by rw [s.clearRegionOf_eq c]; rfl)

/-- What is quiet after the end of a region keeps it. -/
theorem RegionEnds.quiet {a : Bool} (h : RegionEnds a s c u) (k : Quiet u t) : RegionEnds a s c t where
  bytes x := (k.bytes x).trans (h.bytes x)
  control off := (k.control off).trans (h.control off)
  races := k.slices.trans h.races
  cores n := by
    have hc : t.core n = u.core n := by unfold State.core; rw [k.cores]
    exact hc.trans (h.cores n)
  sched := k.sched.trans h.sched
  fabric := k.fabric.trans h.fabric
  complex := k.complex.trans h.complex
  clocks := by
    obtain ⟨kt, kc, kd⟩ := k.clocks
    obtain ⟨ht, hc, hd⟩ := h.clocks
    exact ⟨kt.trans ht, kc.trans hc, kd.trans hd⟩
  owes := k.owes.trans h.owes
  sent := k.sent.trans h.sent

/-! ## Notes -/

/-- An address that passes the tests of R253 is gone on with. -/
theorem State.reaches.withAddr {a : Addr} {len align : Nat} {p : Tgt} (h : s.reaches a len align p) (k : Tgt → State → State) :
    s.withAddr a len align k = k p s := by
  obtain ⟨htest, halign⟩ := h
  unfold State.withAddr
  simp [htest, halign]

/-- A NOTE whose word lies in HBM of this device is performed: the tenant owns the word, and no earlier access of the seat to it is
outstanding. -/
structure NotesHere (s : State) (c : Ctx) (o : MOps) (p : Tgt) (held : List Nat) : Prop where
  reaches : s.reaches (c.addrIx o) 8 8 p
  hbm : s.isHbm p = true
  here : p.dev = s.devNum
  owned : s.heldAll c.tenant [p.off] = .inl held
  earlier : s.unperformed (c.order.outs.filter fun x => x.acq || x.touches p.dev ((List.range 8).map (p.off + ·))) = []

theorem NotesHere.note_eq {o : MOps} {p : Tgt} {held : List Nat} (h : NotesHere s c o p held) (hc : s.cx = some c) (op : BitVec 9)
    (all : Bool) : s.note op o all = (s.oweChecked c.handle (.noteWake p.off all)).done (.m op o) := by
  have he := h.earlier
  rw [h.here] at he
  unfold State.note State.withWord
  simp [hc, h.reaches.withAddr, h.hbm, h.here, he, h.owned]

/-- Both forms of NOTE owe the wake (R150, R273). -/
theorem note_gives {op : BitVec 9} {o : MOps} {p : Tgt} {held : List Nat} {all : Bool} (hf : i.form = .m op o)
    (he : ∀ s, exec i s = s.run i.form fun _ s => s.note op o all) (hp : ∀ s c, pre s c → NotesHere s c o p held) :
    Gives i pre (fun _ c => c) none fun s c u => OwesChecked c.handle (.noteWake p.off all) s u :=
  gives_done fun s c hr h => by
    refine ⟨s.oweChecked c.handle (.noteWake p.off all), ?_, .same rfl rfl rfl hr.seat, rfl, rfl, quiet_done _ _⟩
    rw [he, run_ready hr, (hp s c h).note_eq hr.seat, hf]

/-! ## The instructions -/

/-- SWSET writes TARGET and clears COUNT, and no other byte (R51, R274). -/
theorem swset_gives (o : MOps) (p : Tgt) (x : Nat) : Gives (.swset o)
    (fun s c => s.reaches (c.addr o 0) 16 16 p ∧ p.dev = s.devNum ∧ (bankCore p.off).isSome = true ∧ launchArea p.off = false
      ∧ s.acquiring c = [] ∧ s.heldSeat c.tenant [p.off] = .inl [x])
    (fun _ c => c) none
    (fun s c u => WritesOnly s u ((List.range 8).map (x + ·)) ∧ u.mem.readNat x 8 = (c.srcS [o.sa] o.sb).toNat % 2 ^ 32) :=
  gives_done fun s c hr ⟨hreach, hdev, hbank, hlaunch, hacq, hheld⟩ => by
    have hnone : (bankCore p.off).isNone = false := by simpa using hbank
    obtain ⟨m, hm, hbytes, hread⟩ := s.armSync_spec x ((c.srcS [o.sa] o.sb).setWidth 32)
    refine ⟨{ s with mem := m }, ?_, .same rfl rfl rfl hr.seat,
      ⟨hbytes, fun _ _ => rfl, rfl, rfl, rfl, ⟨rfl, rfl, rfl⟩, rfl⟩, hread.trans (BitVec.toNat_setWidth 32 _)⟩
    rw [← hm, show exec (.swset o) s = execSwset o s from rfl]
    unfold execSwset State.armSync
    rw [run_ready (f := .m 0x07B o) hr, BitVec.toNat_setWidth]
    dsimp only
    rw [hreach.withAddr, if_neg (by simp [hdev, hnone, hlaunch]), hacq, hheld]
    rfl

/-- SWWAIT on a generation already reached acquires (R51, R275). -/
theorem swwait_gives (o : MOps) (p : Tgt) : Gives (.swwait o)
    (fun s c => s.reaches (c.addr o 0) 16 16 p ∧ s.ownPad p = true ∧ Settled s c ∧ s.unperformed c.order.syncOuts = []
      ∧ (s.mem.readNat (p.off + 8) 4 + 2 ^ 32 - (c.srcS [o.sa] o.sb).toNat % 2 ^ 32) % 2 ^ 32 < 2 ^ 31)
    (fun _ c => c.newRegion) none (RegionEnds true) :=
  gives_done fun s c hr ⟨hreach, hpad, hset, hsync, hgen⟩ => by
    refine ⟨(s.clearRegionOf c).acquire, ?_, (State.clearRegionOf_reorders hr.seat).acquire, (s.acquired_ends c).quiet (quiet_done _ _)⟩
    rw [show exec (.swwait o) s = execSwwait o s from rfl]
    unfold execSwwait
    rw [run_ready (f := .m 0x07C o) hr]
    dsimp only
    rw [hreach.withAddr, hpad, s.mem.field_gen, BitVec.toNat_setWidth, if_pos hgen, hsync, hset.closing hr.seat]
    rfl

theorem vqOf_eq (imm : Nat) : vqOf imm = 4 * (imm / 4 % 2) + imm % 4 := by
  simp [vqOf, field, Nat.shiftRight_eq_div_pow]

/-- TLWAIT on a count already reached acquires, and gives DONE (R61, R276). -/
theorem tlwait_gives (o : COps) :
    let q (c : Ctx) : VQ := c.vq (4 * (o.imm.toNat / 4 % 2) + o.imm.toNat % 4)
    Gives (.tlwait o)
      (fun s c => min (c.valA o.sa).toNat (q c).issued ≤ (q c).done ∧ s.unperformed c.order.syncOuts = [] ∧ Settled s c)
      (fun _ c => c.newRegion) (some (o.dst, fun _ c => BitVec.ofNat 64 (q c).done)) (RegionEnds true) := by
  intro q
  refine gives_result fun s c hr ⟨hdone, hsync, hset⟩ => ⟨(s.clearRegionOf c).acquire, ?_,
    (State.clearRegionOf_reorders hr.seat).acquire, fun t ht => (s.acquired_ends c).quiet ht⟩
  have hq : c.vq (vqOf o.imm.toNat) = q c := by rw [vqOf_eq]
  rw [show exec (.tlwait o) s = execTlwait o s from rfl]
  unfold execTlwait
  rw [run_ready (f := .c 0x07D o) hr]
  dsimp only
  rw [hq, if_neg (Nat.not_lt.mpr hdone), hsync, hset.closing hr.seat]
  rfl

/-- TLREAD gives DONE or ISSUED of the queue (R60, R277). -/
theorem tlread_gives (o : COps) :
    let q (c : Ctx) : VQ := c.vq (4 * (o.imm.toNat / 4 % 2) + o.imm.toNat % 4)
    Gives (.tlread o) (fun _ _ => True) (fun _ c => c)
      (some (o.dst, fun _ c => BitVec.ofNat 64 (if o.imm.getLsbD 3 then (q c).done else (q c).issued))) := by
  intro q
  refine gives_result fun s c hr _ => ⟨s, ?_, .same rfl rfl rfl hr.seat, fun t ht => ht⟩
  have hq : c.vq (vqOf o.imm.toNat) = q c := by rw [vqOf_eq]
  have hb : bit o.imm.toNat 3 = o.imm.getLsbD 3 := by simp [bit, BitVec.getLsbD, Nat.testBit]
  rw [show exec (.tlread o) s = execTlread o s from rfl]
  unfold execTlread
  rw [run_ready (f := .c 0x07E o) hr, hq, hb]
  rfl

end

/-- Settles O26, clause by clause. -/
theorem wordsAndTimelines : Obligations.WordsAndTimelines := by
  refine ⟨fun o p held => ⟨?_, ?_⟩, fun o p x => swset_gives o p x, fun o p => swwait_gives o p,
    fun o => ⟨tlwait_gives o, tlread_gives o⟩⟩
  · exact note_gives (i := .noteOne o) (op := 0x079) rfl (fun _ => rfl) fun _ _ ⟨hr, hh, hd, ho, he⟩ => ⟨hr, hh, hd, ho, he⟩
  · exact note_gives (i := .noteAll o) (op := 0x07A) rfl (fun _ => rfl) fun _ _ ⟨hr, hh, hd, ho, he⟩ => ⟨hr, hh, hd, ho, he⟩

end Sys2Proof.Machine
end

section
/-! PROOF. O23: fences and the waits on their tokens (R82, R83, R103, R104, R268, R269). The end of the region and the acquire are those
of O26; what is new is the tracking slot that a token takes, and LINKSTAT, which an FWAIT with lost peers leaves changed. -/

namespace Sys2Proof.Machine

open Sys2Proof.Bits

section
variable {s t u : State} {c e : Ctx} {i : Instr} {pre : State → Ctx → Prop} {change : State → Ctx → Ctx}
  {frame : State → Ctx → State → Prop}

/-! ## Retiring after a change of the context -/

/-- From `s` to `u` the context in focus, `c`, became `e`, which retires as `c` would (it has its registers, its program counter, its
repetition and its chain), and every other context stays. -/
structure Alters (s u : State) (c e : Ctx) : Prop where
  focus : u.cx = some e
  num : e.num = c.num
  regs : e.regs = c.regs
  pc : e.pc = c.pc
  repst : e.csrs.repst = c.csrs.repst
  next : e.nextMember = c.nextMember
  others : ∀ n, n ≠ c.num → u.findCtx n = s.findCtx n

theorem Reorders.alters (h : Reorders s u c e) : Alters s u c e where
  focus := h.focus
  num := by rw [h.rest]
  regs := by rw [h.rest]
  pc := by rw [h.rest]
  repst := by rw [h.rest]
  next := by rw [h.rest]; rfl
  others := h.others

/-- A change of the context in focus that keeps what its retiring reads comes after any other such change. -/
theorem Alters.mapCx (h : Alters s u c e) (g : Ctx → Ctx) (hnum : (g e).num = e.num) (hregs : (g e).regs = e.regs)
    (hpc : (g e).pc = e.pc) (hrep : (g e).csrs.repst = e.csrs.repst) (hnext : (g e).nextMember = e.nextMember) :
    Alters s (u.mapCx g) c (g e) where
  focus := by rw [State.mapCx_cx, h.focus]; rfl
  num := hnum.trans h.num
  regs := hregs.trans h.regs
  pc := hpc.trans h.pc
  repst := hrep.trans h.repst
  next := hnext.trans h.next
  others n hn := (findCtx_mapCx h.focus hnum (h.num.symm ▸ hn)).trans (h.others n hn)

theorem Alters.othersKeep (h : Alters s u c e) {out : Option Vec} (k : OthersKeep u t e out) : OthersKeep s t c out := by
  intro n hn
  rw [k n (h.num.symm ▸ hn), h.others n hn, h.next]

/-- An instruction that completes with a scalar result once it has changed its own context. -/
theorem gives_altered {dst : Spec} {w : State → Ctx → Word} (h : ∀ s c, Ready s c i.form → pre s c →
      ∃ u, exec i s = .next ((u.putScalar dst (w s c)).done i.form) ∧ Alters s u c (change s c) ∧ ∀ t, Quiet u t → frame s c t) :
    Gives i pre change (some (dst, w)) frame := by
  intro s c hr hp
  obtain ⟨u, he, hu, hf⟩ := h s c hr hp
  obtain ⟨d, hd, hregs, hadv, hquiet, hoth⟩ := scalar_result i.form dst (w s c) 0 hu.focus
  rw [mapCx_raise_zero] at hd hquiet hoth
  rw [hu.regs] at hregs
  rw [nextPc_congr hu.pc hu.repst] at hadv
  exact ⟨_, d, he, hd, hadv, hf _ hquiet, hregs, hu.othersKeep hoth⟩

/-! ## Tokens (R83, R268) -/

/-- A change of the ordering state of the seat's context changes no other context. -/
theorem reorders_mapOrder (hc : s.cx = some c) (g : Order → Order) : Reorders s (s.mapCx fun d => d.mapOrder g) c (c.withOrder g) where
  focus := by rw [State.mapCx_cx, hc]; rfl
  rest := rfl
  others _ hn := findCtx_mapCx (g := fun d => d.mapOrder g) hc rfl hn

/-- The tracking slot of a token is one of the eight (R83). -/
theorem State.freeSlot_lt {q : Order} {k : Nat} (h : s.freeSlot q = some k) : k < 8 := by
  have hf {p : Nat → Bool} (hp : (List.range 8).find? p = some k) : k < 8 := List.mem_range.mp (List.mem_of_find?_eq_some hp)
  unfold State.freeSlot at h
  dsimp only at h
  split at h
  next j hj => exact hf (hj.trans h)
  next => exact hf h

/-- The token that a FENCE gives, with its mask and slot as they are (R268). -/
theorem tokenWord_eq {slot : Nat} (hs : slot < 8) (m n ctx : Nat) : tokenWord (m % 128) slot (n % 2 ^ 32) ctx
    = BitVec.ofNat 64 (m % 128 + 2 ^ 8 * slot + 2 ^ 16 * (n % 2 ^ 32) + 2 ^ 48 * (ctx % 2 ^ 12) + 2 ^ 60 * 0xA) := by
  unfold tokenWord
  rw [show m % 128 % 2 ^ 7 = m % 128 from Nat.mod_mod m 128, Nat.mod_eq_of_lt hs, Nat.mod_mod]

theorem field_zero_seven (n : Nat) : field n 0 7 = n % 128 := by simp [field]

theorem mapCx_mapCx (s : State) (f g : Ctx → Ctx) : (s.mapCx f).mapCx g = s.mapCx (g ∘ f) := by
  unfold State.mapCx
  rw [Option.map_map]

/-! ## FENCE (R82, R83, R268) -/

/-- A FENCE with an empty mask takes no slot: its token is that of slot 0, and only the serial moves on. -/
theorem fence_empty_gives (o : COps) : Gives (.fence o) (fun _ _ => o.imm.toNat % 128 = 0)
    (fun _ c => c.withOrder fun q => { q with fences := (c.order.fences + 1) % 2 ^ 32 })
    (some (o.dst, fun _ c => BitVec.ofNat 64 (o.imm.toNat % 128 + 2 ^ 8 * 0 + 2 ^ 16 * ((c.order.fences + 1) % 2 ^ 32)
      + 2 ^ 48 * (c.num % 2 ^ 12) + 2 ^ 60 * 0xA))) :=
  gives_result fun s c hr hm => by
    refine ⟨_, ?_, reorders_mapOrder hr.seat fun q => { q with fences := (c.order.fences + 1) % 2 ^ 32 }, fun _ ht => (quiet_mapCx s _).trans ht⟩
    rw [show exec (.fence o) s = execFence o s from rfl, ← tokenWord_eq (by decide)]
    unfold execFence
    rw [run_ready (f := .c 0x071 o) hr]
    dsimp only
    rw [field_zero_seven, if_pos hm]
    rfl

/-- A FENCE that need not wait takes its slot, from whatever token of an earlier FENCE still names it, and tracks what its mask covers. -/
theorem fence_gives (o : COps) (k : Nat) : Gives (.fence o)
    (fun s c => o.imm.toNat % 128 ≠ 0 ∧ s.fenceWait c = none ∧ s.freeSlot c.order = some k)
    (fun _ c => c.withOrder fun q =>
      let rest := q.tokens.filter fun t => t.slot != k
      { q with fences := (c.order.fences + 1) % 2 ^ 32,
               tokens := if (c.coveredBy (o.imm.toNat % 128)).isEmpty then rest
                 else rest ++ [{ slot := k, serial := (c.order.fences + 1) % 2 ^ 32, waits := c.coveredBy (o.imm.toNat % 128), lost := [] }] })
    (some (o.dst, fun _ c => BitVec.ofNat 64 (o.imm.toNat % 128 + 2 ^ 8 * k + 2 ^ 16 * ((c.order.fences + 1) % 2 ^ 32)
      + 2 ^ 48 * (c.num % 2 ^ 12) + 2 ^ 60 * 0xA))) :=
  gives_result fun s c hr ⟨hm, hwait, hslot⟩ => by
    refine ⟨_, ?_, reorders_mapOrder hr.seat _, fun _ ht => (quiet_mapCx s _).trans ht⟩
    rw [show exec (.fence o) s = execFence o s from rfl, ← tokenWord_eq (State.freeSlot_lt hslot)]
    unfold execFence
    rw [run_ready (f := .c 0x071 o) hr]
    dsimp only
    rw [field_zero_seven, if_neg hm, hwait, hslot]
    dsimp only
    rw [mapCx_mapCx]
    rfl

/-- A FENCE that finds every slot unfinished waits for the oldest token. -/
theorem fence_waits {o : COps} {n : Nat} (hr : Ready s c (Instr.fence o).form) (hm : o.imm.toNat % 128 ≠ 0) (hwait : s.fenceWait c = some n) :
    exec (.fence o) s = .next (s.stallOn (.oldest n)) := by
  rw [show exec (.fence o) s = execFence o s from rfl]
  unfold execFence
  rw [run_ready (f := .c 0x071 o) hr]
  dsimp only
  rw [field_zero_seven, if_neg hm, hwait]

/-! ## FWAIT (R83, R269) -/

/-- The first context that runs under the number of the one in focus is that one. -/
theorem find_running_focus (hc : s.cx = some c) : s.running.find? (fun p => p.2.num == c.num) = some (s.cur, c) := by
  unfold State.running
  simp [hc]

/-- A context with another LINKSTAT. -/
def Ctx.putLinkstat (c : Ctx) (x : Word) : Ctx := { c with csrs := { c.csrs with linkstat := x } }

/-- A context after its operation `op` ended with these peers lost (R103). -/
def Ctx.withLinkstat (op : Nat) (devs : List Nat) (c : Ctx) : Ctx := c.putLinkstat (linkstatAfter c.csrs.linkstat op devs)

/-- Where no failed-peer bitmap is kept, lost peers change LINKSTAT alone (R103, R104). -/
theorem peerLost_eq (hc : s.cx = some c) (hmap : c.csrs.lostla.toNat % 2 ^ 17 = 0) (op : Nat) (devs : List Nat) :
    s.peerLost c.num op devs = s.updCtx c.num (Ctx.withLinkstat op devs) := by
  have hla : field c.csrs.lostla.toNat 0 17 = 0 := by simpa [field] using hmap
  unfold State.peerLost
  rw [find_running_focus hc]
  unfold Ctx.withLinkstat Ctx.putLinkstat
  simp only [hla, if_pos, Ctx.mapCsrs]

/-- A change of the context of the number of the one in focus comes after any change that keeps what its retiring reads. -/
theorem Alters.updCtx (h : Alters s u c e) (g : Ctx → Ctx) (hnum : ∀ d, (g d).num = d.num) (hregs : (g e).regs = e.regs)
    (hpc : (g e).pc = e.pc) (hrep : (g e).csrs.repst = e.csrs.repst) (hnext : (g e).nextMember = e.nextMember) :
    Alters s (u.updCtx c.num g) c (g e) where
  focus := by simp [h.focus, h.num]
  num := (hnum e).trans h.num
  regs := hregs.trans h.regs
  pc := hpc.trans h.pc
  repst := hrep.trans h.repst
  next := hnext.trans h.next
  others n hn := by
    rw [findCtx_updCtx hnum, h.others n hn]
    cases hs : s.findCtx n with
    | none => rfl
    | some d => simp [findCtx_num hs, hn]

theorem Alters.putLinkstat (h : Alters s u c e) (x : Ctx → Word) :
    Alters s (u.updCtx c.num fun d => d.putLinkstat (x d)) c (e.putLinkstat (x e)) :=
  h.updCtx (fun d => d.putLinkstat (x d)) (fun _ => rfl) rfl rfl rfl rfl

/-- The end of a region has no part in which peers are lost. -/
theorem lostAmong_clearRegionOf (s : State) (c : Ctx) (outs : List Out) : (s.clearRegionOf c).lostAmong outs = s.lostAmong outs := by
  rw [s.clearRegionOf_eq c]
  rfl

/-- A token that an FWAIT has waited for is kept no longer (R83, R269). -/
def Ctx.dropToken (w : Word) (c : Ctx) : Ctx :=
  c.withOrder fun q => { q with tokens := if c.isToken w then q.tokens.filter fun t =>
    !(t.slot == field w.toNat 8 3 && t.serial == field w.toNat 16 32) else q.tokens }

/-- What an FWAIT that need not wait has done when its result is written: its region has ended and it has acquired, its token is
dropped, and LINKSTAT tells of the peers that it found lost. -/
def State.fenceEnd (s : State) (c : Ctx) (w : Word) (lost : List Nat) : State :=
  let acquired := (s.clearRegionOf c).acquire
  (if lost = [] then acquired else acquired.updCtx c.num (Ctx.withLinkstat 3 lost)).mapCx (Ctx.dropToken w)

theorem dropToken_putLinkstat (c : Ctx) (w x : Word) : (c.putLinkstat x).dropToken w = (c.dropToken w).putLinkstat x := rfl

theorem fenceEnd_alters (hc : s.cx = some c) (w : Word) (lost : List Nat) :
    Alters s (s.fenceEnd c w lost) c
      ((if lost = [] then c.newRegion else c.newRegion.withLinkstat 3 lost).dropToken w) := by
  have hregion : Alters s (s.clearRegionOf c).acquire c c.newRegion := (State.clearRegionOf_reorders hc).acquire.alters
  unfold State.fenceEnd
  refine Alters.mapCx ?_ (Ctx.dropToken w) rfl rfl rfl rfl rfl
  by_cases hl : lost = []
  · rw [if_pos hl, if_pos hl]
    exact hregion
  · rw [if_neg hl, if_neg hl]
    exact hregion.putLinkstat fun d => linkstatAfter d.csrs.linkstat 3 lost

theorem fenceEnd_ends (s : State) (c : Ctx) (w : Word) (lost : List Nat) : RegionEnds true s c (s.fenceEnd c w lost) := by
  unfold State.fenceEnd
  refine RegionEnds.quiet ?_ (quiet_mapCx _ _)
  split
  · exact s.acquired_ends c
  · exact (s.acquired_ends c).quiet (quiet_updCtx _ _ _)

/-- An FWAIT with nothing left to wait for ends its region, acquires, and writes its status (R269). -/
theorem exec_fwait {o : COps} {lost : List Nat} (hr : Ready s c (Instr.fwait o).form) (hset : Settled s c)
    (hdone : s.unperformed (c.fenceWaits (c.valA o.sa)).1 = [])
    (hlost : ((c.fenceWaits (c.valA o.sa)).2 ++ s.lostAmong (c.fenceWaits (c.valA o.sa)).1).eraseDups = lost)
    (hmap : lost ≠ [] → c.csrs.lostla.toNat % 2 ^ 17 = 0) :
    exec (.fwait o) s = .next (((s.fenceEnd c (c.valA o.sa) lost).putScalar o.dst
      (BitVec.ofNat 64 (if lost = [] then 0 else 2 + 2 ^ 16 * (lost.length % 2 ^ 12)))).done (Instr.fwait o).form) := by
  rw [show exec (.fwait o) s = execFwait o s from rfl]
  unfold execFwait
  rw [run_ready (f := .c 0x072 o) hr]
  dsimp only
  rw [hdone, hset.closing hr.seat, lostAmong_clearRegionOf, hlost]
  unfold State.fenceEnd
  cases lost with
  | nil => rfl
  | cons p ps =>
    have hcx : (s.clearRegionOf c).acquire.cx = some c.newRegion := (State.clearRegionOf_reorders hr.seat).acquire.focus
    have hpeers : (s.clearRegionOf c).acquire.peerLost c.num 3 (p :: ps) = _ := peerLost_eq hcx (hmap (by simp)) 3 (p :: ps)
    dsimp only [List.isEmpty_nil, List.isEmpty_cons]
    rw [hpeers]
    rfl

/-- The context after an FWAIT: LINKSTAT and the tokens do not meet. -/
theorem dropToken_newRegion (c : Ctx) (w : Word) (lost : List Nat) :
    (if lost = [] then c.newRegion else c.newRegion.withLinkstat 3 lost).dropToken w
      = if lost = [] then c.newRegion.dropToken w
        else (c.newRegion.dropToken w).putLinkstat (linkstatAfter (c.newRegion.dropToken w).csrs.linkstat 3 lost) := by
  split
  · rfl
  · exact dropToken_putLinkstat _ _ _

end

/-- Settles O23, clause by clause. -/
theorem fences : Obligations.Fences := by
  refine fun o => ⟨fence_empty_gives o, fence_gives o, fun _ _ _ => fence_waits, ?_⟩
  refine gives_altered fun s c hr ⟨hset, hdone, hmap⟩ =>
    ⟨s.fenceEnd c (c.valA o.sa) _, exec_fwait hr hset hdone rfl hmap, ?_, fun _ ht => (fenceEnd_ends s c _ _).quiet ht⟩
  have h := fenceEnd_alters hr.seat (c.valA o.sa) ((c.fenceWaits (c.valA o.sa)).2 ++ s.lostAmong (c.fenceWaits (c.valA o.sa)).1).eraseDups
  rw [dropToken_newRegion] at h
  exact h

end Sys2Proof.Machine
end

section
/-! PROOF. O58 fails: its clause on the record that a kill ends (R142, R374) bounds no partition number, and the offsets of the table
entries of partitions from 1536 on are those of the out-of-service map (R380, R416). A kill that gives back the seat claimed on a core
that is to leave service (R155, R158) takes that core out before it ends the record, and so writes POOLBASE of such a partition: the
record's new state is written at another place than the one that `OnlyRecord` allows. -/

namespace Sys2Proof.Machine

open Sys2Proof.Bits

/-- A kill of tenant 0 is asked for while a firing of record 1 of partition 1536 is on its way to core 135, which is to leave service. -/
def killBeyondTable : State :=
  { State.reset with
    dcb := [(killcmd, BitVec.ofNat 64 (2 ^ 63))],
    cores := [(135, { Core.fresh with claims := [(0, .claimed 1536 1)] })],
    sched := { Sched.fresh with live := [(1536, 1)] },
    control := { Control.fresh with removing := [135] },
    pend := [.firingStart 1536 1 [{ core := 135, seat := 0 }]] }

/-- Word 2 of entry 1536, which is read as POOLBASE, is word 2 of the out-of-service map, where core 135 has bit 7: taking the core out
moves the record by 128 bytes. -/
theorem removeCore_moves_record : parttab 1536 2 = oosmap (135 / 64) ∧ killBeyondTable.recAddr 1536 1 = 64
    ∧ (killBeyondTable.removeCore 135).recAddr 1536 1 = 64 + 2 ^ (135 % 64) := by
  decide +kernel

/-- The kill writes FAULTED in the byte that holds STATE of the record where it then stands (R138, R142). -/
theorem kill_writes_moved_record : (match exec .kill killBeyondTable with
    | .next t => t.mem.get ((killBeyondTable.removeCore 135).recAddr 1536 1 + 7)
    | _ => 0) = 8 := by
  decide +kernel

/-- Refutes O58: a kill writes outside the record that it ends, where the number of the record's partition is beyond the partition
table. -/
theorem not_killAndPartitionSteps : ¬ Obligations.KillAndPartitionSteps := by
  unfold Obligations.KillAndPartitionSteps
  rintro ⟨-, hrecord, -⟩
  obtain ⟨t, ht, -, -, honly, -⟩ := hrecord killBeyondTable 1536 1 (by decide +kernel) rfl ⟨⟨rfl, rfl⟩, rfl, rfl⟩ rfl (by decide +kernel)
    (by decide +kernel) rfl rfl (fun w hw => absurd hw List.not_mem_nil)
  obtain ⟨-, hbefore, hmoved⟩ := removeCore_moves_record
  have hkept : t.mem.get ((killBeyondTable.removeCore 135).recAddr 1536 1 + 7) = 0 :=
    honly _ (.inr (by rw [hbefore, hmoved]; decide))
  have hwritten := kill_writes_moved_record
  rw [ht] at hwritten
  exact absurd (hwritten.symm.trans hkept) (by decide)

end Sys2Proof.Machine
end

section
/-! PROOF. O53 fails: its clause on a packet that finds no core (R157) has the task join the end of the queue at the dispatch point of HOME's
cluster, where R159 has a sub-queue served in order of readiness, and the model puts a task before those that became READY after it. A packet
that comes to the queue late, behind that of a record which became READY later, does not join its end. -/

namespace Sys2Proof.Machine

open Sys2Proof.Bits

/-- A dispatch point after one is changed. -/
theorem State.point_mapPoint (s : State) (u : Nat) (f : DispatchPoint → DispatchPoint) (v : Nat) :
    (s.mapPoint u f).point v = if u = v then f (s.point u) else s.point v := by
  unfold State.point
  rw [State.mapPoint_sched, look_put]
  split <;> rfl

/-- A single record that may go and finds no core is queued (R157). -/
theorem exec_dispatchPacket_noCore {s : State} {p idx : Nat} (hgo : MayGo s p idx) (hchain : s.recChain p idx = 1)
    (hcore : s.findCore p idx = none) : exec (.dispatchPacket p idx) s = .next (s.queueTask p idx false) := by
  obtain ⟨hready, ⟨hqueued, hstarting⟩, hsound, hnow⟩ := hgo
  have hbinds : s.bindsIn p idx 2 = false := by
    simp only [State.mayDispatch, Bool.and_eq_true, Bool.not_eq_true'] at hnow
    exact hnow.2
  simp [exec, execDispatchPacket, State.dispatching, hready, hqueued, hstarting, hsound, hnow, hchain, hcore, hbinds]

/-- A task comes before one at the head of its queue that became READY after it (R159). -/
theorem State.queue_queueTask_of_earlier {s : State} {p idx : Nat} {q : QTask} {qs : List QTask}
    (hqueue : (s.point (clusterOf (s.recHome p idx))).queue = q :: qs) (hearlier : s.readiness p idx < s.readiness q.part q.record) :
    ((s.queueTask p idx false).point (clusterOf (s.recHome p idx))).queue = s.taskOf p idx :: q :: qs := by
  simp [State.queueTask, State.point_mapPoint, hqueue, hearlier]

/-- An image whose one actor starts at its first instruction. -/
def plainImage : Image :=
  { id := 0, code := { Code.none with base := 0x20000, len := 64 },
    actors := [{ entry := 0, s := 8, v := 0, cls := 0, radius := 0, home := 0, nin := 0, nout := 0, rates := [], footprint := [], tmpl := 0 }],
    constBase := 0x30000, tenant := 7, hash := 0,
    object := { eclass := 2, edata := 1, osabi := 0, etype := 1, machine := 0x5A17, eentry := 0, eflags := 0, sections := [], symbols := [],
                relocs := [], tables := [], caps := [] },
    grants := [] }

/-- Records 1 and 2 of partition 0 are READY, record 1 since time 0 and record 2 since time 5, and core 0, which is the partition and the HOME
of both, has another partition's scratchpad in place. The image table is at 0x10000, the pool at 0x40000. -/
def bothReady : State :=
  { State.reset with
    time := 10,
    dcb := [(itbase, 0x10000), (parttab 0 0, BitVec.ofNat 64 (2 ^ 22 * 7 + 2 ^ 35 + 2 ^ 36)), (parttab 0 2, 0x40000), (parttab 0 3, 3)],
    mem := ((Memory.writeNat [] 0x10000 16 (2 ^ 12 + 2 ^ 14)).writeNat 0x40040 64 (2 ^ 56 * 2)).writeNat 0x40080 64 (2 ^ 56 * 2),
    cores := [(0, { Core.fresh with resident := some 1 })],
    sched := { Sched.fresh with images := [plainImage], live := [(0, 1), (0, 2)], ready := [(0, 1, 0), (0, 2, 5)] },
    control := { Control.fresh with slots := [(0, 1)] } }

/-- Record 2's packet has come to the end of its walk first, and stands in the queue. -/
def laterQueued : State := bothReady.queueTask 0 2 false

/-- The step that queues record 2 leaves this state. -/
theorem exec_dispatchPacket_bothReady : exec (.dispatchPacket 0 2) bothReady = .next laterQueued :=
  exec_dispatchPacket_noCore ⟨by decide +kernel, by decide +kernel, by decide +kernel, by decide +kernel⟩ (by decide +kernel)
    (by decide +kernel)

/-- Nothing stands in the way of record 1, whose packet finds no core. -/
theorem laterQueued_mayGo : MayGo laterQueued 0 1 ∧ laterQueued.recChain 0 1 = 1 ∧ laterQueued.findCore 0 1 = none :=
  ⟨⟨by decide +kernel, by decide +kernel, by decide +kernel, by decide +kernel⟩, by decide +kernel, by decide +kernel⟩

/-- Record 2 waits alone at the point of record 1's HOME, and became READY after it. -/
theorem laterQueued_queue : (laterQueued.point (clusterOf (laterQueued.recHome 0 1))).queue = [laterQueued.taskOf 0 2]
    ∧ laterQueued.readiness 0 1 < laterQueued.readiness 0 2 := by
  decide +kernel

/-- Refutes O53: the packet of record 1, which became READY first, is queued before record 2 and not at the end. -/
theorem not_schedulerSteps : ¬ Obligations.SchedulerSteps := by
  unfold Obligations.SchedulerSteps
  rintro ⟨-, -, -, hdispatch, -⟩
  obtain ⟨hgo, hchain, hcore⟩ := laterQueued_mayGo
  obtain ⟨hqueue, hearlier⟩ := laterQueued_queue
  obtain ⟨t, ht, hlast, -⟩ := (hdispatch laterQueued 0 1 hgo hchain).2 hcore
  obtain rfl : laterQueued.queueTask 0 1 false = t :=
    Host.Outcome.next.inj ((exec_dispatchPacket_noCore hgo hchain hcore).symm.trans ht)
  have hfirst := State.queue_queueTask_of_earlier hqueue hearlier
  rw [hlast, hqueue] at hfirst
  have hsame : laterQueued.taskOf 0 2 = laterQueued.taskOf 0 1 := (List.cons.inj hfirst).1
  exact absurd (congrArg QTask.record hsame) (show ¬ (2 = 1) by decide)

end Sys2Proof.Machine
end

section
/-! PROOF. O21 fails: its clause on the counters that END.RE raises (R140) bounds no partition number, and the offsets of the table entries of
partitions from 1536 on are those of the out-of-service map (R380, R416). The end of a firing on a core that is to leave service takes
the core out before the counters are raised (R145, R416), and so writes POOLBASE of such a partition: the counters that are raised are those of
the record's new place. -/

namespace Sys2Proof.Machine

open Sys2Proof.Bits

/-- A seat of a core that is to leave service. -/
def leavingSeat : SeatId := { core := 135, seat := 0 }

/-- The firing of record 1 of partition 1536 on that seat. -/
def ctxBeyondTable : Ctx := { Ctx.fresh 1 leavingSeat with part := 1536, record := 1 }

/-- The record stands at 64, with INIT0 5 and every other field zero. -/
def endBeyondTable : State :=
  { State.reset with
    cur := leavingSeat, cx := some ctxBeyondTable, mem := Memory.writeNat [] 64 64 (2 ^ 128 * 5),
    sched := { Sched.fresh with live := [(1536, 1)] }, control := { Control.fresh with removing := [135] } }

/-- END.RE with no predicate. -/
def plainEnd : COps := { dst := 0, sa := 0, sb := 0, pred := 0, imm := 0, pn := false }

/-- The firing may end. -/
theorem endBeyondTable_mayEnd : MayEnd endBeyondTable ctxBeyondTable (Instr.endRe plainEnd).form where
  ready := ⟨rfl, by decide, by decide, rfl, by decide, fun h => absurd h (by decide)⟩
  settled := ⟨rfl, rfl⟩
  sound := rfl
  accepted := by decide
  closed := rfl
  single := rfl
  waits := rfl
  here := rfl
  live := by decide

/-- The record has no port, and CNT0 0 and INIT0 5. -/
theorem endBeyondTable_record : endBeyondTable.portsOf 1536 1 = [] ∧ endBeyondTable.recChn 1536 1 = false
    ∧ endBeyondTable.recCnt 1536 1 0 = 0 ∧ endBeyondTable.recInit 1536 1 0 = 5 := by
  decide +kernel

/-- Word 2 of entry 1536, which is read as POOLBASE, is word 2 of the out-of-service map, where core 135 has bit 7: END.RE moves the record by
128 bytes, where CNT0 and INIT0 are zero. -/
theorem endRe_moves_record : (match exec (.endRe plainEnd) endBeyondTable with
    | .next t => (t.recAddr 1536 1, t.recCnt 1536 1 0)
    | _ => (0, 5)) = (endBeyondTable.recAddr 1536 1 + 2 ^ (135 % 64), 0) := by
  decide +kernel

/-- Refutes O21: END.RE does not leave CNT0 + INIT0 in the record's counter, where the number of the record's partition is beyond the partition
table and the core leaves service. -/
theorem not_endsOfFirings : ¬ Obligations.EndsOfFirings := by
  unfold Obligations.EndsOfFirings
  rintro ⟨hends, -⟩
  obtain ⟨-, hendRe⟩ := hends plainEnd endBeyondTable ctxBeyondTable
  obtain ⟨t, ht, -, -, -, hcounters⟩ := hendRe endBeyondTable_mayEnd
  obtain ⟨hports, hchn, hcnt, hinit⟩ := endBeyondTable_record
  have hraised : t.recCnt 1536 1 0 = min 32767 (endBeyondTable.recCnt 1536 1 0 + endBeyondTable.recInit 1536 1 0) :=
    hcounters hports hchn 0 (by decide)
      (show -32768 ≤ endBeyondTable.recCnt 1536 1 0 + endBeyondTable.recInit 1536 1 0 by rw [hcnt, hinit]; decide)
  rw [hcnt, hinit] at hraised
  have hmoved := endRe_moves_record
  rw [ht] at hmoved
  obtain ⟨-, hzero⟩ := Prod.mk.inj hmoved
  exact absurd (hraised.symm.trans hzero) (by decide)

end Sys2Proof.Machine
end

section
/-! PROOF. O38: DECT, LAUNCH, CHWIN, CHSTAT and TASKRD (R144, R146, R162, R343 to R346). What LAUNCH does is said by what `placeLaunch` can
do, once for each status. A DECT ends its sync region, acquires where its ORD says so, and then owes its decrement and adds itself to the
accesses that have still to perform: the end of the region is that of O26. -/

namespace Sys2Proof.Machine

open Sys2Proof.Bits

section
variable {s u : State} {c e : Ctx}

/-! ## Placing a launch (R162, R163) -/

/-- A launch record that breaks R162 is MALFORMED. -/
theorem State.placeLaunch_bad {p idx : Nat} (hbad : s.launchBad p idx (s.recBits p idx) = true) : s.placeLaunch p idx = (s, 2) := by
  simp [State.placeLaunch, hbad]

/-- With its partition's quota used up, or no free entry, a launch is BUSY. -/
theorem State.placeLaunch_busy {p idx : Nat} (hbad : s.launchBad p idx (s.recBits p idx) = false)
    (hfull : s.lquota p ≤ (s.sched.launches.filter fun l => l.part == p).length ∨ s.freeLaunch = none) : s.placeLaunch p idx = (s, 1) := by
  unfold State.placeLaunch
  dsimp only
  rw [if_neg (by simp [hbad])]
  split
  · rfl
  · rw [hfull.resolve_left ‹_›]

/-- The launch that a record asks for in entry `k`: nothing of it is scanned yet. -/
def State.launchOf (s : State) (p idx k : Nat) : Launch :=
  let r := s.recBits p idx
  { slot := k, part := p, record := BitVec.ofNat 512 r,
    tsrs := (List.range (field r 128 3)).map fun i => BitVec.ofNat 512 (s.mem.readNat (field r 64 45 + 64 * i) 64),
    scanned := false, remaining := field r 32 21, faulted := false }

/-- An entry for a launch, and its scan owed. -/
def State.withLaunch (s : State) (l : Launch) : State :=
  ({ s with sched := { s.sched with launches := s.sched.launches ++ [l] } } : State).owe (.launchScan l.slot)

/-- Within its quota a launch takes the free entry. -/
theorem State.placeLaunch_placed {p idx k : Nat} (hbad : s.launchBad p idx (s.recBits p idx) = false)
    (hquota : ¬ s.lquota p ≤ (s.sched.launches.filter fun l => l.part == p).length) (hfree : s.freeLaunch = some k) :
    s.placeLaunch p idx = (s.withLaunch (s.launchOf p idx k), BitVec.ofNat 64 (2 ^ 16 * k)) := by
  unfold State.placeLaunch
  dsimp only
  rw [if_neg (by simp [hbad]), if_neg hquota, hfree]
  rfl

theorem State.launchOf_record (s : State) (p idx k : Nat) : (s.launchOf p idx k).record.toNat = s.recBits p idx :=
  (BitVec.toNat_ofNat _ _).trans (Nat.mod_eq_of_lt (s.mem.readNat_lt (s.recAddr p idx) 64))

theorem State.withLaunch_reorders (hc : s.cx = some c) (l : Launch) : Reorders s (s.withLaunch l) c c := .same rfl rfl rfl hc

/-! ## The forms that give a word (R344 to R346) -/

theorem field_zero (n len : Nat) : field n 0 len = n % 2 ^ len := by simp [field]

/-- LAUNCH of a record of the pool, with no earlier access to this device outstanding, gives what its placing gives (R344). -/
theorem exec_launch {o : EOps} (hr : Ready s c (Instr.launch o).form) (hpool : s.inPool c.part ((c.srcS [] o.sa).toNat % 2 ^ 32) = true)
    (hown : s.ownOut c = false) {w : Word} (hplace : s.placeLaunch c.part ((c.srcS [] o.sa).toNat % 2 ^ 32) = (u, w)) :
    exec (.launch o) s = .next ((u.putScalar o.dst w).done (Instr.launch o).form) := by
  rw [show exec (.launch o) s = execLaunch o s from rfl]
  unfold execLaunch
  rw [run_ready (f := .e 0x15A o) hr]
  dsimp only
  rw [field_zero, hpool, hown, hplace]
  rfl

/-- LAUNCH where its placing leaves the machine as it is. -/
theorem launch_refused_gives (o : EOps) {pre : State → Ctx → Prop} (w : Word) (h : ∀ s c, pre s c →
      s.inPool c.part ((c.srcS [] o.sa).toNat % 2 ^ 32) = true ∧ s.ownOut c = false
      ∧ s.placeLaunch c.part ((c.srcS [] o.sa).toNat % 2 ^ 32) = (s, w)) :
    Gives (.launch o) pre (fun _ c => c) (some (o.dst, fun _ _ => w)) :=
  gives_result fun s c hr hp => by
    obtain ⟨hpool, hown, hplace⟩ := h s c hp
    exact ⟨s, exec_launch hr hpool hown hplace, .same rfl rfl rfl hr.seat, fun _ ht => ht⟩

/-- LAUNCH that is placed (R163, R344). -/
theorem launch_placed_gives (o : EOps) (k : Nat) :
    let idx (c : Ctx) : Nat := (c.srcS [] o.sa).toNat % 2 ^ 32
    Gives (.launch o)
      (fun s c => s.inPool c.part (idx c) = true ∧ s.launchBad c.part (idx c) (s.recBits c.part (idx c)) = false
        ∧ ¬ s.lquota c.part ≤ (s.sched.launches.filter fun l => l.part == c.part).length ∧ s.freeLaunch = some k ∧ s.ownOut c = false)
      (fun _ c => c) (some (o.dst, fun _ _ => BitVec.ofNat 64 (2 ^ 16 * k)))
      (fun s c t => t.pend = s.pend ++ [.launchScan k] ∧ Quiet s { t with pend := s.pend, sched := s.sched }
        ∧ ∃ l, t.sched = { s.sched with launches := s.sched.launches ++ [l] } ∧ l.slot = k ∧ l.part = c.part ∧ l.scanned = false
          ∧ l.record.toNat = s.recBits c.part (idx c) ∧ l.remaining = field (s.recBits c.part (idx c)) 32 21) := by
  intro idx
  refine gives_result fun s c hr ⟨hpool, hbad, hquota, hfree, hown⟩ => ?_
  refine ⟨s.withLaunch (s.launchOf c.part (idx c) k), exec_launch hr hpool hown (State.placeLaunch_placed hbad hquota hfree),
    State.withLaunch_reorders hr.seat _, fun t ht => ⟨ht.owes, ?_, s.launchOf c.part (idx c) k, ht.sched, rfl, rfl, rfl, ?_, rfl⟩⟩
  · exact ⟨ht.bytes, ht.control, ht.cores, ht.slices, rfl, ht.fabric, ht.complex, ht.clocks, rfl, ht.sent⟩
  · exact s.launchOf_record c.part (idx c) k

/-- A free word has been taken (log entry 12). -/
def State.tookFree (s : State) : State := { s with fresh := s.fresh + 1 }

/-- What CHWIN and CHSTAT do with the port that they name: `w` gives their word for the descriptor of its channel, and a port that is bound to
none gives a free word (R345, log entry 12). -/
def State.readPort (s : State) (c : Ctx) (o : EOps) (f : Form) (w : Word → Word) : State :=
  match c.ports[field o.ke.toNat 0 3]? with
  | some (ga, _) => if ga = 0 then (s.tookFree.putScalar o.dst s.freeWord).done f else (s.putScalar o.dst (w ga)).done f
  | none => (s.tookFree.putScalar o.dst s.freeWord).done f

section
variable {i : Instr} {o : EOps} {w : State → Ctx → Word → Word}

/-- A form that reads a bound port gives its word for the port's channel. -/
theorem bound_port_gives (he : ∀ s, exec i s = s.run i.form fun c s => s.readPort c o i.form (w s c)) {ga : Word} (r : Nat) (hga : ga ≠ 0) :
    Gives i (fun _ c => c.ports[o.ke.toNat % 8]? = some (ga, r)) (fun _ c => c) (some (o.dst, fun s c => w s c ga)) :=
  gives_result fun s c hr hport => by
    refine ⟨s, ?_, .same rfl rfl rfl hr.seat, fun _ ht => ht⟩
    rw [← show field o.ke.toNat 0 3 = o.ke.toNat % 8 from field_zero _ 3] at hport
    rw [he, run_ready hr, State.readPort, hport]
    exact congrArg Host.Outcome.next (if_neg hga)

/-- A form that reads a port bound to no channel gives a free word; the count of free words is no part of what Safety.lean names. -/
theorem unbound_port_gives (he : ∀ s, exec i s = s.run i.form fun c s => s.readPort c o i.form (w s c)) :
    Gives i (fun _ c => c.ports[o.ke.toNat % 8]? = none ∨ ∃ r, c.ports[o.ke.toNat % 8]? = some (0, r)) (fun _ c => c)
      (some (o.dst, fun s _ => Config.freeValue s.fresh)) :=
  gives_result fun s c hr hport => by
    refine ⟨s.tookFree, ?_, .same rfl rfl rfl hr.seat, fun _ ht =>
      ⟨ht.bytes, ht.control, ht.cores, ht.slices, ht.sched, ht.fabric, ht.complex, ht.clocks, ht.owes, ht.sent⟩⟩
    rw [← show field o.ke.toNat 0 3 = o.ke.toNat % 8 from field_zero _ 3] at hport
    rw [he, run_ready hr, State.readPort]
    rcases hport with hport | ⟨r, hport⟩ <;> rw [hport] <;> rfl

end

theorem exec_chwin (o : EOps) (s : State) : exec (.chwin o) s = s.run (Instr.chwin o).form fun c s =>
    s.readPort c o (Instr.chwin o).form fun ga => s.windowGa ga (decide (field o.ke.toNat 0 3 < c.nin)) := rfl

theorem exec_chstat (o : EOps) (s : State) : exec (.chstat o) s = s.run (Instr.chstat o).form fun c s =>
    s.readPort c o (Instr.chstat o).form fun ga =>
      BitVec.ofNat 64 (s.occupancy (gaOff ga.toNat) % 2 ^ 32 + 2 ^ 32 * s.chanItems (gaOff ga.toNat)) := rfl

/-- The window of a channel: at RD for an input, at WR for an output (R144). -/
theorem State.windowGa_decide (s : State) (ga : Word) (a b : Nat) :
    let off := gaOff ga.toNat
    let pos := if a < b then s.chanRd off else s.chanWr off
    s.windowGa ga (decide (a < b)) = BitVec.ofNat 64 (s.chan off 0 64 + pos % s.chanItems off * s.chanItemSize off) := by
  simp [State.windowGa]

theorem chwin_bound_gives (o : EOps) {ga : Word} (r : Nat) (hga : ga ≠ 0) :
    let p := o.ke.toNat % 8
    Gives (.chwin o) (fun _ c => c.ports[p]? = some (ga, r)) (fun _ c => c) (some (o.dst, fun s c =>
      let off := gaOff ga.toNat
      let pos := if p < c.nin then s.chanRd off else s.chanWr off
      BitVec.ofNat 64 (s.chan off 0 64 + pos % s.chanItems off * s.chanItemSize off))) := by
  have h := bound_port_gives (exec_chwin o) r hga
  simp only [State.windowGa_decide, field_zero] at h
  exact h

/-- TASKRD reads 64 bits of a record of the pool (R346). -/
theorem taskrd_gives (o : EOps) :
    let idx (c : Ctx) : Nat := (c.srcS [] o.sa).toNat % 2 ^ 32
    Gives (.taskrd o) (fun s c => s.inPool c.part (idx c) = true) (fun _ c => c)
      (some (o.dst, fun s c => BitVec.ofNat 64 (s.recGet c.part (idx c) (if o.ke.getLsbD 0 then 0 else 64) 64))) := by
  intro idx
  refine gives_result fun s c hr hpool => ⟨s, ?_, .same rfl rfl rfl hr.seat, fun _ ht => ht⟩
  have hbit : bit o.ke.toNat 0 = o.ke.getLsbD 0 := by simp [bit, BitVec.getLsbD, Nat.testBit]
  rw [show exec (.taskrd o) s = execTaskrd o s from rfl]
  unfold execTaskrd
  rw [run_ready (f := .e 0x15F o) hr]
  dsimp only
  rw [field_zero, show (c.srcS [] o.sa).toNat % 2 ^ 32 = idx c from rfl, hpool, hbit]
  rfl

/-! ## DECT (R146, R343) -/

/-- A release for an access to this device that nothing stands before goes on (R77, R78). -/
theorem SyncReady.releasing {ord : BitVec 3} {store : Bool} (h : SyncReady s c ord store []) (f : Form) (op : Nat) (k : State → State) :
    s.releasing c f ord s.devNum op [] k = k s := by
  unfold State.releasing
  split
  next hrelc =>
    obtain ⟨houts, -⟩ := h.cumulative hrelc
    simp [houts, State.unperformed, State.lostAmong, sortNat, sortBy]
  next =>
    split
    next hrel => simp [h.release hrel]
    next => rfl

/-- An access to a device that is not lost joins the outstanding ones. -/
theorem State.addOut_eq {x : Out} (h : s.lost x.dev = false) :
    s.addOut x = s.mapCx fun d => d.mapOrder fun q => { q with outs := q.outs ++ [x] } := by
  simp [State.addOut, h]

theorem Reorders.mapOrder (h : Reorders s u c e) (g : Order → Order) : Reorders s (u.mapCx fun d => d.mapOrder g) c (e.withOrder g) where
  focus := by rw [State.mapCx_cx, h.focus]; rfl
  rest := by rw [h.rest]; rfl
  others n hn := by
    have hnum : e.num = c.num := by rw [h.rest]
    exact (findCtx_mapCx (g := fun d => d.mapOrder g) h.focus rfl (hnum ▸ hn)).trans (h.others n hn)

theorem Reorders.owe (h : Reorders s u c e) (i : Instr) : Reorders s (u.owe i) c e := ⟨h.focus, h.rest, h.others⟩

/-- An acquire and a step that is owed with a new outstanding access do not meet. -/
theorem State.acquire_owe_mapCx (s : State) (i : Instr) (g : Ctx → Ctx) : ((s.owe i).mapCx g).acquire = (s.acquire.owe i).mapCx g := by
  unfold State.acquire State.flushReads
  split <;> rename_i h
  · exact (if_pos h).symm ▸ rfl
  · exact (if_neg h).symm ▸ rfl

/-- The state with its context's region ended, and the acquire made where there is one. -/
def State.regionOver (s : State) (c : Ctx) (acquires : Bool) : State :=
  if acquires then (s.clearRegionOf c).acquire else s.clearRegionOf c

theorem State.regionOver_reorders (hc : s.cx = some c) (a : Bool) : Reorders s (s.regionOver c a) c c.newRegion := by
  cases a
  · exact State.clearRegionOf_reorders hc
  · exact (State.clearRegionOf_reorders hc).acquire

theorem State.regionOver_ends (s : State) (c : Ctx) (a : Bool) : RegionEnds a s c (s.regionOver c a) := by
  cases a
  · exact s.clearRegionOf_ends c
  · exact s.acquired_ends c

/-- What a region's end leaves stays when a step is owed and the context changes. -/
theorem RegionEnds.owe_mapCx_done {a : Bool} (h : RegionEnds a s c u) (i : Instr) (g : Ctx → Ctx) (f : Form) :
    RegionEnds a s c { ((u.owe i).mapCx g).done f with pend := s.pend } := by
  rw [← h.owes]
  exact h.quiet ⟨fun _ => rfl, fun _ => rfl, rfl, rfl, rfl, rfl, rfl, ⟨rfl, rfl, rfl⟩, rfl, rfl⟩

/-- A DECT of a context that has not been applied. -/
def Ctx.dectOut (c : Ctx) (dev time : Nat) (ord : BitVec 3) (r : Nat × Nat) (n : Nat) : Out :=
  { dev := dev, strm := 65, seq := dectSeq c.part r.1 r.2 n, batch := 4, bundled := false, kind := .dect, sync := true,
    acq := decide (ord = 1 ∨ ord = 3), bytes := [], hdls := [], pc := c.pc, born := c.retires, sent := time }

/-- A DECT acts on counter `r` of the pool now. -/
structure DectsHere (s : State) (c : Ctx) (o : MOps) (t : Tgt) (r : Nat × Nat) (g : Word) : Prop where
  address : c.addr o 0 = .ga g
  mapped : s.testAddr (.ga g) 2 = .inr t
  here : t.dev = s.devNum
  counter : s.counterAt c.part t.off = some r
  sync : SyncReady s c o.ord true []
  alive : s.lost s.devNum = false

/-- A DECT that need not wait ends its region, owes its decrement, and is outstanding until that is made (R146, R343). -/
theorem exec_dect {o : MOps} {t : Tgt} {r : Nat × Nat} {g : Word} (hr : Ready s c (Instr.dect o).form) (h : DectsHere s c o t r g) :
    let n := (c.srcS [o.sa] o.sb).toNat % 2 ^ 16
    exec (.dect o) s = .next ((((s.regionOver c (decide (o.ord = 1 ∨ o.ord = 3))).owe (.dectApply c.part r.1 r.2 n)).mapCx fun d =>
      d.mapOrder fun q => { q with outs := q.outs ++ [c.dectOut s.devNum s.time o.ord r n] }).done (Instr.dect o).form) := by
  intro n
  rw [show exec (.dect o) s = execDect o s from rfl]
  unfold execDect
  rw [run_ready (f := .m 0x159 o) hr]
  dsimp only
  rw [h.address]
  dsimp only
  rw [h.mapped]
  dsimp only
  rw [if_neg (not_not_intro h.here), h.counter]
  dsimp only
  rw [h.here, h.sync.releasing, h.sync.earlier, h.sync.settled.closing hr.seat, field_zero, show (c.srcS [o.sa] o.sb).toNat % 2 ^ 16 = n from rfl,
    if_neg (by simp)]
  have hout : ((s.clearRegionOf c).owe (.dectApply c.part r.1 r.2 n)).lost s.devNum = false := by
    rw [s.clearRegionOf_eq c]
    exact h.alive
  have hdev : (s.clearRegionOf c).devNum = s.devNum := by rw [s.clearRegionOf_eq c]; rfl
  have htime : (s.clearRegionOf c).time = s.time := by rw [s.clearRegionOf_eq c]; rfl
  rw [hdev, htime, State.addOut_eq hout, State.acquire_owe_mapCx]
  unfold State.regionOver Ctx.dectOut
  split <;> rfl

theorem dect_gives (o : MOps) (t : Tgt) (r : Nat × Nat) (g : Word) :
    let n (c : Ctx) : Nat := (c.srcS [o.sa] o.sb).toNat % 2 ^ 16
    Gives (.dect o) (fun s c => DectsHere s c o t r g)
      (fun s c => c.newRegion.withOrder fun q => { q with outs := q.outs ++ [c.dectOut s.devNum s.time o.ord r (n c)] }) none
      (fun s c u => RegionEnds (decide (o.ord = 1 ∨ o.ord = 3)) s c { u with pend := s.pend }
        ∧ u.pend = s.pend ++ [.dectApply c.part r.1 r.2 (n c)]) := by
  intro n
  refine gives_done fun s c hr h => ⟨_, exec_dect hr h, ((State.regionOver_reorders hr.seat _).owe _).mapOrder _, ?_, ?_⟩
  · exact (s.regionOver_ends c _).owe_mapCx_done _ _ _
  · exact congrArg (· ++ [_]) (s.regionOver_ends c _).owes

end

/-- Settles O38, clause by clause. -/
theorem taskForms : Obligations.TaskForms := by
  refine ⟨fun o t r g s c hr ⟨ha, hm, hh, hc, hs, hl⟩ => dect_gives o t r g s c hr ⟨ha, hm, hh, hc, hs, hl⟩, fun o => ⟨?_, ?_,
    fun k => launch_placed_gives o k, fun ga r hga => chwin_bound_gives o r hga, unbound_port_gives (exec_chwin o),
    fun ga r hga => bound_port_gives (exec_chstat o) r hga, unbound_port_gives (exec_chstat o), taskrd_gives o⟩⟩
  · exact launch_refused_gives o 2 fun s c ⟨hpool, hbad, hown⟩ => ⟨hpool, hown, State.placeLaunch_bad hbad⟩
  · exact launch_refused_gives o 1 fun s c ⟨hpool, hbad, hfull, hown⟩ => ⟨hpool, hown, State.placeLaunch_busy hbad hfull⟩

end Sys2Proof.Machine
end

section
/-! PROOF. O54 fails: what it says of the end of a launch entry (R164, R165) has every core stay as it is, where the entry's number goes free
and so no launch area may be taken any more for one that holds the entry's tensor shape records (R46, R47): the model clears the mark of
each core that has it. -/

namespace Sys2Proof.Machine

open Sys2Proof.Bits

/-- Launch entry 0 of partition 0, with one tensor shape record: its records are scanned, and all DONE. -/
def shapedLaunch : Launch :=
  { slot := 0, part := 0, record := BitVec.ofNat 512 (1 + 2 ^ 32 + 2 ^ 128 + 2 ^ 192 * 0x40000),
    tsrs := [BitVec.ofNat 512 (2 ^ 8 + 2 ^ 384 + 2 ^ 400 + 2 ^ 416 + 2 ^ 432)], scanned := true, remaining := 0, faulted := false }

/-- The launch stands alone, and core 0 has been given its tensor shape records for a firing. -/
def shapesPlaced : State :=
  ({ State.reset with sched := { Sched.fresh with launches := [shapedLaunch] } } : State).fillLaunchArea 0 0

theorem shapesPlaced_oneLaunch : OneLaunch shapesPlaced shapedLaunch := ⟨by decide +kernel, by decide +kernel⟩

/-- Core 0 is marked as holding the entry's tensor shape records, which are well formed, and nothing of the launch goes on. -/
theorem shapesPlaced_marked : (shapesPlaced.core 0).launch = some 0 ∧ (shapedLaunch.tsrs.any fun t => tsrBad t.toNat) = false
    ∧ shapesPlaced.launchBusy shapedLaunch = false := by
  decide +kernel

/-- The end of the entry clears the mark. -/
theorem launchComplete_clears_mark : (match exec (.launchComplete 0) shapesPlaced with
    | .next t => (t.core 0).launch
    | _ => some 0) = none := by
  decide +kernel

/-- Refutes O54: the end of a launch changes the cores whose launch area holds its tensor shape records. -/
theorem not_launchSteps : ¬ Obligations.LaunchSteps := by
  unfold Obligations.LaunchSteps
  rintro ⟨-, -, -, hcomplete, -⟩
  obtain ⟨hmark, -, hidle⟩ := shapesPlaced_marked
  obtain ⟨t, ht, -, -, -, -, hkeep⟩ := (hcomplete shapesPlaced shapedLaunch shapesPlaced_oneLaunch rfl rfl).1 hidle
  have hcleared : (t.core 0).launch = none := by
    have h := launchComplete_clears_mark
    rwa [show exec (.launchComplete 0) shapesPlaced = .next t from ht] at h
  have hkept : t.core 0 = shapesPlaced.core 0 := congrArg (fun cores => (look cores 0).getD Core.fresh) hkeep.cores
  rw [hkept, hmark] at hcleared
  cases hcleared

end Sys2Proof.Machine
end

section
/-! PROOF. O40 and O39: the decoder gives back what the encoder wrote (R169 to R178, R186, R191). The opcode map read from instructions to
OP values and the one read back agree, by its tables; the fields of each format are read from its words one by one, where what all formats
have in their first word is read once; and the words of an instruction are its own as far as its length goes, whatever follows them. -/

namespace Sys2Proof

open Sys2Proof.Bits

/-! ## The opcode map, read both ways (R191) -/

/-- The OP value of a form. -/
def Form.op : Form → BitVec 9
  | .a op _ | .i op _ | .l op _ | .m op _ | .b op _ | .c op _ | .e op _ | .p op _ => op
  | .pad | .event => 0

/-- The format of a form with an encoding. -/
def Form.format : Form → Option Format
  | .a _ _ => some .a
  | .i _ _ => some .i
  | .l _ _ => some .l
  | .m _ _ => some .m
  | .b _ _ => some .b
  | .c _ _ => some .c
  | .e _ _ => some .e
  | .p _ _ => some .p
  | .pad | .event => none

/-- The LEN code of a form (R169, R172 to R178). -/
def Form.lenCode : Form → BitVec 2
  | .i _ _ => 2
  | .l _ _ => 3
  | .m _ o => o.len
  | .pad | .event => 0
  | _ => 1

theorem mem_keys_of_look {α : Type} {xs : List (Nat × α)} {k : Nat} {v : α} (h : look xs k = some v) : k ∈ xs.map Prod.fst := by
  induction xs with
  | nil => cases h
  | cons x xs ih =>
    obtain ⟨j, w⟩ := x
    by_cases e : j = k
    · simp [e]
    · simp only [look, beq_iff_eq, e, if_false] at h
      exact List.mem_cons_of_mem _ (ih h)

/-- The opcode map read from value to instruction undoes the one from instruction to value. -/
theorem form_instr (i : Instr) (h : i.encoded = true) : i.form.instr = some i := by
  cases i <;> first
    | exact Bool.noConfusion (show false = true from h)
    | rfl

theorem formatOfOp_formatA : ∀ op ∈ formatA.map Prod.fst, formatOfOp op = some .a := by decide +kernel
theorem formatOfOp_formatI : ∀ op ∈ formatI.map Prod.fst, formatOfOp op = some .i := by decide +kernel
theorem formatOfOp_formatL : ∀ op ∈ formatL.map Prod.fst, formatOfOp op = some .l := by decide +kernel
theorem formatOfOp_formatM : ∀ op ∈ formatM.map Prod.fst, formatOfOp op = some .m := by decide +kernel
theorem formatOfOp_formatB : ∀ op ∈ formatB.map Prod.fst, formatOfOp op = some .b := by decide +kernel
theorem formatOfOp_formatC : ∀ op ∈ formatC.map Prod.fst, formatOfOp op = some .c := by decide +kernel
theorem formatOfOp_formatE : ∀ op ∈ formatE.map Prod.fst, formatOfOp op = some .e := by decide +kernel
theorem formatOfOp_formatP : ∀ op ∈ formatP.map Prod.fst, formatOfOp op = some .p := by decide +kernel

theorem mem_keys_of_map_look {α : Type} {xs : List (Nat × (α → Instr))} {k : Nat} {o : α} {i : Instr}
    (h : (look xs k).map (· o) = some i) : k ∈ xs.map Prod.fst := by
  obtain ⟨v, hv, -⟩ := Option.map_eq_some_iff.mp h
  exact mem_keys_of_look hv

theorem formatOfOp_instr {f : Form} {i : Instr} (hp : f ≠ .pad) (h : f.instr = some i) : formatOfOp f.op.toNat = f.format := by
  cases f with
  | a op o => exact formatOfOp_formatA _ (mem_keys_of_map_look h)
  | i op o => exact formatOfOp_formatI _ (mem_keys_of_map_look h)
  | l op o => exact formatOfOp_formatL _ (mem_keys_of_map_look h)
  | m op o => exact formatOfOp_formatM _ (mem_keys_of_map_look h)
  | b op o => exact formatOfOp_formatB _ (mem_keys_of_map_look h)
  | c op o => exact formatOfOp_formatC _ (mem_keys_of_map_look h)
  | e op o => exact formatOfOp_formatE _ (mem_keys_of_map_look h)
  | p op o => exact formatOfOp_formatP _ (mem_keys_of_map_look h)
  | pad => exact absurd rfl hp
  | event => cases h

/-! ## No item broken (R171) -/

theorem foldl_lowest_eq_none (xs : List (Bool × Nat)) (acc : Option Nat) :
    xs.foldl (fun acc x => if x.1 then some (match acc with
      | none => x.2
      | some k => min k x.2) else acc) acc = none ↔ acc = none ∧ ∀ x ∈ xs, x.1 = false := by
  induction xs generalizing acc with
  | nil => simp
  | cons x xs ih =>
    rw [List.foldl_cons, ih]
    cases hx : x.1 <;> simp [hx]

theorem lowestItem_eq_none {xs : List (Bool × Nat)} : lowestItem xs = none ↔ ∀ x ∈ xs, x.1 = false :=
  (foldl_lowest_eq_none xs none).trans (by simp)

theorem Form.fieldItems_sound {f : Form} (h : f.staticItem = none) : ∀ x ∈ f.fieldItems, x.1 = false :=
  fun x hx => lowestItem_eq_none.mp h x (List.mem_append_left _ hx)

theorem wellFormed_iff (i : Instr) : i.wellFormed = true ↔ i.form.staticItem = none := by simp [Instr.wellFormed]

/-! ## Format M's three lengths (R175, R252) -/

/-- No format M form accepts a LEN code of 0. -/
theorem mRole_lens_zero : ∀ op < 2 ^ 9, (mRole op).lens.toNat.testBit 0 = false := by decide +kernel

/-- The fields that only one length of format M has are zero in the others. -/
theorem mFields_of_static {op : BitVec 9} {o : MOps} (h : (Form.m op o).staticItem = none) :
    o.len ≠ 0 ∧ (o.len ≠ 2 → o.flag = 0 ∧ o.fl = false ∧ o.offhi = 0) ∧ (o.len ≠ 3 → o.disp = 0) := by
  have hs := Form.fieldItems_sound h
  simp only [Form.fieldItems, List.forall_mem_cons] at hs
  obtain ⟨hlen, -, -, -, -, -, -, -, -, hflag, hdisp, -⟩ := hs
  refine ⟨fun h0 => ?_, fun hl => ?_, fun hl => ?_⟩
  · rw [h0, show (0 : BitVec 2).toNat = 0 from rfl, mRole_lens_zero _ op.isLt] at hlen
    cases hlen
  · rw [bne_iff_ne.mpr hl] at hflag
    obtain ⟨⟨hfl, hz⟩, hoff⟩ : (o.fl = false ∧ o.flag = 0) ∧ o.offhi = 0 := by simpa using hflag
    exact ⟨hz, hfl, hoff⟩
  · rw [bne_iff_ne.mpr hl] at hdisp
    simpa using hdisp

/-! ## Fields of the words -/

/-- Two words agree in their low `n` bits. -/
def AgreeBelow (n : Nat) (w v : BitVec 128) : Prop := ∀ k < n, w.getLsbD k = v.getLsbD k

theorem agreeBelow_of_mod {n : Nat} {w v : BitVec 128} (h : w.toNat % 2 ^ n = v.toNat % 2 ^ n) : AgreeBelow n w v := by
  intro k hk
  have h2 := congrArg (·.testBit k) h
  simpa [Nat.testBit_mod_two_pow, hk, BitVec.testBit_toNat] using h2

theorem AgreeBelow.field {n : Nat} {w v : BitVec 128} (h : AgreeBelow n w v) {lo len : Nat} (hl : lo + len ≤ n) :
    w.extractLsb' lo len = v.extractLsb' lo len := by
  refine BitVec.eq_of_getLsbD_eq fun k hk => ?_
  rw [BitVec.getLsbD_extractLsb', BitVec.getLsbD_extractLsb', h (lo + k) (by omega)]

/-- A field that lies above the lowest `k` bits. The library's lemma, with the width `k` to be named where it is used: in a word of
`BitVec 64` or `BitVec 128` the two widths of an append do not show. -/
theorem extract_above (k : Nat) {v lo len : Nat} {x : BitVec v} {y : BitVec k} (h : k ≤ lo) :
    (x ++ y).extractLsb' lo len = x.extractLsb' (lo - k) len := BitVec.extractLsb'_append_eq_of_le h

/-- A field that lies within the lowest `k` bits, in the same way. -/
theorem extract_within (k : Nat) {v lo len : Nat} {x : BitVec v} {y : BitVec k} (h : lo + len ≤ k) :
    (x ++ y).extractLsb' lo len = y.extractLsb' lo len := BitVec.extractLsb'_append_eq_of_add_le h

theorem getLsbD_of_flag {w : BitVec 128} {k : Nat} {b : Bool} (h : w.extractLsb' k 1 = b1 b) : w.getLsbD k = b := by
  have hb : (b1 b).getLsbD 0 = b := by cases b <;> rfl
  rw [← hb, ← h]
  simp

theorem getLsbD_of_zero {w : BitVec 128} {lo len : Nat} (h : w.extractLsb' lo len = 0) {k : Nat} (hlo : lo ≤ k) (hk : k < lo + len) :
    w.getLsbD k = false := by
  have h2 := congrArg (·.getLsbD (k - lo)) h
  simpa [BitVec.getLsbD_extractLsb', show k - lo < len by omega, show lo + (k - lo) = k by omega] using h2

theorem masked_zero {w : BitVec 128} {mask : BitVec 64} (h : ∀ k < 64, mask.getLsbD k = true → w.getLsbD k = false) :
    w.extractLsb' 0 64 &&& mask = 0 := by
  refine BitVec.eq_of_getLsbD_eq fun k hk => ?_
  cases hm : mask.getLsbD k <;> simp [hm, h k hk]

/-- What all formats have in their first word (R169, R172): LEN, OP, three 8-bit positions, a 3-bit one, and 26 bits of their own. -/
structure FirstWord (w : BitVec 128) (own : BitVec 26) (pred : BitVec 3) (sb sa dst : BitVec 8) (op : BitVec 9) (len : BitVec 2) : Prop where
  len : w.extractLsb' 0 2 = len
  op : w.extractLsb' 2 9 = op
  dst : w.extractLsb' 11 8 = dst
  sa : w.extractLsb' 19 8 = sa
  sb : w.extractLsb' 27 8 = sb
  pred : w.extractLsb' 35 3 = pred
  own : ∀ lo n, lo + n ≤ 26 → w.extractLsb' (38 + lo) n = own.extractLsb' lo n

theorem firstWord_of_agree {w : BitVec 128} {n : Nat} (hn : 64 ≤ n) {rest : BitVec 64} {own : BitVec 26} {pred : BitVec 3}
    {sb sa dst : BitVec 8} {op : BitVec 9} {len : BitVec 2}
    (h : AgreeBelow n w (rest ++ (own ++ pred ++ sb ++ sa ++ dst ++ op ++ len : BitVec 64))) :
    FirstWord w own pred sb sa dst op len := by
  have first {lo m : Nat} (hm : lo + m ≤ 64) := (h.field (Nat.le_trans hm hn)).trans (extract_within 64 hm)
  refine ⟨?_, ?_, ?_, ?_, ?_, ?_, fun lo m hm => ?own⟩
  case own =>
    rw [first (by omega), extract_above 2 (by omega), extract_above 9 (by omega), extract_above 8 (by omega), extract_above 8 (by omega),
      extract_above 8 (by omega), extract_above 3 (by omega), show 38 + lo - 2 - 9 - 8 - 8 - 8 - 3 = lo by omega]
  all_goals
    rw [first (by decide)]
    simp [extract_above 2, extract_within 2, extract_above 8, extract_within 8, extract_above 9, extract_within 9, extract_within 3]

/-- What a word says under a format: the fields of a form, and no bit that the format gives no field. -/
structure Reads (w : BitVec 128) (fmt : Format) (f : Form) : Prop where
  format : f.format = some fmt
  len : w.extractLsb' 0 2 = f.lenCode
  op : w.extractLsb' 2 9 = f.op
  fields : fieldsOf fmt f.op w = f
  clear : strayBits fmt w = false

theorem strayBits_clear {fmt : Format} {w : BitVec 128}
    (hz : ∀ k < 64, fmt.mustBeZero.getLsbD k = true → w.getLsbD k = false)
    (hsb : fmt = .i ∨ fmt = .l → w.extractLsb' 27 8 = (0 : BitVec 8)) : strayBits fmt w = false := by
  simpa [strayBits, masked_zero hz] using hsb

/-- But for M, C and P a format leaves bit 63 alone without a field (R173, R174, R176, R178). -/
theorem mustBeZero_top {fmt : Format} (h : fmt.mustBeZero = 0x8000000000000000) {w : BitVec 128} (hw : w.extractLsb' 63 1 = (0 : BitVec 1)) :
    ∀ k < 64, fmt.mustBeZero.getLsbD k = true → w.getLsbD k = false := by
  have top : ∀ k < 64, (0x8000000000000000 : BitVec 64).getLsbD k = true → k = 63 := by decide
  rw [h]
  intro k hk hb
  rw [top k hk hb]
  exact getLsbD_of_zero hw (Nat.le_refl _) (by decide)

section
variable {w : BitVec 128} {op : BitVec 9}

/-! ## Formats A, I and L (R173, R174) -/

/-- The 26 bits that formats A, I and L have of their own. -/
def ailOwn (pn : Bool) (kb ka : BitVec 6) (et : BitVec 4) (sc : Spec) : BitVec 26 :=
  (0 : BitVec 1) ++ b1 pn ++ kb ++ ka ++ et ++ sc

theorem FirstWord.ail {pn : Bool} {kb ka : BitVec 6} {et : BitVec 4} {sc sb sa dst : Spec} {pred : BitVec 3} {len : BitVec 2}
    (h : FirstWord w (ailOwn pn kb ka et sc) pred sb sa dst op len) :
    w.extractLsb' 38 8 = sc ∧ w.extractLsb' 46 4 = et ∧ w.extractLsb' 50 6 = ka ∧ w.extractLsb' 56 6 = kb ∧ w.getLsbD 62 = pn
    ∧ w.extractLsb' 63 1 = (0 : BitVec 1) := by
  refine ⟨(h.own 0 8 (by decide)).trans ?_, (h.own 8 4 (by decide)).trans ?_, (h.own 12 6 (by decide)).trans ?_,
    (h.own 18 6 (by decide)).trans ?_, getLsbD_of_flag ((h.own 24 1 (by decide)).trans ?_), (h.own 25 1 (by decide)).trans ?_⟩
  all_goals
    simp [ailOwn, extract_above 8, extract_within 8, extract_above 4, extract_within 4, extract_above 6, extract_within 6,
      extract_above 1, extract_within 1]

theorem reads_a {o : AOps} (h : AgreeBelow 64 w (Form.a op o).bits) : Reads w .a (.a op o) := by
  have hw := firstWord_of_agree (by decide) (own := ailOwn o.pn o.kb o.ka o.et o.sc) h
  obtain ⟨hsc, het, hka, hkb, hpn, htop⟩ := hw.ail
  refine ⟨rfl, hw.len, hw.op, ?_, strayBits_clear (mustBeZero_top rfl htop) (by simp)⟩
  simp only [fieldsOf, Form.op, hw.dst, hw.sa, hw.sb, hw.pred, hsc, het, hka, hkb, hpn]

theorem reads_i {o : IOps} (h : AgreeBelow 96 w (Form.i op o).bits) : Reads w .i (.i op o) := by
  have himm : w.extractLsb' 64 32 = o.imm := by
    rw [h.field (by decide)]
    simp [Form.bits, extract_above 64, extract_within 32]
  have hw := firstWord_of_agree (by decide) (rest := 0 ++ o.imm) (own := ailOwn o.pn o.kb o.ka o.et o.sc) h
  obtain ⟨hsc, het, hka, hkb, hpn, htop⟩ := hw.ail
  refine ⟨rfl, hw.len, hw.op, ?_, strayBits_clear (mustBeZero_top rfl htop) (fun _ => hw.sb)⟩
  simp only [fieldsOf, Form.op, hw.dst, hw.sa, hw.pred, hsc, het, hka, hkb, hpn, himm]

theorem reads_l {o : LOps} (h : AgreeBelow 128 w (Form.l op o).bits) : Reads w .l (.l op o) := by
  have himm : w.extractLsb' 64 64 = o.imm := by
    rw [h.field (by decide)]
    simp [Form.bits, extract_above 64]
  have hw := firstWord_of_agree (by decide) (rest := o.imm) (own := ailOwn o.pn o.kb o.ka o.et o.sc) h
  obtain ⟨hsc, het, hka, hkb, hpn, htop⟩ := hw.ail
  refine ⟨rfl, hw.len, hw.op, ?_, strayBits_clear (mustBeZero_top rfl htop) (fun _ => hw.sb)⟩
  simp only [fieldsOf, Form.op, hw.dst, hw.sa, hw.pred, hsc, het, hka, hkb, hpn, himm]

/-! ## Format M (R175) -/

/-- The second and third words of a format M form. -/
def mRest (o : MOps) : BitVec 64 :=
  if o.len = 2 then (0 : BitVec 32) ++ (o.offhi ++ b1 o.fl ++ o.flag : BitVec 32) else if o.len = 3 then o.disp else 0

theorem size_m (op : BitVec 9) (o : MOps) : (Form.m op o).size = if o.len = 2 then 12 else if o.len = 3 then 16 else 8 := rfl

/-- The 26 bits that format M has of its own. -/
def mOwn (o : MOps) : BitVec 26 := o.off ++ b1 o.grp ++ b1 o.bnd ++ o.batch ++ o.ord ++ o.scope ++ o.strm

theorem FirstWord.m {o : MOps} {pred : BitVec 3} {sb sa dst : Spec} {len : BitVec 2} (h : FirstWord w (mOwn o) pred sb sa dst op len) :
    w.extractLsb' 38 4 = o.strm ∧ w.extractLsb' 42 2 = o.scope ∧ w.extractLsb' 44 3 = o.ord ∧ w.extractLsb' 47 2 = o.batch
    ∧ w.getLsbD 49 = o.bnd ∧ w.getLsbD 50 = o.grp ∧ w.extractLsb' 51 13 = o.off := by
  refine ⟨(h.own 0 4 (by decide)).trans ?_, (h.own 4 2 (by decide)).trans ?_, (h.own 6 3 (by decide)).trans ?_,
    (h.own 9 2 (by decide)).trans ?_, getLsbD_of_flag ((h.own 11 1 (by decide)).trans ?_),
    getLsbD_of_flag ((h.own 12 1 (by decide)).trans ?_), (h.own 13 13 (by decide)).trans ?_⟩
  all_goals
    simp [mOwn, extract_above 4, extract_within 4, extract_above 2, extract_within 2, extract_above 3, extract_within 3,
      extract_above 1, extract_within 1]

theorem flag_fields {o : MOps} (hl : o.len = 2) (h : AgreeBelow (8 * (Form.m op o).size) w (Form.m op o).bits) :
    w.extractLsb' 64 8 = o.flag ∧ w.getLsbD 72 = o.fl ∧ w.extractLsb' 73 23 = o.offhi := by
  rw [size_m, if_pos hl] at h
  refine ⟨(h.field (by decide)).trans ?_, getLsbD_of_flag ((h.field (by decide)).trans ?_), (h.field (by decide)).trans ?_⟩
  all_goals
    simp [Form.bits, hl, extract_above 64, extract_within 32, extract_above 8, extract_within 8, extract_above 1, extract_within 1]

theorem disp_field {o : MOps} (hl : o.len = 3) (h : AgreeBelow (8 * (Form.m op o).size) w (Form.m op o).bits) :
    w.extractLsb' 64 64 = o.disp := by
  rw [size_m, if_neg (by rw [hl]; decide), if_pos hl] at h
  exact (h.field (by decide)).trans (by simp [Form.bits, hl, extract_above 64])

/-- The fields that only one length of format M has, read as the decoder reads them. -/
theorem longer_fields {o : MOps} (hs : (Form.m op o).staticItem = none) (h : AgreeBelow (8 * (Form.m op o).size) w (Form.m op o).bits) :
    (if o.len = 2 then w.extractLsb' 64 8 else 0) = o.flag ∧ (if o.len = 2 then w.getLsbD 72 else false) = o.fl
    ∧ (if o.len = 2 then w.extractLsb' 73 23 else 0) = o.offhi ∧ (if o.len = 3 then w.extractLsb' 64 64 else 0) = o.disp := by
  obtain ⟨-, hflag, hdisp⟩ := mFields_of_static hs
  have hd : (if o.len = 3 then w.extractLsb' 64 64 else 0) = o.disp := by
    by_cases hl : o.len = 3
    · rw [if_pos hl, disp_field hl h]
    · rw [if_neg hl, hdisp hl]
  by_cases hl : o.len = 2
  · simp only [if_pos hl]
    obtain ⟨h1, h2, h3⟩ := flag_fields hl h
    exact ⟨h1, h2, h3, hd⟩
  · obtain ⟨h1, h2, h3⟩ := hflag hl
    simp only [if_neg hl]
    exact ⟨h1.symm, h2.symm, h3.symm, hd⟩

theorem reads_m {o : MOps} (hs : (Form.m op o).staticItem = none) (h : AgreeBelow (8 * (Form.m op o).size) w (Form.m op o).bits) :
    Reads w .m (.m op o) := by
  have hn : 64 ≤ 8 * (Form.m op o).size := by rw [size_m]; split_ifs <;> decide
  have hw := firstWord_of_agree hn (own := mOwn o) h
  obtain ⟨hstrm, hscope, hord, hbatch, hbnd, hgrp, hoff⟩ := hw.m
  obtain ⟨hflag, hfl, hoffhi, hdisp⟩ := longer_fields hs h
  refine ⟨rfl, hw.len, hw.op, ?_, strayBits_clear (fun k _ hb => by simp [Format.mustBeZero] at hb) (by simp)⟩
  simp only [fieldsOf, Form.op, hw.len, hw.dst, hw.sa, hw.sb, hw.pred, hstrm, hscope, hord, hbatch, hbnd, hgrp, hoff, hflag, hfl, hoffhi,
    hdisp]

/-! ## Formats B, C, E and P (R176, R177, R178, R186) -/

theorem reads_b {o : BOps} (h : AgreeBelow 64 w (Form.b op o).bits) : Reads w .b (.b op o) := by
  have hw := firstWord_of_agree (by decide) (own := (0 : BitVec 1) ++ b1 o.pn ++ o.off) h
  have hoff : w.extractLsb' 38 24 = o.off := (hw.own 0 24 (by decide)).trans (by simp [extract_within 24])
  have hpn : w.getLsbD 62 = o.pn := getLsbD_of_flag ((hw.own 24 1 (by decide)).trans (by simp [extract_above 24, extract_within 1]))
  have htop : w.extractLsb' 63 1 = (0 : BitVec 1) :=
    (hw.own 25 1 (by decide)).trans (by simp [extract_above 24, extract_above 1])
  refine ⟨rfl, hw.len, hw.op, ?_, strayBits_clear (mustBeZero_top rfl htop) (by simp)⟩
  simp only [fieldsOf, Form.op, hw.dst, hw.sa, hw.sb, hw.pred, hoff, hpn]

theorem reads_c {o : COps} (h : AgreeBelow 64 w (Form.c op o).bits) : Reads w .c (.c op o) := by
  have hw := firstWord_of_agree (by decide) (own := (0 : BitVec 1) ++ b1 o.pn ++ (0 : BitVec 8) ++ o.imm) h
  have himm : w.extractLsb' 38 16 = o.imm := (hw.own 0 16 (by decide)).trans (by simp [extract_within 16])
  have hmid : w.extractLsb' 54 8 = (0 : BitVec 8) := (hw.own 16 8 (by decide)).trans (by simp [extract_above 16, extract_within 8])
  have hpn : w.getLsbD 62 = o.pn :=
    getLsbD_of_flag ((hw.own 24 1 (by decide)).trans (by simp [extract_above 16, extract_above 8, extract_within 1]))
  have htop : w.extractLsb' 63 1 = (0 : BitVec 1) :=
    (hw.own 25 1 (by decide)).trans (by simp [extract_above 16, extract_above 8, extract_above 1])
  refine ⟨rfl, hw.len, hw.op, ?_, strayBits_clear (fun k hk hb => ?_) (by simp)⟩
  · simp only [fieldsOf, Form.op, hw.dst, hw.sa, hw.sb, hw.pred, himm, hpn]
  · have clear : ∀ k < 64, Format.c.mustBeZero.getLsbD k = true → k = 63 ∨ 54 ≤ k ∧ k < 62 := by decide
    rcases clear k hk hb with rfl | ⟨hlo, hhi⟩
    · exact getLsbD_of_zero htop (by decide) (by decide)
    · exact getLsbD_of_zero hmid hlo hhi

theorem reads_e {o : EOps} (h : AgreeBelow 64 w (Form.e op o).bits) : Reads w .e (.e op o) := by
  have hw := firstWord_of_agree (by decide) (own := (0 : BitVec 1) ++ b1 o.pn ++ o.ke ++ o.vq ++ o.et ++ o.sc) h
  have hsc : w.extractLsb' 38 8 = o.sc := (hw.own 0 8 (by decide)).trans (by simp [extract_within 8])
  have het : w.extractLsb' 46 4 = o.et := (hw.own 8 4 (by decide)).trans (by simp [extract_above 8, extract_within 4])
  have hvq : w.extractLsb' 50 2 = o.vq := (hw.own 12 2 (by decide)).trans (by simp [extract_above 8, extract_above 4, extract_within 2])
  have hke : w.extractLsb' 52 10 = o.ke :=
    (hw.own 14 10 (by decide)).trans (by simp [extract_above 8, extract_above 4, extract_above 2, extract_within 10])
  have hpn : w.getLsbD 62 = o.pn := getLsbD_of_flag
    ((hw.own 24 1 (by decide)).trans (by simp [extract_above 8, extract_above 4, extract_above 2, extract_above 10, extract_within 1]))
  have htop : w.extractLsb' 63 1 = (0 : BitVec 1) :=
    (hw.own 25 1 (by decide)).trans (by simp [extract_above 8, extract_above 4, extract_above 2, extract_above 10, extract_above 1])
  refine ⟨rfl, hw.len, hw.op, ?_, strayBits_clear (mustBeZero_top rfl htop) (by simp)⟩
  simp only [fieldsOf, Form.op, hw.dst, hw.sa, hw.sb, hw.pred, hsc, het, hvq, hke, hpn]

theorem reads_p {o : POps} (h : AgreeBelow 64 w (Form.p op o).bits) : Reads w .p (.p op o) := by
  have first {lo m : Nat} (hm : lo + m ≤ 64) := (h.field hm).trans (extract_within 64 hm)
  obtain ⟨hlen, hop, hcount, hsd, hssa, hssb, hssc, hmid, hsoff, htop⟩ : w.extractLsb' 0 2 = (1 : BitVec 2) ∧ w.extractLsb' 2 9 = op
      ∧ w.extractLsb' 11 8 = o.count ∧ w.extractLsb' 19 4 = o.sd ∧ w.extractLsb' 23 4 = o.ssa ∧ w.extractLsb' 27 4 = o.ssb
      ∧ w.extractLsb' 31 4 = o.ssc ∧ w.extractLsb' 35 3 = (0 : BitVec 3) ∧ w.extractLsb' 38 16 = o.soff
      ∧ w.extractLsb' 54 10 = (0 : BitVec 10) := by
    refine ⟨?_, ?_, ?_, ?_, ?_, ?_, ?_, ?_, ?_, ?_⟩ <;> rw [first (by decide)]
    all_goals
      simp [extract_above 2, extract_within 2, extract_above 9, extract_within 9, extract_above 8, extract_within 8, extract_above 4,
        extract_within 4, extract_above 3, extract_within 3, extract_above 16, extract_within 16]
  refine ⟨rfl, hlen, hop, ?_, strayBits_clear (fun k hk hb => ?_) (by simp)⟩
  · simp only [fieldsOf, Form.op, hcount, hsd, hssa, hssb, hssc, hsoff]
  · have clear : ∀ k < 64, Format.p.mustBeZero.getLsbD k = true → 54 ≤ k ∨ 35 ≤ k ∧ k < 38 := by decide
    rcases clear k hk hb with hlo | ⟨hlo, hhi⟩
    · exact getLsbD_of_zero htop hlo hk
    · exact getLsbD_of_zero hmid hlo hhi

end

/-! ## The decoder on the words of a form -/

/-- A form without a broken field, whose OP value is assigned, is read from any words that agree with its own. -/
theorem reads_of_agree {f : Form} (hp : f ≠ .pad) (he : f ≠ .event) (hs : f.staticItem = none) {w : BitVec 128}
    (h : AgreeBelow (8 * f.size) w f.bits) : ∃ fmt, Reads w fmt f := by
  cases f with
  | a op o => exact ⟨_, reads_a h⟩
  | i op o => exact ⟨_, reads_i h⟩
  | l op o => exact ⟨_, reads_l h⟩
  | m op o => exact ⟨_, reads_m hs h⟩
  | b op o => exact ⟨_, reads_b h⟩
  | c op o => exact ⟨_, reads_c h⟩
  | e op o => exact ⟨_, reads_e h⟩
  | p op o => exact ⟨_, reads_p h⟩
  | pad => exact absurd rfl hp
  | event => exact absurd rfl he

theorem lenCode_of_format {f : Form} {fmt : Format} (hf : f.format = some fmt) (hs : f.staticItem = none) :
    f.lenCode ≠ 0 ∧ fmt.lenOk f.lenCode = true := by
  cases f with
  | m op o =>
    cases hf
    exact ⟨(mFields_of_static hs).1, rfl⟩
  | pad | event => cases hf
  | _ =>
    cases hf
    exact ⟨by simp [Form.lenCode], rfl⟩

theorem decodeBits_of_reads {f : Form} {fmt : Format} {w : BitVec 128} (h : Reads w fmt f) (hop : formatOfOp f.op.toNat = some fmt)
    (hs : f.staticItem = none) : decodeBits w = .ok f := by
  obtain ⟨hformat, hlen, hopw, hfields, hclear⟩ := h
  obtain ⟨hl0, hlok⟩ := lenCode_of_format hformat hs
  have hpad : ¬ w.extractLsb' 0 32 = (0 : BitVec 32) := fun h0 => hl0 <| by
    rw [← hlen]
    refine BitVec.eq_of_getLsbD_eq fun k hk => ?_
    rw [BitVec.getLsbD_extractLsb', getLsbD_of_zero h0 (by omega) (by omega)]
    simp
  have hitems : lowestItem ((strayBits fmt w, 5) :: f.fieldItems ++ posItems f.positions) = none :=
    lowestItem_eq_none.mpr (List.forall_mem_cons.mpr ⟨hclear, lowestItem_eq_none.mp hs⟩)
  simp only [decodeBits, if_neg hpad, hlen, if_neg hl0, hopw, hop, hlok, hfields, hitems]
  rfl

/-- Words that agree with those of a well-formed instruction as far as its length goes decode to its form. -/
theorem decodeBits_of_agree {i : Instr} (he : i.encoded = true) (hwf : i.wellFormed = true) {w : BitVec 128}
    (h : AgreeBelow (8 * i.form.size) w (encodeBits i)) : decodeBits w = .ok i.form := by
  have hs := (wellFormed_iff i).mp hwf
  have hpad : i.form ≠ .pad := fun e => by simp [Instr.encoded, e] at he
  have hevent : i.form ≠ .event := fun e => by simp [Instr.encoded, e] at he
  obtain ⟨fmt, hr⟩ := reads_of_agree hpad hevent hs h
  exact decodeBits_of_reads hr ((formatOfOp_instr hpad (form_instr i he)).trans hr.format) hs

theorem decode_of_agree {i : Instr} (he : i.encoded = true) (hwf : i.wellFormed = true) {w : BitVec 128}
    (h : AgreeBelow (8 * i.form.size) w (encodeBits i)) : decode w = some i := by
  rw [decode, decodeBits_of_agree he hwf h]
  exact form_instr i he

/-! ## The bytes of an instruction (R6, R169) -/

theorem Form.size_le (f : Form) : f.size ≤ 16 := by
  cases f with
  | m op o => rw [size_m]; split_ifs <;> decide
  | _ => exact Nat.le_of_ble_eq_true rfl

/-- An instruction's bytes, whatever follows them, hold its words. -/
theorem agree_bytes (i : Instr) (rest : List Byte) :
    AgreeBelow (8 * i.form.size) (bitsOfBytes (encodeToBytes i ++ rest)) (encodeBits i) := by
  refine agreeBelow_of_mod ?_
  have hs := i.form.size_le
  have hlen : (encodeToBytes i).length = i.form.size := Machine.length_bytesOf _ _
  have hdvd : 2 ^ (8 * i.form.size) ∣ 2 ^ 128 := Nat.pow_dvd_pow 2 (by omega)
  rw [bitsOfBytes, BitVec.toNat_ofNat, Nat.mod_mod_of_dvd _ hdvd, List.take_append, List.take_of_length_le (by omega),
    Machine.valOf_append, hlen, Nat.add_mul_mod_self_left, encodeToBytes, Machine.valOf_bytesOf, Nat.mod_mod]

/-- Settles O40: what the fields of each format read from its words, and the opcode map read both ways. -/
theorem roundTrip : Obligations.RoundTrip := fun i he hwf =>
  ⟨decode_of_agree he hwf fun _ _ => rfl, fun _ hw => decode_of_agree he hwf (agreeBelow_of_mod hw),
    fun rest => decodeBits_of_agree he hwf (agree_bytes i rest)⟩

/-- A word that holds a well-formed instruction is read as it. -/
theorem decodeTableWord_of_encoding {nbits w : Nat} {i : Instr} (hw : BitVec.ofNat 128 (w % 2 ^ nbits) = encodeBits i)
    (he : i.encoded = true) (hwf : i.wellFormed = true) : decodeTableWord nbits w = some i := by
  rw [decodeTableWord, hw]
  exact (roundTrip i he hwf).1

/-- Settles O39: each word is that of its instruction, which is well formed. -/
theorem decodedWords : Obligations.DecodedWords := by
  refine ⟨?_, ?_, ?_, ?_, ?_, ?_, ?_, ?_, ?_, by decide⟩
  all_goals exact decodeTableWord_of_encoding (by decide) rfl (by decide)

end Sys2Proof
end

section
/-! PROOF. O41: a step runs what its seat fetched (R169, R187, R246). The step is that of the seat in focus, the seat's is that of the form
at its program counter, and what it runs for a form is `exec` of the instruction. -/

namespace Sys2Proof.Machine

open Sys2Proof.Bits

section
variable {s t : State} {c : Ctx} {i : Instr}

theorem fetchAt_form {f : Form} (ha : c.pc.toNat % 4 = 0)
    (hl : c.pc.toNat + lengthOfLen ((s.codeBits c c.pc.toNat).extractLsb' 0 2) ≤ c.code.len)
    (hd : decodeAt c.pc.toNat (s.codeBits c c.pc.toNat) = .ok f) : s.fetchAt c c.pc.toNat = .form f := by
  have hin : ¬ (c.pc.toNat % 4 ≠ 0 ∨ c.code.len < c.pc.toNat + lengthOfLen ((s.codeBits c c.pc.toNat).extractLsb' 0 2)) := by omega
  unfold State.fetchAt
  simp only [if_neg hin, hd]

/-- Outside a REP, a fetched form is run. -/
theorem runFetched_form (hr : c.repActive = false) (f : Form) : s.runFetched c (.form f) = runForm f s := by
  cases f with
  | p op o => simp [State.runFetched, hr]
  | _ => rfl

theorem seatRun_runs (hc : s.cx = some c) (hp : c.phase = .running) (hf : c.fault = none) (hl : c.coverLost = false) :
    s.seatRun = s.runFetched c (s.fetchAt c c.pc.toNat) := by
  have hm : c.mayRun = true := by simp [Ctx.mayRun, hp]
  simp [State.seatRun, hc, hm, hf, hl]

/-- A context that was to leave, and has finished its instruction, goes on to leave. -/
def State.leaves (s t : State) : State :=
  match t.cx with
  | some d => if d.phase = Phase.leaving ∧ d.finishing = false then t.owe (.copyQuiesceDone s.cur) else t
  | none => t

theorem afterRun_next (s t : State) : s.afterRun (.next t) = .next (s.leaves t) := by
  unfold State.afterRun State.leaves
  dsimp only
  cases t.cx with
  | none => rfl
  | some d =>
    dsimp only
    simp only [Bool.not_eq_true']
    split <;> rfl

/-- The step of a seat whose program counter stands at a decoded instruction, which is not inside a REP and has nothing to answer first, runs it. -/
theorem seatStep_runs (hc : s.cx = some c) (hp : c.phase = .running) (hf : c.fault = none) (hl : c.coverLost = false)
    (hr : c.repActive = false) (hat : s.fetchAt c c.pc.toNat = .form i.form) (hi : i.form ≠ .event) (he : exec i s = .next t) :
    s.seatStep = .next (s.leaves t) := by
  rw [State.seatStep, seatRun_runs hc hp hf hl, hat, runFetched_form hr, run_eq_exec i s hi, he, afterRun_next]

/-- With its seat next on the agenda, or nothing there and nothing owed, the step of the machine is the step of the seat in focus. -/
theorem step_seat {rest : List Agenda} (hd : s.control.drained = false) (hc : s.cx = some c) (hp : c.phase = .running)
    (ha : s.agenda = .seat s.cur :: rest ∨ s.agenda = [] ∧ s.pend = [] ∧ rest = []) :
    step s = sealed s ({ s with agenda := rest } : State).seatStep := by
  rcases ha with ha | ⟨ha, hpend, rfl⟩
  · have hfocus : ({ s with agenda := rest } : State).focus s.cur = { s with agenda := rest } := if_pos rfl
    unfold step
    rw [ha]
    simp only [hd, Bool.false_and, Bool.false_eq_true, if_false, State.act, hfocus]
  · have hs : ({ s with agenda := [] } : State) = s := by rw [← ha]
    have hauto : s.auto = s.seatStep := by simp [State.auto, hpend, indexOf, hc, Ctx.mayRun, hp]
    unfold step
    rw [ha]
    simp only [hd, Bool.false_eq_true, if_false, hauto, hs]

theorem sealAfter_plain (h : s.confidential = false ∨ t.confidential = false) : t.sealAfter s = t := by
  unfold State.sealAfter
  rw [if_pos]
  rcases h with h | h <;> simp [h]

end

/-- Settles O41: the step of the machine is that of the seat, which runs what it fetched. -/
theorem stepRunsDecoded : Obligations.StepRunsDecoded := by
  refine ⟨?_, fun s t h => sealAfter_plain h⟩
  intro s c i rest hagenda hdrained hc hphase hfault hcover hrep w halign hlen hi hdec
  obtain ⟨t, ht⟩ := exec_next i { s with agenda := rest } hi
  refine ⟨t, ht, ?_⟩
  rw [step_seat hdrained hc hphase hagenda,
    seatStep_runs (s := { s with agenda := rest }) hc hphase hfault hcover hrep (fetchAt_form halign hlen hdec) hi ht]
  rfl

end Sys2Proof.Machine
end

section
/-! PROOF. O20: PAD, REP and what decodes to nothing (R170, R171, R187). A REP whose repetitions all pass retires but for the program
counter, and REPST then counts from zero. -/

namespace Sys2Proof.Machine

open Sys2Proof.Bits

section
variable {s : State} {c : Ctx}

/-! ## REPST (R189) -/

/-- The word of REPST, read as its three fields. -/
theorem repstOf_fields {done total : Nat} (hd : done < 512) (ht : total < 512) (active : Bool) :
    field (repstOf done total active).toNat 0 9 = done ∧ field (repstOf done total active).toNat 9 9 = total
    ∧ bit (repstOf done total active).toNat 18 = active := by
  cases active <;>
    simp only [repstOf, ofBool, field, bit, BitVec.toNat_ofNat, Nat.shiftRight_eq_div_pow, beq_iff_eq, beq_eq_false_iff_ne, if_true,
      Bool.false_eq_true, if_false] <;> omega

/-! ## REP (R187) -/

/-- The context that a REP leaves: retired, but standing at itself with nothing of its repetitions done. -/
def Ctx.repeating (c : Ctx) (o : POps) : Ctx :=
  { (c.retired (.p 0x03C o)).mapCsrs fun r => { r with repst := repstOf 0 (o.count.toNat + 1) true } with pc := c.pc }

theorem exec_rep_passes {o : POps} (hr : Ready s c (Instr.rep o).form) (hp : s.repPasses c o = true) :
    exec (.rep o) s = .next (s.mapCx fun c => c.repeating o) := by
  rw [show exec (.rep o) s = execRep o s from rfl, execRep, run_ready (f := .p 0x03C o) hr]
  simp only [hp, Bool.not_true, Bool.false_eq_true, if_false]
  rfl

theorem exec_rep_refused {o : POps} (hr : Ready s c (Instr.rep o).form) (hp : s.repPasses c o = false) :
    exec (.rep o) s = .next (s.decodeFault 9 ((Instr.rep o).form.bits.setWidth 64)) := by
  rw [show exec (.rep o) s = execRep o s from rfl, execRep, run_ready (f := .p 0x03C o) hr]
  simp only [hp, Bool.not_false, if_true]
  rfl

theorem repeating_counts (c : Ctx) (o : POps) :
    (c.repeating o).repActive = true ∧ (c.repeating o).repDone = 0 ∧ (c.repeating o).repTotal = o.count.toNat + 1 := by
  have hcount : o.count.toNat < 2 ^ 8 := o.count.isLt
  obtain ⟨hdone, htotal, hactive⟩ := repstOf_fields (done := 0) (total := o.count.toNat + 1) (by decide) (by omega) true
  exact ⟨hactive, hdone, htotal⟩

theorem repeating_csrs (c : Ctx) (o : POps) :
    (c.repeating o).csrs = { c.csrs with energy := (c.charge 5).csrs.energy, repst := (c.repeating o).csrs.repst } := by
  obtain ⟨-, -, -, -, hcsrs, -⟩ := retired_spec c (.p 0x03C o)
  unfold Ctx.repeating
  simp only [Ctx.mapCsrs_csrs, hcsrs]
  rfl

/-- A REP leaves of its context all but the CSRs, the marks of the seat and the cover. -/
theorem repeating_keeps (c : Ctx) (o : POps) : (c.repeating o).pc = c.pc ∧ (c.repeating o).regs = c.regs ∧ (c.repeating o).order = c.order
    ∧ (c.repeating o).mx = c.mx ∧ (c.repeating o).queues = c.queues ∧ (c.repeating o).num = c.num := by
  obtain ⟨-, hregs, horder, -, -, hrest⟩ := retired_spec c (.p 0x03C o)
  unfold Ctx.repeating Ctx.mapCsrs
  generalize c.retired (.p 0x03C o) = d at *
  exact ⟨rfl, hregs, horder, by rw [hrest], by rw [hrest], by rw [hrest]⟩

end

/-- Settles O20, clause by clause. -/
theorem padRepAndUnassigned : Obligations.PadRepAndUnassigned := by
  refine ⟨fun s c hc => ?_, fun s c item bits hc => ?_, fun o s c hr => ⟨fun hp => ?_, exec_rep_refused hr⟩⟩
  · rw [show exec .padSkip s = execPadSkip s from rfl, execPadSkip, State.mapCx, hc]
    rfl
  · exact congrArg Host.Outcome.next (fault_eq 8 item bits 0 0 hc)
  · obtain ⟨hactive, hdone, htotal⟩ := repeating_counts c o
    obtain ⟨hpc, hregs, horder, hmx, hqueues, hnum⟩ := repeating_keeps c o
    refine ⟨_, c.repeating o, exec_rep_passes hr hp, by rw [State.mapCx_cx, hr.seat]; rfl, hpc, hregs, hactive, hdone, htotal,
      repeating_csrs c o, horder, hmx, hqueues, quiet_mapCx s _, fun n hn => ?_⟩
    rw [findCtx_mapCx (g := fun c => c.repeating o) hr.seat hnum hn, Option.map_id']

end Sys2Proof.Machine
end

section
/-! PROOF. O27: the CSR forms (R188, R189, R298, R347). A form that writes sets its CSR in the context and then retires; what the seat reads
of a CSR afterwards is what was set there. MXSTAT is the CSR that is not kept as a word: its W1C bits alone are, and a write reaches them. -/

namespace Sys2Proof.Machine

open Sys2Proof.Bits

/-! ## Fields of a number -/

theorem setField_eq (w lo len v : Nat) :
    setField w lo len v = 2 ^ lo * (2 ^ len * (w / 2 ^ lo / 2 ^ len) + v % 2 ^ len) + w % 2 ^ lo := by
  unfold setField field
  rw [Nat.shiftRight_eq_div_pow]
  have h1 := Nat.div_add_mod w (2 ^ lo)
  have h2 := Nat.div_add_mod (w / 2 ^ lo) (2 ^ len)
  generalize w / 2 ^ lo % 2 ^ len = m at *
  generalize w / 2 ^ lo / 2 ^ len = q at *
  rw [← h2] at h1
  rw [Nat.mul_add] at h1
  rw [Nat.mul_add, Nat.mul_comm m, Nat.mul_comm (v % 2 ^ len)]
  omega

theorem testBit_setField (w lo len v k : Nat) :
    (setField w lo len v).testBit k = if lo ≤ k ∧ k < lo + len then v.testBit (k - lo) else w.testBit k := by
  rw [setField_eq, Nat.testBit_two_pow_mul_add _ (Nat.mod_lt _ (Nat.two_pow_pos lo)),
    Nat.testBit_two_pow_mul_add _ (Nat.mod_lt _ (Nat.two_pow_pos len))]
  simp only [Nat.testBit_mod_two_pow, Nat.testBit_div_two_pow]
  by_cases h1 : k < lo
  · simp [h1, show ¬ lo ≤ k by omega]
  · by_cases h2 : k - lo < len
    · simp [h1, h2, show lo ≤ k ∧ k < lo + len by omega]
    · simp [h1, h2, show ¬ (lo ≤ k ∧ k < lo + len) by omega, show k - lo - len + len + lo = k by omega]

theorem mxSet_getLsbD (w : Word) (lo len v : Nat) {k : Nat} (hk : k < 64) :
    (mxSet w lo len v).getLsbD k = if lo ≤ k ∧ k < lo + len then v.testBit (k - lo) else w.getLsbD k := by
  simp only [mxSet, BitVec.getLsbD_ofNat, hk, decide_true, Bool.true_and, testBit_setField, BitVec.testBit_toNat]

/-- A field at the bottom of a word replaced, as a difference and a sum. -/
theorem ofNat_setField_low (v : Word) {x : Nat} (hx : x < 2 ^ 17) :
    BitVec.ofNat 64 (setField v.toNat 0 17 x) = v - BitVec.ofNat 64 (v.toNat % 2 ^ 17) + BitVec.ofNat 64 x := by
  have hv := v.isLt
  refine BitVec.eq_of_toNat_eq ?_
  simp only [setField, field, Nat.shiftRight_zero, BitVec.toNat_add, BitVec.toNat_sub, BitVec.toNat_ofNat]
  omega

/-! ## The masks of R189 and the corrections, as the claims have them -/

theorem csrRw_eq (n : Nat) : csrRw n = if n = 4 then 0x3 else if n = 6 then 0x1FFFF else if n = 8 then 0x0000FFFF00000000
    else if n = 9 then 0x1FFFF else if n = 0x11 then 0xFFFFFFFFFFFFFFFF else if n = 0x20 then 0x10000 else 0 := by
  unfold csrRw
  split <;> simp_all

theorem csrW1c_eq (n : Nat) :
    csrW1c n = if n = 5 then 0x7F else if n = 8 then 0x8000000000000000 else if n = 0x10 then 0x00007F0000000000 else 0 := by
  unfold csrW1c
  split <;> simp_all

theorem csrFix_eq (n : Nat) (v : Word) :
    csrFix n v = if n = 6 ∧ 65536 < v.toNat % 2 ^ 17 then v - BitVec.ofNat 64 (v.toNat % 2 ^ 17) + 65536
      else if n = 9 ∧ (v.toNat % 16 ≠ 0 ∨ v.toNat % 2 ^ 17 < 0x100 ∨ 0x1FF00 < v.toNat % 2 ^ 17) then
        v - BitVec.ofNat 64 (v.toNat % 2 ^ 17)
      else v := by
  unfold csrFix
  rw [ofNat_setField_low v (by decide), ofNat_setField_low v (by decide)]
  by_cases h6 : n = 6
  · simp [h6]
  · by_cases h9 : n = 9
    · simp [h9]
    · simp [h6, h9]

theorem csrMerge_write (n : Nat) (old a : Word) :
    csrMerge .write n old a = csrFix n (((old &&& ~~~csrRw n) ||| (a &&& csrRw n)) &&& ~~~(a &&& csrW1c n)) := rfl

theorem csrMerge_set (n : Nat) (old a : Word) :
    csrMerge .set n old a = csrFix n ((old ||| (a &&& csrRw n)) &&& ~~~(a &&& csrW1c n)) := rfl

theorem csrMerge_clear (n : Nat) (old a : Word) : csrMerge .clear n old a = csrFix n (old &&& ~~~(a &&& csrRw n)) := rfl

/-! ## Reading a CSR after a write (R188) -/

section
variable {s t : State} {c d e : Ctx} {n k : Nat} {v : Word}

/-- MXSTAT's kept bits replaced. -/
def Ctx.setStat (c : Ctx) (x : Word) : Ctx := { c with mx := { c.mx with stat := x } }

theorem csrSet_mxstat (c : Ctx) (v : Word) : c.csrSet 0x010 v = c.setStat (mxSet c.mx.stat 40 7 (field v.toNat 40 7)) := rfl

/-- A CSR write sets a CSR of a firing but ENERGY and REPST, or MXSTAT, or nothing. -/
theorem csrSet_cases (c : Ctx) (n : Nat) (v : Word) :
    (∃ r : Csrs, c.csrSet n v = { c with csrs := r } ∧ r.energy = c.csrs.energy ∧ r.repst = c.csrs.repst)
    ∨ ∃ x, c.csrSet n v = c.setStat x := by
  unfold Ctx.csrSet
  split
  case h_6 => exact .inr ⟨_, rfl⟩
  all_goals exact .inl ⟨_, rfl, rfl, rfl⟩

/-- What a CSR write leaves of the context. -/
theorem csrSet_spec (c : Ctx) (n : Nat) (v : Word) :
    c.csrSet n v = { c with csrs := (c.csrSet n v).csrs, mx := { c.mx with stat := (c.csrSet n v).mx.stat } }
    ∧ (c.csrSet n v).csrs.energy = c.csrs.energy ∧ (c.csrSet n v).csrs.repst = c.csrs.repst := by
  rcases csrSet_cases c n v with ⟨r, h, he, hr⟩ | ⟨x, h⟩ <;> rw [h]
  · exact ⟨rfl, he, hr⟩
  · exact ⟨rfl, rfl, rfl⟩

theorem csrRead_setStat (s : State) (c : Ctx) (x : Word) (h : k ≠ 0x010) : s.csrRead (c.setStat x) k = s.csrRead c k := by
  unfold State.csrRead
  split
  case h_12 => exact absurd rfl h
  all_goals rfl

/-- A CSR write changes no other CSR: of those that are read, the arm of the one written alone sees the write. -/
theorem csrRead_csrSet_other (s : State) (c : Ctx) (v : Word) (h : k ≠ n) : s.csrRead (c.csrSet n v) k = s.csrRead c k := by
  unfold Ctx.csrSet
  split
  case h_6 => exact csrRead_setStat s c _ h
  all_goals
    unfold State.csrRead
    split <;> first
      | rfl
      | exact absurd rfl h

/-- The k-step that MXSTAT shows: that of the started command, if there is one (R298). -/
def Ctx.shownStep (c : Ctx) : Nat :=
  match c.mx.queue.find? fun k => k.start.isSome with
  | some k => k.step
  | none => 0

/-- MXSTAT bit by bit: two fields follow the queue, the others are kept. -/
theorem mxstat_getLsbD (c : Ctx) {j : Nat} (hj : j < 64) : c.mxstat.getLsbD j
    = if 17 ≤ j ∧ j < 21 then c.mx.queue.length.testBit (j - 17) else if j < 11 then c.shownStep.testBit j else c.mx.stat.getLsbD j := by
  unfold Ctx.mxstat
  rw [mxSet_getLsbD _ _ _ _ hj, mxSet_getLsbD _ _ _ _ hj]
  simp only [Nat.zero_le, true_and, Nat.zero_add, Nat.sub_zero]
  rfl

theorem setStat_mxstat_getLsbD (c : Ctx) (x : Word) {j : Nat} (hj : j < 64) : (c.setStat x).mxstat.getLsbD j
    = if 17 ≤ j ∧ j < 21 then c.mx.queue.length.testBit (j - 17) else if j < 11 then c.shownStep.testBit j else x.getLsbD j :=
  mxstat_getLsbD (c.setStat x) hj

/-- Written with a word that differs from it in the W1C bits alone, MXSTAT reads as that word. -/
theorem mxstat_csrSet (h : ∀ j < 64, ¬ (40 ≤ j ∧ j < 47) → v.getLsbD j = c.mxstat.getLsbD j) : (c.csrSet 0x010 v).mxstat = v := by
  refine BitVec.eq_of_getLsbD_eq fun j hj => ?_
  rw [csrSet_mxstat, setStat_mxstat_getLsbD _ _ hj, mxSet_getLsbD _ _ _ _ hj]
  by_cases hw : 40 ≤ j ∧ j < 47
  · rw [if_neg (by omega), if_neg (by omega), if_pos hw, field, Nat.testBit_mod_two_pow, Nat.testBit_shiftRight, BitVec.testBit_toNat,
      show 40 + (j - 40) = j by omega, decide_eq_true (by omega), Bool.true_and]
  · rw [if_neg hw, h j hj hw, mxstat_getLsbD c hj]

/-- Where a CSR has no RW field a merge leaves it or clears W1C bits. -/
theorem csrMerge_readOnly (w : CsrWrite) (old a : Word) (hr : csrRw n = 0#64) (hf : ∀ x, csrFix n x = x) :
    csrMerge w n old a = old ∨ csrMerge w n old a = old &&& ~~~(a &&& csrW1c n) := by
  cases w with
  | write => exact .inr (by simp only [csrMerge_write, hr, hf, BitVec.not_zero, BitVec.and_allOnes, BitVec.and_zero, BitVec.or_zero])
  | set => exact .inr (by simp only [csrMerge_set, hr, hf, BitVec.and_zero, BitVec.or_zero])
  | clear => exact .inl (by simp only [csrMerge_clear, hr, hf, BitVec.and_zero, BitVec.not_zero, BitVec.and_allOnes])

/-- Of MXSTAT a merge changes the W1C bits alone. -/
theorem csrMerge_mxstat (w : CsrWrite) (old a : Word) {j : Nat} (hj : j < 64) (hw : ¬ (40 ≤ j ∧ j < 47)) :
    (csrMerge w 0x010 old a).getLsbD j = old.getLsbD j := by
  have mask : ∀ j < 64, (csrW1c 0x010).getLsbD j = true → 40 ≤ j ∧ j < 47 := by decide
  have hbit : (csrW1c 0x010).getLsbD j = false := Bool.eq_false_iff.mpr fun hb => hw (mask j hj hb)
  rcases csrMerge_readOnly (n := 0x010) w old a rfl fun _ => rfl with h | h <;> rw [h]
  rw [BitVec.getLsbD_and, BitVec.getLsbD_not, BitVec.getLsbD_and, hbit]
  simp [hj]

/-- A CSR without a field to write is left as it is. -/
theorem csrMerge_unlisted (w : CsrWrite) (old a : Word) (h : n ∉ [4, 5, 6, 8, 9, 0x10, 0x11, 0x20]) : csrMerge w n old a = old := by
  simp only [List.mem_cons, List.not_mem_nil, or_false, not_or] at h
  have hc : csrW1c n = 0#64 := by simp [csrW1c_eq, h]
  rcases csrMerge_readOnly (n := n) w old a (by simp [csrRw_eq, h]) (fun x => by simp [csrFix_eq, h]) with hm | hm
  · exact hm
  · rw [hm, hc, BitVec.and_zero, BitVec.not_zero, BitVec.and_allOnes]

/-- A CSR form leaves in its CSR what it merges (R347). -/
theorem csrRead_csrSet_merged (s : State) (c : Ctx) (w : CsrWrite) (n : Nat) (a : Word) :
    s.csrRead (c.csrSet n (csrMerge w n (s.csrRead c n) a)) n = csrMerge w n (s.csrRead c n) a := by
  rcases eq_or_ne n 0x010 with rfl | hx
  · exact mxstat_csrSet fun j hj hw => csrMerge_mxstat w _ a hj hw
  by_cases h : n ∈ [4, 5, 6, 8, 9, 0x11, 0x20]
  · simp only [List.mem_cons, List.not_mem_nil, or_false] at h
    rcases h with rfl | rfl | rfl | rfl | rfl | rfl | rfl <;> rfl
  · simp only [List.mem_cons, List.not_mem_nil, or_false, not_or] at h
    rw [csrMerge_unlisted w _ a (by simp [h, hx])]
    simp [Ctx.csrSet, h]

theorem mailboxOf_congr (hs : t.cores = s.cores) (hp : d.part = c.part) (k : Nat) (net : Bool) : t.mailboxOf d k net = s.mailboxOf c k net := by
  unfold State.mailboxOf State.core
  rw [hs, hp]

/-- A CSR other than ENERGY and REPST reads the same in a context that has the same CSRs but for these two, the same matrix state, and the
same place. -/
theorem csrRead_congr {x y : Word} (hs : t.cores = s.cores) (hc : d.csrs = { c.csrs with energy := x, repst := y }) (hm : d.mx = c.mx)
    (hp : d.part = c.part) (hat : d.seatAt = c.seatAt) (h7 : k ≠ 7) (h10 : k ≠ 10) : t.csrRead d k = s.csrRead c k := by
  have hstat : d.mxstat = c.mxstat := by unfold Ctx.mxstat; rw [hm]
  unfold State.csrRead
  rw [mailboxOf_congr hs hp, mailboxOf_congr hs hp, hat, hstat, hc]
  split
  case h_8 => exact absurd rfl h7
  case h_11 => exact absurd rfl h10
  all_goals rfl

theorem charge_energy_congr (h : e.csrs.energy = c.csrs.energy) (pj : Nat) : (e.charge pj).csrs.energy = (c.charge pj).csrs.energy := by
  unfold Ctx.charge Ctx.mapCsrs
  rw [h]
  dsimp only
  split
  · exact h
  · rfl

/-! ## The forms (R347) -/

/-- What a CSR form that merges its operand as `w` says leaves of CSR `n`, of the other CSRs and of the context, beside registers. -/
structure CsrWritten (w : CsrWrite) (n : Nat) (a : Word) (f : Form) (s : State) (c : Ctx) (t : State) (d : Ctx) : Prop where
  read : n ≠ 7 → n ≠ 10 → t.csrRead d n = csrMerge w n (s.csrRead c n) a
  energy : d.csrs.energy = (c.charge f.energy).csrs.energy
  others : ∀ k, k ≠ n → k ≠ 7 → k ≠ 10 → t.csrRead d k = s.csrRead c k
  rest : d = { c with regs := d.regs, csrs := d.csrs, mx := { c.mx with stat := d.mx.stat }, pc := c.nextPc f, lastPc := c.pc,
                      stall := none, chainStall := d.chainStall, retires := c.retires + 1, chkr := d.chkr, coverLost := d.coverLost,
                      handle := d.handle, flagHandle := d.flagHandle, pv := d.pv, order := d.order }
  order : d.order = { c.order with late := d.order.late }
  repst : d.csrs.repst = c.nextRepst
  quiet : Quiet s t

/-- What a seat that advances leaves, once its CSR is set. -/
theorem csrWritten_of_advances {w : CsrWrite} {a : Word} {f : Form}
    (he : e = c.csrSet n (csrMerge w n (s.csrRead c n) a)) (hadv : Advances e d f 0 (e.nextPc f)) (hq : Quiet s t) :
    CsrWritten w n a f s c t d := by
  obtain ⟨hrest, henergy, hrepst⟩ := csrSet_spec c n (csrMerge w n (s.csrRead c n) a)
  rw [← he] at hrest henergy hrepst
  obtain ⟨hpc, hcsrs, hd, horder, -⟩ := hadv
  have hflags : e.csrs.fstat ||| (0 : BitVec 7).setWidth 64 = e.csrs.fstat := by simp
  rw [hflags] at hcsrs
  have hpce : e.pc = c.pc := by rw [hrest]
  have hmx : d.mx = e.mx := by rw [hd]
  have hread {k : Nat} (h7 : k ≠ 7) (h10 : k ≠ 10) : t.csrRead d k = s.csrRead e k :=
    csrRead_congr hq.cores hcsrs hmx (by rw [hd]) (by rw [hd]) h7 h10
  refine ⟨fun h7 h10 => (hread h7 h10).trans (he ▸ csrRead_csrSet_merged s c w n a), ?_,
    fun k hk h7 h10 => (hread h7 h10).trans (he ▸ csrRead_csrSet_other s c _ hk), ?_, ?_, ?_, hq⟩
  · rw [hcsrs]
    exact charge_energy_congr henergy f.energy
  · rw [hd, hpc, nextPc_congr hpce hrepst f, hrest]
  · rw [horder, hrest]
  · rw [hcsrs]
    exact nextRepst_congr hrepst

/-- The CSR that the operand of a CSR form is merged into (R347). -/
def csrOf (o : COps) : Nat := o.imm.toNat % 2 ^ 12

/-- The word that a CSR form merges. -/
def State.merged (s : State) (c : Ctx) (o : COps) (w : CsrWrite) : Word := csrMerge w (csrOf o) (s.csrRead c (csrOf o)) (c.valA o.sa)

/-- The seat with the CSR set. -/
def State.csrStored (s : State) (c : Ctx) (o : COps) (w : CsrWrite) : State := s.mapCx fun d => d.csrSet (csrOf o) (s.merged c o w)

theorem csrForm_write {op : BitVec 9} {o : COps} (hr : Ready s c (.c op o)) :
    s.csrForm op o .write = .next ((s.csrStored c o .write).done (.c op o)) := by
  rw [State.csrForm, run_ready hr]
  simp only [field_zero]
  rfl

theorem csrForm_bits {op : BitVec 9} {o : COps} {w : CsrWrite} (hw : w ≠ .write) (hr : Ready s c (.c op o)) :
    s.csrForm op o w = .next (((s.csrStored c o w).putScalar o.dst (s.csrRead c (csrOf o))).done (.c op o)) := by
  rw [State.csrForm, run_ready hr]
  simp only [field_zero]
  cases w with
  | write => exact absurd rfl hw
  | set | clear => rfl

theorem csrStored_cx (hc : s.cx = some c) (o : COps) (w : CsrWrite) : (s.csrStored c o w).cx = some (c.csrSet (csrOf o) (s.merged c o w)) := by
  rw [State.csrStored, State.mapCx_cx, hc]
  rfl

/-- CSRW (R347): no register changes (log entry 50). -/
theorem csrForm_write_spec {op : BitVec 9} {o : COps} (hr : Ready s c (.c op o)) :
    ∃ t d, s.csrForm op o .write = .next t ∧ t.cx = some d ∧ CsrWritten .write (csrOf o) (c.valA o.sa) (.c op o) s c t d ∧ d.regs = c.regs := by
  have hcx := csrStored_cx hr.seat o .write
  obtain ⟨d, hd, hregs, hadv, hq, -⟩ := result_spec (s := s.csrStored c o .write) (u := s.csrStored c o .write) (.c op o) id none 0 hcx
    (by simp) (by simp [State.pushOpt, State.mapCx])
  have hkeep : (c.csrSet (csrOf o) (s.merged c o .write)).regs = c.regs := by rw [(csrSet_spec _ _ _).1]
  exact ⟨_, d, csrForm_write hr, hd, csrWritten_of_advances rfl hadv ((quiet_mapCx s _).trans hq), hregs.trans hkeep⟩

/-- CSRB.S and CSRB.C (R347): DST and y0 take the old value. -/
theorem csrForm_bits_spec {op : BitVec 9} {o : COps} {w : CsrWrite} (hw : w ≠ .write) (hr : Ready s c (.c op o)) :
    ∃ t d, s.csrForm op o w = .next t ∧ t.cx = some d ∧ CsrWritten w (csrOf o) (c.valA o.sa) (.c op o) s c t d
      ∧ ScalarRegs c.regs d.regs o.dst (s.csrRead c (csrOf o)) := by
  have hcx := csrStored_cx hr.seat o w
  obtain ⟨d, hd, hregs, hadv, hq, -⟩ := scalar_result (.c op o) o.dst (s.csrRead c (csrOf o)) 0 hcx
  rw [mapCx_raise_zero] at hd hq
  have hkeep : (c.csrSet (csrOf o) (s.merged c o w)).regs = c.regs := by rw [(csrSet_spec _ _ _).1]
  exact ⟨_, d, csrForm_bits hw hr, hd, csrWritten_of_advances rfl hadv ((quiet_mapCx s _).trans hq), hkeep ▸ hregs⟩

theorem csrr_gives (o : COps) : Gives (.csrr o) (fun _ _ => True) (fun _ c => c) (some (o.dst, fun s c => s.csrRead c (csrOf o))) :=
  gives_result fun s c hr _ => by
    refine ⟨s, ?_, .same rfl rfl rfl hr.seat, fun _ ht => ht⟩
    rw [show exec (.csrr o) s = execCsrr o s from rfl, execCsrr, run_ready (f := .c 0x180 o) hr]
    simp only [field_zero]
    rfl

end

/-- Settles O27: what each form merges, in the masks and corrections of R189, and what it leaves of the rest. -/
theorem controlRegisters : Obligations.ControlRegisters := by
  intro o n rw' w1c fix writes
  have hrw : csrRw (csrOf o) = rw' := csrRw_eq n
  have hw1c : csrW1c (csrOf o) = w1c := csrW1c_eq n
  have hfix (v : Word) : csrFix (csrOf o) v = fix v := csrFix_eq n v
  refine ⟨csrr_gives o, ?_, ?_, ?_⟩
  · intro s c hr
    obtain ⟨t, d, he, hd, ⟨hread, henergy, hothers, hrest, horder, hrepst, hq⟩, hregs⟩ := csrForm_write_spec hr
    rw [csrMerge_write, hrw, hw1c, hfix] at hread
    exact ⟨t, d, he, hd, hread, henergy, hothers, hrest, horder, hrepst, hq, hregs⟩
  · intro s c hr
    obtain ⟨t, d, he, hd, ⟨hread, henergy, hothers, hrest, horder, hrepst, hq⟩, hregs⟩ := csrForm_bits_spec (w := .set) (by decide) hr
    rw [csrMerge_set, hrw, hw1c, hfix] at hread
    exact ⟨t, d, he, hd, hread, henergy, hothers, hrest, horder, hrepst, hq, hregs⟩
  · intro s c hr
    obtain ⟨t, d, he, hd, ⟨hread, henergy, hothers, hrest, horder, hrepst, hq⟩, hregs⟩ := csrForm_bits_spec (w := .clear) (by decide) hr
    rw [csrMerge_clear, hrw, hfix] at hread
    exact ⟨t, d, he, hd, hread, henergy, hothers, hrest, horder, hrepst, hq, hregs⟩

end Sys2Proof.Machine
end

section
/-! PROOF. O9: rounding to a multiple of the quantum (R225).  A magnitude that is no multiple goes to its lower neighbour or to the next
one; which of the two is said by `Flt.roundsUp`, once for each mode. -/

namespace Sys2Proof.Flt

section
variable {rm : BitVec 2} {neg : Bool} {m : Nat} {e q : Int}

/-! ## The three cases of a magnitude -/

/-- A magnitude whose own quantum is not below the target's is exact. -/
theorem roundMag_of_le (h : q ≤ e) : roundMag rm neg m e q = (m * 2 ^ (e - q).toNat, false) := if_pos h

/-- A multiple of the quantum is exact. -/
theorem roundMag_of_multiple (h : e < q) (hm : m % 2 ^ (q - e).toNat = 0) :
    roundMag rm neg m e q = (m / 2 ^ (q - e).toNat, false) := by
  rw [roundMag, if_neg (by omega), ← Nat.shiftRight_eq_div_pow]
  exact if_pos hm

/-- Any other magnitude goes to one of its two neighbours, and is inexact. -/
theorem roundMag_of_between (h : e < q) (hm : m % 2 ^ (q - e).toNat ≠ 0) :
    roundMag rm neg m e q =
      (m / 2 ^ (q - e).toNat
        + (roundsUp rm neg (m / 2 ^ (q - e).toNat % 2 == 1) (compare (2 * (m % 2 ^ (q - e).toNat)) (2 ^ (q - e).toNat))).toNat, true) := by
  rw [roundMag, if_neg (by omega), ← Nat.shiftRight_eq_div_pow]
  refine (if_neg hm).trans (Prod.ext ?_ rfl)
  dsimp only
  cases roundsUp rm neg (m >>> (q - e).toNat % 2 == 1) (compare (2 * (m % 2 ^ (q - e).toNat)) (2 ^ (q - e).toNat)) <;> rfl

/-! ## The neighbour that each mode takes -/

/-- RNE of a remainder below half takes the lower neighbour. -/
theorem roundsUp_nearest_below {odd : Bool} {r unit : Nat} (h : 2 * r < unit) : roundsUp 0 neg odd (compare (2 * r) unit) = false := by
  rw [Nat.compare_eq_lt.mpr h]; rfl

/-- RNE of a remainder above half takes the upper neighbour. -/
theorem roundsUp_nearest_above {odd : Bool} {r unit : Nat} (h : unit < 2 * r) : roundsUp 0 neg odd (compare (2 * r) unit) = true := by
  rw [Nat.compare_eq_gt.mpr h]; rfl

/-- RNE of half a unit takes the upper neighbour where the lower one is odd. -/
theorem roundsUp_nearest_tie {odd : Bool} {r unit : Nat} (h : 2 * r = unit) : roundsUp 0 neg odd (compare (2 * r) unit) = odd := by
  rw [Nat.compare_eq_eq.mpr h]; rfl

/-- On a tie, adding the lower neighbour's last bit to it gives the even one of the two. -/
theorem even_of_tie (n : Nat) : (n + (n % 2 == 1).toNat) % 2 = 0 ∧ (n + (n % 2 == 1).toNat = n ∨ n + (n % 2 == 1).toNat = n + 1) := by
  rcases Nat.mod_two_eq_zero_or_one n with h | h
  · simp [h]
  · simp [h]; omega

end

end Sys2Proof.Flt

namespace Sys2Proof.Machine

open Sys2Proof.Flt

/-- Settles O9: by the place of the magnitude, and then by the mode. -/
theorem roundingModes : Obligations.RoundingModes := by
  intro rm neg m e q unit lower r
  refine ⟨roundMag_of_le, fun h => ⟨roundMag_of_multiple h, fun hm => ?_⟩⟩
  have hr : r = (lower + (roundsUp rm neg (lower % 2 == 1) (compare (2 * (m % unit)) unit)).toNat, true) := roundMag_of_between h hm
  rw [hr]
  refine ⟨rfl, ?nearest, ?zero, ?up, ?down⟩
  case nearest =>
    rintro rfl
    refine ⟨fun hlt => ?_, fun hgt => ?_, fun heq => ?_⟩
    · rw [roundsUp_nearest_below hlt]; rfl
    · rw [roundsUp_nearest_above hgt]; rfl
    · rw [roundsUp_nearest_tie heq]; exact even_of_tie lower
  case zero => rintro rfl; rfl
  case up => rintro rfl; cases neg <;> rfl
  case down => rintro rfl; cases neg <;> rfl

end Sys2Proof.Machine
end

section
/-! PROOF. O14 and O15: VCVT and VSCALE (R228 to R230, R232).  Both write lanes, so what they give is `gives_lanes`; left over is that the
lanes are those of the manual: for VCVT the window of PART, for VSCALE the scale and its NaN. -/

namespace Sys2Proof.Machine

open Sys2Proof.Bits

/-- The lanes of a type fill a vector at most. -/
theorem etWidth_mul_etLanes_le (et : BitVec 4) : Flt.etWidth et * Flt.etLanes et ≤ 1024 := Nat.mul_div_le 1024 _

/-- What is given may be said by other functions of the same lanes. -/
theorem GivesLanes.congr {i : Instr} {dst : Spec} {w n : Nat} {g g' : Ctx → Nat → Nat × BitVec 7} (h : GivesLanes i dst w n g)
    (hg : ∀ c k, g c k = g' c k) : GivesLanes i dst w n g' := by
  rwa [show g' = g from funext fun c => funext fun k => (hg c k).symm]

/-! ## The window of PART (R229) -/

/-- Destination lane `j` lies in the window. -/
abbrev inWindow (ls ld part j : Nat) : Prop :=
  if ld < ls then j < min ls ld else if ls < ld then part * min ls ld ≤ j ∧ j < part * min ls ld + min ls ld else True

/-- The source lane of destination lane `j` of the window. -/
def windowSource (ls ld part j : Nat) : Nat :=
  if ld < ls then part * min ls ld + j else if ls < ld then j - part * min ls ld else j

/-- VCVT converts the lanes of the window, each from its source lane. -/
theorem cvtLane_eq (ls ld part j : Nat) :
    cvtLane ls ld part j = if inWindow ls ld part j then some (windowSource ls ld part j) else none := by
  unfold cvtLane inWindow windowSource
  by_cases hnarrow : ld < ls
  · simp only [if_pos hnarrow]
  · by_cases hwide : ls < ld
    · simp only [if_neg hnarrow, if_pos hwide]
    · simp only [if_neg hnarrow, if_neg hwide, if_true]

/-! ## VCVT (R230) -/

/-- What source lane `k` becomes in type `t`: wrapped, or decoded and encoded. -/
def Ctx.converted (c : Ctx) (o : AOps) (t : BitVec 4) (k : Nat) : Nat × BitVec 7 :=
  let zp := zeroPoint o.et t (c.valB o.sa o.sb)
  let code := lane (Flt.etWidth o.et) (c.srcV [] o.sa) k
  if o.kb = 1 then (wrap (Flt.etWidth t) (laneInt o.et code), 0) else Flt.encode t c.rm zp (Flt.decode o.et zp code)

/-- An instruction whose meaning is VCVT to type `t` converts the active lanes of its window. -/
theorem gives_converted {i : Instr} {op : BitVec 9} {o : AOps} {t : BitVec 4} (hf : i.form = .a op o) (ht : vcvtTarget op.toNat = t)
    (he : ∀ s, exec i s = s.vcvt op o) :
    GivesLanes i o.dst (Flt.etWidth t) (Flt.etLanes t) fun c j =>
      if inWindow (Flt.etLanes o.et) (Flt.etLanes t) o.ka.toNat j ∧ maskBit (c.predicate o.pred o.pn) (if t = 13 then j / 2 else j) then
        c.converted o t (windowSource (Flt.etLanes o.et) (Flt.etLanes t) o.ka.toNat j)
      else (lane (Flt.etWidth t) (c.oldV o.dst) j, 0) := by
  subst ht
  refine (gives_lanes (etWidth_mul_etLanes_le _) fun s => by rw [he, hf]; rfl).congr fun c j => ?_
  by_cases hin : inWindow (Flt.etLanes o.et) (Flt.etLanes (vcvtTarget op.toNat)) o.ka.toNat j
  · simp [cvtLane_eq, hin, Ctx.converted]
  · simp [cvtLane_eq, hin]

/-- Settles O14: each target by the lanes of its window. -/
theorem conversions : Obligations.Conversions := fun _ => by
  refine ⟨?_, ?_, ?_, ?_, ?_, ?_, ?_, ?_, ?_, ?_, ?_, ?_⟩ <;> exact gives_converted rfl rfl fun _ => rfl

/-! ## VSCALE (R232) -/

/-- One lane of VSCALE: the canonical NaN with NV under the NaN scale, else the scaled value, rounded once. -/
theorem scaleLane_eq (et : BitVec 4) (rm : BitVec 2) (k : Int) (code : Nat) {nan : Bool} {p : Prop} [Decidable p] (hp : nan = decide p) :
    Flt.scaleLane et rm nan k code = if p then ((Flt.fmtOf et).canon, 1)
      else Flt.encodeBin (Flt.fmtOf et) rm ((Flt.decodeBin (Flt.fmtOf et) code).scale k) := by
  subst hp
  by_cases h : p <;> simp [Flt.scaleLane, h, Flt.NV]

/-- Settles O15: the lanes that VSCALE writes, each by `scaleLane_eq`. -/
theorem blockScale : Obligations.BlockScale := by
  intro o w f
  refine (gives_lanes (i := .vscale o) (etWidth_mul_etLanes_le o.et) fun s => rfl).congr fun c k => ?_
  dsimp only
  rw [scaleLane_eq (p := (c.valB o.sa o.sb).toNat % 256 = 255 ∨ o.ka = 1 ∧ (c.valC o.sa o.sb o.sc).toNat % 256 = 255)]
  · rfl
  · rw [Bool.decide_or, Bool.decide_and]; rfl

end Sys2Proof.Machine
end

section
/-! PROOF. What an instruction that decodes says of its fields (R171, R179): no item is broken, so every specifier is one that its position
accepts. -/

namespace Sys2Proof

theorem Form.positions_accept {f : Form} (h : f.staticItem = none) {p : Role × Spec} (hp : p ∈ f.positions) : p.1.accepts p.2 = true := by
  have hitem := lowestItem_eq_none.mp h (!p.1.accepts p.2, p.1.item) (List.mem_append_right _ (List.mem_map_of_mem hp))
  simpa using hitem

end Sys2Proof

namespace Sys2Proof.Machine

/-- A broken field is found before the tests that depend on the context (R171). -/
theorem decodeItem_of_static {f : Form} {k : Nat} (c : Ctx) (h : f.staticItem = some k) : c.decodeItem f = some k := by
  rw [Ctx.decodeItem, h]

/-- What a context decodes has no broken field. -/
theorem staticItem_of_decodes {c : Ctx} {f : Form} (h : c.decodeItem f = none) : f.staticItem = none := by
  cases hs : f.staticItem with
  | none => rfl
  | some k => rw [decodeItem_of_static c hs] at h; cases h

/-- A seat refuses bits with a broken field (R171). -/
theorem run_of_static {s : State} {c : Ctx} {f : Form} {k : Nat} (hc : s.cx = some c) (h : f.staticItem = some k)
    (e : Ctx → State → State) : s.run f e = .next (s.decodeFault k (f.bits.setWidth 64)) := by
  rw [State.run, State.issue, hc]
  dsimp only
  rw [decodeItem_of_static c h]

end Sys2Proof.Machine
end

section
/-! PROOF. O1 to O4: the integer, bit-field, compare, mask, move and address-building forms (R233 to R241). Each shape of form gives its
operation on the operands; left over is that the model's operations are those of the manual. -/

namespace Sys2Proof.Machine

open Sys2Proof.Bits

/-! ## The shapes of the scalar forms -/

/-- What is given may be said by another function of the same value. -/
theorem GivesScalar.congr {i : Instr} {dst : Spec} {w w' : State → Ctx → Word} (h : GivesScalar i dst w) (hw : ∀ s c, w s c = w' s c) :
    GivesScalar i dst w' := by
  rwa [show w' = w from funext fun s => funext fun c => (hw s c).symm]

theorem GivesMask.congr {i : Instr} {dst : Spec} {w w' : Ctx → Mask} {fl : Ctx → BitVec 7} (h : GivesMask i dst w fl)
    (hw : ∀ c, w c = w' c) : GivesMask i dst w' fl := by
  rwa [show w' = w from funext fun c => (hw c).symm]

section
variable {i : Instr} {op : BitVec 9} {o : AOps}

/-- An instruction whose meaning is an operation on its two sources (R235). -/
theorem gives_binary {g : Word → Word → Word} (hf : i.form = .a op o) (he : ∀ s, exec i s = s.binary op o g) :
    GivesScalar i o.dst fun _ c => g (c.valA o.sa) (c.valB o.sa o.sb) :=
  gives_scalar fun s => by rw [he, hf]; rfl

/-- A format I variant takes its immediate for the second source (R234). -/
theorem gives_binaryImm {o : IOps} {g : Word → Word → Word} (hf : i.form = .i op o) (he : ∀ s, exec i s = s.binaryImm op o g) :
    GivesScalar i o.dst fun _ c => g (c.valA o.sa) (o.imm.signExtend 64) :=
  gives_scalar fun s => by rw [he, hf]; rfl

/-- A one-source form, whose operation may read the machine besides (R237, R241). -/
theorem gives_unary {g : State → Word → Word} (hf : i.form = .a op o) (he : ∀ s, exec i s = s.unary op o (g s)) :
    GivesScalar i o.dst fun s c => g s (c.valA o.sa) := by
  intro s c hr
  obtain ⟨d, hcx, hregs, hadv, hquiet, hothers⟩ := scalar_result i.form o.dst (g s (c.valA o.sa)) 0 hr.seat
  rw [mapCx_raise_zero] at hcx hquiet hothers
  exact ⟨_, d, by rw [he, State.unary, State.scalar, ← hf, run_ready hr], hcx, hregs, hadv, hquiet, hothers⟩

theorem gives_ternary {g : Word → Word → Word → Word} (hf : i.form = .a op o) (he : ∀ s, exec i s = s.ternary op o g) :
    GivesScalar i o.dst fun _ c => g (c.valA o.sa) (c.valB o.sa o.sb) (c.valC o.sa o.sb o.sc) :=
  gives_scalar fun s => by rw [he, hf]; rfl

theorem gives_compare {g : Word → Word → Bool} (hf : i.form = .a op o) (he : ∀ s, exec i s = s.compare op o g) :
    GivesMask i o.dst (fun c => fullMask (g (c.valA o.sa) (c.valB o.sa o.sb))) fun _ => 0 :=
  gives_mask_plain fun s => by rw [he, hf]; rfl

end

/-! ## The greater and the lesser (R235) -/

theorem minS_eq (a b : Word) : minS a b = BitVec.ofInt 64 (min a.toInt b.toInt) := by
  unfold minS
  by_cases h : b.toInt < a.toInt
  · rw [if_pos (BitVec.slt_iff_toInt_lt.mpr h), min_eq_right h.le, BitVec.ofInt_toInt]
  · rw [if_neg (mt BitVec.slt_iff_toInt_lt.mp h), min_eq_left (not_lt.mp h), BitVec.ofInt_toInt]

theorem maxS_eq (a b : Word) : maxS a b = BitVec.ofInt 64 (max a.toInt b.toInt) := by
  unfold maxS
  by_cases h : a.toInt < b.toInt
  · rw [if_pos (BitVec.slt_iff_toInt_lt.mpr h), max_eq_right h.le, BitVec.ofInt_toInt]
  · rw [if_neg (mt BitVec.slt_iff_toInt_lt.mp h), max_eq_left (not_lt.mp h), BitVec.ofInt_toInt]

theorem minU_eq (a b : Word) : minU a b = BitVec.ofNat 64 (min a.toNat b.toNat) := by
  unfold minU
  by_cases h : b.toNat < a.toNat
  · rw [if_pos (BitVec.ult_iff_toNat_lt.mpr h), min_eq_right h.le, BitVec.ofNat_toNat, BitVec.setWidth_eq]
  · rw [if_neg (mt BitVec.ult_iff_toNat_lt.mp h), min_eq_left (not_lt.mp h), BitVec.ofNat_toNat, BitVec.setWidth_eq]

theorem maxU_eq (a b : Word) : maxU a b = BitVec.ofNat 64 (max a.toNat b.toNat) := by
  unfold maxU
  by_cases h : a.toNat < b.toNat
  · rw [if_pos (BitVec.ult_iff_toNat_lt.mpr h), max_eq_right h.le, BitVec.ofNat_toNat, BitVec.setWidth_eq]
  · rw [if_neg (mt BitVec.ult_iff_toNat_lt.mp h), max_eq_left (not_lt.mp h), BitVec.ofNat_toNat, BitVec.setWidth_eq]

/-- The greater word has the greater value, so a clamp compares values throughout. -/
theorem toInt_maxS (a b : Word) : (maxS a b).toInt = max a.toInt b.toInt := by
  unfold maxS
  by_cases h : a.toInt < b.toInt
  · rw [if_pos (BitVec.slt_iff_toInt_lt.mpr h), max_eq_right h.le]
  · rw [if_neg (mt BitVec.slt_iff_toInt_lt.mp h), max_eq_left (not_lt.mp h)]

theorem toNat_maxU (a b : Word) : (maxU a b).toNat = max a.toNat b.toNat := by
  unfold maxU
  by_cases h : a.toNat < b.toNat
  · rw [if_pos (BitVec.ult_iff_toNat_lt.mpr h), max_eq_right h.le]
  · rw [if_neg (mt BitVec.ult_iff_toNat_lt.mp h), max_eq_left (not_lt.mp h)]

/-! ## The high half of a product (R235) -/

/-- The high half of a 128-bit code is the value's quotient by 2^64. -/
theorem extract_high_ofInt (x : Int) : (BitVec.ofInt 128 x).extractLsb' 64 64 = BitVec.ofInt 64 (x / 2 ^ 64) := by
  refine BitVec.eq_of_toNat_eq ?_
  simp only [BitVec.extractLsb'_toNat, BitVec.toNat_ofInt, Nat.shiftRight_eq_div_pow]
  omega

theorem mulHigh_signed (a b : Word) : mulHigh true a b = (a.signExtend 128 * b.signExtend 128).extractLsb' 64 64 := by
  have hp : a.signExtend 128 * b.signExtend 128 = BitVec.ofInt 128 (a.toInt * b.toInt) := (BitVec.ofInt_mul ..).symm
  rw [hp, extract_high_ofInt]
  rfl

theorem mulHigh_unsigned (a b : Word) : mulHigh false a b = (a.setWidth 128 * b.setWidth 128).extractLsb' 64 64 := by
  have hp : a.setWidth 128 * b.setWidth 128 = BitVec.ofInt 128 ((a.toNat * b.toNat : Nat) : Int) := by
    rw [BitVec.ofInt_natCast, BitVec.ofNat_mul, BitVec.ofNat_toNat, BitVec.ofNat_toNat]
  rw [hp, extract_high_ofInt]
  exact (BitVec.ofInt_natCast ..).symm

/-! ## Sign extension (R235) -/

/-- A code read as two's complement is its balanced residue. -/
theorem signed_eq_bmod (n m : Nat) : signed (n + 1) m = (m : Int).bmod (2 ^ (n + 1)) := by
  have h2 : 2 ^ (n + 1) = 2 * 2 ^ n := Nat.pow_succ'
  unfold signed Int.bmod
  rw [Nat.add_sub_cancel, h2, ← Int.natCast_emod]
  generalize 2 ^ n = p
  by_cases h : m % (2 * p) < p
  · rw [if_pos h, if_pos (by omega)]
  · rw [if_neg h, if_neg (by omega)]

theorem sextFrom_eq (a : Word) {n : Nat} (hn : n < 64) : sextFrom a n = BitVec.ofInt 64 (a.toInt.bmod (2 ^ (n + 1))) := by
  unfold sextFrom
  rw [signed_eq_bmod, BitVec.toInt_eq_toNat_bmod, Int.bmod_bmod_of_dvd (pow_dvd_pow 2 hn)]

theorem shiftOf_lt (b : Word) : shiftOf b < 64 := Nat.mod_lt _ (by decide)

/-- Settles O1: each form by its shape, and its operation by the lemma that says it in the manual's terms. -/
theorem integerTwoSource : Obligations.IntegerTwoSource := by
  refine ⟨⟨fun o => ⟨?_, ?_, ?_, ?_, ?_, ?_, ?_, ?_⟩, fun o => ⟨?_, ?_, ?_, ?_, ?_, ?_⟩⟩,
    fun o => ⟨?_, ?_, ?_, ?_, ?_, ?_, ?_, ?_, ?_⟩⟩
  · exact gives_binary (i := .add o) rfl fun _ => rfl
  · exact gives_binary (i := .sub o) rfl fun _ => rfl
  · exact gives_binary (i := .mul o) rfl fun _ => rfl
  · exact (gives_binary (i := .mulhS o) rfl fun s => show execMulhS o s = _ from rfl).congr fun _ _ => mulHigh_signed _ _
  · exact (gives_binary (i := .mulhU o) rfl fun s => show execMulhU o s = _ from rfl).congr fun _ _ => mulHigh_unsigned _ _
  · exact gives_binary (i := .and o) rfl fun _ => rfl
  · exact gives_binary (i := .or o) rfl fun _ => rfl
  · exact gives_binary (i := .xor o) rfl fun _ => rfl
  · exact gives_binaryImm (i := .addImm o) rfl fun _ => rfl
  · exact gives_binaryImm (i := .subImm o) rfl fun _ => rfl
  · exact gives_binaryImm (i := .mulImm o) rfl fun _ => rfl
  · exact gives_binaryImm (i := .andImm o) rfl fun _ => rfl
  · exact gives_binaryImm (i := .orImm o) rfl fun _ => rfl
  · exact gives_binaryImm (i := .xorImm o) rfl fun _ => rfl
  · exact gives_binary (i := .shl o) rfl fun s => show execShl o s = _ from rfl
  · exact gives_binary (i := .shrL o) rfl fun s => show execShrL o s = _ from rfl
  · exact gives_binary (i := .shrA o) rfl fun s => show execShrA o s = _ from rfl
  · exact gives_binary (i := .rot o) rfl fun s => show execRot o s = _ from rfl
  · exact (gives_binary (i := .minS o) rfl fun s => show execMinS o s = _ from rfl).congr fun _ _ => minS_eq _ _
  · exact (gives_binary (i := .minU o) rfl fun s => show execMinU o s = _ from rfl).congr fun _ _ => minU_eq _ _
  · exact (gives_binary (i := .maxS o) rfl fun s => show execMaxS o s = _ from rfl).congr fun _ _ => maxS_eq _ _
  · exact (gives_binary (i := .maxU o) rfl fun s => show execMaxU o s = _ from rfl).congr fun _ _ => maxU_eq _ _
  · exact (gives_binary (i := .sext o) rfl fun s => show execSext o s = _ from rfl).congr fun _ _ => sextFrom_eq _ (shiftOf_lt _)

/-! ## Division (R236) -/

theorem quotient_signed (a b : Word) : quotient true a b = if b = 0 then 0xFFFFFFFFFFFFFFFF
    else if a = 0x8000000000000000 ∧ b = 0xFFFFFFFFFFFFFFFF then 0x8000000000000000 else BitVec.ofInt 64 (a.toInt.tdiv b.toInt) := by
  by_cases hb : b = 0
  · rw [quotient, if_pos hb, if_pos hb]; rfl
  rw [quotient, if_neg hb, if_neg hb, if_pos rfl]
  by_cases hover : a = 0x8000000000000000 ∧ b = 0xFFFFFFFFFFFFFFFF
  · rw [if_pos hover]
    obtain ⟨rfl, rfl⟩ := hover
    decide
  · rw [if_neg hover]

theorem quotient_unsigned (a b : Word) :
    quotient false a b = if b = 0 then 0xFFFFFFFFFFFFFFFF else BitVec.ofNat 64 (a.toNat / b.toNat) := rfl

theorem remainder_signed (a b : Word) : remainder true a b = if b = 0 then a
    else if a = 0x8000000000000000 ∧ b = 0xFFFFFFFFFFFFFFFF then 0 else BitVec.ofInt 64 (a.toInt - b.toInt * a.toInt.tdiv b.toInt) := by
  by_cases hb : b = 0
  · rw [remainder, if_pos hb, if_pos hb]
  rw [remainder, if_neg hb, if_neg hb, if_pos rfl, Int.tmod_def]
  by_cases hover : a = 0x8000000000000000 ∧ b = 0xFFFFFFFFFFFFFFFF
  · rw [if_pos hover]
    obtain ⟨rfl, rfl⟩ := hover
    decide
  · rw [if_neg hover]

/-- Settles O2: the model's quotient and remainder, column by column of the table. -/
theorem division : Obligations.Division := by
  refine fun o => ⟨?_, ?_, ?_, ?_⟩
  · exact (gives_binary (i := .divS o) rfl fun s => show execDivS o s = _ from rfl).congr fun _ _ => quotient_signed _ _
  · exact (gives_binary (i := .divU o) rfl fun s => show execDivU o s = _ from rfl).congr fun _ _ => quotient_unsigned _ _
  · exact (gives_binary (i := .remS o) rfl fun s => show execRemS o s = _ from rfl).congr fun _ _ => remainder_signed _ _
  · exact gives_binary (i := .remU o) rfl fun s => show execRemU o s = _ from rfl

/-! ## Bit fields (R237) -/

theorem abs_eq (a : Word) : (if a.slt 0 then 0 - a else a) = BitVec.ofInt 64 a.toInt.natAbs := by
  by_cases h : a.toInt < 0
  · rw [if_pos (BitVec.slt_iff_toInt_lt.mpr h), Int.ofNat_natAbs_of_nonpos h.le, BitVec.ofInt_neg, BitVec.ofInt_toInt]
    exact BitVec.zero_sub a
  · rw [if_neg (mt BitVec.slt_iff_toInt_lt.mp h), Int.natAbs_of_nonneg (not_lt.mp h), BitVec.ofInt_toInt]

theorem leadingZeros_eq (a : Word) : leadingZeros a = if a = 0 then 64 else 63 - a.toNat.log2 := by
  unfold leadingZeros Flt.bitLen
  by_cases h : a = 0
  · rw [if_pos h, h]; rfl
  · have h0 : a.toNat ≠ 0 := fun e => h (BitVec.eq_of_toNat_eq e)
    rw [if_neg h, if_neg h0]
    omega

theorem foldl_ofBool_eq_filter {α : Type} (p : α → Bool) (xs : List α) (n : Nat) :
    xs.foldl (fun n x => n + ofBool (p x)) n = n + (xs.filter p).length := by
  induction xs generalizing n with
  | nil => rfl
  | cons x xs ih =>
    rw [List.foldl_cons, ih, List.filter_cons]
    cases p x <;> simp [ofBool]
    omega

theorem oneBits_eq (a : Word) : oneBits a = ((List.range 64).filter fun k => a.getLsbD k).length :=
  (foldl_ofBool_eq_filter _ _ 0).trans (Nat.zero_add _)

theorem widthOf_bounds (kb : BitVec 6) : 0 < widthOf kb ∧ widthOf kb ≤ 64 := by
  have hlt := kb.isLt
  unfold widthOf
  by_cases h : kb = 0
  · rw [if_pos h]; decide
  · have : kb.toNat ≠ 0 := fun e => h (BitVec.eq_of_toNat_eq e)
    rw [if_neg h]; omega

/-- The low bits of a word extended from the top of a field that KB gives. -/
theorem sextFrom_width (a : Word) (kb : BitVec 6) : sextFrom a (widthOf kb - 1) = BitVec.ofInt 64 (a.toInt.bmod (2 ^ widthOf kb)) := by
  obtain ⟨hpos, hle⟩ := widthOf_bounds kb
  rw [sextFrom_eq a (by omega), Nat.sub_add_cancel hpos]

/-- INS bit by bit is a merge under the shifted mask of the field. -/
theorem insertField_eq (a b c : Word) (w : Nat) :
    insertField a b c w = (a &&& ~~~((BitVec.ofNat 64 (2 ^ w - 1) : Word) <<< (c.toNat % 64)))
      ||| ((b &&& BitVec.ofNat 64 (2 ^ w - 1)) <<< (c.toNat % 64)) := by
  refine BitVec.eq_of_getLsbD_eq fun k hk => ?_
  simp only [insertField, shiftOf, BitVec.getLsbD_ofNat, testBit_setField, BitVec.getLsbD_or, BitVec.getLsbD_and, BitVec.getLsbD_not,
    BitVec.getLsbD_shiftLeft, Nat.testBit_two_pow_sub_one, BitVec.testBit_toNat, hk, decide_true, Bool.true_and]
  by_cases hlow : k < c.toNat % 64
  · simp [hlow, show ¬ c.toNat % 64 ≤ k by omega]
  · by_cases hin : k - c.toNat % 64 < w
    · simp [hlow, hin, show c.toNat % 64 ≤ k ∧ k < c.toNat % 64 + w by omega, show k - c.toNat % 64 < 64 by omega]
    · simp [hlow, hin, show ¬ (c.toNat % 64 ≤ k ∧ k < c.toNat % 64 + w) by omega]

/-- Settles O3: the width of a field is `widthOf`, and each form is that of its shape. -/
theorem bitFieldForms : Obligations.BitFieldForms := by
  refine fun o => ⟨?_, ?_, ?_, ?_, ?_, ?_, ?_, ?_, ?_, ?_⟩
  · exact (gives_unary (i := .abs o) rfl fun s => show execAbs o s = _ from rfl).congr fun _ _ => abs_eq _
  · exact (gives_unary (i := .clz o) rfl fun s => show execClz o s = _ from rfl).congr fun _ _ => congrArg _ (leadingZeros_eq _)
  · exact (gives_unary (i := .popc o) rfl fun s => show execPopc o s = _ from rfl).congr fun _ _ => congrArg _ (oneBits_eq _)
  · exact gives_binary (i := .extU o) rfl fun s => show execExtU o s = _ from rfl
  · exact (gives_binary (i := .extS o) rfl fun s => show execExtS o s = _ from rfl).congr fun _ _ => sextFrom_width _ o.kb
  · exact (gives_ternary (i := .ins o) rfl fun s => show execIns o s = _ from rfl).congr fun _ _ => insertField_eq _ _ _ _
  · exact gives_ternary (i := .mad o) rfl fun s => show execMad o s = _ from rfl
  · exact (gives_ternary (i := .clampS o) rfl fun s => show execClampS o s = _ from rfl).congr fun _ _ => by rw [minS_eq, toInt_maxS]
  · exact (gives_ternary (i := .clampU o) rfl fun s => show execClampU o s = _ from rfl).congr fun _ _ => by rw [minU_eq, toNat_maxU]
  · exact gives_scalar (i := .sel o) fun _ => rfl

/-! ## Masks (R238, R239) -/

theorem packLanes_one_testBit (xs : List Nat) {k : Nat} (hk : k < xs.length) : (packLanes 1 xs).testBit k = (xs[k] % 2 == 1) := by
  have h := packLanes_shift 1 xs k hk
  rw [Nat.one_mul, pow_one] at h
  rw [Nat.testBit_eq_decide_div_mod_eq, ← Nat.shiftRight_eq_div_pow, h]
  rfl

/-- A mask built bit by bit has those bits. -/
theorem maskOf_getLsbD (f : Nat → Bool) {k : Nat} (hk : k < 128) : (maskOf 128 f).getLsbD k = f k := by
  rw [maskOf, BitVec.getLsbD_ofNat, packLanes_one_testBit _ (by simpa using hk)]
  simp only [List.getElem_map, List.getElem_range, hk, decide_true, Bool.true_and]
  cases f k <;> rfl

theorem ofBool_eq_toNat (b : Bool) : ofBool b = b.toNat := by cases b <;> rfl

/-- MLOG looks each pair of bits up in its table. -/
theorem maskLogic_getLsbD (t : BitVec 6) (a b : Mask) {k : Nat} (hk : k < 128) :
    (maskLogic t.toNat a b).getLsbD k = t.getLsbD (2 * (a.getLsbD k).toNat + (b.getLsbD k).toNat) := by
  have hbit (n : Nat) : bit t.toNat n = t.getLsbD n := by
    rw [bit, Nat.shiftRight_eq_div_pow, BitVec.getLsbD, Nat.testBit_eq_decide_div_mod_eq]; rfl
  rw [maskLogic, maskOf_getLsbD _ hk, hbit, ofBool_eq_toNat, ofBool_eq_toNat]
  rfl

/-- An MLOG that decodes names a mask register in KB (R171, R239). -/
theorem mlog_kb_lt {c : Ctx} {o : AOps} (h : c.decodeItem (.a 0x02B o) = none) : o.kb.toNat < 8 := by
  have hs := Form.fieldItems_sound (staticItem_of_decodes h)
  simp only [Form.fieldItems, List.forall_mem_append, List.forall_mem_cons] at hs
  obtain ⟨⟨-, -, hkb, -⟩, -⟩ := hs
  have hk : ¬ 7 < o.kb.toNat := of_decide_eq_false hkb
  omega

/-- MLOG writes its mask and nothing else. -/
theorem mlog_gives (o : AOps) :
    GivesMask (.mlog o) o.dst (fun c => maskLogic o.ka.toNat (c.regs.getM o.sc.toNat) (c.regs.getM o.kb.toNat)) fun _ => 0 :=
  gives_mask_plain fun _ => rfl

/-! ## Address building (R241) -/

theorem extractLsb'_toNat_eq_field (a : Word) (lo len : Nat) : (a.extractLsb' lo len).toNat = field a.toNat lo len :=
  BitVec.extractLsb'_toNat ..

/-- Settles O4: the compares by their shape, MLOG bit by bit, and the moves. -/
theorem scalarComparesAndMoves : Obligations.ScalarComparesAndMoves := by
  refine ⟨fun o => ⟨?_, ?_, ?_, ?_, ?_, ?_⟩, fun o s c hr => ?_, fun o => ⟨?_, ?_, ?_⟩, fun o => ?_, fun o => ?_⟩
  · exact (gives_compare (i := .cmpEq o) rfl fun s => show execCmpEq o s = _ from rfl).congr fun _ => rfl
  · refine (gives_compare (i := .cmpNe o) rfl fun s => show execCmpNe o s = _ from rfl).congr fun _ => congrArg fullMask ?_
    exact (decide_not ..).symm
  · exact (gives_compare (i := .cmpLt o) rfl fun s => show execCmpLt o s = _ from rfl).congr fun _ => rfl
  · refine (gives_compare (i := .cmpGe o) rfl fun s => show execCmpGe o s = _ from rfl).congr fun _ => congrArg fullMask ?_
    exact (decide_not ..).symm.trans (decide_eq_decide.mpr not_lt)
  · exact (gives_compare (i := .cmpLtu o) rfl fun s => show execCmpLtu o s = _ from rfl).congr fun _ => rfl
  · refine (gives_compare (i := .cmpGeu o) rfl fun s => show execCmpGeu o s = _ from rfl).congr fun _ => congrArg fullMask ?_
    exact (decide_not ..).symm.trans (decide_eq_decide.mpr not_lt)
  · obtain ⟨t, d, hexec, hcx, hregs, hadv, hquiet, hothers⟩ := mlog_gives o s c hr
    refine ⟨t, d, _, hexec, hcx, hregs, fun k hk => ?_, hadv, hquiet, hothers⟩
    rw [maskLogic_getLsbD _ _ _ hk, Nat.mod_eq_of_lt (mlog_kb_lt hr.decodes)]
  · exact gives_unary (i := .mov o) rfl fun s => show execMov o s = _ from rfl
  · exact (gives_binary (i := .gaMk o) rfl fun s => show execGaMk o s = _ from rfl).congr fun _ _ => rfl
  · refine (gives_unary (i := .gaDev o) rfl fun s => show execGaDev o s = _ from rfl).congr fun s c => ?_
    dsimp only
    rw [extractLsb'_toNat_eq_field]
    rfl
  · exact gives_scalar (i := .moviW o) fun _ => rfl
  · exact gives_scalar (i := .moviD o) fun _ => rfl

end Sys2Proof.Machine
end

section
/-! PROOF. O5 and O19: branches, calls and LOOP (R245), and NOP (R249). -/

namespace Sys2Proof.Machine

/-! ## Branches (R245) -/

theorem GivesBranch.congr {i : Instr} {link : Option (Spec × (Ctx → Word))} {pc pc' : Ctx → BitVec 32} (h : GivesBranch i link pc)
    (hpc : ∀ c, pc c = pc' c) : GivesBranch i link pc' := by
  rwa [show pc' = pc from funext fun c => (hpc c).symm]

/-- LOOP counts down, and falls through where the counter was one (R245). -/
theorem loop_gives (o : BOps) : GivesBranch (.loop o) (some (o.dst, fun c => c.valA o.sa - 1))
    fun c => if c.valA o.sa = 1 then c.after else c.branchTo o.off := by
  refine (gives_link (i := .loop o) fun _ => rfl).congr fun c => ?_
  by_cases h : c.valA o.sa = 1
  · have h0 : Word.minus (c.valA o.sa) 1 = 0 := sub_eq_zero.mpr h
    rw [h0, if_pos h]
    rfl
  · have h0 : Word.minus (c.valA o.sa) 1 ≠ 0 := sub_ne_zero.mpr h
    rw [if_pos h0, if_neg h]

/-- Settles O5: the branches without a link, those with one, and LOOP. -/
theorem branches : Obligations.Branches := by
  refine fun o => ⟨?_, ?_, ?_, ?_, ?_, loop_gives o⟩
  · exact gives_branch (i := .br o) fun _ => rfl
  · exact gives_branch (i := .bri o) fun _ => rfl
  · exact gives_link (i := .call o) fun _ => rfl
  · exact gives_link (i := .calli o) fun _ => rfl
  · exact gives_branch (i := .ret o) fun _ => rfl

/-! ## NOP (R249) -/

/-- NOP accepts no field but zero: its positions have no role, its immediate no value, and no predicate stands. -/
theorem nop_static {o : COps} (h : (Instr.nop o).form.staticItem = none) :
    o = { dst := 0, sa := 0, sb := 0, pred := 0, imm := 0, pn := false } := by
  have hf := Form.fieldItems_sound h
  have hp : ∀ p ∈ [(Role.zero, o.dst), (Role.zero, o.sa), (Role.zero, o.sb)], p.1.accepts p.2 = true := fun _ => Form.positions_accept h
  simp only [List.forall_mem_cons, Role.accepts, beq_iff_eq] at hp
  obtain ⟨hdst, hsa, hsb, -⟩ := hp
  change ∀ x ∈ [(decide (0 < o.imm.toNat), 5), (o.pred != 0 || o.pn, 5)], x.1 = false at hf
  simp only [List.forall_mem_cons, decide_eq_false_iff_not, Nat.not_lt, Nat.le_zero, Bool.or_eq_false_iff, bne_eq_false_iff_eq] at hf
  obtain ⟨himm, ⟨hpred, hpn⟩, -⟩ := hf
  obtain ⟨dst, sa, sb, pred, imm, pn⟩ := o
  simp only [COps.mk.injEq]
  exact ⟨hdst, hsa, hsb, hpred, BitVec.eq_of_toNat_eq himm, hpn⟩

/-- Settles O19: NOP only retires, its word is that of R249, and any other field is found broken. -/
theorem nopHasNoEffect : Obligations.NopHasNoEffect := by
  refine ⟨fun o => gives_nothing fun _ => rfl, by decide, fun o ho => ?_⟩
  obtain ⟨k, hk⟩ := Option.ne_none_iff_exists'.mp (mt nop_static ho)
  exact ⟨k, fun s c hc => run_of_static hc hk _⟩

end Sys2Proof.Machine
end

section
/-! PROOF. O22: CHKR (R242 to R244). A CHKR whose descriptor is cached is decided by the first failing check of its repetitions; one that
passes retires, and its context then has the cover. -/

namespace Sys2Proof

/-- Is a form one of format M, whose own operands are checked repetition by repetition (R243)? -/
def Form.isAccess : Form → Bool
  | .m _ _ => true
  | _ => false

/-- A form whose reading positions never accept pv takes no channel entry (R185). -/
theorem Form.pvCount_eq_zero {f : Form} (h : f.staticItem = none)
    (hr : ∀ r ∈ f.positions.map Prod.fst, (r.reads && r.accepts specPv) = false) : f.pvCount = 0 := by
  refine List.length_eq_zero_iff.mpr (List.filter_eq_nil_iff.mpr fun p hp hpv => ?_)
  obtain ⟨hreads, hspec⟩ : p.1.reads = true ∧ p.2 = specPv := by simpa using hpv
  have hno := hr p.1 (List.mem_map_of_mem hp)
  rw [hreads, ← hspec, Form.positions_accept h hp] at hno
  cases hno

/-- CHKR's operands are s registers and immediates, so it takes no channel entry (R242). -/
theorem chkr_pvCount {op : BitVec 9} {o : AOps} (hop : op = 0x031 ∨ op = 0x032 ∨ op = 0x033) (h : (Form.a op o).staticItem = none) :
    (Form.a op o).pvCount = 0 := by
  refine Form.pvCount_eq_zero h ?_
  have hroles : (Form.a op o).positions.map Prod.fst = [.zero, .sOnly, .sOnlyImm, .sHandle] := by
    rcases hop with rfl | rfl | rfl <;> rfl
  rw [hroles]
  decide

end Sys2Proof

namespace Sys2Proof.Machine

open Sys2Proof.Bits

/-! ## Covers and memory -/

section
variable {s t : State} (h : t.mem = s.mem) (c : Ctx) (pc : Nat)
include h

theorem codeBits_congr : t.codeBits c pc = s.codeBits c pc := by
  unfold State.codeBits
  rw [h]

theorem formAt_congr : t.formAt c pc = s.formAt c pc := by
  unfold State.formAt
  rw [codeBits_congr h]

theorem skipPad_congr : t.skipPad c pc = s.skipPad c pc := by
  unfold State.skipPad
  rw [codeBits_congr h]

theorem coveredBy_congr : t.coveredBy c pc = s.coveredBy c pc := by
  unfold State.coveredBy
  simp only [formAt_congr h, skipPad_congr h]

/-- What a CHKR covers depends on the machine through its memory alone (R243). -/
theorem coverOf_congr : t.coverOf c pc = s.coverOf c pc := by
  unfold State.coverOf
  simp only [formAt_congr h, skipPad_congr h, coveredBy_congr h]

end

section
variable {s : State} {c : Ctx} {o : AOps} {op : BitVec 9} {kind : Kind} {d : Desc}

/-! ## The check -/

/-- The kind that a CHKR checks for (R243): a CHKR.W of an atomic that returns a value checks for both. -/
def Cover.kindOf (v : Cover) (kind : Kind) : Kind :=
  if kind = .write ∧ v.target.map returnsOld = some true ∧ v.flag = false then .readWrite else kind

/-- How many repetitions a CHKR checks one by one (R243). -/
def Cover.checked (v : Cover) : Nat := if v.target.any Form.isAccess then v.reps else 1

/-- The handle of a CHKR. -/
def Ctx.chkrHandle (c : Ctx) (o : AOps) : BitVec 32 := (c.srcS [o.sa, o.sb] o.sc).setWidth 32

/-- A CHKR decides now: none of its registers is owed, and the core has the descriptor `d` of its handle (R27, R97). -/
structure DecidesNow (s : State) (c : Ctx) (o : AOps) (d : Desc) : Prop where
  owed : ((List.range (s.coverOf c c.pc.toNat).reps).flatMap fun i => checkRegs o (s.coverOf c c.pc.toNat) (0 + i)).any
    (fun sp => c.order.owed.contains sp) = false
  fetch : s.fetchOf s.cur.core c.num (hIndex (c.chkrHandle o)) = none
  cached : s.cachedDesc s.cur.core (hIndex (c.chkrHandle o)) = some d

theorem chkrHandle_eq (c : Ctx) (o : AOps) : (c.srcS [o.sa, o.sb] o.sc).setWidth 32 = c.chkrHandle o := rfl

/-- The first failing check of a CHKR that decides now. -/
def State.chkrFail (s : State) (c : Ctx) (o : AOps) (kind : Kind) (d : Desc) : Option (Nat × Word × Nat) :=
  let v := s.coverOf c c.pc.toNat
  s.firstFail c o v (v.kindOf kind) (c.chkrHandle o) d v.checked 0

/-- The state with the descriptor of a CHKR used most recently (R26). -/
def State.chkrUses (s : State) (c : Ctx) (o : AOps) (d : Desc) : State := s.useDesc s.cur.core (hIndex (c.chkrHandle o)) d

theorem useDesc_eq (s : State) (c : Ctx) (o : AOps) (d : Desc) : s.useDesc s.cur.core (hIndex (c.chkrHandle o)) d = s.chkrUses c o d := rfl

theorem flagCover_chkrUses : (s.chkrUses c o d).flagCover c = s.flagCover c := by
  have hmem : (s.chkrUses c o d).mem = s.mem := rfl
  unfold State.flagCover
  simp only [coverOf_congr hmem]

/-- No check depends on the cores. -/
theorem firstFail_mapCore (s : State) (core : Nat) (g : Core → Core) (c : Ctx) (o : AOps) (v : Cover) (k : Kind) (h : BitVec 32) (d : Desc)
    (n j : Nat) : (s.mapCore core g).firstFail c o v k h d n j = s.firstFail c o v k h d n j := by
  induction n generalizing j with
  | zero => rfl
  | succ n ih =>
    rw [State.firstFail, State.firstFail]
    simp only [ih]
    rfl

theorem firstFail_eq_chkrFail {v : Cover} {k : Kind} {h : BitVec 32} {n : Nat} (hv : s.coverOf c c.pc.toNat = v) (hk : v.kindOf kind = k)
    (hh : c.chkrHandle o = h) (hn : v.checked = n) : s.firstFail c o v k h d n 0 = s.chkrFail c o kind d := by
  subst hv hk hh hn
  rfl

/-- The use of the descriptor changes no check, whether or not the cover is of format M. -/
theorem firstFail_chkrUses {access : Bool} (ha : access = (s.coverOf c c.pc.toNat).target.any Form.isAccess) :
    (s.chkrUses c o d).firstFail c o (s.coverOf c c.pc.toNat) ((s.coverOf c c.pc.toNat).kindOf kind) (c.chkrHandle o) d
      (if access then (s.coverOf c c.pc.toNat).reps else 1) (if access then 0 else 0) = s.chkrFail c o kind d := by
  rw [ite_self, State.chkrUses, State.useDesc, firstFail_mapCore, ha]
  rfl

/-- A CHKR that decides now goes on where no check fails, and is a region fault where one does (R243). -/
theorem DecidesNow.chkrCheck_eq (h : DecidesNow s c o d) (kind : Kind) (k : State → State) :
    (s.chkrFail c o kind d = none → s.chkrCheck c c.pc o kind 0 k = k (s.chkrUses c o d))
    ∧ ∀ r ga len, s.chkrFail c o kind d = some (r, ga, len) →
      s.chkrCheck c c.pc o kind 0 k = (s.chkrUses c o d).regionFault r ga (c.chkrHandle o) len c.pc := by
  have hkind : (if kind = .write ∧ (s.coverOf c c.pc.toNat).target.map returnsOld = some true ∧ (!(s.coverOf c c.pc.toNat).flag) = true
      then Kind.readWrite else kind) = (s.coverOf c c.pc.toNat).kindOf kind := by
    simp only [Cover.kindOf, Bool.not_eq_true']
  unfold State.chkrCheck
  simp only [chkrHandle_eq, Nat.sub_zero, h.owed, h.fetch, h.cached, hkind, Bool.false_eq_true, if_false, useDesc_eq]
  rw [firstFail_chkrUses (by cases (s.coverOf c c.pc.toNat).target with
    | none => rfl
    | some f => cases f <;> rfl)]
  exact ⟨fun hpass => by rw [hpass], fun r ga len hfail => by rw [hfail]⟩

/-! ## The cover -/

/-- The context after a CHKR that passes: retired, with the cover of this CHKR behind that of the flag's, `before` (R244). -/
def Ctx.covered (c : Ctx) (op : BitVec 9) (o : AOps) (flag : Bool) (before : List (BitVec 32)) : Ctx :=
  (c.retired (.a op o)).cover c.pc (c.chkrHandle o) flag before (if before.isEmpty then 0 else c.flagHandle)

theorem DecidesNow.chkr_passes (h : DecidesNow s c o d) (hc : s.cx = some c) (hp : s.chkrFail c o kind d = none) {flag : Bool}
    (hf : (s.coverOf c c.pc.toNat).flag = flag) :
    s.chkr op o kind = (s.chkrUses c o d).mapCx fun _ => c.covered op o flag (s.flagCover c) := by
  subst hf
  have hcx : (s.chkrUses c o d).cx = some c := hc
  unfold State.chkr
  rw [hc]
  dsimp only
  rw [(h.chkrCheck_eq kind _).1 hp, flagCover_chkrUses, State.retire, mapCx_mapCx, State.mapCx, State.mapCx, hcx,
    Option.map_some, Option.map_some, Function.comp_apply, chkrHandle_eq]
  rfl

theorem DecidesNow.chkr_fails (h : DecidesNow s c o d) (hc : s.cx = some c) {r len : Nat} {ga : Word}
    (hp : s.chkrFail c o kind d = some (r, ga, len)) :
    s.chkr op o kind = (s.chkrUses c o d).regionFault r ga (c.chkrHandle o) len c.pc := by
  unfold State.chkr
  rw [hc]
  dsimp only
  rw [(h.chkrCheck_eq kind _).2 r ga len hp]

theorem cover_spec (c : Ctx) (pc h : BitVec 32) (flag : Bool) (before : List (BitVec 32)) (fh : BitVec 32) :
    (c.cover pc h flag before fh).coverLost = false ∧ (c.cover pc h flag before fh).chkr.getLast? = some pc
    ∧ (if flag then (c.cover pc h flag before fh).flagHandle = h else (c.cover pc h flag before fh).handle = h)
    ∧ c.cover pc h flag before fh = { c with
        chkr := (c.cover pc h flag before fh).chkr, coverLost := false,
        handle := (c.cover pc h flag before fh).handle, flagHandle := (c.cover pc h flag before fh).flagHandle } := by
  cases flag
  · exact ⟨rfl, List.getLast?_concat .., rfl, rfl⟩
  · exact ⟨rfl, rfl, rfl, rfl⟩

/-- The cover of a CHKR that passed stands, with its handle in the place that its flag says (R244). -/
theorem covered_covers {h : BitVec 32} (hh : c.chkrHandle o = h) (op : BitVec 9) (flag : Bool) (before : List (BitVec 32)) :
    (c.covered op o flag before).coverLost = false ∧ (c.covered op o flag before).chkr.getLast? = some c.pc
    ∧ if flag then (c.covered op o flag before).flagHandle = h else (c.covered op o flag before).handle = h := by
  obtain ⟨hlost, hlast, hhandle, -⟩ := cover_spec (c.retired (.a op o)) c.pc (c.chkrHandle o) flag before (if before.isEmpty then 0 else c.flagHandle)
  subst hh
  exact ⟨hlost, hlast, hhandle⟩

/-- The seat advances as after any instruction without a result. -/
theorem covered_advances (hpv : (Form.a op o).pvCount = 0) (flag : Bool) (before : List (BitVec 32)) :
    (c.covered op o flag before).regs = c.regs ∧ Advances c (c.covered op o flag before) (.a op o) 0 (c.nextPc (.a op o)) := by
  obtain ⟨hpc, hregs, horder, hch, hcsrs, hrest⟩ := retired_spec c (.a op o)
  obtain ⟨-, -, -, hcover⟩ := cover_spec (c.retired (.a op o)) c.pc (c.chkrHandle o) flag before (if before.isEmpty then 0 else c.flagHandle)
  unfold Ctx.covered
  generalize (c.retired (.a op o)).cover _ _ _ _ _ = e at *
  generalize c.retired (.a op o) = r at *
  refine ⟨by rw [hcover, hregs], ⟨by rw [hcover, hpc], ?_, ?_, by rw [hcover, horder], fun _ => ?_⟩⟩
  · rw [hcover, hcsrs]
    simp
  · rw [hcover, hrest]
  · rw [hcover, hch, hpv, List.drop_zero]

/-- Of the cores a CHKR changes at most the region cache of its own (R26). -/
theorem core_of_chkrUses {t : State} (ht : t.cores = (s.chkrUses c o d).cores) (n : Nat) :
    t.core n = { s.core n with rcache := (t.core n).rcache } := by
  unfold State.core
  rw [ht, State.chkrUses, State.useDesc, State.mapCore_cores, look_put]
  by_cases hn : s.cur.core = n
  · rw [if_pos hn, ← hn]; rfl
  · rw [if_neg hn]

end

/-- Settles O22: what each CHKR does is what its check decides. -/
theorem regionChecks : Obligations.RegionChecks := by
  intro o checks
  have each {i : Instr} {op : BitVec 9} {kind : Kind} (hf : i.form = .a op o) (hop : op = 0x031 ∨ op = 0x032 ∨ op = 0x033)
      (he : ∀ s, exec i s = s.run i.form fun _ s => s.chkr op o kind) : checks i kind := by
    intro s c d hr h v k ofM howed hfetch hcached
    have hnow : DecidesNow s c o d := ⟨howed, hfetch, hcached⟩
    have hk : v.kindOf kind = k := rfl
    have hh : c.chkrHandle o = h := rfl
    have hn : v.checked = if ofM then v.reps else 1 := rfl
    rw [he, run_ready hr, hf, firstFail_eq_chkrFail rfl hk hh hn]
    rw [hf] at hr
    refine ⟨fun hpass => ?_, fun r ga len hfail => congrArg _ (hnow.chkr_fails hr.seat hfail)⟩
    obtain ⟨flag, hflag⟩ : ∃ flag, v.flag = flag := ⟨_, rfl⟩
    obtain ⟨hregs, hadv⟩ := covered_advances (chkr_pvCount hop (staticItem_of_decodes hr.decodes)) flag (s.flagCover c)
    obtain ⟨hlost, hlast, hhandle⟩ := covered_covers (rfl : c.chkrHandle o = h) op flag (s.flagCover c)
    have hcx : (s.chkrUses c o d).cx = some c := hr.seat
    rw [hflag]
    refine ⟨_, _, congrArg _ (hnow.chkr_passes hr.seat hpass hflag), by rw [State.mapCx_cx, hcx]; rfl, hregs, hadv, hlost, hlast, hhandle,
      ?quiet, ?cores, fun n hn => ?others⟩
    case quiet => exact ⟨fun _ => rfl, fun _ => rfl, rfl, rfl, rfl, rfl, rfl, ⟨rfl, rfl, rfl⟩, rfl, rfl⟩
    case cores => exact core_of_chkrUses rfl
    case others =>
      rw [findCtx_mapCx hcx (by rw [hadv.rest]) hn, Option.map_id']
      rfl
  exact ⟨each (i := .chkrR o) rfl (.inl rfl) fun s => show execChkrR o s = _ from rfl,
    each (i := .chkrW o) rfl (.inr (.inl rfl)) fun s => show execChkrW o s = _ from rfl,
    each (i := .chkrX o) rfl (.inr (.inr rfl)) fun s => show execChkrX o s = _ from rfl⟩

end Sys2Proof.Machine
end

section
/-! PROOF. O6, O7, O10 and O13: the vector forms (R279 to R292).  An elementwise form and a move of lanes give their operation on each
active lane; left over is that the model's operations are those of the manual, for the element types that the form decodes with. -/

namespace Sys2Proof.Machine

open Sys2Proof.Bits

section
variable {i : Instr} {op : BitVec 9} {o : AOps}

/-- What lanes are given may be said by another function that agrees on the lanes of the type wherever the instruction is ready. -/
theorem GivesLanes.congr_ready {dst : Spec} {w n : Nat} {g g' : Ctx → Nat → Nat × BitVec 7} (h : GivesLanes i dst w n g)
    (hg : ∀ s c, Ready s c i.form → ∀ k < n, (g c k).1 % 2 ^ w = (g' c k).1 % 2 ^ w ∧ (g c k).2 = (g' c k).2) :
    GivesLanes i dst w n g' := by
  intro s c hr
  obtain ⟨t, d, v, he, hd, hregs, hlanes, hadv, hq, hoth⟩ := h s c hr
  have hfl : orLanes n (fun k => (g c k).2) = orLanes n fun k => (g' c k).2 :=
    List.foldl_ext _ _ _ fun a k hk => congrArg (a ||| ·) (hg s c hr k (List.mem_range.mp hk)).2
  exact ⟨t, d, v, he, hd, hregs, fun k hk => (hlanes k hk).trans (hg s c hr k hk).1, hfl ▸ hadv, hq, hoth⟩

/-- The element type of a form that decodes is one that the form accepts (R171, R281). -/
theorem etIn_of_decodes {c : Ctx} (h : c.decodeItem (.a op o) = none) : etIn (aRole op.toNat).ets o.et = true := by
  have hs := Form.fieldItems_sound (staticItem_of_decodes h)
  simp only [Form.fieldItems, List.cons_append, List.forall_mem_cons] at hs
  simpa using hs.1

/-! ## Elementwise forms (R280) -/

/-- The operation of an elementwise form on lane `k` of its sources. -/
def Ctx.elem (c : Ctx) (o : AOps) (g : LaneOp) (k : Nat) : Nat × BitVec 7 :=
  g c.rm o.et (lane (Flt.etWidth o.et) (c.srcV [] o.sa) k) (c.srcLane [o.sa] o.sb (Flt.etWidth o.et) k)
    (lane (Flt.etWidth o.et) (c.srcV [o.sa, o.sb] o.sc) k)

/-- An elementwise form gives its operation on each active lane. -/
theorem gives_elem (z : Bool) (g : LaneOp) (hf : i.form = .a op o) (he : ∀ s, exec i s = s.velem op o z g) :
    GivesLanes i o.dst (Flt.etWidth o.et) (Flt.etLanes o.et) fun c k =>
      if maskBit (c.predicate o.pred o.pn) k then c.elem o g k else (if z then 0 else lane (Flt.etWidth o.et) (c.oldV o.dst) k, 0) :=
  gives_lanes (etWidth_mul_etLanes_le o.et) fun s => by rw [he, hf]; rfl

/-- An elementwise form without flags, whose operation may be said by another that agrees with it modulo the lane. -/
theorem gives_elem_plain {z : Bool} {g : LaneOp} {x : Ctx → Nat → Nat} (hf : i.form = .a op o) (he : ∀ s, exec i s = s.velem op o z g)
    (hg : ∀ c, ∀ k < Flt.etLanes o.et,
      (c.elem o g k).1 % 2 ^ Flt.etWidth o.et = x c k % 2 ^ Flt.etWidth o.et ∧ (c.elem o g k).2 = 0) :
    GivesLanes i o.dst (Flt.etWidth o.et) (Flt.etLanes o.et) fun c k =>
      (if maskBit (c.predicate o.pred o.pn) k then x c k else if z then 0 else lane (Flt.etWidth o.et) (c.oldV o.dst) k, 0) := by
  refine (gives_elem z _ hf he).congr_ready fun s c _ k hk => ?_
  split
  · exact hg c k hk
  · exact ⟨rfl, rfl⟩

/-! ## Integer forms (R282) -/

/-- A wrapping form gives the operation modulo `2^w`. -/
theorem gives_wrap (z : Bool) {g g' : Int → Int → Int → Int} (hg : ∀ a b c, g a b c = g' a b c) (hf : i.form = .a op o)
    (he : ∀ s, exec i s = s.velem op o z (laneWrap g)) :
    let w := Flt.etWidth o.et
    let A (c : Ctx) (k : Nat) : Int := laneInt o.et (lane w (c.srcV [] o.sa) k)
    let B (c : Ctx) (k : Nat) : Int := laneInt o.et (c.srcLane [o.sa] o.sb w k)
    let C (c : Ctx) (k : Nat) : Int := laneInt o.et (lane w (c.srcV [o.sa, o.sb] o.sc) k)
    GivesLanes i o.dst w (Flt.etLanes o.et) fun c k =>
      (if maskBit (c.predicate o.pred o.pn) k then (g' (A c k) (B c k) (C c k) % ((2 ^ w : Nat) : Int)).toNat
       else if z then 0 else lane w (c.oldV o.dst) k, 0) := by
  intro w A B C
  refine gives_elem_plain hf he fun c k _ => ⟨?_, rfl⟩
  rw [← hg]
  rfl

/-- A form of the high half gives the product divided by `2^w`. -/
theorem gives_high (z : Bool) (hf : i.form = .a op o) (he : ∀ s, exec i s = s.velem op o z laneHigh) :
    let w := Flt.etWidth o.et
    let A (c : Ctx) (k : Nat) : Int := laneInt o.et (lane w (c.srcV [] o.sa) k)
    let B (c : Ctx) (k : Nat) : Int := laneInt o.et (c.srcLane [o.sa] o.sb w k)
    GivesLanes i o.dst w (Flt.etLanes o.et) fun c k =>
      (if maskBit (c.predicate o.pred o.pn) k then (A c k * B c k / ((2 ^ w : Nat) : Int) % ((2 ^ w : Nat) : Int)).toNat
       else if z then 0 else lane w (c.oldV o.dst) k, 0) :=
  gives_elem_plain hf he fun _ _ _ => ⟨rfl, rfl⟩

/-- The smallest value of a type of `w` bits. -/
def loOf (sg : Bool) (w : Nat) : Int := if sg then -((2 ^ (w - 1) : Nat) : Int) else 0

/-- The greatest value of a type of `w` bits. -/
def hiOf (sg : Bool) (w : Nat) : Int := if sg then ((2 ^ (w - 1) : Nat) : Int) - 1 else ((2 ^ w : Nat) : Int) - 1

theorem loOf_le_hiOf (sg : Bool) (w : Nat) : loOf sg w ≤ hiOf sg w := by
  have h1 := Nat.two_pow_pos (w - 1)
  have h2 := Nat.two_pow_pos w
  cases sg <;> simp only [loOf, hiOf, if_true, Bool.false_eq_true, if_false] <;> omega

/-- Saturation limits a value to the range of its type, and raises SAT exactly where it does (R282). -/
theorem saturate_eq (et : BitVec 4) (x : Int) : saturate et x
    = (wrap (Flt.etWidth et) (max (loOf (Flt.etSigned et) (Flt.etWidth et)) (min (hiOf (Flt.etSigned et) (Flt.etWidth et)) x)),
       if loOf (Flt.etSigned et) (Flt.etWidth et) ≤ x ∧ x ≤ hiOf (Flt.etSigned et) (Flt.etWidth et) then 0 else 0x20) := by
  have hle := loOf_le_hiOf (Flt.etSigned et) (Flt.etWidth et)
  have hdef : saturate et x = (if x < loOf (Flt.etSigned et) (Flt.etWidth et)
      then (wrap (Flt.etWidth et) (loOf (Flt.etSigned et) (Flt.etWidth et)), 0x20)
      else if hiOf (Flt.etSigned et) (Flt.etWidth et) < x
      then (wrap (Flt.etWidth et) (hiOf (Flt.etSigned et) (Flt.etWidth et)), 0x20) else (wrap (Flt.etWidth et) x, 0)) := rfl
  rw [hdef]
  generalize loOf (Flt.etSigned et) (Flt.etWidth et) = lo at *
  generalize hiOf (Flt.etSigned et) (Flt.etWidth et) = hi at *
  by_cases hlow : x < lo
  · rw [if_pos hlow, if_neg (by omega), max_eq_left (by omega)]
  · by_cases hhigh : hi < x
    · rw [if_neg hlow, if_pos hhigh, if_neg (by omega), min_eq_left (by omega), max_eq_right hle]
    · rw [if_neg hlow, if_neg hhigh, if_pos (by omega), min_eq_right (by omega), max_eq_right (by omega)]

/-- A saturating form that decodes with types of one signedness gives the limited value, and SAT where it is limited. -/
theorem gives_sat (z sg : Bool) {g : Int → Int → Int} (hf : i.form = .a op o)
    (he : ∀ s, exec i s = s.velem op o z (laneSat g)) (hsg : ∀ et, etIn (aRole op.toNat).ets et = true → Flt.etSigned et = sg) :
    let w := Flt.etWidth o.et
    let A (c : Ctx) (k : Nat) : Int := laneInt o.et (lane w (c.srcV [] o.sa) k)
    let B (c : Ctx) (k : Nat) : Int := laneInt o.et (c.srcLane [o.sa] o.sb w k)
    let lo : Int := if sg then -((2 ^ (w - 1) : Nat) : Int) else 0
    let hi : Int := if sg then ((2 ^ (w - 1) : Nat) : Int) - 1 else ((2 ^ w : Nat) : Int) - 1
    GivesLanes i o.dst w (Flt.etLanes o.et) fun c k =>
      if maskBit (c.predicate o.pred o.pn) k then
        ((max lo (min hi (g (A c k) (B c k))) % ((2 ^ w : Nat) : Int)).toNat,
          if lo ≤ g (A c k) (B c k) ∧ g (A c k) (B c k) ≤ hi then 0 else 0x20)
      else (if z then 0 else lane w (c.oldV o.dst) k, 0) := by
  intro w A B lo hi
  refine (gives_elem z _ hf he).congr_ready fun s c hr k _ => ?_
  split
  · rw [show c.elem o (laneSat g) k = saturate o.et (g (A c k) (B c k)) from rfl, saturate_eq,
      hsg o.et (etIn_of_decodes (hf ▸ hr.decodes))]
    exact ⟨rfl, rfl⟩
  · exact ⟨rfl, rfl⟩

end

/-- The saturating forms .IS take signed types, and the forms .NS natural ones. -/
theorem etSigned_of_etI (et : BitVec 4) (h : etIn etI et = true) : Flt.etSigned et = true := by
  revert et; decide

theorem etSigned_of_etN (et : BitVec 4) (h : etIn etN et = true) : Flt.etSigned et = false := by
  revert et; decide

theorem min_eq_ite (a b : Int) : min a b = if b < a then b else a := by split <;> omega

theorem max_eq_ite (a b : Int) : max a b = if a < b then b else a := by split <;> omega

theorem natAbs_eq_ite (a : Int) : (a.natAbs : Int) = if a < 0 then -a else a := by split <;> omega

/-- A wrapping form and its .Z variant. -/
theorem both_wrap {i iz : Instr} {op opz : BitVec 9} (o : AOps) {g : Int → Int → Int → Int} (g' : Int → Int → Int → Int)
    (hg : ∀ a b c, g a b c = g' a b c) (hf : i.form = .a op o) (hfz : iz.form = .a opz o)
    (he : ∀ s, exec i s = s.velem op o false (laneWrap g)) (hez : ∀ s, exec iz s = s.velem opz o true (laneWrap g)) :
    let w := Flt.etWidth o.et
    let A (c : Ctx) (k : Nat) : Int := laneInt o.et (lane w (c.srcV [] o.sa) k)
    let B (c : Ctx) (k : Nat) : Int := laneInt o.et (c.srcLane [o.sa] o.sb w k)
    let C (c : Ctx) (k : Nat) : Int := laneInt o.et (lane w (c.srcV [o.sa, o.sb] o.sc) k)
    let lanes (z : Bool) (c : Ctx) (k : Nat) : Nat × BitVec 7 :=
      (if maskBit (c.predicate o.pred o.pn) k then (g' (A c k) (B c k) (C c k) % ((2 ^ w : Nat) : Int)).toNat
       else if z then 0 else lane w (c.oldV o.dst) k, 0)
    GivesLanes i o.dst w (Flt.etLanes o.et) (lanes false) ∧ GivesLanes iz o.dst w (Flt.etLanes o.et) (lanes true) :=
  ⟨gives_wrap false hg hf he, gives_wrap true hg hfz hez⟩

/-- An elementwise form and its .Z variant. -/
theorem both_elem {i iz : Instr} {op opz : BitVec 9} (o : AOps) (g : LaneOp) (hf : i.form = .a op o) (hfz : iz.form = .a opz o)
    (he : ∀ s, exec i s = s.velem op o false g) (hez : ∀ s, exec iz s = s.velem opz o true g) :
    let lanes (z : Bool) (c : Ctx) (k : Nat) : Nat × BitVec 7 :=
      if maskBit (c.predicate o.pred o.pn) k then c.elem o g k else (if z then 0 else lane (Flt.etWidth o.et) (c.oldV o.dst) k, 0)
    GivesLanes i o.dst (Flt.etWidth o.et) (Flt.etLanes o.et) (lanes false)
      ∧ GivesLanes iz o.dst (Flt.etWidth o.et) (Flt.etLanes o.et) (lanes true) :=
  ⟨gives_elem false g hf he, gives_elem true g hfz hez⟩

/-- Settles O6: each form, and its .Z variant, by the shape of its operation. -/
theorem vectorInteger : Obligations.VectorInteger := by
  refine ⟨fun o => ⟨?_, ?_, ?_, ?_, ?_, ?_, ?_, ?_, ?_, ?_, ?_, ?_⟩, fun o => ⟨?_, ?_, ?_, ?_⟩⟩
  · exact both_wrap o (fun a b _ => a + b) (fun _ _ _ => rfl) rfl rfl (fun _ => rfl) fun _ => rfl
  · exact both_wrap o (fun a b _ => a - b) (fun _ _ _ => rfl) rfl rfl (fun _ => rfl) fun _ => rfl
  · exact both_wrap o (fun a b _ => a * b) (fun _ _ _ => rfl) rfl rfl (fun _ => rfl) fun _ => rfl
  · exact ⟨gives_high false rfl fun _ => rfl, gives_high true rfl fun _ => rfl⟩
  · exact ⟨gives_high false rfl fun _ => rfl, gives_high true rfl fun _ => rfl⟩
  · exact both_wrap o (fun a b c => a * b + c) (fun _ _ _ => rfl) rfl rfl (fun _ => rfl) fun _ => rfl
  · exact both_wrap o _ (fun a b _ => min_eq_ite a b) rfl rfl (fun _ => rfl) fun _ => rfl
  · exact both_wrap o _ (fun a b _ => min_eq_ite a b) rfl rfl (fun _ => rfl) fun _ => rfl
  · exact both_wrap o _ (fun a b _ => max_eq_ite a b) rfl rfl (fun _ => rfl) fun _ => rfl
  · exact both_wrap o _ (fun a b _ => max_eq_ite a b) rfl rfl (fun _ => rfl) fun _ => rfl
  · exact both_wrap o _ (fun a _ _ => natAbs_eq_ite a) rfl rfl (fun _ => rfl) fun _ => rfl
  · exact both_wrap o _ (fun a _ _ => (Int.zero_sub a).symm) rfl rfl (fun _ => rfl) fun _ => rfl
  · exact ⟨gives_sat false true rfl (fun _ => rfl) etSigned_of_etI, gives_sat true true rfl (fun _ => rfl) etSigned_of_etI⟩
  · exact ⟨gives_sat false false rfl (fun _ => rfl) etSigned_of_etN, gives_sat true false rfl (fun _ => rfl) etSigned_of_etN⟩
  · exact ⟨gives_sat false true rfl (fun _ => rfl) etSigned_of_etI, gives_sat true true rfl (fun _ => rfl) etSigned_of_etI⟩
  · exact ⟨gives_sat false false rfl (fun _ => rfl) etSigned_of_etN, gives_sat true false rfl (fun _ => rfl) etSigned_of_etN⟩

/-- Settles O7: each form, and its .Z variant, gives the arithmetic of its format on the active lanes. -/
theorem vectorFloat : Obligations.VectorFloat := fun o => by
  refine ⟨?_, ?_, ?_, ?_, ?_, ?_, ?_, ?_, ?_, ?_⟩
  · exact both_elem o (laneF2 Flt.addF) rfl rfl (fun _ => rfl) fun _ => rfl
  · exact both_elem o (laneF2 Flt.subF) rfl rfl (fun _ => rfl) fun _ => rfl
  · exact both_elem o (laneF2 Flt.mulF) rfl rfl (fun _ => rfl) fun _ => rfl
  · exact both_elem o laneFma rfl rfl (fun _ => rfl) fun _ => rfl
  · exact both_elem o (laneF2 Flt.divF) rfl rfl (fun _ => rfl) fun _ => rfl
  · exact both_elem o (laneF1 Flt.sqrtF) rfl rfl (fun _ => rfl) fun _ => rfl
  · exact both_elem o (laneF2 fun f _ a b => Flt.minMaxF f false a b) rfl rfl (fun _ => rfl) fun _ => rfl
  · exact both_elem o (laneF2 fun f _ a b => Flt.minMaxF f true a b) rfl rfl (fun _ => rfl) fun _ => rfl
  · exact both_elem o (laneF1 fun f _ a => Flt.signF f false a) rfl rfl (fun _ => rfl) fun _ => rfl
  · exact both_elem o (laneF1 fun f _ a => Flt.signF f true a) rfl rfl (fun _ => rfl) fun _ => rfl

/-! ## Moves of lanes (R285, R287 to R289) -/

section
variable {i : Instr} {op : BitVec 9} {o : AOps}

/-- A form that moves lanes gives its lane to each active one. -/
theorem gives_move {g : Ctx → Nat → Nat → Nat → Nat} {x : Ctx → Nat → Nat} (hf : i.form = .a op o)
    (he : ∀ s, exec i s = s.vmove op o g) (hg : ∀ c, ∀ k < Flt.etLanes o.et, g c (Flt.etWidth o.et) (Flt.etLanes o.et) k = x c k) :
    GivesLanes i o.dst (Flt.etWidth o.et) (Flt.etLanes o.et) fun c k =>
      (if maskBit (c.predicate o.pred o.pn) k then x c k else lane (Flt.etWidth o.et) (c.oldV o.dst) k, 0) := by
  refine (gives_lanes (z := false) (active := fun c => maskBit (c.predicate o.pred o.pn))
    (g := fun c k => (g c (Flt.etWidth o.et) (Flt.etLanes o.et) k, 0)) (etWidth_mul_etLanes_le o.et)
    fun s => by rw [he, hf]; rfl).congr_ready fun s c _ k hk => ?_
  split
  · rw [hg c k hk]; exact ⟨rfl, rfl⟩
  · exact ⟨rfl, rfl⟩

end

/-- The lane count of every type is even. -/
theorem etLanes_even (et : BitVec 4) : 2 * (Flt.etLanes et / 2) = Flt.etLanes et := by
  revert et; decide

/-- The lane that VPERM.Q takes: of the first two patterns from A and B in turn, of the others the even or odd ones, those of A first. -/
theorem lane_quadLane {n k : Nat} (hn : 2 * (n / 2) = n) (hk : k < n) (ka w : Nat) (a b : Vec) :
    lane w (if (quadLane ka n k).1 then b else a) (quadLane ka n k).2
      = match ka with
        | 0 => if k % 2 = 0 then lane w a (k / 2) else lane w b (k / 2)
        | 1 => if k % 2 = 0 then lane w a (n / 2 + k / 2) else lane w b (n / 2 + k / 2)
        | 2 => if k < n / 2 then lane w a (2 * k) else lane w b (2 * (k - n / 2))
        | _ => if k < n / 2 then lane w a (2 * k + 1) else lane w b (2 * (k - n / 2) + 1) := by
  have hparity : (k % 2 == 1) = !decide (k % 2 = 0) := by
    rcases Nat.mod_two_eq_zero_or_one k with h | h <;> simp [h]
  have hhalf : decide (n / 2 ≤ k) = !decide (k < n / 2) := by
    by_cases h : k < n / 2
    · simp [h, Nat.not_le.mpr h]
    · simp [h, Nat.le_of_not_lt h]
  have hmod : k % (n / 2) = if k < n / 2 then k else k - n / 2 := by
    split
    · rename_i h; exact Nat.mod_eq_of_lt h
    · rename_i h; rw [Nat.mod_eq_sub_mod (Nat.le_of_not_lt h), Nat.mod_eq_of_lt (by omega)]
  unfold quadLane
  split
  · by_cases h : k % 2 = 0 <;> simp [hparity, h]
  · by_cases h : k % 2 = 0 <;> simp [hparity, h]
  · by_cases h : k < n / 2 <;> simp [hhalf, hmod, h]
  · by_cases h : k < n / 2 <;> simp [hhalf, hmod, h]

/-- Settles O10, form by form. -/
theorem vectorMoves : Obligations.VectorMoves := fun o => by
  refine ⟨?_, ?_, ?_, ?_, ?_, ?_, ?_, ?_, ?_, ?_, ?_, ?_, ?_, ?_, ?_⟩
  · exact gives_elem_plain (z := false) rfl (fun _ => rfl) fun c k _ => ⟨Nat.mod_mod _ _, rfl⟩
  · exact gives_elem_plain (z := false) rfl (fun _ => rfl) fun c k _ => ⟨Nat.mod_mod _ _, rfl⟩
  · exact gives_elem_plain (z := false) rfl (fun _ => rfl) fun c k _ => ⟨Nat.mod_mod _ _, rfl⟩
  · exact gives_elem_plain (z := false) rfl (fun _ => rfl) fun c k _ =>
      ⟨(Nat.mod_mod _ _).trans (congrArg (· % _) (Nat.shiftLeft_eq _ _)), rfl⟩
  · exact gives_elem_plain (z := false) rfl (fun _ => rfl) fun c k _ =>
      ⟨(Nat.mod_mod _ _).trans (congrArg (· % _) (Nat.shiftRight_eq_div_pow _ _)), rfl⟩
  · exact gives_elem_plain (z := false) rfl (fun _ => rfl) fun c k _ => ⟨Nat.mod_mod _ _, rfl⟩
  · exact gives_move rfl (fun s => show execVsel o s = _ from rfl) fun _ _ _ => rfl
  · exact gives_move rfl (fun s => show execVmov o s = _ from rfl) fun _ _ _ => rfl
  · exact gives_move rfl (fun s => show execVpermX o s = _ from rfl) fun _ _ _ => rfl
  · exact gives_move rfl (fun s => show execVpermR o s = _ from rfl) fun c k _ => by rw [Nat.add_mod_mod]
  · exact gives_move rfl (fun s => show execVpermQ o s = _ from rfl) fun c k hk => lane_quadLane (etLanes_even o.et) hk o.ka.toNat _ _ _
  · exact gives_move rfl (fun s => show execVbcastS o s = _ from rfl) fun _ _ _ => rfl
  · exact gives_move rfl (fun s => show execVbcastL o s = _ from rfl) fun _ _ _ => rfl
  · refine (gives_lanes (z := false) (etWidth_mul_etLanes_le o.et) fun s => rfl).congr fun c k => ?_
    dsimp only
    by_cases h : k = (c.valB o.sa o.sb).toNat % Flt.etLanes o.et <;> simp [h]
  · exact gives_scalar fun s => rfl

/-! ## Reductions over no lane (R292) -/

theorem activeCodes_eq_nil {c : Ctx} {o : AOps} (h : ∀ k < Flt.etLanes o.et, maskBit (c.predicate o.pred o.pn) k = false) :
    c.activeCodes o = [] := by
  have hfilter : ((List.range (Flt.etLanes o.et)).filter fun k => maskBit (c.predicate o.pred o.pn) k) = [] :=
    List.filter_eq_nil_iff.mpr fun k hk => by simp [h k (List.mem_range.mp hk)]
  exact congrArg (List.map _) hfilter

section
variable {i : Instr} {op : BitVec 9} {o : AOps} {s : State} {c : Ctx}

/-- A reduction with no active lane writes what it gives for the empty list, and raises no flag where it gives none. -/
theorem vred_empty {g : BitVec 2 → List Nat → Word × Flt.Flags} {v : Word} (hf : i.form = .a op o)
    (he : ∀ s, exec i s = s.vred op o g) (hempty : c.activeCodes o = [])
    (hg : etIn (aRole op.toNat).ets o.et = true → ∀ rm, g rm [] = (v, 0)) (hr : Ready s c i.form) :
    ∃ t d, exec i s = .next t ∧ t.cx = some d ∧ ScalarRegs c.regs d.regs o.dst v ∧ d.csrs.fstat = c.csrs.fstat := by
  have hg' := hg (etIn_of_decodes (hf ▸ hr.decodes)) c.rm
  obtain ⟨t, d, ht, hd, hregs, hadv, -⟩ := gives_scalar_flags (i := i) (dst := o.dst) (v := fun c => g c.rm (c.activeCodes o))
    (fun s => by rw [he, hf]; rfl) s c hr
  dsimp only at hregs hadv
  rw [hempty, hg'] at hregs hadv
  exact ⟨t, d, ht, hd, hregs, by rw [hadv.csrs]; simp⟩

end

/-- The identity of the choosing reductions for each type (R292). -/
theorem pick_identity (et : BitVec 4) (h : etIn etRed et = true) :
    let w := Flt.etWidth et
    Flt.pickResult .max et (Flt.pickIdentity .max et)
      = (if et = 11 then 0xFF else if et = 8 then 0xFC00 else if et = 9 then 0xFF80 else if et = 10 then 0xFF800000
        else if Flt.etSigned et then BitVec.ofInt 64 (-((2 ^ (w - 1) : Nat) : Int)) else 0)
    ∧ Flt.pickResult .min et (Flt.pickIdentity .min et)
      = (if et = 11 then 0x7F else if et = 8 then 0x7C00 else if et = 9 then 0x7F80 else if et = 10 then 0x7F800000
        else if Flt.etSigned et then BitVec.ofNat 64 (2 ^ (w - 1) - 1) else BitVec.ofNat 64 (2 ^ w - 1))
    ∧ Flt.pickResult .amax et (Flt.pickIdentity .amax et) = 0 := by
  revert et; decide

/-- Settles O13: each reduction by what it gives for no lane. -/
theorem emptyReductions : Obligations.EmptyReductions := by
  intro o s c hnone
  have hempty := activeCodes_eq_nil hnone
  refine ⟨?_, ?_, ?_, ?_, ?_, ?_, ?_, ?_⟩
  · exact vred_empty rfl (fun s => show execVredAddi o s = _ from rfl) hempty fun _ _ => rfl
  · exact vred_empty rfl (fun s => show execVredAddf o s = _ from rfl) hempty fun _ _ => rfl
  · exact vred_empty rfl (fun s => show execVredMin o s = _ from rfl) hempty fun h _ => Prod.ext (pick_identity o.et h).2.1 rfl
  · exact vred_empty rfl (fun s => show execVredMinn o s = _ from rfl) hempty fun h _ => Prod.ext (pick_identity o.et h).2.1 rfl
  · exact vred_empty rfl (fun s => show execVredMax o s = _ from rfl) hempty fun h _ => Prod.ext (pick_identity o.et h).1 rfl
  · exact vred_empty rfl (fun s => show execVredMaxn o s = _ from rfl) hempty fun h _ => Prod.ext (pick_identity o.et h).1 rfl
  · exact vred_empty rfl (fun s => show execVredAmax o s = _ from rfl) hempty fun h _ => Prod.ext (pick_identity o.et h).2.2 rfl
  · exact vred_empty rfl (fun s => show execVredAmaxn o s = _ from rfl) hempty fun h _ => Prod.ext (pick_identity o.et h).2.2 rfl

end Sys2Proof.Machine
end

section
/-! PROOF. O28: traps and their returns (R354 to R356, R362). The words that an entry or a return writes are
their old ones with fields replaced, so each field that a claim names is read from the replacement. -/

namespace Sys2Proof.Machine

open Sys2Proof.Bits

/-! ## Fields of a word with a field replaced -/

theorem testBit_field (w lo len k : Nat) : (field w lo len).testBit k = (decide (k < len) && w.testBit (lo + k)) := by
  rw [field, Nat.testBit_mod_two_pow, Nat.testBit_shiftRight]

theorem bit_eq_testBit (w i : Nat) : bit w i = w.testBit i := by
  simp [bit, Nat.testBit]

theorem bit_toNat (w : Word) (i : Nat) : bit w.toNat i = w.getLsbD i := bit_eq_testBit _ _

theorem field_ofNat {n lo len : Nat} (h : lo + len ≤ 64) : field (BitVec.ofNat 64 n).toNat lo len = field n lo len := by
  refine Nat.eq_of_testBit_eq fun k => ?_
  simp only [testBit_field, BitVec.toNat_ofNat, Nat.testBit_mod_two_pow]
  by_cases hk : k < len
  · simp [hk, show lo + k < 64 by omega]
  · simp [hk]

/-- A field inside a replaced one is read from what replaced it. -/
theorem field_setField_inside {lo len a n : Nat} (w v : Nat) (h : lo ≤ a) (hn : a + n ≤ lo + len) :
    field (setField w lo len v) a n = field v (a - lo) n := by
  refine Nat.eq_of_testBit_eq fun k => ?_
  simp only [testBit_field, testBit_setField]
  by_cases hk : k < n
  · rw [if_pos (by omega), show a + k - lo = a - lo + k by omega]
  · simp [hk]

/-- A field apart from a replaced one is as it was. -/
theorem field_setField_apart {lo len a n : Nat} (w v : Nat) (h : a + n ≤ lo ∨ lo + len ≤ a) :
    field (setField w lo len v) a n = field w a n := by
  refine Nat.eq_of_testBit_eq fun k => ?_
  simp only [testBit_field, testBit_setField]
  by_cases hk : k < n
  · rw [if_neg (by omega)]
  · simp [hk]

theorem field_field {len a n : Nat} (w lo : Nat) (h : a + n ≤ len) : field (field w lo len) a n = field w (lo + a) n := by
  refine Nat.eq_of_testBit_eq fun k => ?_
  simp only [testBit_field]
  by_cases hk : k < n
  · simp [hk, show a + k < len by omega, Nat.add_assoc]
  · simp [hk]

theorem getLsbD_ofNat_setField (w lo len v : Nat) {k : Nat} (hk : k < 64) :
    (BitVec.ofNat 64 (setField w lo len v)).getLsbD k = if lo ≤ k ∧ k < lo + len then v.testBit (k - lo) else w.testBit k := by
  simp only [BitVec.getLsbD_ofNat, hk, decide_true, Bool.true_and, testBit_setField]

section
variable {s : State} {c : Ctx}

theorem tcauseBit_eq (c : Ctx) (i : Nat) : c.tcauseBit i = c.csrs.tcause.getLsbD i := bit_toNat _ _

theorem inTrap_eq (c : Ctx) : c.inTrap = c.csrs.tcause.getLsbD 17 := tcauseBit_eq c 17

theorem inYield_eq (c : Ctx) : c.inYield = c.csrs.tcause.getLsbD 18 := tcauseBit_eq c 18

/-- A context with other registers, CSRs or marks in focus, and nothing else changed. -/
theorem othersKeep_mapCx {g : Ctx → Ctx} (hc : s.cx = some c) (hg : (g c).num = c.num) : OthersKeep s (s.mapCx g) c none :=
  fun n hn => by rw [findCtx_mapCx hc hg hn, Option.map_id']

/-! ## Entering a handler (R355) -/

/-- What a handler's entry leaves of the context in focus, beside the charge of the instruction: the fields of TCAUSE, TPC, TVAL, TINFO and
REPST that R355 names. -/
structure Entered (c d : Ctx) (code handler : Nat) (back : BitVec 32) (val : Word) : Prop where
  pc : d.pc = BitVec.ofNat 32 handler
  regs : d.regs = c.regs
  code : field d.csrs.tcause.toNat 0 8 = code
  sub : field d.csrs.tcause.toNat 8 8 = 0
  skip : d.csrs.tcause.getLsbD 16 = false
  inTrap : d.csrs.tcause.getLsbD 17 = true
  tpc : d.csrs.tpc = back.setWidth 64
  tval : d.csrs.tval = val
  tinfo : field d.csrs.tinfo.toNat 0 19 = field c.csrs.repst.toNat 0 19
  active : d.csrs.repst.getLsbD 18 = false
  counts : field d.csrs.repst.toNat 0 18 = field c.csrs.repst.toNat 0 18
  csrs : d.csrs = { c.csrs with tcause := d.csrs.tcause, tpc := d.csrs.tpc, tval := d.csrs.tval, tinfo := d.csrs.tinfo,
                                repst := d.csrs.repst, energy := d.csrs.energy }
  order : d.order = c.order
  mx : d.mx = c.mx
  queues : d.queues = c.queues
  phase : d.phase = c.phase

theorem enterTrap_tcause (c : Ctx) (code handler : Nat) (back : BitVec 32) (val : Word) : (c.enterTrap code handler back val).csrs.tcause
    = BitVec.ofNat 64 (setField (setField (setField (setField c.csrs.tcause.toNat 0 8 code) 8 8 0) 16 1 0) 17 1 1) := rfl

theorem enterTrap_tinfo (c : Ctx) (code handler : Nat) (back : BitVec 32) (val : Word) : (c.enterTrap code handler back val).csrs.tinfo
    = BitVec.ofNat 64 (setField c.csrs.tinfo.toNat 0 19 (field c.csrs.repst.toNat 0 19)) := rfl

theorem enterTrap_repst (c : Ctx) (code handler : Nat) (back : BitVec 32) (val : Word) : (c.enterTrap code handler back val).csrs.repst
    = BitVec.ofNat 64 (setField c.csrs.repst.toNat 18 1 0) := rfl

/-- An entry leaves the number, the registers, the queues and the states of the context. -/
theorem enterTrap_rest (c : Ctx) (code handler : Nat) (back : BitVec 32) (val : Word) :
    (c.enterTrap code handler back val).num = c.num ∧ (c.enterTrap code handler back val).regs = c.regs
    ∧ (c.enterTrap code handler back val).order = c.order ∧ (c.enterTrap code handler back val).mx = c.mx
    ∧ (c.enterTrap code handler back val).queues = c.queues ∧ (c.enterTrap code handler back val).phase = c.phase := by
  obtain ⟨tcause, tinfo, repst, cover, h⟩ := enterTrap_keeps c code handler back val
  rw [h]
  exact ⟨rfl, rfl, rfl, rfl, rfl, rfl⟩

theorem enterTrap_entered (c : Ctx) {code : Nat} (handler : Nat) (back : BitVec 32) (val : Word) (hcode : code < 2 ^ 8) :
    Entered c (c.enterTrap code handler back val) code handler back val :=
  have ⟨_, hregs, horder, hmx, hqueues, hphase⟩ := enterTrap_rest c code handler back val
{
  pc := rfl
  regs := hregs
  code := by
    rw [enterTrap_tcause, field_ofNat (by decide), field_setField_apart _ _ (by decide), field_setField_apart _ _ (by decide),
      field_setField_apart _ _ (by decide), field_setField_inside _ _ (by decide) (by decide), field_zero, Nat.mod_eq_of_lt hcode]
  sub := by
    rw [enterTrap_tcause, field_ofNat (by decide), field_setField_apart _ _ (by decide), field_setField_apart _ _ (by decide),
      field_setField_inside _ _ (by decide) (by decide), field_zero]
    rfl
  skip := by
    rw [enterTrap_tcause, getLsbD_ofNat_setField _ _ _ _ (by decide), if_neg (by decide), testBit_setField, if_pos (by decide)]
    rfl
  inTrap := by
    rw [enterTrap_tcause, getLsbD_ofNat_setField _ _ _ _ (by decide), if_pos (by decide)]
    rfl
  tpc := BitVec.ofNat_toNat 64 back
  tval := rfl
  tinfo := by
    rw [enterTrap_tinfo, field_ofNat (by decide), field_setField_inside _ _ (by decide) (by decide), field_field _ _ (by decide)]
  active := by
    rw [enterTrap_repst, getLsbD_ofNat_setField _ _ _ _ (by decide), if_pos (by decide)]
    rfl
  counts := by rw [enterTrap_repst, field_ofNat (by decide), field_setField_apart _ _ (by decide)]
  csrs := by
    obtain ⟨tcause, tinfo, repst, cover, h⟩ := enterTrap_keeps c code handler back val
    rw [h]
  order := horder
  mx := hmx
  queues := hqueues
  phase := hphase }

/-- The charge of the instruction that enters, and its count among the retired ones, are no part of what an entry is said to leave. -/
theorem Entered.charged {d : Ctx} {code handler n k : Nat} {back : BitVec 32} {val : Word}
    (h : Entered { c.charge n with retires := k } d code handler back val) : Entered c d code handler back val := by
  rw [charge_eq c n] at h
  obtain ⟨hpc, hregs, hcode, hsub, hskip, hin, htpc, htval, htinfo, hactive, hcounts, hcsrs, horder, hmx, hqueues, hphase⟩ := h
  exact ⟨hpc, hregs, hcode, hsub, hskip, hin, htpc, htval, htinfo, hactive, hcounts, hcsrs, horder, hmx, hqueues, hphase⟩

theorem handler_eq {code h : Nat} (hh : look c.code.traps code = some h) : c.handler code = some h := hh

theorem exec_trap_enters {o : COps} {h : Nat} (hr : Ready s c (Instr.trap o).form) (ht : c.inTrap = false) (hy : c.inYield = false)
    (hh : c.handler 3 = some h) : exec (.trap o) s = .next (s.mapCx fun d =>
      ({ d.charge (Form.c 0x184 o).energy with retires := d.retires + 1 } : Ctx).enterTrap 3 h (c.pc + 8) (o.imm.setWidth 64)) := by
  rw [show exec (.trap o) s = execTrap o s from rfl, execTrap, run_ready (f := .c 0x184 o) hr]
  simp only [ht, hy, hh, Option.isNone_some, Bool.or_self, Bool.false_eq_true, if_false]
  generalize (Form.c 0x184 o).energy = n
  have hch := charge_eq c n
  rw [trapEntry_enters (c := { c.charge n with retires := c.retires + 1 }) (h := h) _ (by rw [State.mapCx_cx, hr.seat]; rfl)
    (by rw [hch]; exact ht) (by rw [hch]; exact hy) (by rw [hch]; exact hh), if_pos rfl]
  simp only [State.mapCx, hr.seat, Option.map_some]
  rw [show ({ c.charge n with retires := c.retires + 1 } : Ctx).pc = c.pc by rw [hch]]

theorem exec_brk_enters {o : COps} {h : Nat} (hr : Ready s c (Instr.brk o).form) (ht : c.inTrap = false) (hy : c.inYield = false)
    (hh : c.handler 4 = some h) : exec (.brk o) s = .next (s.mapCx fun d => d.enterTrap 4 h c.pc 0) := by
  rw [show exec (.brk o) s = execBrk o s from rfl, execBrk, run_ready (f := .c 0x18B o) hr, trapEntry_enters 0 hr.seat ht hy hh,
    if_neg (by decide)]
  simp only [State.mapCx, hr.seat, Option.map_some]

/-! ## Returning (R356) -/

/-- Does SKIP take the instruction that trapped away with the return (R356)? -/
def Ctx.skips (c : Ctx) : Bool := c.csrs.tcause.getLsbD 16 && (field c.csrs.tcause.toNat 0 8 == 2 || field c.csrs.tcause.toNat 0 8 == 4)

/-- The part of REPST that a return restores: a repetition that SKIP takes away counts as done (R356). -/
def Ctx.resumedRep (c : Ctx) : Nat :=
  if c.skips && c.csrs.tinfo.getLsbD 18 then setField (field c.csrs.tinfo.toNat 0 19) 0 9 (field (field c.csrs.tinfo.toNat 0 19) 0 9 + 1)
  else field c.csrs.tinfo.toNat 0 19

/-- The program counter that a return restores (R356). -/
def State.resumedPc (s : State) (c : Ctx) : BitVec 32 :=
  let tpc := c.csrs.tpc.setWidth 32
  if c.skips && !c.csrs.tinfo.getLsbD 18 then tpc + BitVec.ofNat 32 (lengthOfLen ((s.codeBits c tpc.toNat).extractLsb' 0 2)) else tpc

/-- A context after its return from a handler. -/
def Ctx.returned (c : Ctx) (pc : BitVec 32) (cover : List (BitVec 32)) : Ctx :=
  { (((c.charge 5).setTcause 17 1 0).setTcause 16 1 0).mapCsrs
      (fun r => { r with repst := BitVec.ofNat 64 (setField r.repst.toNat 0 19 c.resumedRep) }) with
    pc := pc, lastPc := c.pc, chkr := cover, trapChkr := [], coverLost := !cover.isEmpty, handle := 0, flagHandle := 0, stall := none,
    retires := c.retires + 1 }

theorem resumedRep_active (c : Ctx) : c.resumedRep.testBit 18 = c.csrs.tinfo.getLsbD 18 := by
  unfold Ctx.resumedRep
  split
  · rw [testBit_setField, if_neg (by decide), testBit_field]
    rfl
  · rw [testBit_field]
    rfl

theorem resumedRep_total (c : Ctx) : field c.resumedRep 9 9 = field c.csrs.tinfo.toNat 9 9 := by
  unfold Ctx.resumedRep
  split
  · rw [field_setField_apart _ _ (by decide), field_field _ _ (by decide)]
  · exact field_field _ _ (by decide)

theorem resumedRep_done (c : Ctx) : field c.resumedRep 0 9
    = (field c.csrs.tinfo.toNat 0 9 + (if c.skips && c.csrs.tinfo.getLsbD 18 then 1 else 0)) % 2 ^ 9 := by
  unfold Ctx.resumedRep
  split
  · rw [field_setField_inside _ _ (by decide) (by decide), field_field _ _ (by decide), field_zero]
  · rw [field_field _ _ (by decide), field_zero, Nat.add_zero, Nat.mod_mod]

theorem trapReturn_returns (hc : s.cx = some c) (ht : c.inTrap = true) :
    ∃ cover, s.trapReturn = s.mapCx fun d => d.returned (s.resumedPc c) cover := by
  have hbit : bit (field c.csrs.tinfo.toNat 0 19) 18 = c.csrs.tinfo.getLsbD 18 := by
    rw [bit_eq_testBit, testBit_field]
    rfl
  simp only [State.trapReturn, hc, ht, Bool.not_true, Bool.false_eq_true, if_false, BitVec.ofNat_toNat, hbit, tcauseBit_eq, State.mapCx,
    Option.map_some]
  exact ⟨_, rfl⟩

theorem returned_eq (c : Ctx) (pc : BitVec 32) (cover : List (BitVec 32)) : ∃ tcause,
    c.returned pc cover = { c with
      csrs := { c.csrs with tcause := tcause, repst := BitVec.ofNat 64 (setField c.csrs.repst.toNat 0 19 c.resumedRep),
                            energy := (c.charge 5).csrs.energy },
      pc := pc, lastPc := c.pc, chkr := cover, trapChkr := [], coverLost := !cover.isEmpty, handle := 0, flagHandle := 0, stall := none,
      retires := c.retires + 1 } ∧ tcause.getLsbD 17 = false ∧ tcause.getLsbD 16 = false := by
  refine ⟨BitVec.ofNat 64 (setField (BitVec.ofNat 64 (setField c.csrs.tcause.toNat 17 1 0)).toNat 16 1 0), ?_, ?_, ?_⟩
  · unfold Ctx.returned Ctx.setTcause Ctx.mapCsrs
    rw [charge_eq c 5]
  · rw [getLsbD_ofNat_setField _ _ _ _ (by decide), if_neg (by decide), BitVec.testBit_toNat, getLsbD_ofNat_setField _ _ _ _ (by decide),
      if_pos (by decide)]
    rfl
  · rw [getLsbD_ofNat_setField _ _ _ _ (by decide), if_pos (by decide)]
    rfl

/-! ## The faults of a trap (R355, R356, R362) -/

/-- The context fault that a trap or a return ends in. -/
theorem contextFault_eq (hc : s.cx = some c) (sub val : Nat) : s.contextFault sub val = s.fatal c
    { code := 13, sub := sub, val := BitVec.ofNat 64 val, aux1 := 0, aux2 := 0, pc := c.pc, detail := 0 } true 0 :=
  fault_eq 13 sub _ 0 0 hc

/-- A TRAP that cannot enter its handler takes its fault as it stands: it does not retire. -/
theorem exec_trap_stopped {o : COps} (hr : Ready s c (Instr.trap o).form)
    (h : (c.inTrap || c.inYield || (c.handler 3).isNone) = true) : exec (.trap o) s = .next (s.trapEntry 3 (o.imm.setWidth 64)) := by
  rw [show exec (.trap o) s = execTrap o s from rfl, execTrap, run_ready (f := .c 0x184 o) hr]
  simp only [h, if_true]

theorem exec_brk {o : COps} (hr : Ready s c (Instr.brk o).form) : exec (.brk o) s = .next (s.trapEntry 4 0) := by
  rw [show exec (.brk o) s = execBrk o s from rfl, execBrk, run_ready (f := .c 0x18B o) hr]

theorem exec_tret {o : COps} (hr : Ready s c (Instr.tret o).form) : exec (.tret o) s = .next s.trapReturn := by
  rw [show exec (.tret o) s = execTret o s from rfl, execTret, run_ready (f := .c 0x185 o) hr]

theorem exec_yret_outside {o : COps} (hr : Ready s c (Instr.yret o).form) (hy : c.inYield = false) :
    exec (.yret o) s = .next (s.contextFault 2 (field c.csrs.tcause.toNat 0 8)) := by
  rw [show exec (.yret o) s = execYret o s from rfl, execYret, run_ready (f := .c 0x186 o) hr]
  simp only [hy, Bool.not_false, if_true]

end

/-- Settles O28, by what an entry and a return leave of the context. -/
theorem trapsAndReturns : Obligations.TrapsAndReturns := by
  refine ⟨fun o s c => ⟨fun hr ht hy h hh => ?_, fun hr ht hy h hh => ?_, fun hr ht => ?_⟩,
    fun o s c => ⟨fun hr ht => ?_, fun hr ht => ?_, fun hr ht hy hh => ?_, fun hr ht hy hh => ?_, fun hr ht => ?_, fun hr hy => ?_⟩⟩
  · rw [← inTrap_eq] at ht
    rw [← inYield_eq] at hy
    have hnum := (enterTrap_rest ({ c.charge (Form.c 0x184 o).energy with retires := c.retires + 1 } : Ctx) 3 h (c.pc + 8)
      (o.imm.setWidth 64)).1.trans (show _ = c.num by rw [charge_eq])
    obtain ⟨hpc, hregs, hcode, hsub, hskip, hin, htpc, htval, htinfo, hactive, hcounts, hcsrs, horder, hmx, hqueues, hphase⟩ :=
      (enterTrap_entered _ h (c.pc + 8) (o.imm.setWidth 64) (show 3 < 2 ^ 8 by decide)).charged (c := c) (n := (Form.c 0x184 o).energy)
        (k := c.retires + 1)
    exact ⟨_, _, exec_trap_enters hr ht hy hh, by rw [State.mapCx_cx, hr.seat]; rfl, hpc, hregs, hcode, hsub, hskip, hin, htpc, htval,
      htinfo, hactive, hcounts, hcsrs, horder, hmx, hqueues, hphase, quiet_mapCx s _, othersKeep_mapCx hr.seat hnum⟩
  · rw [← inTrap_eq] at ht
    rw [← inYield_eq] at hy
    obtain ⟨hpc, hregs, hcode, hsub, hskip, hin, htpc, htval, htinfo, hactive, hcounts, hcsrs, horder, hmx, hqueues, hphase⟩ :=
      enterTrap_entered c h c.pc 0 (show 4 < 2 ^ 8 by decide)
    exact ⟨_, _, exec_brk_enters hr ht hy hh, by rw [State.mapCx_cx, hr.seat]; rfl, hpc, hregs, hcode, hsub, hskip, hin, htpc, htval,
      htinfo, hactive, hcounts, hcsrs, horder, hmx, hqueues, hphase, quiet_mapCx s _, othersKeep_mapCx hr.seat (enterTrap_rest c 4 h c.pc 0).1⟩
  · rw [← inTrap_eq] at ht
    obtain ⟨cover, hret⟩ := trapReturn_returns hr.seat ht
    obtain ⟨tcause, heq, h17, h16⟩ := returned_eq c (s.resumedPc c) cover
    refine ⟨_, c.returned (s.resumedPc c) cover, (exec_tret hr).trans (congrArg Host.Outcome.next hret), by
      rw [State.mapCx_cx, hr.seat]; rfl, ?_⟩
    have hoth : OthersKeep s (s.mapCx fun d => d.returned (s.resumedPc c) cover) c none :=
      othersKeep_mapCx (g := fun d => d.returned (s.resumedPc c) cover) hr.seat (by rw [heq])
    refine ⟨by rw [heq], by rw [heq]; exact h17, by rw [heq]; exact h16, ?_, ?_, ?_, by rw [heq]; rfl, by rw [heq], by rw [heq], by rw [heq],
      by rw [heq], quiet_mapCx s _, hoth⟩ <;> rw [heq]
    · show (BitVec.ofNat 64 _).getLsbD 18 = _
      rw [getLsbD_ofNat_setField _ _ _ _ (by decide), if_pos (by decide)]
      exact resumedRep_active c
    · show field (BitVec.ofNat 64 _).toNat 9 9 = _
      rw [field_ofNat (by decide), field_setField_inside _ _ (by decide) (by decide)]
      exact resumedRep_total c
    · show field (BitVec.ofNat 64 _).toNat 0 9 = _
      rw [field_ofNat (by decide), field_setField_inside _ _ (by decide) (by decide)]
      exact resumedRep_done c
  · rw [exec_trap_stopped hr (by simp [ht]), trapEntry_nested _ _ hr.seat ht, contextFault_eq hr.seat]
  · rw [exec_brk hr, trapEntry_nested _ _ hr.seat ht, contextFault_eq hr.seat]
  · rw [exec_trap_stopped hr (by simp [hh]), trapEntry_noHandler _ hr.seat ht hy hh, contextFault_eq hr.seat]
  · rw [exec_brk hr, trapEntry_noHandler _ hr.seat ht hy hh, contextFault_eq hr.seat]
  · rw [exec_tret hr, trapReturn_outside hr.seat ht, contextFault_eq hr.seat]
  · rw [exec_yret_outside hr hy, contextFault_eq hr.seat]

end Sys2Proof.Machine
end

section
/-! PROOF. O29: the yields (R356, R365, R366). -/

namespace Sys2Proof.Machine

open Sys2Proof.Bits

/-! ## What leaves the contexts where they are -/

/-- Only what stands outside the contexts differs. -/
structure SameSeats (s t : State) : Prop where
  focus : t.cx = s.cx
  seats : t.seats = s.seats
  saved : t.saved = s.saved

section
variable {s t u : State} {c : Ctx}

theorem SameSeats.refl (s : State) : SameSeats s s := ⟨rfl, rfl, rfl⟩

theorem SameSeats.trans (h : SameSeats s t) (k : SameSeats t u) : SameSeats s u :=
  ⟨k.focus.trans h.focus, k.seats.trans h.seats, k.saved.trans h.saved⟩

theorem SameSeats.hasSeat (h : SameSeats s t) (n : Nat) : t.hasSeat n = s.hasSeat n := by
  unfold State.hasSeat State.running
  rw [h.focus, h.seats]
  by_cases hc : s.cx = none
  · rw [hc]
  · obtain ⟨d, hd⟩ := Option.ne_none_iff_exists'.mp hc
    simp [hd]

theorem sameSeats_nonBundled (s : State) (line : Nat) : SameSeats s (s.nonBundled line) :=
  have h := (Wrote.nonBundled s line).contextsKeep
  ⟨h.focus.2, h.seats, h.saved.1⟩

theorem sameSeats_foldl {α : Type} {f : State → α → State} (hf : ∀ s a, SameSeats s (f s a)) (l : List α) (s : State) :
    SameSeats s (l.foldl f s) := by
  induction l generalizing s with
  | nil => exact .refl s
  | cons a l ih => exact (hf s a).trans (ih _)

theorem sameSeats_recPut (s : State) (p idx lo len v : Nat) : SameSeats s (s.recPut p idx lo len v) := by
  refine (sameSeats_nonBundled s (s.recAddr p idx / 64 * 64)).trans ?_
  unfold State.recPut
  exact ⟨rfl, rfl, rfl⟩

theorem sameSeats_setRecState (s : State) (p idx : Nat) (st : RecState) : SameSeats s (s.setRecState p idx st) := by
  refine (sameSeats_recPut s p idx 56 4 st.code).trans ?_
  unfold State.setRecState
  exact ⟨rfl, rfl, rfl⟩

theorem sameSeats_queueTask (s : State) (p idx : Nat) (front : Bool) : SameSeats s (s.queueTask p idx front) := by
  unfold State.queueTask State.mapPoint
  exact ⟨rfl, rfl, rfl⟩

theorem sameSeats_yieldRecord (s : State) (c : Ctx) : SameSeats s (s.yieldRecord c) := by
  unfold State.yieldRecord
  dsimp only
  split
  · exact .refl s
  · exact ((sameSeats_setRecState s _ _ _).trans (sameSeats_recPut _ _ _ _ _ _)).trans (sameSeats_queueTask _ _ _ _)

theorem sameSeats_owe (s : State) (i : Instr) : SameSeats s (s.owe i) := ⟨s.owe_cx i, s.owe_seats i, s.owe_saved i⟩

theorem sameSeats_removeCore (s : State) (core : Nat) : SameSeats s (s.removeCore core) := by
  unfold State.removeCore State.requestReplacement State.countCores
  constructor <;> simp

theorem sameSeats_noteFree (s : State) (core part : Nat) : SameSeats s (s.noteFree core part) := by
  unfold State.noteFree
  split
  · exact sameSeats_removeCore s core
  · refine .trans ?_ (sameSeats_foldl (fun s u => sameSeats_owe s _) _ _)
    split
    · exact sameSeats_owe s _
    · exact .refl s

theorem sameSeats_saveAccumulators (s : State) (c : Ctx) : SameSeats s (s.saveAccumulators c) := by
  unfold State.saveAccumulators
  split <;> exact ⟨rfl, rfl, rfl⟩

theorem sameSeats_saveRows (s : State) (c : Ctx) : SameSeats s (s.saveRows c) := by
  unfold State.saveRows
  split <;> exact ⟨rfl, rfl, rfl⟩

theorem sameSeats_writeSaveArea (s : State) (c : Ctx) (forced : Bool) : SameSeats s (s.writeSaveArea c forced) := by
  unfold State.writeSaveArea
  split
  · exact .refl s
  · extract_lets base csrs os counters touched items m1 m2 m3 s1
    split
    · have h1 : SameSeats s s1 := ⟨rfl, rfl, rfl⟩
      exact (h1.trans (sameSeats_saveAccumulators s1 c)).trans (sameSeats_saveRows _ c)
    · exact ⟨rfl, rfl, rfl⟩

theorem sameSeats_saveFootprint (s : State) (c : Ctx) : SameSeats s (s.saveFootprint c) := by
  unfold State.saveFootprint
  split <;> exact ⟨rfl, rfl, rfl⟩

/-! ## YRET (R356, R365) -/

/-- The context in focus is the one on the seat in focus. -/
theorem ctxAt_cur (hc : s.cx = some c) : s.ctxAt s.cur = some c := by
  simp [State.ctxAt, State.running, hc]

/-- A context that leaves its seat, as it is saved. -/
def Ctx.saved (c : Ctx) (id : SeatId) (forced rows : Bool) (seen : Word × Word) : Ctx :=
  ({ (if c.inYield then c.leaveYield else c) with
      phase := .yielded, forced := forced, clobbered := false, stall := none, seatAt := id, rows := rows } : Ctx).mapCsrs
    fun r => { r with mbSeen := seen }

/-- A context moved from its seat among the saved ones holds no seat. -/
theorem dropCtx_saved (s : State) (n : Nat) (d : Ctx) :
    ({ s.dropCtx n with saved := (s.dropCtx n).saved ++ [d] } : State).hasSeat n = false
    ∧ d ∈ ({ s.dropCtx n with saved := (s.dropCtx n).saved ++ [d] } : State).saved := by
  refine ⟨?_, List.mem_append_right _ (List.mem_singleton_self d)⟩
  unfold State.hasSeat State.running State.dropCtx
  cases hc : s.cx with
  | none => simp
  | some e => by_cases he : e.num = n <;> simp [he]

/-- What follows the move of a context among the saved ones leaves every context where it is. -/
theorem sameSeats_afterSave (u : State) (d : Ctx) (id : SeatId) (part : Nat) (forced : Bool) :
    SameSeats u (((if forced = true then (u.writeSaveArea d forced).saveFootprint d else u.writeSaveArea d forced).yieldRecord
      d).noteFree id.core part) := by
  refine .trans (.trans ?_ (sameSeats_yieldRecord _ _)) (sameSeats_noteFree _ _ _)
  split
  · exact (sameSeats_writeSaveArea _ _ _).trans (sameSeats_saveFootprint _ _)
  · exact sameSeats_writeSaveArea _ _ _

/-- A context without a fault that leaves its seat is among the saved ones, and holds no seat. -/
theorem saveContext_saves {forced : Bool} (hc : s.cx = some c) (hf : c.fault = none) : ∃ seen rows,
    (s.saveContext s.cur forced).hasSeat c.num = false ∧ c.saved s.cur forced rows seen ∈ (s.saveContext s.cur forced).saved := by
  refine ⟨((s.mailboxOf c s.cur.core false).word, (s.mailboxOf c s.cur.core true).word), !forced || !s.buffered c, ?_⟩
  unfold State.saveContext
  rw [ctxAt_cur hc]
  simp only [hf, Option.isSome_none, Bool.false_eq_true, if_false]
  rw [← Ctx.saved]
  generalize c.saved _ _ _ _ = d
  obtain ⟨hseat, hin⟩ := dropCtx_saved (s.withdrawMsgs c.num) c.num d
  have h := sameSeats_afterSave ({ (s.withdrawMsgs c.num).dropCtx c.num with saved := ((s.withdrawMsgs c.num).dropCtx c.num).saved ++ [d] })
    d s.cur c.part forced
  exact ⟨(h.hasSeat c.num).trans hseat, h.saved ▸ hin⟩

theorem setTcause_eq (c : Ctx) (lo len v : Nat) :
    c.setTcause lo len v = { c with csrs := { c.csrs with tcause := BitVec.ofNat 64 (setField c.csrs.tcause.toNat lo len v) } } := rfl

theorem mapCsrs_repst (c : Ctx) (x r : Word) : ({ c with csrs := { c.csrs with tcause := x } } : Ctx).mapCsrs (fun q => { q with repst := r })
    = { c with csrs := { c.csrs with tcause := x, repst := r } } := rfl

theorem leaveYield_eq (hy : c.inYield = true) : c.leaveYield = { c with
    csrs := { c.csrs with tcause := BitVec.ofNat 64 (setField c.csrs.tcause.toNat 18 1 0), repst := c.irepst },
    pc := c.ipc, chkr := c.yieldChkr, yieldChkr := [], coverLost := !c.yieldChkr.isEmpty, handle := 0, flagHandle := 0 } := by
  rw [Ctx.leaveYield, setTcause_eq, mapCsrs_repst, if_pos hy]

theorem leftYield (hy : c.inYield = true) : c.leaveYield.inYield = false := by
  rw [leaveYield_eq hy, inYield_eq, getLsbD_ofNat_setField _ _ _ _ (by decide), if_pos (by decide)]
  rfl

/-- A context saved from its yield handler stands where it was interrupted (R356). -/
theorem saved_interrupted (hy : c.inYield = true) (id : SeatId) (forced rows : Bool) (seen : Word × Word) :
    (c.saved id forced rows seen).num = c.num ∧ (c.saved id forced rows seen).phase = .yielded
    ∧ (c.saved id forced rows seen).pc = c.ipc ∧ (c.saved id forced rows seen).csrs.repst = c.irepst
    ∧ (c.saved id forced rows seen).inYield = false ∧ (c.saved id forced rows seen).regs = c.regs
    ∧ (c.saved id forced rows seen).mx = c.mx ∧ (c.saved id forced rows seen).stall = none := by
  have hleft : (c.saved id forced rows seen).inYield = false := by
    rw [inYield_eq, ← leftYield hy, inYield_eq]
    unfold Ctx.saved Ctx.mapCsrs
    rw [if_pos hy]
  refine ⟨?_, ?_, ?_, ?_, hleft, ?_, ?_, ?_⟩ <;> unfold Ctx.saved Ctx.mapCsrs <;> rw [if_pos hy, leaveYield_eq hy]

/-- A charge leaves all that a save of the context shows. -/
theorem charge_keeps (c : Ctx) (n : Nat) : (c.charge n).num = c.num ∧ (c.charge n).fault = c.fault ∧ (c.charge n).inYield = c.inYield
    ∧ (c.charge n).ipc = c.ipc ∧ (c.charge n).irepst = c.irepst ∧ (c.charge n).regs = c.regs ∧ (c.charge n).mx = c.mx := by
  rw [inYield_eq, inYield_eq, charge_eq]
  exact ⟨rfl, rfl, rfl, rfl, rfl, rfl, rfl⟩

theorem exec_yret {o : COps} (hr : Ready s c (Instr.yret o).form) (hy : c.inYield = true) :
    exec (.yret o) s = .next ((s.mapCx fun c => c.charge (Form.c 0x186 o).energy).saveContext s.cur false) := by
  rw [show exec (.yret o) s = execYret o s from rfl, execYret, run_ready (f := .c 0x186 o) hr]
  simp only [hy, Bool.not_true, Bool.false_eq_true, if_false]

/-! ## YIELD (R366) -/

theorem owes_of_quiet {u : State} (h : Quiet s u) (i : Instr) : Owes [i] s (u.owe i) :=
  ⟨congrArg (· ++ [i]) h.owes, h.bytes, h.control, h.cores, h.slices, h.sched, h.fabric, h.complex, h.clocks, rfl, h.sent⟩

/-- A context in its forced full save. -/
def Ctx.forcedSave (c : Ctx) : Ctx := { c.loseCover with phase := .saving, forced := true, stall := none }

theorem forcedSave_eq (c : Ctx) : ∃ lost handle flagHandle, c.forcedSave
    = { c with coverLost := lost, handle := handle, flagHandle := flagHandle, phase := .saving, forced := true, stall := none } := by
  unfold Ctx.forcedSave Ctx.loseCover
  split
  · exact ⟨_, _, _, rfl⟩
  · exact ⟨_, _, _, rfl⟩

theorem leaveOthers_alone (h : c.chain = []) : s.leaveOthers c = s := by
  unfold State.leaveOthers
  simp [h]

theorem finishing_eq_false (h : c.order.awaits = []) : c.finishing = false := by
  unfold Ctx.finishing Ctx.await
  simp [h]

theorem clearWait_eq (h : c.stall = none) : s.clearWait c = s := by
  unfold State.clearWait
  rw [h]

/-- A change of the context on the seat in focus, where no other seat goes by its name. -/
theorem mapSeat_cur (h : ∀ p ∈ s.seats, p.1 ≠ s.cur) (g : Ctx → Ctx) : s.mapSeat s.cur g = s.mapCx g := by
  have hs : (s.seats.map fun (p : SeatId × Ctx) => if p.1 = s.cur then (p.1, g p.2) else p) = s.seats :=
    (List.map_congr_left fun p hp => if_neg (h p hp)).trans (List.map_id' s.seats)
  unfold State.mapSeat State.mapCx
  rw [hs, if_pos rfl]

/-- The forced full save of the context in focus begins at once where it stands alone, awaits nothing and is in no handler (R366). -/
theorem forceSave_starts (hc : s.cx = some c) (hy : c.inYield = false) (hch : c.chain = []) (haw : c.order.awaits = [])
    (hst : c.stall = none) (hs : ∀ p ∈ s.seats, p.1 ≠ s.cur) :
    s.forceSave s.cur = (s.mapCx fun d => d.forcedSave).owe (.forcedSaveComplete s.cur) := by
  unfold State.forceSave
  rw [ctxAt_cur hc]
  simp only [hy, Bool.false_eq_true, if_false, leaveOthers_alone hch, ite_self, finishing_eq_false haw, Bool.and_false, clearWait_eq hst,
    mapSeat_cur hs]
  simp only [State.mapCx, hc, Option.map_some, hy, Bool.false_eq_true, if_false, Ctx.forcedSave]

theorem exec_yield {o : COps} (hr : Ready s c (Instr.yield o).form) (hy : c.inYield = false) :
    exec (.yield o) s = .next ((s.done (.c 0x187 o)).forceSave s.cur) := by
  rw [show exec (.yield o) s = execYield o s from rfl, execYield, run_ready (f := .c 0x187 o) hr]
  simp only [hy, Bool.false_eq_true, if_false]

end

/-- Settles O29. -/
theorem yields : Obligations.Yields := by
  refine fun o s c => ⟨fun hr hy hf => ?_, fun hr hy hch haw hs => ?_⟩
  · obtain ⟨hnum', hfault', hyield', hipc', hirep', hregs', hmx'⟩ := charge_keeps c (Form.c 0x186 o).energy
    obtain ⟨seen, rows, hseat, hin⟩ := saveContext_saves (s := s.mapCx fun c => c.charge (Form.c 0x186 o).energy) (forced := false)
      (c := c.charge (Form.c 0x186 o).energy) (by rw [State.mapCx_cx, hr.seat]; rfl) (hfault'.trans hf)
    obtain ⟨hnum, hphase, hpc, hrep, hleft, hregs, hmx, hstall⟩ := saved_interrupted (hyield'.trans hy) s.cur false rows seen
    exact ⟨_, _, exec_yret hr hy, hnum' ▸ hseat, hin, hnum.trans hnum', hphase, hpc.trans hipc', hrep.trans hirep', hleft,
      hregs.trans hregs', hmx.trans hmx', hstall⟩
  · obtain ⟨d, hd, hregs, hadv, hquiet, hoth⟩ :=
      result_spec (s := s) (u := s) (.c 0x187 o) id none 0 hr.seat (by simp) (by simp [State.pushOpt, State.mapCx])
    have hy' : d.inYield = false := by rw [inYield_eq, hadv.csrs, ← inYield_eq, hy]
    have hsave := forceSave_starts hd hy' (by rw [hadv.rest]; exact hch) (by rw [hadv.order]; exact haw) (by rw [hadv.rest]) hs
    obtain ⟨lost, handle, flagHandle, heq⟩ := forcedSave_eq d
    have hnum : d.num = c.num := by rw [hadv.rest]
    have hnext : d.forcedSave.num = d.num := by rw [heq]
    refine ⟨_, d.forcedSave, (exec_yield hr hy).trans (congrArg Host.Outcome.next hsave), ?_, by rw [heq], by rw [heq], ?_, ?_, ?_,
      owes_of_quiet (hquiet.trans (quiet_mapCx _ _)) _, fun n hn => ?_⟩
    · rw [State.owe_cx, State.mapCx_cx, hd]
      rfl
    · rw [heq]
      exact hadv.pc
    · rw [heq]
      exact hregs
    · rw [heq, hadv.rest]
    · exact (findCtx_mapCx (g := fun d => d.forcedSave) hd hnext (hnum.symm ▸ hn)).trans (hoth n hn)

end Sys2Proof.Machine
end

section
/-! PROOF. O30 and O36: the clock forms and ECALL (R348, R349), and the bindings of groups and the weights of queues (R325, R333). Each form
changes its own context, and then retires, with or without a result. -/

namespace Sys2Proof.Machine

open Sys2Proof.Bits

section
variable {s : State} {c : Ctx} {i : Instr} {pre : State → Ctx → Prop} {change : State → Ctx → Ctx}
  {frame : State → Ctx → State → Prop}

/-! ## Retiring after a change of the context -/

/-- A change of the context in focus that keeps what its retiring reads. -/
theorem alters_mapCx (hc : s.cx = some c) (g : Ctx → Ctx) (hnum : (g c).num = c.num) (hregs : (g c).regs = c.regs)
    (hpc : (g c).pc = c.pc) (hrep : (g c).csrs.repst = c.csrs.repst) (hnext : (g c).nextMember = c.nextMember) :
    Alters s (s.mapCx g) c (g c) :=
  (Reorders.same rfl rfl rfl hc).alters.mapCx g hnum hregs hpc hrep hnext

/-- An instruction that completes with no result once it has changed its own context. -/
theorem gives_changed (h : ∀ s c, Ready s c i.form → pre s c →
      ∃ u, exec i s = .next (u.done i.form) ∧ Alters s u c (change s c) ∧ ∀ t, Quiet u t → frame s c t) :
    Gives i pre change none frame := by
  intro s c hr hp
  obtain ⟨u, he, hu, hf⟩ := h s c hr hp
  obtain ⟨d, hd, hregs, hadv, hquiet, hoth⟩ :=
    result_spec (s := u) (u := u) i.form id none 0 hu.focus (by simp) (by simp [State.pushOpt, State.mapCx])
  rw [nextPc_congr hu.pc hu.repst] at hadv
  exact ⟨_, d, he, hd, hadv, hf _ hquiet, hregs.trans hu.regs, hu.othersKeep hoth⟩

/-! ## Clocks (R349) -/

theorem timeS_gives (o : COps) :
    Gives (.timeS o) (fun _ _ => True) (fun _ c => c) (some (o.dst, fun s _ => BitVec.ofNat 64 s.time)) :=
  gives_result fun s _ hr _ => ⟨s, run_ready (f := .c 0x188 o) hr _, .same rfl rfl rfl hr.seat, fun _ ht => ht⟩

theorem timeC_gives (o : COps) :
    Gives (.timeC o) (fun _ _ => True) (fun _ c => c) (some (o.dst, fun _ c => BitVec.ofNat 64 c.cycles)) :=
  gives_result fun s _ hr _ => ⟨s, run_ready (f := .c 0x189 o) hr _, .same rfl rfl rfl hr.seat, fun _ ht => ht⟩

theorem waitt_gives (o : COps) : Gives (.waitt o) (fun s c => (c.valA o.sa).toNat ≤ s.time) (fun _ c => c)
    (some (o.dst, fun s _ => BitVec.ofNat 64 s.time)) :=
  gives_result fun s c hr ht => by
    refine ⟨s, ?_, .same rfl rfl rfl hr.seat, fun _ hu => hu⟩
    rw [show exec (.waitt o) s = execWaitt o s from rfl, execWaitt, run_ready (f := .c 0x18C o) hr]
    dsimp only
    rw [if_pos (.inl ht)]
    rfl

theorem waitt_waits {o : COps} (hr : Ready s c (Instr.waitt o).form) (ht : s.time < (c.valA o.sa).toNat) (hst : c.stall = none) :
    exec (.waitt o) s = .next (s.stallOn (.time (s.time + 1000000))) := by
  rw [show exec (.waitt o) s = execWaitt o s from rfl, execWaitt, run_ready (f := .c 0x18C o) hr]
  simp only [hst]
  rw [if_neg (by omega)]

/-! ## ECALL (R348) -/

theorem ecall_answered (o : COps) (v : Word) : Gives (.ecall o) (fun _ c => c.ecallAt c.pc = some (some v))
    (fun _ c => { c with ecalls := c.ecalls.filter fun x => x.1 != c.pc })
    (some (o.dst, fun s _ => if o.imm = 0x21 then BitVec.ofNat 64 s.cur.core else v)) :=
  gives_altered fun s c hr hv => by
    refine ⟨s.mapCx fun d => { d with ecalls := d.ecalls.filter fun x => x.1 != c.pc }, ?_, alters_mapCx hr.seat _ rfl rfl rfl rfl rfl,
      fun _ ht => (quiet_mapCx s _).trans ht⟩
    rw [show exec (.ecall o) s = execEcall o s from rfl, execEcall, run_ready (f := .c 0x18A o) hr]
    simp only [hv]
    rfl

theorem ecall_asks {o : COps} (hr : Ready s c (Instr.ecall o).form) (hn : c.ecallAt c.pc = none) :
    exec (.ecall o) s = .next (((s.mapCx fun d => { d with ecalls := d.ecalls ++ [(d.pc, none)] }).send (.ecall c.part c.num o.imm.toNat
      [c.regs.getS 1, c.regs.getS 2, c.regs.getS 3, c.regs.getS 4])).stallOn .ecall) := by
  rw [show exec (.ecall o) s = execEcall o s from rfl, execEcall, run_ready (f := .c 0x18A o) hr]
  simp only [hn]
  rfl

theorem ecall_waits {o : COps} (hr : Ready s c (Instr.ecall o).form) (hn : c.ecallAt c.pc = some none) :
    exec (.ecall o) s = .next (s.stallOn .ecall) := by
  rw [show exec (.ecall o) s = execEcall o s from rfl, execEcall, run_ready (f := .c 0x18A o) hr]
  simp only [hn]

/-- What is sent, with a change of the context in focus. -/
theorem sends_mapCx (s : State) (g h : Ctx → Ctx) (x : Sent) : Sends [x] s (((s.mapCx g).send x).mapCx h) :=
  ⟨rfl, fun _ => rfl, fun _ => rfl, rfl, rfl, rfl, rfl, rfl, ⟨rfl, rfl, rfl⟩, rfl, rfl⟩

end

/-- Settles O30, form by form. -/
theorem clocksAndCalls : Obligations.ClocksAndCalls := by
  refine fun o => ⟨timeS_gives o, timeC_gives o, waitt_gives o, fun s c hr ht hst => waitt_waits hr ht hst, ecall_answered o,
    fun s c hr hn => ⟨_, ecall_asks hr hn, ?_, sends_mapCx s _ _ _, fun n hn => ?_⟩, fun s c hr hn => ecall_waits hr hn⟩
  · rw [State.stallOn, State.mapCx_cx, State.send_cx, State.mapCx_cx, hr.seat]
    rfl
  · have h1 := findCtx_mapCx (g := fun d => { d with ecalls := d.ecalls ++ [(d.pc, none)] }) hr.seat rfl hn
    refine (findCtx_mapCx (g := fun d => { d with stall := some .ecall })
      (c := { c with ecalls := c.ecalls ++ [(c.pc, none)] }) (by rw [State.send_cx, State.mapCx_cx, hr.seat]; rfl) rfl hn).trans ?_
    rw [Option.map_id']
    exact h1

/-! ## Bindings and weights (R325, R333) -/

section
variable {o : EOps}

/-- The binding that CGRP.A makes (R333). -/
def Ctx.cgrpBinding (c : Ctx) (o : EOps) : GBind :=
  { word := c.srcS [] o.sa, timeout := min 10000 (max 1 (c.srcS [o.sa] o.sb).toNat), seq := 0 }

theorem cgrpA_gives (o : EOps) : Gives (.cgrpA o)
    (fun _ c => field (c.srcS [] o.sa).toNat 16 11 ≤ field (c.srcS [] o.sa).toNat 27 11 ∧ field (c.srcS [] o.sa).toNat 38 12 ≠ 0xFFF)
    (fun _ c => { c with gbinds := setAt c.gbinds (o.ke.toNat % 4) (some (c.cgrpBinding o)) }) none := by
  refine gives_changed fun s c hr ⟨hindex, hroot⟩ =>
    ⟨s.mapCx fun d => { d with gbinds := setAt d.gbinds (o.ke.toNat % 4) (some (c.cgrpBinding o)) }, ?_,
      alters_mapCx hr.seat _ rfl rfl rfl rfl rfl, fun _ ht => (quiet_mapCx s _).trans ht⟩
  rw [show exec (.cgrpA o) s = execCgrpA o s from rfl, execCgrpA, run_ready (f := .e 0x151 o) hr]
  dsimp only
  rw [if_neg (by rintro (h | h); exacts [absurd hindex (by omega), hroot h]), field_zero]
  rfl

theorem cgrpF_gives (o : EOps) :
    Gives (.cgrpF o) (fun _ _ => True) (fun _ c => { c with gbinds := setAt c.gbinds (o.ke.toNat % 4) none }) none := by
  refine gives_changed fun s c hr _ => ⟨s.mapCx fun d => { d with gbinds := setAt d.gbinds (o.ke.toNat % 4) none }, ?_,
    alters_mapCx hr.seat _ rfl rfl rfl rfl rfl, fun _ ht => (quiet_mapCx s _).trans ht⟩
  rw [show exec (.cgrpF o) s = execCgrpF o s from rfl, execCgrpF, run_ready (f := .e 0x152 o) hr, field_zero]
  rfl

theorem qset_gives (o : EOps) : Gives (.qset o) (fun _ _ => True) (fun _ c => c.mapVq (4 * (o.ke.toNat % 2) + o.vq.toNat)
    fun q => { q with weight := min 8 (max 1 ((c.srcS [] o.sa).toNat % 16)) }) none := by
  refine gives_changed fun s c hr _ => ⟨s.mapCx fun d => d.mapVq (4 * (o.ke.toNat % 2) + o.vq.toNat)
    fun q => { q with weight := min 8 (max 1 ((c.srcS [] o.sa).toNat % 16)) }, ?_,
    alters_mapCx hr.seat _ rfl rfl rfl rfl rfl, fun _ ht => (quiet_mapCx s _).trans ht⟩
  rw [show exec (.qset o) s = execQset o s from rfl, execQset, run_ready (f := .e 0x15D o) hr, field_zero, field_zero]
  rfl

theorem qstat_gives (o : EOps) : Gives (.qstat o) (fun _ _ => True)
    (fun _ c => if o.ke.getLsbD 1 then c.mapVq (4 * (o.ke.toNat % 2) + o.vq.toNat) fun q => { q with abandoned := false } else c)
    (some (o.dst, fun _ c => (c.vq (4 * (o.ke.toNat % 2) + o.vq.toNat)).word)) := by
  have hbit : bit o.ke.toNat 1 = o.ke.getLsbD 1 := bit_eq_testBit _ _
  refine gives_altered fun s c hr _ => ?_
  have hexec : exec (.qstat o) s = execQstat o s := rfl
  rw [hexec, execQstat, run_ready (f := .e 0x15E o) hr, field_zero, hbit]
  dsimp only
  by_cases hk : o.ke.getLsbD 1 = true
  · simp only [hk, if_true]
    exact ⟨_, rfl, alters_mapCx hr.seat _ rfl rfl rfl rfl rfl, fun _ ht => (quiet_mapCx s _).trans ht⟩
  · simp only [hk]
    exact ⟨_, rfl, (Reorders.same rfl rfl rfl hr.seat).alters, fun _ ht => ht⟩

end

/-- Settles O36. -/
theorem bindingsAndWeights : Obligations.BindingsAndWeights :=
  fun o => ⟨cgrpA_gives o, cgrpF_gives o, qset_gives o, qstat_gives o⟩

end Sys2Proof.Machine
end

section
/-! PROOF. O31 and O32: the matrix forms of the unit's owner (R294 to R313, R317). A queued form whose tests pass puts its command into the
queue and changes the issue view. -/

namespace Sys2Proof.Machine

open Sys2Proof.Bits

section
variable {s t u : State} {c e : Ctx} {i : Instr} {pre : State → Ctx → Prop}

/-! ## Steps owed -/

theorem Alters.owe (h : Alters s u c e) (j : Instr) : Alters s (u.owe j) c e :=
  ⟨h.focus, h.num, h.regs, h.pc, h.repst, h.next, h.others⟩

theorem owes_none (h : Quiet s t) : Owes [] s t :=
  ⟨h.owes.trans (List.append_nil _).symm, h.bytes, h.control, h.cores, h.slices, h.sched, h.fabric, h.complex, h.clocks, rfl, h.sent⟩

theorem owes_after {j : Instr} (h : Quiet s u) (ht : Quiet (u.owe j) t) : Owes [j] s t :=
  ⟨ht.owes.trans (congrArg (· ++ [j]) h.owes), fun a => (ht.bytes a).trans (h.bytes a), fun a => (ht.control a).trans (h.control a),
   ht.cores.trans h.cores, ht.slices.trans h.slices, ht.sched.trans h.sched, ht.fabric.trans h.fabric, ht.complex.trans h.complex,
   ⟨ht.clocks.1.trans h.clocks.1, ht.clocks.2.1.trans h.clocks.2.1, ht.clocks.2.2.trans h.clocks.2.2⟩, rfl, ht.sent.trans h.sent⟩

/-! ## The queue (R300) -/

theorem findCtx_focus (hc : s.cx = some c) : s.findCtx c.num = some c := by
  unfold State.findCtx
  rw [hc]
  simp

/-- The matrix state with a command behind the others, in another issue view. -/
def Matrix.queued (m : Matrix) (k : MxCmd) (view : Matrix) : Matrix := { view with queue := m.queue ++ [k], acc := m.acc }

/-- A command joins the queue of the context in focus; the sequencer is owed its turn where the queue was empty. -/
theorem queueMx_eq (hc : s.cx = some c) (core : Nat) (k : MxCmd) (view : Matrix) : s.queueMx core c.num k view
    = if c.mx.queue.isEmpty then (s.updCtx c.num fun d => d.mapMx fun m => m.queued k view).owe (.sequencerCommand core 0 0)
      else s.updCtx c.num fun d => d.mapMx fun m => m.queued k view := by
  unfold State.queueMx
  rw [findCtx_focus hc]
  rfl

/-- An instruction whose effect is that a command joins the queue of its context. -/
theorem queues_of_effect {k : State → Ctx → MxCmd} {view : State → Ctx → Matrix}
    (h : ∀ s c, Ready s c i.form → (s.core s.cur.core).mxOwner = some c.num → c.mx.queue.length < 8 → pre s c →
      exec i s = .next ((s.queueMx s.cur.core c.num (k s c) (view s c)).done i.form)) : QueuesMx i pre k view := by
  refine gives_changed fun s c hr ⟨howner, hroom, hp⟩ => ⟨_, h s c hr howner hroom hp, ?_⟩
  have hquiet := quiet_updCtx s c.num fun d => d.mapMx fun m => m.queued (k s c) (view s c)
  have halters := (Reorders.same (u := s) rfl rfl rfl hr.seat).alters.updCtx (fun d => d.mapMx fun m => m.queued (k s c) (view s c))
    (fun _ => rfl) rfl rfl rfl rfl
  rw [queueMx_eq hr.seat]
  by_cases hq : c.mx.queue.isEmpty = true
  · simp only [hq, if_true]
    exact ⟨halters.owe _, fun t ht => owes_after hquiet ht⟩
  · simp only [hq]
    exact ⟨halters, fun t ht => owes_none (hquiet.trans ht)⟩

/-- A form of the unit's owner has its own effect at once (R295). -/
theorem mxForm_owner {f : Form} (hr : Ready s c f) (ho : (s.core s.cur.core).mxOwner = some c.num) (effect : Ctx → State → State) :
    s.mxForm f effect = .next (effect c s) := by
  unfold State.mxForm State.claimMatrix
  rw [run_ready hr, if_pos ho]

/-- A queued form queues what its tests give, where there is room. -/
theorem mxQueued_queue {f : Form} (hr : Ready s c f) (ho : (s.core s.cur.core).mxOwner = some c.num) (hroom : c.mx.queue.length < 8)
    {test : Ctx → State → MxTest} {k : MxCmd} {view : Matrix} (ht : test c s = .queue k view) :
    s.mxQueued f test = .next ((s.queueMx s.cur.core c.num k view).done f) := by
  rw [State.mxQueued, mxForm_owner hr ho]
  simp only [if_neg (Nat.not_le.mpr hroom), ht]

/-- A queued form whose tests pass where `pre` holds. -/
theorem queues_of_test {test : Ctx → State → MxTest} {k : State → Ctx → MxCmd} {view : State → Ctx → Matrix}
    (hx : ∀ s, exec i s = s.mxQueued i.form test) (ht : ∀ s c, pre s c → test c s = .queue (k s c) (view s c)) : QueuesMx i pre k view :=
  queues_of_effect fun s c hr ho hroom hp => (hx s).trans (mxQueued_queue hr ho hroom (ht s c hp))

/-! ## What the forms queue (R310 to R317) -/

theorem mxLa_eq (c : Ctx) (o : AOps) : c.mxLa o = (c.valA o.sa).toNat % 2 ^ 17 := field_zero _ _

theorem mxbegin_queues (o : AOps) : QueuesMx (.mxbegin o) (fun _ c => mxChain c.mx.stat = false) (fun _ c => c.mxCmd 0x100 0)
    (fun _ c => { c.mx with stat := mxSet (mxSet (mxSet c.mx.stat 13 1 1) 14 1 o.ka.toNat) 15 2 c.rm.toNat }) :=
  queues_of_effect fun s c hr ho hroom hchain => by
    rw [show exec (.mxbegin o) s = execMxbegin o s from rfl, execMxbegin, mxForm_owner (f := .a 0x100 o) hr ho]
    simp only [if_neg (Nat.not_le.mpr hroom), hchain, Bool.false_eq_true, if_false, hr.seat]
    rfl

theorem mxend_queues (o : AOps) : QueuesMx (.mxend o) (fun _ c => mxChain c.mx.stat = true) (fun _ c => c.mxCmd 0x101 0)
    (fun _ c => { c.mx with stat := mxSet c.mx.stat 13 4 0 }) :=
  queues_of_effect fun s c hr ho hroom hchain => by
    rw [show exec (.mxend o) s = execMxend o s from rfl, execMxend, mxForm_owner (f := .a 0x101 o) hr ho]
    simp only [if_neg (Nat.not_le.mpr hroom), hchain, Bool.not_true, Bool.false_eq_true, if_false]
    rfl

/-- With no chain open MXEND retires, and that is all. -/
theorem mxend_idle (o : AOps) :
    Gives (.mxend o) (fun s c => (s.core s.cur.core).mxOwner = some c.num ∧ mxChain c.mx.stat = false) (fun _ c => c) none :=
  gives_changed fun s c hr ⟨ho, hchain⟩ => by
    refine ⟨s, ?_, (Reorders.same rfl rfl rfl hr.seat).alters, fun _ ht => ht⟩
    rw [show exec (.mxend o) s = execMxend o s from rfl, execMxend, mxForm_owner (f := .a 0x101 o) hr ho]
    simp only [hchain, Bool.not_false, if_true]
    rfl

theorem mxzero_queues (o : AOps) : QueuesMx (.mxzero o) (fun _ _ => True) (fun _ c => c.mxCmd 0x102 0)
    (fun _ c => { c.mx with stat := mxSet (mxSet c.mx.stat 11 2 0) 30 1 0 }) :=
  queues_of_test (fun _ => rfl) fun _ _ _ => rfl

/-- A weight load whose place and header pass queues, and the weights in view are its own (R312). -/
theorem testLdw_queues {core la swz : Nat} {op : BitVec 9} (hswz : ldwSwizzle op = swz) (hsparse : decide (op = 0x104) = (swz == 2))
    (hplace : placeFault la 16 = none) (htest : ldwTest swz (s.headerAt core la) = none)
    (hfits : la + 16 + weightBytes (s.headerAt core la) (swz == 2) ≤ 0x20000) : s.testLdw core c op la
      = .queue { c.mxCmd op la with hdr := s.headerAt core la, wla := la, whdr := s.headerAt core la, wsparse := swz == 2 }
        { c.mx with stat := mxSet (mxSet c.mx.stat 31 1 1) 32 1 (if (swz == 2) = true then 1 else 0), wla := la, whdr := s.headerAt core la } := by
  unfold State.testLdw
  simp only [hplace, hswz, htest, hsparse, if_neg (Nat.not_lt.mpr hfits)]
  rfl

theorem ldw_queues {o : AOps} {op : BitVec 9} {swz : Nat} (hf : i.form = .a op o)
    (hx : ∀ s, exec i s = s.mxQueued (.a op o) fun c s => s.testLdw s.cur.core c op (c.mxLa o)) (hswz : ldwSwizzle op = swz)
    (hsparse : decide (op = 0x104) = (swz == 2)) :
    let la (c : Ctx) : Nat := (c.valA o.sa).toNat % 2 ^ 17
    let h (s : State) (c : Ctx) : BitVec 128 := s.headerAt s.cur.core (la c)
    QueuesMx i
      (fun s c => placeFault (la c) 16 = none ∧ ldwTest swz (h s c) = none ∧ la c + 16 + weightBytes (h s c) (swz == 2) ≤ 0x20000)
      (fun s c => { c.mxCmd op (la c) with hdr := h s c, wla := la c, whdr := h s c, wsparse := swz == 2 })
      (fun s c => { c.mx with stat := mxSet (mxSet c.mx.stat 31 1 1) 32 1 (if (swz == 2) = true then 1 else 0), wla := la c, whdr := h s c }) := by
  intro la h
  refine queues_of_effect fun s c hr ho hroom ⟨hp, ht, hfits⟩ => ?_
  rw [hx, hf]
  refine mxQueued_queue (hf ▸ hr) ho hroom ?_
  rw [mxLa_eq]
  exact testLdw_queues hswz hsparse hp ht hfits

theorem mxsave_queues (o : AOps) : QueuesMx (.mxsave o) (fun _ c => placeFault ((c.valA o.sa).toNat % 2 ^ 17) 8208 = none)
    (fun _ c => { c.mxCmd 0x11F ((c.valA o.sa).toNat % 2 ^ 17) with hdr := (imageStat c.mx.stat).setWidth 128 }) (fun _ c => c.mx) :=
  queues_of_effect fun s c hr ho hroom hp => by
    rw [show exec (.mxsave o) s = execMxsave o s from rfl, execMxsave]
    exact mxQueued_queue hr ho hroom (by simp only [mxLa_eq, hp])

theorem mxload_queues (o : AOps) :
    let la (c : Ctx) : Nat := (c.valA o.sa).toNat % 2 ^ 17
    let w (s : State) (c : Ctx) : Word := BitVec.ofNat 64 (s.mem.readNat (padOff s.cur.core (la c + 8192)) 8)
    QueuesMx (.mxload o) (fun s c => placeFault (la c) 8208 = none ∧ mxAtype (w s c) ≠ 3) (fun _ c => c.mxCmd 0x120 (la c))
      (fun s c => { c.mx with stat := mxSet (mxSet c.mx.stat 11 2 (mxAtype (w s c))) 21 10 (field (w s c).toNat 21 10) }) := by
  intro la w
  refine queues_of_effect fun s c hr ho hroom ⟨hp, hw⟩ => ?_
  rw [show exec (.mxload o) s = execMxload o s from rfl, execMxload]
  simp only [la, w] at hp hw
  exact mxQueued_queue hr ho hroom (by simp only [mxLa_eq, hp, if_neg hw, la, w])

end

/-- Settles O31. -/
theorem matrixQueueing : Obligations.MatrixQueueing := by
  exact fun o => ⟨mxbegin_queues o, mxend_queues o, mxend_idle o, mxzero_queues o,
    ldw_queues (op := 0x103) rfl (fun s => show exec (.mxldwD o) s = execMxldwD o s from rfl) rfl rfl,
    ldw_queues (op := 0x104) rfl (fun s => show exec (.mxldwS o) s = execMxldwS o s from rfl) rfl rfl,
    ldw_queues (op := 0x105) rfl (fun s => show exec (.mxldwT o) s = execMxldwT o s from rfl) rfl rfl, mxsave_queues o, mxload_queues o⟩

/-! ## Multiplies (R305, R313) -/

/-- The issue view after an MXMAC: its ATYPE, and for the first integer form since MXZERO its ASC (R313). -/
def Matrix.multiplied (m : Matrix) (h : BitVec 128) (int : Bool) : Matrix :=
  let typed := mxSet m.stat 11 2 (if int then 2 else 1)
  let scale := wrap 9 ((hE8 h : Int) + hE8 m.whdr - 254)
  let sets := int && !mxAscv m.stat && hE8 h != 255 && hE8 m.whdr != 255
  { m with stat := if sets then mxSet (mxSet typed 21 9 scale) 30 1 1 else typed }

theorem testMac_queues {s : State} {c : Ctx} {core la : Nat} {op : BitVec 9} (hplace : placeFault la 16 = none)
    (htest : macTest (macForm op) c.mx (s.headerAt core la) = none)
    (hfits : la + 16 + hKlen (s.headerAt core la) * hRows (s.headerAt core la) * Flt.etWidth (macForm op).a / 8 ≤ 0x20000) :
    s.testMac core c op la
      = .queue { c.mxCmd op la with hdr := s.headerAt core la } (c.mx.multiplied (s.headerAt core la) (macForm op).int) := by
  unfold State.testMac
  simp only [hplace, htest]
  rw [if_neg (by omega)]
  rfl

theorem mac_queues {i : Instr} {o : AOps} {op : BitVec 9} (hf : i.form = .a op o) (hx : ∀ s, exec i s = s.mxmac op o) :
    let la (c : Ctx) : Nat := (c.valA o.sa).toNat % 2 ^ 17
    let h (s : State) (c : Ctx) : BitVec 128 := s.headerAt s.cur.core (la c)
    QueuesMx i
      (fun s c => placeFault (la c) 16 = none ∧ macTest (macForm op) c.mx (h s c) = none
        ∧ la c + 16 + hKlen (h s c) * hRows (h s c) * Flt.etWidth (macForm op).a / 8 ≤ 0x20000)
      (fun s c => { c.mxCmd op (la c) with hdr := h s c }) (fun s c => c.mx.multiplied (h s c) (macForm op).int) := by
  intro la h
  refine queues_of_effect fun s c hr ho hroom ⟨hp, ht, hfits⟩ => ?_
  rw [hx, hf, State.mxmac]
  refine mxQueued_queue (hf ▸ hr) ho hroom ?_
  rw [mxLa_eq]
  exact testMac_queues hp ht hfits

/-- Settles O32, form by form. -/
theorem matrixMultiplies : Obligations.MatrixMultiplies :=
  fun o => ⟨mac_queues rfl fun s => show exec (.mxmacT8 o) s = execMxmacT8 o s from rfl,
    mac_queues rfl fun s => show exec (.mxmacI8 o) s = execMxmacI8 o s from rfl,
    mac_queues rfl fun s => show exec (.mxmacO8 o) s = execMxmacO8 o s from rfl,
    mac_queues rfl fun s => show exec (.mxmacI8o8 o) s = execMxmacI8o8 o s from rfl,
    mac_queues rfl fun s => show exec (.mxmacO8i8 o) s = execMxmacO8i8 o s from rfl,
    mac_queues rfl fun s => show exec (.mxmacO4 o) s = execMxmacO4 o s from rfl,
    mac_queues rfl fun s => show exec (.mxmacO4o8 o) s = execMxmacO4o8 o s from rfl,
    mac_queues rfl fun s => show exec (.mxmacO8o4 o) s = execMxmacO8o4 o s from rfl,
    mac_queues rfl fun s => show exec (.mxmacF16 o) s = execMxmacF16 o s from rfl,
    mac_queues rfl fun s => show exec (.mxmacBf16 o) s = execMxmacBf16 o s from rfl⟩

end Sys2Proof.Machine
end

section
/-! PROOF. O33: the rows of accumulators, the stores and the wait (R314 to R316). -/

namespace Sys2Proof.Machine

open Sys2Proof.Bits

/-! ## Rows (R314) -/

section
variable {s : State} {c : Ctx} {i : Instr} {o : AOps} {op : BitVec 9}

/-- With no command in its queue a form that waits for the earlier ones goes on. -/
theorem mxDrained_empty (hq : c.mx.queue = []) (k : State → State) : s.mxDrained c k = k s := by
  unfold State.mxDrained
  simp [hq]

/-- An MXRD of an accumulator type that it takes reads its row, with no command in the queue. -/
theorem mxrd_reads {types : List Nat} {g : Ctx → Nat → Nat × BitVec 7} (hf : i.form = .a op o) (hx : ∀ s, exec i s = s.mxrd op o types g)
    (hr : Ready s c i.form) (ho : (s.core s.cur.core).mxOwner = some c.num) (hq : c.mx.queue = [])
    (ht : types.contains (mxAtype c.mx.stat) = true) :
    let lanes (n : Nat) : Nat × BitVec 7 := g c (accGet c.mx.acc (32 * ((c.valB o.sa o.sb).toNat % 64) + n))
    ∃ t d v, exec i s = .next t ∧ t.cx = some d ∧ VectorRegs c.regs d.regs o.dst v ∧ (∀ n < 32, lane 32 v n = (lanes n).1 % 2 ^ 32)
      ∧ Advances c d i.form (orLanes 32 fun n => (lanes n).2) (c.nextPc i.form) ∧ Quiet s t
      ∧ OthersKeep s t c (if o.dst = specNx then some v else none) := by
  intro lanes
  have hrow : (c.mxRow ((c.valB o.sa o.sb).toNat % 64)).map (g c) = (List.range 32).map lanes := List.map_map
  obtain ⟨d, hd, hregs, hadv, hquiet, hoth⟩ := vector_result i.form o.dst (ofLanes 32 (((List.range 32).map lanes).map (·.1)))
    (((List.range 32).map lanes).foldl (fun a x => a ||| x.2) 0) hr.seat
  have hfl : ((List.range 32).map lanes).foldl (fun a x => a ||| x.2) (0 : BitVec 7) = orLanes 32 fun n => (lanes n).2 := by
    simp only [orLanes, List.foldl_map]
  refine ⟨_, d, _, ?_, hd, hregs, fun n hn => ?_, hfl ▸ hadv, hquiet, hoth⟩
  · rw [hx, State.mxrd, mxForm_owner (hf ▸ hr) ho]
    simp only [ht, Bool.not_true, Bool.false_eq_true, and_false, if_false, mxDrained_empty hq, hrow, hf]
  · rw [lane_ofLanes 32 _ n (by simpa using hn) (by simp)]
    simp

theorem mxwr_queues {atype : Nat} (hf : i.form = .a op o) (hx : ∀ s, exec i s = s.mxwr op o atype) :
    QueuesMx i (fun _ c => mxAtype c.mx.stat = 0 ∨ mxAtype c.mx.stat = atype)
      (fun _ c => { c.mxCmd op 0 with row := (c.valB o.sa o.sb).toNat % 64, vec := c.srcV [] o.sa })
      (fun _ c => { c.mx with stat := mxSet c.mx.stat 11 2 atype }) := by
  refine queues_of_effect fun s c hr ho hroom htype => ?_
  rw [hx, hf, State.mxwr]
  exact mxQueued_queue (hf ▸ hr) ho hroom (if_neg fun h => htype.elim h.1 h.2)

theorem mxst_queues {w : Nat} {zp : Ctx → Nat} (hf : i.form = .a op o) (hx : ∀ s, exec i s = s.mxst op o)
    (hw : Flt.etWidth (mxstTarget op) = w) (hzp : ∀ c : Ctx, c.mxZp op o = zp c) :
    let la (c : Ctx) : Nat := (c.valA o.sa).toNat % 2 ^ 17
    QueuesMx i (fun _ c => mxAtype c.mx.stat ≠ 0 ∧ placeFault (la c) ((o.kb.toNat + 1) * 32 * w / 8) = none)
      (fun _ c => { c.mxCmd op (la c) with
        eo := (c.valB o.sa o.sb).toNat % 256, zp := zp c, row0 := o.ka.toNat, nrow := o.kb.toNat + 1 })
      (fun _ c => c.mx) := by
  intro la
  refine queues_of_effect fun s c hr ho hroom ⟨htype, hp⟩ => ?_
  rw [hx, hf, State.mxst]
  refine mxQueued_queue (hf ▸ hr) ho hroom ?_
  have heo : field (c.valB o.sa o.sb).toNat 0 8 = (c.valB o.sa o.sb).toNat % 256 := field_zero _ _
  rw [mxLa_eq, heo, hzp]
  unfold Ctx.testSt
  simp only [la] at hp
  simp only [if_neg htype, hw, hp, la]

/-! ## MXWAIT (R316) -/

/-- A change of the context that leaves its number, its chain and its channel entries, before or after an nx result. -/
theorem pushNx_mapCx (s : State) (w : Vec) {g : Ctx → Ctx} (hnum : ∀ c, (g c).num = c.num) (hnext : ∀ c, (g c).nextMember = c.nextMember)
    (hpv : ∀ c, g { c with pv := c.pv ++ [w] } = { g c with pv := (g c).pv ++ [w] }) :
    (s.pushNx w).mapCx g = (s.mapCx g).pushNx w := by
  unfold State.pushNx
  cases hc : s.cx with
  | none => simp [State.mapCx, hc]
  | some c =>
    simp only [State.mapCx_cx, hc, Option.map_some, hnext]
    cases c.nextMember with
    | none => rfl
    | some n =>
      simp only [State.updCtx, State.mapCx, hc, Option.map_some]
      by_cases h : c.num = n
      · rw [if_pos h, if_pos ((hnum c).trans h), hpv]
      · rw [if_neg h, if_neg ((hnum c).trans_ne h)]

theorem pushNx_mapMx (s : State) (w : Vec) (f : Matrix → Matrix) :
    (s.pushNx w).mapCx (fun c => c.mapMx f) = (s.mapCx fun c => c.mapMx f).pushNx w :=
  pushNx_mapCx s w (fun _ => rfl) (fun _ => rfl) fun _ => rfl

theorem putScalar_mapMx (s : State) (dst : Spec) (w : Word) (f : Matrix → Matrix) :
    (s.putScalar dst w).mapCx (fun c => c.mapMx f) = (s.mapCx fun c => c.mapMx f).putScalar dst w := by
  unfold State.putScalar
  dsimp only
  split
  · rw [pushNx_mapMx, mapCx_mapCx, mapCx_mapCx]
    rfl
  · rw [mapCx_mapCx, mapCx_mapCx]
    rfl

theorem alters_mapMx (hc : s.cx = some c) (f : Matrix → Matrix) : Alters s (s.mapCx fun d => d.mapMx f) c (c.mapMx f) :=
  alters_mapCx hc (fun d => d.mapMx f) rfl rfl rfl rfl rfl

/-- The matrix state with its sticky bits cleared. -/
def Matrix.unstuck (m : Matrix) : Matrix := { m with stat := mxSet m.stat 40 7 0 }

theorem exec_mxwait {o : AOps} (hr : Ready s c (Instr.mxwait o).form) (ho : (s.core s.cur.core).mxOwner = some c.num)
    (hq : c.mx.queue = []) : exec (.mxwait o) s = .next ((if o.ka = 1 then
      (s.putScalar o.dst c.mxstat).mapCx fun d => d.mapMx Matrix.unstuck else s.putScalar o.dst c.mxstat).done (.a 0x11D o)) := by
  rw [show exec (.mxwait o) s = execMxwait o s from rfl, execMxwait, mxForm_owner (f := .a 0x11D o) hr ho, mxDrained_empty hq]
  rfl

theorem mxwait_gives (o : AOps) : Gives (.mxwait o) (fun s c => (s.core s.cur.core).mxOwner = some c.num ∧ c.mx.queue = [])
    (fun _ c => if o.ka = 1 then c.mapMx Matrix.unstuck else c) (some (o.dst, fun _ c => c.mxstat)) := by
  refine gives_altered fun s c hr ⟨ho, hq⟩ => ?_
  rw [exec_mxwait hr ho hq]
  by_cases hk : o.ka = 1
  · refine ⟨s.mapCx fun d => d.mapMx Matrix.unstuck, ?_, ?_, fun _ ht => (quiet_mapCx s _).trans ht⟩
    · rw [if_pos hk, putScalar_mapMx]
      rfl
    · rw [if_pos hk]
      exact alters_mapMx hr.seat _
  · refine ⟨s, ?_, ?_, fun _ ht => ht⟩
    · rw [if_neg hk]
      rfl
    · rw [if_neg hk]
      exact (Reorders.same rfl rfl rfl hr.seat).alters

end

/-- Settles O33. -/
theorem matrixRowsAndWaits : Obligations.MatrixRowsAndWaits := by
  refine fun o => ⟨fun s c hr ho hq ht => ?_, fun s c hr ho hq ht => ?_, fun s c hr ho hq ht => ?_, fun s c hr ho hq ht => ?_,
    mxwr_queues rfl fun s => show exec (.mxwrF o) s = execMxwrF o s from rfl,
    mxwr_queues rfl fun s => show exec (.mxwrI o) s = execMxwrI o s from rfl,
    mxst_queues rfl (fun s => show exec (.mxstF32 o) s = execMxstF32 o s from rfl) rfl fun _ => rfl,
    mxst_queues rfl (fun s => show exec (.mxstBf16 o) s = execMxstBf16 o s from rfl) rfl fun _ => rfl,
    mxst_queues rfl (fun s => show exec (.mxstF16 o) s = execMxstF16 o s from rfl) rfl fun _ => rfl,
    mxst_queues rfl (fun s => show exec (.mxstT8 o) s = execMxstT8 o s from rfl) rfl fun _ => rfl,
    mxst_queues rfl (fun s => show exec (.mxstI32 o) s = execMxstI32 o s from rfl) rfl fun _ => rfl,
    mxst_queues rfl (fun s => show exec (.mxstI8 o) s = execMxstI8 o s from rfl) rfl fun _ => rfl,
    mxst_queues rfl (fun s => show exec (.mxstO8 o) s = execMxstO8 o s from rfl) rfl fun _ => field_zero _ _,
    mxst_queues rfl (fun s => show exec (.mxstO4 o) s = execMxstO4 o s from rfl) rfl fun _ => field_zero _ _, mxwait_gives o⟩
  · exact mxrd_reads rfl (fun s => show exec (.mxrdF o) s = execMxrdF o s from rfl) hr ho hq (by simp [ht])
  · exact mxrd_reads rfl (fun s => show exec (.mxrdI o) s = execMxrdI o s from rfl) hr ho hq (by simp [ht])
  · have h := mxrd_reads rfl (fun s => show exec (.mxrdSc o) s = execMxrdSc o s from rfl) hr ho hq (by simp [ht])
    simp only [ht, if_true] at h
    exact h
  · have h := mxrd_reads rfl (fun s => show exec (.mxrdSc o) s = execMxrdSc o s from rfl) hr ho hq (by simp [ht])
    simp only [ht, show ¬ 2 = 1 by decide, if_false] at h
    exact h

end Sys2Proof.Machine
end

section
/-! PROOF. What an access of this device leaves (R53, R67, R70, R73): beside the bytes it writes, only the records of its open sync region,
the read caches and the home slices change. The accesses of a seat are chains of such steps, and an instruction that retires after one has
the frame that the claims about memory name. -/

namespace Sys2Proof.Machine

open Sys2Proof.Bits

/-- The records of a context's open sync region replaced (R67, R70, R73). -/
def Ctx.withRegion (c : Ctx) (lines : List Nat) (conflict : Option Conflict) (more : Nat) : Ctx :=
  { c with order := { c.order with lines := lines, conflict := conflict, more := more } }

/-- From `s` to `u` these bytes are written, one by one, and the context in focus, `c`, becomes `e`, which differs in the records of its
open region; beside them only the read caches, the home slices, TARNSTAT and what is sent change. -/
structure Touched (s u : State) (c e : Ctx) (bytes : List (Nat × Byte)) : Prop where
  focus : u.cx = some e
  region : ∃ l x m, e = c.withRegion l x m
  others : ∀ n, n ≠ c.num → u.findCtx n = s.findCtx n
  mem : u.mem = s.mem.writeEach bytes
  control : ∀ off, (∀ h, off ≠ tarnstat h) → u.dcbGet off = s.dcbGet off
  sched : u.sched = s.sched
  fabric : u.fabric = s.fabric
  complex : u.control = s.control
  clocks : u.time = s.time ∧ u.clock = s.clock ∧ u.devNum = s.devNum
  owes : u.pend = s.pend
  cur : u.cur = s.cur

section
variable {s t u v : State} {c e : Ctx} {bytes : List (Nat × Byte)}

theorem withRegion_self (c : Ctx) : c.withRegion c.order.lines c.order.conflict c.order.more = c := rfl

theorem withRegion_withRegion (c : Ctx) (l l' : List Nat) (x x' : Option Conflict) (m m' : Nat) :
    (c.withRegion l x m).withRegion l' x' m' = c.withRegion l' x' m' := rfl

theorem Touched.num (h : Touched s u c e bytes) : e.num = c.num := by
  obtain ⟨l, x, m, rfl⟩ := h.region
  rfl

theorem Touched.refl (hc : s.cx = some c) : Touched s s c c [] :=
  ⟨hc, ⟨_, _, _, (withRegion_self c).symm⟩, fun _ _ => rfl, rfl, fun _ _ => rfl, rfl, rfl, rfl, ⟨rfl, rfl, rfl⟩, rfl, rfl⟩

/-- The home slices, the read caches and what is sent change after any touch. -/
theorem Touched.caches (h : Touched s u c e bytes) (x : Slices) (y : List (Nat × Core)) (z : List Sent) :
    Touched s { u with slices := x, cores := y, sent := z } c e bytes :=
  ⟨h.focus, h.region, h.others, h.mem, h.control, h.sched, h.fabric, h.complex, h.clocks, h.owes, h.cur⟩

theorem Touched.slices (h : Touched s u c e bytes) (x : Slices) : Touched s { u with slices := x } c e bytes := h.caches x u.cores u.sent

theorem Touched.cores (h : Touched s u c e bytes) (y : List (Nat × Core)) : Touched s { u with cores := y } c e bytes :=
  h.caches u.slices y u.sent

/-- Bytes written after a touch that wrote none. -/
theorem Touched.wrote (h : Touched s u c e []) (k : Wrote u v bytes) : Touched s v c e bytes := by
  have hk := k.contextsKeep
  refine ⟨hk.focus.2.trans h.focus, h.region, fun n hn => ?_, k.mem.trans (by rw [h.mem]; rfl),
    fun off ho => (k.control off ho).trans (h.control off ho), (congrArg State.sched k.rest :).trans h.sched,
    (congrArg State.fabric k.rest :).trans h.fabric, (congrArg State.control k.rest :).trans h.complex,
    ⟨(congrArg State.time k.rest :).trans h.clocks.1, (congrArg State.clock k.rest :).trans h.clocks.2.1,
      (congrArg State.devNum k.rest :).trans h.clocks.2.2⟩,
    (congrArg State.pend k.rest :).trans h.owes, hk.focus.1.trans h.cur⟩
  rw [← h.others n hn]
  unfold State.findCtx
  rw [hk.focus.2, hk.seats, hk.saved.1]

/-- The records of the open region change after any touch. -/
theorem Touched.mapOrder (h : Touched s u c e bytes) (g : Order → Order)
    (hg : ∀ o, ∃ l x m, g o = { o with lines := l, conflict := x, more := m }) :
    Touched s (u.mapCx fun d => d.mapOrder g) c (e.mapOrder g) bytes where
  focus := by rw [State.mapCx_cx, h.focus]; rfl
  region := by
    obtain ⟨l, x, m, rfl⟩ := h.region
    obtain ⟨l', x', m', hg'⟩ := hg (c.withRegion l x m).order
    exact ⟨l', x', m', by unfold Ctx.mapOrder; rw [hg']; rfl⟩
  others n hn := (findCtx_mapCx (g := fun d => d.mapOrder g) h.focus rfl (h.num.symm ▸ hn)).trans (h.others n hn)
  mem := h.mem
  control := h.control
  sched := h.sched
  fabric := h.fabric
  complex := h.complex
  clocks := h.clocks
  owes := h.owes
  cur := h.cur

/-! ## Retiring after a touch -/

theorem pushOpt_mem (s : State) (out : Option Vec) : (s.pushOpt out).mem = s.mem := by
  unfold State.pushOpt State.pushNx
  cases out with
  | none => rfl
  | some w =>
    dsimp only
    cases s.cx with
    | none => rfl
    | some c => dsimp only; split <;> rfl

/-- An instruction that retires after a touch, with a result that changes registers, flags and what is owed: the frame of an access. -/
theorem Touched.result (h : Touched s u c e bytes) (f : Form) (g : Ctx → Ctx) (out : Option Vec) (fl : BitVec 7)
    (hg : ∀ d : Ctx, g d = { d with regs := (g d).regs, csrs := { d.csrs with fstat := d.csrs.fstat ||| fl.setWidth 64 },
                                    order := { d.order with late := (g d).order.late } })
    (hv : v = (u.mapCx g).pushOpt out) :
    ∃ d, (v.done f).cx = some d ∧ d.regs = (g e).regs ∧ Passes c d f fl (c.nextPc f)
      ∧ (∀ held, (∀ b ∈ bytes, b.1 ∈ held) → WritesOnly s (v.done f) held) ∧ OthersKeep s (v.done f) c out
      ∧ (v.done f).mem = s.mem.writeEach bytes := by
  obtain ⟨d, hd, hregs, hadv, hquiet, hoth⟩ := result_spec f g out fl h.focus (hg e) hv
  have hmem : (v.done f).mem = s.mem.writeEach bytes := by
    rw [← h.mem]
    show v.mem = u.mem
    rw [hv, pushOpt_mem]
    rfl
  have hnum := h.num
  obtain ⟨l, x, m, rfl⟩ := h.region
  refine ⟨d, hd, hregs, ⟨hadv.pc, ?_, ?_, ?_, hadv.channel⟩, fun held hheld => ⟨fun a ha => ?_,
    fun off ho => (hquiet.control off).trans (h.control off ho), hquiet.sched.trans h.sched, hquiet.fabric.trans h.fabric,
    hquiet.complex.trans h.complex, ⟨hquiet.clocks.1.trans h.clocks.1, hquiet.clocks.2.1.trans h.clocks.2.1,
      hquiet.clocks.2.2.trans h.clocks.2.2⟩, hquiet.owes.trans h.owes⟩, fun n hn => ?_, hmem⟩
  · rw [hadv.csrs, charge_energy_congr (c := c) (show (c.withRegion l x m).csrs.energy = c.csrs.energy from rfl)]
    rfl
  · exact hadv.rest
  · rw [hadv.order]
    rfl
  · rw [hmem]
    refine Memory.get_writeEach_outside _ _ _ fun hin => ?_
    obtain ⟨b, hb, rfl⟩ := List.mem_map.mp hin
    exact ha (hheld b hb)
  · exact (hoth n hn).trans (by rw [h.others n hn]; rfl)

/-- The frame of an access of this device that retires with the flags `fl` and the channel entry `out`: `written` are its bytes. -/
structure Accessed (s t : State) (c d : Ctx) (f : Form) (fl : BitVec 7) (out : Option Vec) (bytes : List (Nat × Byte)) : Prop where
  focus : t.cx = some d
  passes : Passes c d f fl (c.nextPc f)
  frame : ∀ held, (∀ b ∈ bytes, b.1 ∈ held) → WritesOnly s t held
  others : OthersKeep s t c out
  mem : t.mem = s.mem.writeEach bytes

/-- A scalar result after a touch, with the flags it raises. -/
theorem Touched.scalar (h : Touched s u c e bytes) (f : Form) (dst : Spec) (w : Word) (fl : BitVec 7) :
    ∃ d, ScalarRegs c.regs d.regs dst w
      ∧ Accessed s (((u.mapCx fun c => c.raise fl).putScalar dst w).done f) c d f fl
          (if dst = specNx then some (w.setWidth 1024) else none) bytes := by
  obtain ⟨d, hd, hregs, hpass, hframe, hoth, hmem⟩ := h.result f
    (fun c => { c.raise fl with regs := { c.regs.putS dst w with y0 := w }, order := (c.order.settle dst).settleY0 })
    (if dst = specNx then some (w.setWidth 1024) else none) fl (fun _ => rfl)
    (v := (u.mapCx fun c => c.raise fl).putScalar dst w) (by
      unfold State.putScalar State.pushOpt
      by_cases e : dst = specNx
      · simp [e, State.mapCx, h.focus]
      · simp [e, State.mapCx, h.focus])
  have hr : e.regs = c.regs := by
    obtain ⟨l, x, m, rfl⟩ := h.region
    rfl
  exact ⟨d, by rw [hregs, ← hr]; exact putS_spec e.regs dst w, hd, hpass, hframe, hoth, hmem⟩

/-- A vector result after a touch. -/
theorem Touched.vector (h : Touched s u c e bytes) (f : Form) (dst : Spec) (w : Vec) :
    ∃ d, VectorRegs c.regs d.regs dst w
      ∧ Accessed s ((u.putVector dst w).done f) c d f 0 (if dst = specNx then some w else none) bytes := by
  obtain ⟨d, hd, hregs, hpass, hframe, hoth, hmem⟩ := h.result f
    (fun c => { c with regs := { c.regs.putV dst w with y1 := w }, order := c.order.settle dst })
    (if dst = specNx then some w else none) 0 (fun c => by simp; rfl)
    (v := u.putVector dst w) (by
      unfold State.putVector State.pushOpt
      by_cases e : dst = specNx
      · simp [e, State.mapCx, h.focus]
      · simp [e, State.mapCx, h.focus])
  have hr : e.regs = c.regs := by
    obtain ⟨l, x, m, rfl⟩ := h.region
    rfl
  exact ⟨d, by rw [hregs, ← hr]; exact putV_spec e.regs dst w, hd, hpass, hframe, hoth, hmem⟩

/-- A touch that retires with no result. -/
theorem Touched.done (h : Touched s u c e bytes) (f : Form) : ∃ d, d.regs = c.regs ∧ Accessed s (u.done f) c d f 0 none bytes := by
  obtain ⟨d, hd, hregs, hpass, hframe, hoth, hmem⟩ := h.result f id none 0 (fun c => by simp) (v := u)
    (by simp [State.pushOpt, State.mapCx])
  have hr : e.regs = c.regs := by
    obtain ⟨l, x, m, rfl⟩ := h.region
    rfl
  exact ⟨d, hregs.trans hr, hd, hpass, hframe, hoth, hmem⟩

/-! ## The parts of an access -/

theorem addConflict_keeps (o : Order) (x : Conflict) : ∃ l y m, o.addConflict x = { o with lines := l, conflict := y, more := m } := by
  unfold Order.addConflict
  split <;> exact ⟨_, _, _, rfl⟩

theorem Touched.addVerdict (h : Touched s u c e bytes) (line : Nat) (store : Bool) (w : Verdict) :
    ∃ e', Touched s (u.addVerdict line store w) c e' bytes := by
  unfold State.addVerdict
  split
  · exact ⟨e, h⟩
  · exact ⟨_, h.mapOrder _ fun o => addConflict_keeps o _⟩

/-- A detected access to a line is recorded at its coherence point and in the open region (R70, R71). -/
theorem Touched.detectLine (h : Touched s u c e bytes) (p : Party) (store : Bool) (late : Verdict) (l : Nat) :
    ∃ e', Touched s (u.detectLine p store late l) c e' bytes := by
  unfold State.detectLine
  extract_lets ga v s1 s2
  obtain ⟨e', h'⟩ := (h.slices (u.recordRace l p store).slices).addVerdict ga store v
  have h2 : Touched s s2 c e' bytes := by
    unfold s2
    split
    · exact h'.slices _
    · exact h'
  exact ⟨_, h2.mapOrder _ fun o => ⟨_, _, _, rfl⟩⟩

theorem Touched.fillLine (h : Touched s u c e bytes) (core : Nat) (l : CacheLine) : Touched s (u.fillLine core l) c e bytes := h.cores _

theorem Touched.dropLines (h : Touched s u c e bytes) (core dev : Nat) (lines : List Nat) :
    Touched s (u.dropLines core dev lines) c e bytes := by
  unfold State.dropLines
  split
  · exact h
  · exact h.cores _

theorem Touched.acquire (h : Touched s u c e bytes) : Touched s u.acquire c e bytes := by
  obtain ⟨x, hx, -⟩ := u.acquire_spec
  rw [hx]
  exact h.cores x

theorem Touched.noteWrite (h : Touched s u c e bytes) (line : Nat) (p : Party) : Touched s (u.noteWrite line p) c e bytes := h.slices _

theorem Touched.cacheOwners (h : Touched s u c e bytes) (offs : List Nat) : Touched s (u.cacheOwners offs) c e bytes := by
  obtain ⟨x, hx⟩ := u.cacheOwners_eq offs
  rw [hx]
  exact h.slices x

/-- The end of the region, in a state where the context in focus stands as it did (R67). -/
theorem Touched.clearRegionOf (h : Touched s u c c []) : Touched s (u.clearRegionOf c) c c.newRegion [] := by
  have hk := State.clearRegionOf_reorders h.focus
  have he := u.clearRegionOf_ends c
  have hm : (u.clearRegionOf c).mem = u.mem := by
    rw [u.clearRegionOf_eq c]
    rfl
  have hc : (u.clearRegionOf c).cur = u.cur := by
    rw [u.clearRegionOf_eq c]
    rfl
  exact ⟨hk.focus, ⟨[], none, 0, rfl⟩, fun n hn => (hk.others n hn).trans (h.others n hn), hm.trans h.mem,
    fun off ho => (he.control off).trans (h.control off ho), he.sched.trans h.sched, he.fabric.trans h.fabric, he.complex.trans h.complex,
    ⟨he.clocks.1.trans h.clocks.1, he.clocks.2.1.trans h.clocks.2.1, he.clocks.2.2.trans h.clocks.2.2⟩, he.owes.trans h.owes,
    hc.trans h.cur⟩

/-- A step that every touch takes on, taken for each of some lines. -/
theorem Touched.foldl {α : Type} {f : State → α → State} (hf : ∀ u e a, Touched s u c e bytes → ∃ e', Touched s (f u a) c e' bytes)
    (l : List α) (h : Touched s u c e bytes) : ∃ e', Touched s (l.foldl f u) c e' bytes := by
  induction l generalizing u e with
  | nil => exact ⟨e, h⟩
  | cons a l ih =>
    obtain ⟨e', h'⟩ := hf u e a h
    exact ih h'

theorem Touched.detect (h : Touched s u c e bytes) (p : Party) (store : Bool) (lines : List Nat) :
    ∃ e', Touched s (u.detect p store lines) c e' bytes :=
  Touched.foldl (fun _ _ l h => h.detectLine p store none l) lines h

theorem Touched.plainLine (h : Touched s u c e bytes) (d : Ctx) (line : Nat) : ∃ e', Touched s (u.plainLine d line) c e' bytes := by
  unfold State.plainLine
  extract_lets p
  split
  · split
    · obtain ⟨e', h'⟩ := h.detectLine p false (u.lateWrite line _ p) line
      exact ⟨e', h'.fillLine _ _⟩
    · obtain ⟨e', h'⟩ := h.detectLine p false none line
      exact ⟨e', h'.fillLine _ _⟩
  · exact h.detectLine p false none line

theorem Touched.plainLines (h : Touched s u c e bytes) (d : Ctx) (lines : List Nat) :
    ∃ e', Touched s (lines.foldl (fun s l => s.plainLine d l) u) c e' bytes :=
  Touched.foldl (fun _ _ l h => h.plainLine d l) lines h

end

end Sys2Proof.Machine
end

section
/-! PROOF. Loads of this device (R53, R67, R70 to R73, R76, R258): a plain load that may go on, and an acquire that may, take the bytes that
R258 names, and leave a touch that writes none. -/

namespace Sys2Proof.Machine

open Sys2Proof.Bits

section
variable {s u : State} {c e : Ctx} {lines offs held : List Nat}

/-! ## What the home slices hold beside records -/

/-- The machine with other owner entries and lines held in its home slices, and other read caches. -/
def State.withCaches (s : State) (owners : List OwnerEntry) (holders : List (Nat × AtomUnit)) (cores : List (Nat × Core)) : State :=
  { s with slices := { s.slices with owners := owners, holders := holders }, cores := cores }

/-- A request leaves owner entries cached, and takes lines back from their holders (R33, R81). -/
theorem State.cacheOwners_caches (s : State) (offs : List Nat) : ∃ o h, s.cacheOwners offs = s.withCaches o h s.cores := by
  have hf : ∀ (l : List (Nat × Nat)) (o : List OwnerEntry) (h : List (Nat × AtomUnit)), ∃ o' h',
      l.foldl (fun s p => s.cacheOwner p.1 p.2) (s.withCaches o h s.cores) = s.withCaches o' h' s.cores := by
    intro l
    induction l with
    | nil => exact fun o h => ⟨o, h, rfl⟩
    | cons p l ih => exact fun o h => ih _ _
  exact hf _ _ _

theorem State.dropLines_caches (s : State) (core dev : Nat) (lines : List Nat) : ∃ y, s.dropLines core dev lines = { s with cores := y } := by
  unfold State.dropLines
  split
  · exact ⟨_, rfl⟩
  · exact ⟨_, rfl⟩

/-! ## Conflicts and the end of a region (R67, R71 to R73) -/

/-- The verdict that a record gives on an access (R70). -/
def Race.verdictFor (r : Race) (p : Party) (store : Bool) : Verdict :=
  let reader : Verdict := if store then (r.readers.find? fun x => !sameCtx x p).map fun x => (x, false) else none
  match r.writer with
  | some w => if sameCtx w p then reader else some (w, true)
  | none => reader

theorem State.verdict_eq (s : State) (l : Nat) (p : Party) (store : Bool) :
    s.verdict l p store = (look s.slices.races l).bind fun r => r.verdictFor p store := by
  unfold State.verdict
  cases look s.slices.races l <;> rfl

/-- A record without a party's own accesses gives that party the same verdict. -/
theorem verdictFor_without (r : Race) (p : Party) (store : Bool) :
    (r.without fun x => sameCtx x p).verdictFor p store = r.verdictFor p store := by
  have hreaders : ((r.readers.filter fun x => !sameCtx x p).find? fun x => !sameCtx x p) = r.readers.find? fun x => !sameCtx x p := by
    simp [List.find?_filter]
  unfold Race.verdictFor Race.without
  simp only [hreaders]
  cases r.writer with
  | none => rfl
  | some w => by_cases hw : sameCtx w p = true <;> simp [Option.filter, hw]

/-- Where the records of an access's line give no verdict without the context's own parties, they give none with them. -/
theorem verdict_none_of_cleared {l : Nat} {store : Bool} (h : (s.clearRaces c.num).verdict l (s.party c) store = none) :
    s.verdict l (s.party c) store = none := by
  let gone : Party → Bool := fun x => sameCtx x (s.party c)
  have hlist : ∀ rs : List (Nat × Race),
      ((look ((rs.map fun q => (q.1, q.2.without gone)).filter fun q => q.2.writer.isSome || !q.2.readers.isEmpty) l).bind
        fun r => r.verdictFor (s.party c) store) = none
      → ((look rs l).bind fun r => r.verdictFor (s.party c) store) = none := by
    intro rs
    induction rs with
    | nil => exact fun h => h
    | cons q rs ih =>
      obtain ⟨k, r⟩ := q
      intro h
      simp only [List.map_cons, List.filter_cons] at h
      by_cases hk : (k == l) = true
      · have hv : (r.without gone).verdictFor (s.party c) store = none := by
          split at h
          · simpa [look, hk] using h
          · rename_i hempty
            simp only [Bool.or_eq_true, not_or, Bool.not_eq_true, Option.isSome_eq_false_iff, Option.isNone_iff_eq_none,
              Bool.not_eq_false', List.isEmpty_iff] at hempty
            obtain ⟨hw, hr⟩ := hempty
            simp [Race.verdictFor, hw, hr]
        rw [verdictFor_without] at hv
        simpa [look, hk] using hv
      · have hk' : (k == l) = false := by simpa using hk
        have hih := ih (by
          split at h
          · simpa [look, hk'] using h
          · exact h)
        simpa [look, hk'] using hih
  rw [State.verdict_eq] at h ⊢
  exact hlist _ h

theorem conflicts_nil {store : Bool} (h : ∀ l ∈ lines, (s.clearRaces c.num).verdict l (s.party c) store = none) :
    s.conflicts (s.party c) store lines = [] := by
  unfold State.conflicts
  refine List.filterMap_eq_nil_iff.mpr fun l hl => ?_
  rw [verdict_none_of_cleared (h l hl)]
  rfl

/-- With no conflict of its own a settled region ends. -/
theorem Settled.closingWith (h : Settled s c) (hc : s.cx = some c) {own : List Conflict} (ho : own = []) (k : State → State) :
    s.closingWith own k = k (s.clearRegionOf c) := by
  rw [ho]
  exact h.closing hc k

theorem Settled.withCaches (h : Settled s c) (o : List OwnerEntry) (x : List (Nat × AtomUnit)) (y : List (Nat × Core)) :
    Settled (s.withCaches o x y) c := ⟨h.clean, h.verdicts⟩

/-- Where a detected access may go on there is room for its records, at once or after a split of its own region (R73). -/
theorem PlainReady.withRoom (h : PlainReady s c lines) (hc : s.cx = some c) (o : List OwnerEntry) (x : List (Nat × AtomUnit))
    (y : List (Nat × Core)) : ∃ u, (u = s.withCaches o x y ∨ u = (s.withCaches o x y).clearRegionOf c)
      ∧ ∀ k, (s.withCaches o x y).withRoom c s.devNum lines k = k u := by
  have hroom : (s.withCaches o x y).crowded (if s.devNum = (s.withCaches o x y).devNum then lines else []) = none := by
    rw [if_pos (show s.devNum = (s.withCaches o x y).devNum from rfl)]
    exact h.room
  by_cases hsize : c.order.lines.length + ((lines.map (raceGa s.devNum)).filter fun g => !c.order.lines.contains g).length
      ≤ Config.regionLines
  · refine ⟨_, .inl rfl, fun k => ?_⟩
    unfold State.withRoom
    simp only [hroom, if_pos hsize]
  · refine ⟨_, .inr rfl, fun k => ?_⟩
    unfold State.withRoom
    simp only [hroom, if_neg hsize, (h.settled.withCaches o x y).closing hc k]

theorem Touched.withCaches (hc : s.cx = some c) (o : List OwnerEntry) (x : List (Nat × AtomUnit)) (y : List (Nat × Core)) :
    Touched s (s.withCaches o x y) c c [] := (Touched.refl hc).caches _ _ _

/-- Either way of making room is a touch. -/
theorem touched_room (hc : s.cx = some c) {o : List OwnerEntry} {x : List (Nat × AtomUnit)} {y : List (Nat × Core)}
    (hu : u = s.withCaches o x y ∨ u = (s.withCaches o x y).clearRegionOf c) : ∃ e, Touched s u c e [] := by
  rcases hu with rfl | rfl
  · exact ⟨c, .withCaches hc o x y⟩
  · exact ⟨_, (Touched.withCaches hc o x y).clearRegionOf⟩

/-! ## The bytes of a load (R258) -/

theorem plainBytes_withCaches (o : List OwnerEntry) (x : List (Nat × AtomUnit)) :
    (s.withCaches o x s.cores).plainBytes c offs held = s.plainBytes c offs held := rfl

theorem plainBytes_clearRegionOf : (s.clearRegionOf c).plainBytes c offs held = s.plainBytes c offs held := by
  rw [s.clearRegionOf_eq c]
  rfl

theorem readBytes_clearRegionOf (own : Option Word) : (s.clearRegionOf c).readBytes own held = s.readBytes own held := by
  rw [s.clearRegionOf_eq c]
  rfl

/-- A plain load of this device that may go on (R53, R70, R73, R258). -/
theorem loadHere_plain (h : PlainReady s c (s.raceLines c.tenant offs)) (hc : s.cx = some c)
    (hheld : s.heldSeat c.tenant offs = .inl held) : ∃ u e, Touched s u c e [] ∧
      ∀ f fin, s.loadHere c f false offs fin = fin (s.plainBytes c offs held) u := by
  obtain ⟨o, x, hcache⟩ := s.cacheOwners_caches held
  obtain ⟨t, ht, hroom⟩ := h.withRoom hc o x s.cores
  obtain ⟨e, htouch⟩ := touched_room hc ht
  obtain ⟨e', htouch'⟩ := htouch.plainLines c (s.raceLines c.tenant offs)
  have hbytes : t.plainBytes c offs held = s.plainBytes c offs held := by
    rcases ht with rfl | rfl
    · exact plainBytes_withCaches o x
    · exact plainBytes_clearRegionOf.trans (plainBytes_withCaches o x)
  refine ⟨_, e', htouch', fun f fin => ?_⟩
  unfold State.loadHere
  simp only [h.acquires, List.isEmpty_nil, Bool.not_true, Bool.false_and, Bool.or_self, Bool.false_eq_true, if_false, hheld, hcache]
  exact (hroom _).trans (by rw [hbytes])

/-- An acquire of this device that may go on (R67, R72, R76, R258). -/
theorem loadHere_acquire (h : SyncReady s c 1 false (s.raceLines c.tenant offs)) (hc : s.cx = some c)
    (hheld : s.heldSeat c.tenant offs = .inl held) : ∃ u e, Touched s u c e [] ∧
      ∀ f fin, s.loadHere c f true offs fin = fin (s.readBytes c.openBundle held) u := by
  obtain ⟨o, x, hcache⟩ := s.cacheOwners_caches held
  refine ⟨_, _, (Touched.withCaches hc o x s.cores).clearRegionOf.acquire, fun f fin => ?_⟩
  unfold State.loadHere
  simp only [h.acquires, h.earlier, List.isEmpty_nil, Bool.not_true, Bool.and_false, Bool.or_self, Bool.false_eq_true, if_false, hheld,
    hcache, if_true]
  have hown : (s.withCaches o x s.cores).conflicts ((s.withCaches o x s.cores).party c) false (s.raceLines c.tenant offs) = [] :=
    conflicts_nil (s := s) h.verdict
  refine ((h.settled.withCaches o x s.cores).closingWith hc hown _).trans ?_
  rw [readBytes_clearRegionOf]
  rfl

/-- A load of this device that may go on, plain or acquire: the bytes that R258 names, and a touch that writes none. -/
theorem load_here {o : MOps} (hc : s.cx = some c) (hgrp : o.grp = false) (hheld : s.heldSeat c.tenant offs = .inl held)
    (h : o.ord = 0 ∧ PlainReady s c (s.raceLines c.tenant offs) ∨ o.ord = 1 ∧ SyncReady s c 1 false (s.raceLines c.tenant offs)) :
    ∃ u e, Touched s u c e [] ∧ ∀ f addr len fin, s.load c f o s.devNum offs addr len fin = fin (s.loaded c o offs held) u := by
  have hempty (hnil : offs = []) : s.loaded c o offs held = [] := by
    rw [hnil] at hheld
    obtain rfl : [] = held := by simpa [State.heldSeat] using hheld
    rw [hnil]
    unfold State.loaded
    split <;> rfl
  rcases h with ⟨hord, h⟩ | ⟨hord, h⟩
  · by_cases hnil : offs = []
    · refine ⟨s, c, .refl hc, fun f addr len fin => ?_⟩
      rw [hempty hnil]
      unfold State.load
      simp [h.acquires, hnil, hord]
    · obtain ⟨u, e, htouch, hload⟩ := loadHere_plain h hc hheld
      refine ⟨u, e, htouch, fun f addr len fin => ?_⟩
      have hbytes : s.loaded c o offs held = s.plainBytes c offs held := if_pos hord
      rw [hbytes, ← hload f fin]
      unfold State.load
      simp [h.acquires, hnil, hord, hgrp]
  · by_cases hnil : offs = []
    · refine ⟨_, _, (Touched.refl hc).clearRegionOf.acquire, fun f addr len fin => ?_⟩
      rw [hempty hnil]
      unfold State.load
      simp [h.acquires, hnil, hord, h.settled.closing hc]
    · obtain ⟨u, e, htouch, hload⟩ := loadHere_acquire h hc hheld
      refine ⟨u, e, htouch, fun f addr len fin => ?_⟩
      have hbytes : s.loaded c o offs held = s.readBytes c.openBundle held := if_neg (by rw [hord]; decide)
      rw [hbytes, ← hload f fin]
      unfold State.load
      simp [h.acquires, hnil, hord, hgrp]

end

end Sys2Proof.Machine
end

section
/-! PROOF. Where the bytes of an access are held (R42, R387), and stores of this device (R44, R70, R72, R77, R116, R139, R259): a store that
may go on writes its bytes where they are held, and leaves a touch that writes those alone. -/

namespace Sys2Proof.Machine

open Sys2Proof.Bits

section
variable {s t u : State} {c e : Ctx} {offs held : List Nat}

/-! ## Where bytes are held -/

/-- The mapped ranges begin and end at multiples of eight (R10, R391). -/
theorem placeOf_congr {x y : Nat} (h : x / 8 = y / 8) : s.placeOf x = s.placeOf y := by
  have hend : s.hbmEnd % 8 = 0 := by
    unfold State.hbmEnd
    split <;> rfl
  have hhbm : x < s.hbmEnd ↔ y < s.hbmEnd := by omega
  have hwin : (Config.windowBase ≤ x ↔ Config.windowBase ≤ y) ∧ (x < windowOf Config.cores ↔ y < windowOf Config.cores) := by
    show (0x100000000000 ≤ x ↔ 0x100000000000 ≤ y) ∧ (x < 0x100018000000 ↔ y < 0x100018000000)
    omega
  have hctl : (Config.controlBase ≤ x ↔ Config.controlBase ≤ y)
      ∧ (x < Config.controlBase + Config.controlSize ↔ y < Config.controlBase + Config.controlSize) := by
    show (0x180000000000 ≤ x ↔ 0x180000000000 ≤ y) ∧ (x < 0x180001000000 ↔ y < 0x180001000000)
    omega
  have hcore : Config.windowBase ≤ y → (x - Config.windowBase) / Config.windowStride = (y - Config.windowBase) / Config.windowStride
      ∧ ((x - Config.windowBase) % Config.windowStride < Config.padSize ↔ (y - Config.windowBase) % Config.windowStride < Config.padSize) := by
    show 0x100000000000 ≤ y → (x - 0x100000000000) / 0x40000 = (y - 0x100000000000) / 0x40000
      ∧ ((x - 0x100000000000) % 0x40000 < 0x20000 ↔ (y - 0x100000000000) % 0x40000 < 0x20000)
    omega
  unfold State.placeOf
  by_cases hw : Config.windowBase ≤ y
  · obtain ⟨hq, hr⟩ := hcore hw
    simp only [hhbm, hwin, hctl, hq, hr]
  · simp [hhbm, hwin, hctl, hw]

/-- The bytes of one range are held together: from where the first of them is. -/
theorem heldAt_shift (s : State) (tenant : Nat) (pl : Place) :
    ∃ a b, ∀ off x, s.placeOf off = pl → s.heldAt tenant off = .inl x → b ≤ off ∧ x = a + (off - b) := by
  cases pl with
  | hbm =>
    refine ⟨0, 0, fun off x hp h => ?_⟩
    simp only [State.heldAt, hp] at h
    split at h
    · cases h; omega
    · cases h
  | control =>
    refine ⟨0, 0, fun off x hp h => ?_⟩
    simp only [State.heldAt, hp] at h
    split at h
    · cases h; omega
    · cases h
  | hole =>
    refine ⟨0, 0, fun off x hp h => ?_⟩
    simp only [State.heldAt, hp] at h
    cases h
  | window core =>
    by_cases hin : ∃ p, s.partOfTenant tenant = some p ∧ tenant ≠ 0 ∧ (s.core core).resident ≠ some p
    · obtain ⟨p, hp, ht, hres⟩ := hin
      refine ⟨s.swapImage p core, windowOf core, fun off x hpl h => ⟨?_, ?_⟩⟩
      · unfold State.placeOf at hpl
        split at hpl
        · cases hpl
        · split at hpl
          next hw =>
            dsimp only at hpl
            split at hpl
            · cases hpl
              simp only [Bool.and_eq_true, decide_eq_true_eq] at hw
              unfold windowOf
              have := Nat.div_mul_le_self (off - Config.windowBase) Config.windowStride
              omega
            · cases hpl
          next => split at hpl <;> cases hpl
      · simp only [State.heldAt, hpl, State.windowByte, ht, if_false, hp, hres] at h
        split at h
        · rename_i y hy
          cases h
          split at hy
          · cases hy
          · exact (Option.some.inj hy).symm
        · cases h
    · refine ⟨0, 0, fun off x hpl h => ⟨Nat.zero_le _, ?_⟩⟩
      simp only [State.heldAt, hpl] at h
      split at h
      next y hy =>
        cases h
        unfold State.windowByte at hy
        split at hy
        · cases hres : (s.core core).resident with
          | none => simp [hres] at hy
          | some p => simp [hres] at hy; omega
        next ht =>
          cases hp : s.partOfTenant tenant with
          | none => simp [hp] at hy
          | some p =>
            have hres : (s.core core).resident = some p := by
              by_contra hres
              exact hin ⟨p, hp, ht, hres⟩
            simp only [hp, hres, if_true] at hy
            split at hy
            · cases hy
            · have := Option.some.inj hy
              omega
      · cases h

/-- The bytes of one range, held for the seat in focus, keep their distances. -/
theorem heldSeat_shift {tenant : Nat} {pl : Place} (hp : ∀ o ∈ offs, s.placeOf o = pl) (h : s.heldSeat tenant offs = .inl held) :
    ∃ a b, (∀ o ∈ offs, b ≤ o) ∧ held = offs.map fun o => a + (o - b) := by
  have hall : ∀ {offs held}, (∀ o ∈ offs, s.placeOf o = pl) → s.heldAll tenant offs = .inl held →
      ∃ a b, (∀ o ∈ offs, b ≤ o) ∧ held = offs.map fun o => a + (o - b) := by
    obtain ⟨a, b, hshift⟩ := heldAt_shift s tenant pl
    intro offs held hp h
    refine ⟨a, b, ?_⟩
    induction offs generalizing held with
    | nil => exact ⟨(fun _ ho => nomatch ho), by simpa [State.heldAll] using h.symm⟩
    | cons o offs ih =>
      obtain ⟨ho, hs⟩ := List.forall_mem_cons.mp hp
      simp only [State.heldAll] at h
      split at h
      · cases h
      next x hx =>
        split at h
        · cases h
        next xs hxs =>
          cases h
          obtain ⟨hle, rfl⟩ := hshift o x ho hx
          obtain ⟨hles, rfl⟩ := ih hs hxs
          exact ⟨List.forall_mem_cons.mpr ⟨hle, hles⟩, rfl⟩
  unfold State.heldSeat at h
  split at h
  · cases h
    exact ⟨0, 0, fun _ _ => Nat.zero_le _, rfl⟩
  · split at h
    · cases h
      exact ⟨0, 0, fun _ _ => Nat.zero_le _, by simp⟩
    · exact hall hp h

theorem heldSeat_nodup {tenant : Nat} {pl : Place} (hp : ∀ o ∈ offs, s.placeOf o = pl) (h : s.heldSeat tenant offs = .inl held)
    (hn : offs.Nodup) : held.Nodup := by
  obtain ⟨a, b, hb, rfl⟩ := heldSeat_shift hp h
  refine hn.map_on fun x hx y hy e => ?_
  have hbx := hb x hx
  have hby := hb y hy
  omega

theorem heldSeat_length {tenant : Nat} {pl : Place} (hp : ∀ o ∈ offs, s.placeOf o = pl) (h : s.heldSeat tenant offs = .inl held) :
    held.length = offs.length := by
  obtain ⟨a, b, -, rfl⟩ := heldSeat_shift hp h
  exact List.length_map _

/-- An aligned access of one, two, four or eight bytes lies in one range. -/
theorem placeOf_bytes {p : Tgt} {w : Nat} (hw : w ∣ 8) (ha : p.off % w = 0) : ∀ o ∈ p.bytes w, s.placeOf o = s.placeOf p.off := by
  intro o ho
  obtain ⟨k, hk, rfl⟩ := List.mem_map.mp ho
  have hk := List.mem_range.mp hk
  refine placeOf_congr ?_
  obtain ⟨m, hm⟩ := hw
  have hdiv (x : Nat) : x / 8 = x / w / m := by rw [hm, Nat.div_div_eq_div_mul]
  have hq : (p.off + k) / w = p.off / w := by
    obtain ⟨q, hq⟩ := Nat.dvd_of_mod_eq_zero ha
    rw [hq, Nat.mul_add_div (by omega), Nat.div_eq_of_lt hk, Nat.mul_div_cancel_left _ (by omega), Nat.add_zero]
  rw [hdiv, hdiv, hq]

theorem nodup_bytes (p : Tgt) (w : Nat) : (p.bytes w).Nodup :=
  List.nodup_range.map fun _ _ e => Nat.add_left_cancel e

/-- The bytes of an aligned access are held one after another. -/
theorem heldSeat_run {p : Tgt} {w tenant : Nat} (hw : w ∣ 8) (ha : p.off % w = 0) (h : s.heldSeat tenant (p.bytes w) = .inl held) :
    held = (List.range w).map (held.headD p.off + ·) := by
  obtain ⟨a, b, hb, rfl⟩ := heldSeat_shift (placeOf_bytes hw ha) h
  have hpos : 0 < w := Nat.pos_of_dvd_of_pos hw (by decide)
  have hle : b ≤ p.off := hb _ (List.mem_map.mpr ⟨0, List.mem_range.mpr hpos, rfl⟩)
  obtain ⟨n, rfl⟩ : ∃ n, w = n + 1 := ⟨w - 1, by omega⟩
  have hhead : (((p.bytes (n + 1)).map fun o => a + (o - b)).headD p.off) = a + (p.off - b) := by
    simp [Tgt.bytes, List.range_succ_eq_map]
  rw [hhead]
  unfold Tgt.bytes
  rw [List.map_map]
  refine List.map_congr_left fun k _ => ?_
  show a + (p.off + k - b) = a + (p.off - b) + k
  omega

/-! ## The end of a region does not move what is held -/

theorem heldSeat_clearRegionOf (tenant : Nat) (offs : List Nat) : (s.clearRegionOf c).heldSeat tenant offs = s.heldSeat tenant offs := by
  have hat (off : Nat) : (s.clearRegionOf c).heldAt tenant off = s.heldAt tenant off := by
    rw [s.clearRegionOf_eq c]
    rfl
  have hall (l : List Nat) : (s.clearRegionOf c).heldAll tenant l = s.heldAll tenant l := by
    induction l with
    | nil => rfl
    | cons o l ih => simp only [State.heldAll, hat, ih]
  have hpad (p : Tgt) : (s.clearRegionOf c).ownPad p = s.ownPad p := by
    rw [s.clearRegionOf_eq c]
    rfl
  have hdev : (s.clearRegionOf c).devNum = s.devNum := by
    rw [s.clearRegionOf_eq c]
    rfl
  unfold State.heldSeat
  cases offs with
  | nil => rfl
  | cons o l =>
    dsimp only
    rw [hpad, hdev, hall]

theorem touchesRecord_clearRegionOf : (s.clearRegionOf c).touchesRecord held = s.touchesRecord held := by
  rw [s.clearRegionOf_eq c]
  rfl

theorem devNum_clearRegionOf : (s.clearRegionOf c).devNum = s.devNum := by
  rw [s.clearRegionOf_eq c]
  rfl

end

end Sys2Proof.Machine
end

section
/-! PROOF. Stores of this device (R44, R70, R72, R77, R116, R139, R259): a store that may go on writes its bytes where they are held, and
leaves a touch that writes those alone. -/

namespace Sys2Proof.Machine

open Sys2Proof.Bits

section
variable {s u v : State} {c e : Ctx} {offs held lines : List Nat} {r : StoreReq} {f : Form}

/-- A release whose own destination, if it names one, is this device goes on (R77, R78). -/
theorem SyncReady.releasing_here {ord : BitVec 3} {store : Bool} (h : SyncReady s c ord store lines) (f : Form) (op : Nat) {own : List Nat}
    (hown : ∀ d ∈ own, d = s.devNum) (k : State → State) : s.releasing c f ord s.devNum op own k = k s := by
  unfold State.releasing
  split
  next hrelc =>
    obtain ⟨houts, hlost⟩ := h.cumulative hrelc
    have hf : (own.filter fun d => s.lost d) = [] := List.filter_eq_nil_iff.mpr fun d hd => by simp [hown d hd, hlost]
    simp [houts, hf, State.unperformed, State.lostAmong, sortNat, sortBy]
  next =>
    split
    next hrel => simp [h.release hrel]
    next => rfl

/-- What a performed store does to the machine (R71, R116): a synchronising one is noted at its lines, and the bytes are written. -/
def State.storesBytes (s : State) (c : Ctx) (sync : Bool) (lines : List Nat) (bytes : List (Nat × Byte)) : State :=
  (if sync then lines.foldl (fun s l => s.noteWrite l (s.party c)) s else s).writeBytes bytes

theorem Touched.storesBytes {bytes : List (Nat × Byte)} (h : Touched s u c e []) (d : Ctx) (sync : Bool) (lines : List Nat)
    (hb : ∀ b ∈ bytes, inControl b.1 = false) : ∃ e', Touched s (u.storesBytes d sync lines bytes) c e' bytes := by
  unfold State.storesBytes
  split
  · obtain ⟨e', h'⟩ := Touched.foldl (f := fun s l => s.noteWrite l (s.party d)) (fun _ e _ h => ⟨e, h.noteWrite _ _⟩) lines h
    exact ⟨e', h'.wrote (.writeBytes _ hb)⟩
  · exact ⟨e, h.wrote (.writeBytes _ hb)⟩

/-- A store without a flag that passes its coherence point. -/
theorem storeHere_eq (hheld : u.heldSeat c.tenant (r.bytes.map (·.1)) = .inl held) (hfree : u.touchesRecord held = false)
    (hflag : r.flag = none) (detected sync : Bool) : ∃ o x y, u.storeHere c f detected sync r =
      let lines := u.raceLines c.tenant (r.bytes.map (·.1))
      let write (s : State) : State := (s.storesBytes c sync lines (held.zip (r.bytes.map (·.2)))).done f
      if detected then (u.withCaches o x y).withRoom c u.devNum lines fun s => write (s.detect (s.party c) true lines)
      else write (u.withCaches o x y) := by
  obtain ⟨o, x, hcache⟩ := u.cacheOwners_caches held
  obtain ⟨y, hdrop⟩ := (u.withCaches o x u.cores).dropLines_caches u.cur.core u.devNum (linesOf held)
  refine ⟨o, x, y, ?_⟩
  unfold State.storeHere
  simp only [hheld, hflag, Option.map_none, reduceCtorEq, if_false, List.append_nil, hfree, Bool.false_eq_true, hcache, hdrop]
  rfl

/-- A vector store none of whose parts is refused is one store (R262). -/
theorem storeParts_eq (hheld : u.heldSeat c.tenant (r.bytes.map (·.1)) = .inl held) (hfree : u.touchesRecord held = false)
    (detected sync : Bool) : u.storeParts c f detected sync r = u.storeHere c f detected sync r := by
  unfold State.storeParts
  rw [if_pos]
  right
  simp [State.refusalOf, hheld, hfree]

/-- A store of this device without a flag that may go on. -/
theorem store_here {o : MOps} (hc : s.cx = some c) (hbnd : o.bnd = false) (hdev : r.dev = s.devNum) (hflag : r.flag = none)
    (hheld : s.heldSeat c.tenant (r.bytes.map (·.1)) = .inl held) (hfree : s.touchesRecord held = false)
    (hplain : ∀ x ∈ held, inControl x = false)
    (h : o.ord = 0 ∧ PlainReady s c (s.raceLines c.tenant (r.bytes.map (·.1)))
      ∨ o.ord ≠ 0 ∧ SyncReady s c o.ord true (s.raceLines c.tenant (r.bytes.map (·.1)))) :
    ∃ u e, s.store c f o r = u.done f ∧ Touched s u c e (held.zip (r.bytes.map (·.2))) := by
  have hb : ∀ b ∈ held.zip (r.bytes.map (·.2)), inControl b.1 = false := forall_zip_fst hplain
  rcases h with ⟨hord, h⟩ | ⟨hord, h⟩
  · obtain ⟨ow, x, y, hstore⟩ := storeHere_eq (f := f) hheld hfree hflag (!r.bytes.isEmpty) false
    have heq : s.store c f o r = s.storeHere c f (!r.bytes.isEmpty) false r := by
      unfold State.store State.releasing
      simp [h.acquires, hbnd, hord, hdev, hflag, storeParts_eq hheld hfree]
    rw [heq, hstore]
    cases hne : r.bytes.isEmpty with
    | true =>
      obtain ⟨e, ht⟩ := (Touched.withCaches hc ow x y).storesBytes c false (s.raceLines c.tenant (r.bytes.map (·.1))) hb
      exact ⟨_, e, rfl, ht⟩
    | false =>
      obtain ⟨t, ht, hroom⟩ := h.withRoom hc ow x y
      obtain ⟨e, htouch⟩ := touched_room hc ht
      obtain ⟨e1, h1⟩ := htouch.detect (t.party c) true (s.raceLines c.tenant (r.bytes.map (·.1)))
      obtain ⟨e2, h2⟩ := h1.storesBytes c false (s.raceLines c.tenant (r.bytes.map (·.1))) hb
      exact ⟨_, e2, hroom _, h2⟩
  · have hheld' := (heldSeat_clearRegionOf (s := s) (c := c) c.tenant _).trans hheld
    have hfree' := (touchesRecord_clearRegionOf (s := s) (c := c)).trans hfree
    obtain ⟨ow, x, y, hstore⟩ := storeHere_eq (f := f) hheld' hfree' hflag false true
    have heq : s.store c f o r = (s.clearRegionOf c).storeHere c f false true r := by
      unfold State.store
      have hrel := fun k => h.releasing_here f 1 (own := [s.devNum]) (by simp) k
      have hclose := fun k => h.settled.closingWith hc (conflicts_nil h.verdict) k
      have hsync : ¬ o.ord = 0#3 := hord
      have hplainly : (o.ord == 0#3) = false := by simpa using hord
      simp [h.acquires, hbnd, hsync, hplainly, bne, hdev, hflag, hheld, hrel, hclose, devNum_clearRegionOf, storeParts_eq hheld' hfree']
    rw [heq, hstore]
    obtain ⟨e, ht⟩ := ((Touched.refl hc).clearRegionOf.caches
      { (s.clearRegionOf c).slices with owners := ow, holders := x } y (s.clearRegionOf c).sent).storesBytes c true
        ((s.clearRegionOf c).raceLines c.tenant (r.bytes.map (·.1))) hb
    exact ⟨_, e, rfl, ht⟩

/-- A store that retires after a touch that wrote its bytes. -/
theorem Touched.storedHere {data : List Byte} (h : Touched s u c e (held.zip data)) (hn : held.Nodup) (f : Form) :
    StoredHere s (u.done f) c f held data := by
  obtain ⟨d, hregs, hd, hpass, hframe, hoth, hmem⟩ := h.done f
  refine ⟨d, hd, hregs, fun p hp => ?_, hframe held fun b hb => (List.of_mem_zip (a := b.1) (b := b.2) hb).1, hpass, hoth⟩
  rw [hmem]
  exact Memory.get_writeEach_inside _ _ (nodup_zip_fst hn _) hp

end

/-! ## O16 -/

section
variable {s : State} {c : Ctx} {o : MOps} {w : Nat} {t : Tgt} {held : List Nat}

theorem map_fst_zip_bytesOf (l : List Nat) (n : Nat) : (l.zip (bytesOf l.length n)).map (·.1) = l :=
  List.map_fst_zip (Nat.le_of_eq (length_bytesOf _ _).symm)

theorem map_snd_zip_bytesOf (l : List Nat) (n : Nat) : (l.zip (bytesOf l.length n)).map (·.2) = bytesOf l.length n :=
  List.map_snd_zip (Nat.le_of_eq (length_bytesOf _ _))

/-- A scalar load of this device. -/
theorem loadsHere_ld {i : Instr} {op : BitVec 9} (sg : Bool) {extend : Nat → Word} (hform : i.form = .m op o)
    (he : ∀ s, exec i s = s.ld op o w sg) (hx : ∀ n, extendTo w sg n = extend n) : LoadsHere i o w extend := by
  intro s c t held hr hgrp hreach hdev hheld hgo
  rw [hform] at hr ⊢
  obtain ⟨u, e, htouch, hload⟩ := load_here hr.seat hgrp hheld hgo
  obtain ⟨d, hregs, hd, hpass, hframe, hoth, -⟩ := htouch.scalar (.m op o) o.dst (extend (valOf (s.loaded c o (t.bytes w) held))) 0
  rw [mapCx_raise_zero] at hd hframe hoth
  refine ⟨_, d, ?_, hd, hregs, hpass, hframe [] (fun _ hb => nomatch hb), hoth⟩
  rw [he, State.ld, run_ready (f := .m op o) hr]
  dsimp only
  rw [hreach.withAddr, hdev, hload, hx]

/-- A scalar store to this device. -/
theorem storesHere_st {i : Instr} {op : BitVec 9} (hw : w ∣ 8) (hform : i.form = .m op o) (he : ∀ s, exec i s = s.st op o w) :
    StoresHere i o w := by
  intro s c t held hr hbnd hfl hreach hdev hlaunch hheld hfree hplain hgo
  rw [hform] at hr ⊢
  have hlen : (t.bytes w).length = w := by simp [Tgt.bytes]
  let data := bytesOf w (c.srcS [o.sa, o.sb] o.dst).toNat
  have hoffs : ((t.bytes w).zip data).map (·.1) = t.bytes w := by
    have := map_fst_zip_bytesOf (t.bytes w) (c.srcS [o.sa, o.sb] o.dst).toNat
    rwa [hlen] at this
  have hdata : ((t.bytes w).zip data).map (·.2) = data := by
    have := map_snd_zip_bytesOf (t.bytes w) (c.srcS [o.sa, o.sb] o.dst).toNat
    rwa [hlen] at this
  obtain ⟨u, e, hstore, htouch⟩ := store_here (f := .m op o) (o := o) (held := held)
    (r := { dev := t.dev, base := t.off, bytes := (t.bytes w).zip data, count := w, flag := none, addr := (c.addrIx o).word })
    hr.seat hbnd hdev rfl (hoffs.symm ▸ hheld) hfree hplain (hoffs.symm ▸ hgo)
  refine ⟨_, ?_, (hdata ▸ htouch).storedHere (heldSeat_nodup (placeOf_bytes hw hreach.2) hheld (nodup_bytes t w)) (.m op o)⟩
  rw [he, State.st, run_ready (f := .m op o) hr]
  dsimp only
  rw [hreach.withAddr, if_neg (by simp [hlaunch]), State.withFlag, if_pos (by simp [hfl]), hstore]

theorem extendTo_unsigned (w n : Nat) : extendTo w false n = BitVec.ofNat 64 n := rfl

theorem extendTo_signed (w n : Nat) : extendTo (w + 1) true n = BitVec.ofInt 64 ((n : Int).bmod (2 ^ (8 * (w + 1)))) := by
  unfold extendTo
  rw [if_pos rfl, show 8 * (w + 1) = 8 * w + 7 + 1 from rfl, signed_eq_bmod]

/-- Settles O16: a load or store that passes its tests is chained from the touches of its parts. -/
theorem scalarMemory : Obligations.ScalarMemory := by
  unfold Obligations.ScalarMemory
  refine ⟨fun o => ⟨?_, ?_, ?_, ?_, ?_, ?_, ?_⟩, fun o => ⟨?_, ?_, ?_, ?_⟩⟩
  · exact loadsHere_ld false (op := 0x040) rfl (fun _ => rfl) (extendTo_unsigned 1)
  · exact loadsHere_ld false (op := 0x041) rfl (fun _ => rfl) (extendTo_unsigned 2)
  · exact loadsHere_ld false (op := 0x042) rfl (fun _ => rfl) (extendTo_unsigned 4)
  · exact loadsHere_ld false (op := 0x043) rfl (fun _ => rfl) (extendTo_unsigned 8)
  · exact loadsHere_ld true (op := 0x044) rfl (fun _ => rfl) (extendTo_signed 0)
  · exact loadsHere_ld true (op := 0x045) rfl (fun _ => rfl) (extendTo_signed 1)
  · exact loadsHere_ld true (op := 0x046) rfl (fun _ => rfl) (extendTo_signed 3)
  · exact storesHere_st (op := 0x047) (by decide) rfl fun _ => rfl
  · exact storesHere_st (op := 0x048) (by decide) rfl fun _ => rfl
  · exact storesHere_st (op := 0x049) (by decide) rfl fun _ => rfl
  · exact storesHere_st (op := 0x04A) (by decide) rfl fun _ => rfl

end

end Sys2Proof.Machine
end

section
/-! PROOF. Vector loads and stores of this device (R44, R45, R100, R260 to R262): lanes that are placed go on, a load gives each active lane
its word, and of the lanes that store one word the highest-numbered stays. -/

namespace Sys2Proof.Machine

open Sys2Proof.Bits

section
variable {s : State} {c : Ctx} {o : MOps} {sh : VShape} {place : Nat → Tgt} {held : List Nat} {i : Instr} {op : BitVec 9}

/-! ## Lanes and their places -/

theorem activeLanes_sorted (c : Ctx) (o : MOps) : (c.activeLanes o).Pairwise (· < ·) := List.pairwise_lt_range.filter _

theorem activeLanes_nodup (c : Ctx) (o : MOps) : (c.activeLanes o).Nodup := List.nodup_range.filter _

theorem activeLanes_lt {k : Nat} (h : k ∈ c.activeLanes o) : k < 32 := List.mem_range.mp (List.mem_filter.mp h).1

/-- Lanes that have their places are gone on with (R253, R254, R261). -/
theorem LanesPlaced.withLanes (h : LanesPlaced s c sh o place) (k : List (Nat × Tgt) → State → State) :
    s.withLanes c sh o k = k ((c.activeLanes o).map fun i => (i, place i)) s := by
  have htest : ∀ g : Nat × Addr → Option (Nat × Word), (∀ i ∈ c.activeLanes o, g (i, c.laneAddr sh o i) = none) →
      ((c.activeLanes o).map fun i => (i, c.laneAddr sh o i)).findSome? g = none := by
    intro g hg
    refine List.findSome?_eq_none_iff.mpr fun p hp => ?_
    obtain ⟨i, hi, rfl⟩ := List.mem_map.mp hp
    exact hg i hi
  have htgts : ∀ g : Nat × Addr → Option (Nat × Tgt), (∀ i ∈ c.activeLanes o, g (i, c.laneAddr sh o i) = some (i, place i)) →
      ((c.activeLanes o).map fun i => (i, c.laneAddr sh o i)).filterMap g = (c.activeLanes o).map fun i => (i, place i) := by
    intro g hg
    rw [List.filterMap_map, ← List.filterMap_eq_map]
    exact List.filterMap_congr hg
  have hone : ∀ i ∈ c.activeLanes o,
      let t0 := (((c.activeLanes o).map fun i => (i, place i)).map (·.2)).headD { dev := s.devNum, off := 0 }
      (place i).dev = t0.dev ∧ s.place (place i).dev (place i).off = s.place t0.dev t0.off := by
    intro i hi
    cases hl : c.activeLanes o with
    | nil => rw [hl] at hi; cases hi
    | cons j l => exact h.one i hi j (by simp [hl])
  have hfind : ∀ q : (Nat × Addr) × Nat × Tgt → Bool,
      (∀ i ∈ c.activeLanes o, q ((i, c.laneAddr sh o i), i, place i) = false) →
      (((c.activeLanes o).map fun i => (i, c.laneAddr sh o i)).zip ((c.activeLanes o).map fun i => (i, place i))).find? q = none := by
    intro q hq
    rw [List.zip_map']
    refine List.find?_eq_none.mpr fun p hp => ?_
    obtain ⟨i, hi, rfl⟩ := List.mem_map.mp hp
    simp [hq i hi]
  unfold State.withLanes
  dsimp only
  rw [htest _ fun i hi => by simp [(h.each i hi).1], htgts _ fun i hi => by simp [(h.each i hi).1]]
  dsimp only
  rw [hfind _ fun i hi => by
    obtain ⟨hd, hp⟩ := hone i hi
    rw [beq_iff_eq.mpr hd, beq_iff_eq.mpr hp]
    rfl]
  dsimp only
  rw [hfind _ fun i hi => by simp [(h.each i hi).2], h.tile]

/-- The words of some placed lanes of this device lie in one range. -/
theorem LanesPlaced.onePlace (h : LanesPlaced s c sh o place) (hdev : ∀ k ∈ c.activeLanes o, (place k).dev = s.devNum) {l : List Nat}
    (hl : ∀ k ∈ l, k ∈ c.activeLanes o) : ∃ pl, ∀ x ∈ l.flatMap fun k => (place k).bytes 4, s.placeOf x = pl := by
  cases hc : c.activeLanes o with
  | nil =>
    refine ⟨.hole, fun x hx => ?_⟩
    obtain ⟨k, hk, -⟩ := List.mem_flatMap.mp hx
    have := hl k hk
    rw [hc] at this
    cases this
  | cons j js =>
    have hj : j ∈ c.activeLanes o := by simp [hc]
    refine ⟨s.placeOf (place j).off, fun x hx => ?_⟩
    obtain ⟨k, hk, hxk⟩ := List.mem_flatMap.mp hx
    obtain ⟨-, halign⟩ := h.each k (hl k hk)
    obtain ⟨-, hp⟩ := h.one k (hl k hk) j hj
    rw [hdev k (hl k hk), hdev j hj, State.place, State.place, if_pos rfl, if_pos rfl] at hp
    exact (placeOf_bytes (by decide) halign x hxk).trans hp

/-! ## Vector loads -/

theorem getElem?_pieces {α : Type} (n : Nat) {fuel m : Nat} {xs : List α} (hm : m < fuel) (hx : n * m < xs.length) :
    (pieces n fuel xs)[m]? = some ((xs.drop (n * m)).take n) := by
  induction fuel generalizing m xs with
  | zero => omega
  | succ fuel ih =>
    have hne : xs.isEmpty = false := by cases xs <;> simp at hx ⊢
    unfold pieces
    rw [if_neg (by simp [hne])]
    cases m with
    | zero => simp
    | succ m =>
      rw [List.getElem?_cons_succ, ih (by omega) (by rw [List.length_drop, Nat.mul_succ] at *; omega), List.drop_drop, Nat.mul_succ,
        Nat.add_comm]

theorem look_zip_none {α : Type} {l : List Nat} {k : Nat} (h : k ∉ l) (vs : List α) : look (l.zip vs) k = none := by
  induction l generalizing vs with
  | nil => rfl
  | cons x l ih =>
    cases vs with
    | nil => rfl
    | cons v vs =>
      obtain ⟨hx, hl⟩ := not_or.mp (List.mem_cons.not.mp h)
      have hne : (x == k) = false := by simpa using Ne.symm hx
      simpa [look, hne] using ih hl vs

theorem look_zip_getElem? {α : Type} {l : List Nat} {m k : Nat} (hn : l.Nodup) (hk : l[m]? = some k) (vs : List α) :
    look (l.zip vs) k = vs[m]? := by
  induction l generalizing m vs with
  | nil => simp at hk
  | cons x l ih =>
    obtain ⟨hx, hl⟩ := List.nodup_cons.mp hn
    cases vs with
    | nil => rfl
    | cons v vs =>
      cases m with
      | zero =>
        obtain rfl : x = k := by simpa using hk
        simp [look]
      | succ m =>
        have hk' : l[m]? = some k := by simpa using hk
        have hne : (x == k) = false := by
          simp only [beq_eq_false_iff_ne]
          rintro rfl
          exact hx (List.mem_of_getElem? hk')
        simpa [look, hne] using ih hl hk' vs

theorem lane_lt (w : Nat) (v : Vec) (k : Nat) : lane w v k < 2 ^ w := Nat.mod_lt _ (Nat.two_pow_pos w)

/-- The lanes of a vector that is built from 32 words. -/
theorem lane_ofLanes_words (g : Nat → Nat) {k : Nat} (hk : k < 32) : lane 32 (ofLanes 32 ((List.range 32).map g)) k = g k % 2 ^ 32 := by
  rw [lane_ofLanes 32 _ k (by simpa using hk) (by simp)]
  simp

/-- A vector whose lanes take the words of some bytes, in the order of `lanes`, and keep the old ones elsewhere (R260). -/
def loadedLanes (lanes : List Nat) (old : Vec) (bs : List Byte) : Vec :=
  ofLanes 32 ((List.range 32).map fun i => (look (lanes.zip ((pieces 4 32 bs).map valOf)) i).getD (lane 32 old i))

section
variable {lanes : List Nat} {bs : List Byte} {k m : Nat}

theorem lane_loadedLanes_kept (hk : k < 32) (h : k ∉ lanes) (old : Vec) (bs : List Byte) :
    lane 32 (loadedLanes lanes old bs) k = lane 32 old k := by
  rw [loadedLanes, lane_ofLanes_words _ hk, look_zip_none h]
  exact Nat.mod_eq_of_lt (lane_lt 32 old k)

theorem lane_loadedLanes_loaded (hn : lanes.Nodup) (hlt : ∀ k ∈ lanes, k < 32) (hlen : bs.length = 4 * lanes.length)
    (hk : lanes[m]? = some k) (old : Vec) : lane 32 (loadedLanes lanes old bs) k = valOf ((bs.drop (4 * m)).take 4) := by
  obtain ⟨hm, -⟩ := List.getElem?_eq_some_iff.mp hk
  have h32 : lanes.length ≤ 32 := by
    simpa using (hn.subperm fun x hx => List.mem_range.mpr (hlt x hx)).length_le
  rw [loadedLanes, lane_ofLanes_words _ (hlt k (List.mem_of_getElem? hk)), look_zip_getElem? hn hk, List.getElem?_map,
    getElem?_pieces 4 (by omega) (by omega)]
  have h4 : ((bs.drop (4 * m)).take 4).length = 4 := by
    rw [List.length_take, List.length_drop]
    omega
  have hv := valOf_lt ((bs.drop (4 * m)).take 4)
  rw [h4] at hv
  exact Nat.mod_eq_of_lt hv

end

/-- A vector load of this device. -/
theorem loadsLanes_vld (hform : i.form = .m op o) (he : ∀ s, exec i s = s.vld op o sh) : LoadsLanes i o sh := by
  intro s c place held hr hgrp hplaced hdev
  dsimp only
  intro hheld hgo
  rw [hform] at hr ⊢
  obtain ⟨pl, hpl⟩ := hplaced.onePlace hdev fun _ hk => hk
  have hlen : (s.loaded c o ((c.activeLanes o).flatMap fun k => (place k).bytes 4) held).length = 4 * (c.activeLanes o).length := by
    have h := heldSeat_length hpl hheld
    have h4 : ((c.activeLanes o).flatMap fun k => (place k).bytes 4).length = 4 * (c.activeLanes o).length := by
      simp [List.length_flatMap, Tgt.bytes, Nat.mul_comm]
    unfold State.loaded State.plainBytes State.readBytes
    split <;> simp [h, h4]
  have hfirst : (((c.activeLanes o).map fun i => (i, place i)).map (·.2.dev)).headD s.devNum = s.devNum := by
    cases hl : c.activeLanes o with
    | nil => rfl
    | cons j l => exact hdev j (by simp [hl])
  obtain ⟨u, e, htouch, hload⟩ := load_here hr.seat hgrp hheld hgo
  obtain ⟨d, hregs, hd, hpass, hframe, hoth, -⟩ := htouch.vector (.m op o) o.dst
    (loadedLanes (c.activeLanes o) (c.oldV o.dst) (s.loaded c o ((c.activeLanes o).flatMap fun k => (place k).bytes 4) held))
  refine ⟨_, d, _, ?_, hd, hregs, fun k hk hout => lane_loadedLanes_kept hk hout _ _,
    fun m k hk => lane_loadedLanes_loaded (activeLanes_nodup c o) (fun _ h => activeLanes_lt h) hlen hk _,
    hpass, hframe [] (fun _ hb => nomatch hb), hoth⟩
  rw [he, State.vld, run_ready (f := .m op o) hr]
  dsimp only
  rw [hplaced.withLanes, hfirst, List.flatMap_map, hload]
  simp only [List.map_map, Function.comp_def, List.map_id']
  rfl

/-! ## Vector stores -/

/-- Of the lanes that store, those that stay: no higher-numbered one writes the same word (R44). -/
def lastLanes (lanes : List Nat) (place : Nat → Tgt) : List Nat :=
  lanes.filter fun k => !lanes.any fun j => decide (k < j) && (place j).off == (place k).off

theorem laneBytes_map (v : Vec) (lanes : List Nat) (place : Nat → Tgt) : laneBytes v (lanes.map fun i => (i, place i))
    = (lastLanes lanes place).flatMap fun k => ((place k).bytes 4).zip (bytesOf 4 (lane 32 v k)) := by
  unfold laneBytes lastLanes
  simp only [List.filter_map, List.flatMap_map, List.any_map, Function.comp_def]

theorem laneBytes_fst (v : Vec) (lanes : List Nat) (place : Nat → Tgt) : (laneBytes v (lanes.map fun i => (i, place i))).map (·.1)
    = (lastLanes lanes place).flatMap fun k => (place k).bytes 4 := by
  rw [laneBytes_map, List.map_flatMap]
  refine List.flatMap_congr fun k _ => List.map_fst_zip ?_
  simp [Tgt.bytes, length_bytesOf]

theorem laneBytes_snd (v : Vec) (lanes : List Nat) (place : Nat → Tgt) : (laneBytes v (lanes.map fun i => (i, place i))).map (·.2)
    = (lastLanes lanes place).flatMap fun k => bytesOf 4 (lane 32 v k) := by
  rw [laneBytes_map, List.map_flatMap]
  refine List.flatMap_congr fun k _ => List.map_snd_zip ?_
  simp [Tgt.bytes, length_bytesOf]

/-- The lanes that stay write each byte once. -/
theorem lastLanes_nodup {lanes : List Nat} (hs : lanes.Pairwise (· < ·)) (ha : ∀ k ∈ lanes, (place k).off % 4 = 0) :
    ((lastLanes lanes place).flatMap fun k => (place k).bytes 4).Nodup := by
  refine List.nodup_flatMap.mpr ⟨fun k _ => nodup_bytes _ _, ?_⟩
  refine List.Pairwise.imp_of_mem (fun {j k} hj hk hlt => ?_) (hs.filter _)
  obtain ⟨hj, hlast⟩ := List.mem_filter.mp hj
  have hk := (List.mem_filter.mp hk).1
  have hne : (place k).off ≠ (place j).off := by
    intro heq
    simp only [Bool.not_eq_true', List.any_eq_false, Bool.and_eq_true, decide_eq_true_eq, beq_iff_eq, not_and] at hlast
    exact hlast k hk hlt heq
  have haj := ha j hj
  have hak := ha k hk
  intro x hxj hxk
  obtain ⟨a, hxa, rfl⟩ := List.mem_map.mp hxj
  obtain ⟨b, hxb, hx⟩ := List.mem_map.mp hxk
  have hxa := List.mem_range.mp hxa
  have hxb := List.mem_range.mp hxb
  omega

/-- A vector store to this device. -/
theorem storesLanes_vst (hform : i.form = .m op o) (he : ∀ s, exec i s = s.vst op o sh) : StoresLanes i o sh := by
  refine ⟨fun s c place held hr hbnd hfl hplaced hne hdev => ?_, fun s c t hr hbnd hfl hnone hreach hdev hgo => ?_⟩
  · dsimp only
    intro hheld hfree hplain hgo
    rw [hform] at hr ⊢
    change s.heldSeat c.tenant ((lastLanes (c.activeLanes o) place).flatMap fun k => (place k).bytes 4) = .inl held at hheld
    change _ ∧ PlainReady s c (s.raceLines c.tenant ((lastLanes (c.activeLanes o) place).flatMap fun k => (place k).bytes 4))
      ∨ _ ∧ SyncReady s c o.ord true (s.raceLines c.tenant ((lastLanes (c.activeLanes o) place).flatMap fun k => (place k).bytes 4)) at hgo
    have hlast : ∀ k ∈ lastLanes (c.activeLanes o) place, k ∈ c.activeLanes o := fun k hk => (List.mem_filter.mp hk).1
    obtain ⟨pl, hpl⟩ := hplaced.onePlace (fun k hk => (hdev k hk).1) hlast
    have hn := lastLanes_nodup (activeLanes_sorted c o) (place := place) fun k hk => (hplaced.each k hk).2
    have hfst := laneBytes_fst (c.srcV [o.sa, o.sb] o.dst) (c.activeLanes o) place
    have hsnd := laneBytes_snd (c.srcV [o.sa, o.sb] o.dst) (c.activeLanes o) place
    have hopen : ((c.activeLanes o).map fun i => (i, place i)).find? (fun p => launchArea p.2.off) = none := by
      refine List.find?_eq_none.mpr fun p hp => ?_
      obtain ⟨k, hk, rfl⟩ := List.mem_map.mp hp
      simp [(hdev k hk).2]
    obtain ⟨j, l, hl⟩ := List.exists_cons_of_ne_nil hne
    have hj : (place j).dev = s.devNum := (hdev j (by simp [hl])).1
    rw [← hfst] at hheld hgo
    obtain ⟨u, e, hstore, htouch⟩ := store_here (f := .m op o) (o := o) (held := held)
      (r := { dev := (place j).dev, base := (place j).off,
              bytes := laneBytes (c.srcV [o.sa, o.sb] o.dst) ((c.activeLanes o).map fun i => (i, place i)),
              count := 4 * ((c.activeLanes o).map fun i => (i, place i)).length, flag := none, addr := (c.vBase sh o).word })
      hr.seat hbnd hj rfl hheld hfree hplain hgo
    rw [hfst] at hheld
    refine ⟨_, ?_, (hsnd ▸ htouch).storedHere (heldSeat_nodup hpl hheld hn) (.m op o)⟩
    rw [he, State.vst, run_ready (f := .m op o) hr]
    dsimp only
    rw [if_neg (by simp [hne]), hplaced.withLanes]
    rw [hl, List.map_cons] at hopen hstore ⊢
    dsimp only
    rw [hopen]
    dsimp only
    rw [if_neg (by simp [hfl]), State.withFlag, if_pos (by simp [hfl]), hstore]
  · rw [hform] at hr ⊢
    obtain ⟨u, e, hstore, htouch⟩ := store_here (f := .m op o) (o := o) (held := [])
      (r := { dev := t.dev, base := t.off, bytes := [], count := 0, flag := none, addr := (c.vBase sh o).word })
      hr.seat hbnd hdev rfl rfl rfl (fun _ hx => nomatch hx) hgo
    refine ⟨_, ?_, htouch.storedHere List.nodup_nil (.m op o)⟩
    rw [he, State.vst, run_ready (f := .m op o) hr]
    dsimp only
    rw [if_pos (by simp [hnone]), hreach.withAddr, State.withFlag, if_pos (by simp [hfl]), hstore]

/-! ## Lane addresses (R45, R175, R260) -/

theorem skewOf_eq (a : Int) : (skewOf a).1 = a - a % 128 ∧ ((skewOf a).2 : Int) = a % 128 / 4 := by
  unfold skewOf
  dsimp only
  constructor <;> omega

/-- The displacement of an indexed lane is its word, sign-extended. -/
theorem ofInt_signed_lane (v : Vec) (k : Nat) :
    BitVec.ofInt 64 (signed 32 (lane 32 v k)) = (v.extractLsb' (32 * k) 32).signExtend 64 := by
  have hlane : lane 32 v k = (v.extractLsb' (32 * k) 32).toNat := by
    simp [lane, BitVec.extractLsb'_toNat]
  rw [signed_eq_bmod, BitVec.signExtend, BitVec.toInt_eq_toNat_bmod, hlane]

/-- Settles O17: vector accesses go on from placed lanes, as the scalar ones do. -/
theorem vectorMemory : Obligations.VectorMemory := by
  unfold Obligations.VectorMemory
  refine ⟨fun o => ⟨?_, ?_, ?_, ?_, ?_⟩, fun o => ⟨?_, ?_, ?_, ?_, ?_⟩, fun c o k _ => ⟨fun a ha => ⟨?_, fun _ => ?_⟩, fun a ha => ?_,
    fun a ha => ⟨?_, ?_⟩, fun a ha => ⟨?_, ?_⟩⟩⟩
  · exact loadsLanes_vld (op := 0x04B) rfl fun _ => rfl
  · exact loadsLanes_vld (op := 0x04C) rfl fun _ => rfl
  · exact loadsLanes_vld (op := 0x04D) rfl fun _ => rfl
  · exact loadsLanes_vld (op := 0x04E) rfl fun _ => rfl
  · exact loadsLanes_vld (op := 0x04F) rfl fun _ => rfl
  · exact storesLanes_vst (op := 0x050) rfl fun _ => rfl
  · exact storesLanes_vst (op := 0x051) rfl fun _ => rfl
  · exact storesLanes_vst (op := 0x052) rfl fun _ => rfl
  · exact storesLanes_vst (op := 0x053) rfl fun _ => rfl
  · exact storesLanes_vst (op := 0x054) rfl fun _ => rfl
  · simp [Ctx.laneAddr, ha, Addr.plus]
  · obtain ⟨htb, hr⟩ := skewOf_eq a
    simp only [Ctx.laneAddr, ha, skewElem, htb, hr, and_self]
  · simp only [Ctx.laneAddr, ha, Addr.plus]
    rw [← BitVec.ofInt_natCast]
    rfl
  · simp only [Ctx.laneAddr, ha]
  · simp only [Ctx.laneAddr, ha, Addr.plus]
  · simp only [Ctx.laneAddr, ha]
  · simp only [Ctx.laneAddr, ha, Addr.plus, ofInt_signed_lane]

end

end Sys2Proof.Machine
end

section
/-! PROOF. Atomics and reductions of this device (R80, R81, R263 to R266): one that may go on reads its word where it is held, writes what it
computes there, and leaves a touch that writes those bytes alone. -/

namespace Sys2Proof.Machine

open Sys2Proof.Bits

section
variable {s u : State} {c e : Ctx} {o : MOps} {w : Nat} {t : Tgt} {held : List Nat} {i : Instr} {op : BitVec 9}

theorem takeLine_caches (s : State) (x : Option AtomUnit) (off : Nat) : ∃ h, s.takeLine x off = s.withCaches s.slices.owners h s.cores := by
  unfold State.takeLine
  cases x with
  | none => exact ⟨_, rfl⟩
  | some x =>
    dsimp only
    split
    · exact ⟨_, rfl⟩
    · exact ⟨_, rfl⟩

/-- The bytes that an atomic writes where its word is held (R263): none where a compare-and-swap fails. -/
def atomWrites (k : AtomOp) (w : Nat) (held : List Nat) (old b : Nat) : List (Nat × Byte) :=
  if (k.apply w old b).2.1 then held.zip (bytesOf w (k.apply w old b).1) else []

theorem atomWrites_inside {k : AtomOp} {old b : Nat} : ∀ x ∈ atomWrites k w held old b, x.1 ∈ held := by
  intro x hx
  unfold atomWrites at hx
  split at hx
  · exact (List.of_mem_zip (a := x.1) (b := x.2) hx).1
  · cases hx

/-- What a word holds once an atomic has acted on it. -/
theorem valOf_atomWrites {k : AtomOp} {old b : Nat} (m : Memory) (hn : held.Nodup) (hlen : held.length = w)
    (hold : valOf (held.map m.get) = old) : valOf (held.map (m.writeEach (atomWrites k w held old b)).get)
      = if (k.apply w old b).2.1 then (k.apply w old b).1 % 2 ^ (8 * w) else old := by
  unfold atomWrites
  split
  · rw [Memory.map_get_writeEach m hn (by rw [hlen, length_bytesOf]), valOf_bytesOf]
  · exact hold

theorem AtomReady.run (h : AtomReady s c i o w t held) (hw : w ∣ 8) : held = (List.range w).map (held.headD t.off + ·) := by
  obtain ⟨-, halign⟩ := h.place
  exact heldSeat_run hw halign h.owned

theorem AtomReady.nodup (h : AtomReady s c i o w t held) (hw : w ∣ 8) : held.Nodup := by
  obtain ⟨-, halign⟩ := h.place
  exact heldSeat_nodup (placeOf_bytes hw halign) h.owned (nodup_bytes t w)

theorem AtomReady.length (h : AtomReady s c i o w t held) (hw : w ∣ 8) : held.length = w := by
  rw [h.run hw]
  simp

/-- Where an atomic acts at once, in a state that holds the memory of this one. -/
theorem AtomReady.atomicAt (h : AtomReady s c i o w t held) (hw : w ∣ 8) (hmem : u.mem = s.mem) (k : AtomOp) (b : Nat) :
    let old := valOf (s.readBytes none held)
    u.atomicAt k (held.headD t.off) w b
      = (if (k.apply w old b).2.1 then u.writeBytes (held.zip (bytesOf w (k.apply w old b).1)) else u, old, (k.apply w old b).2.2) := by
  obtain ⟨-, hplain⟩ := h.open'
  have hread : u.readBytes none held = s.readBytes none held := by
    rw [State.readBytes_plain hplain, State.readBytes_plain hplain, hmem]
  unfold State.atomicAt
  rw [← h.run hw, hread]

/-- An atomic or reduction of this device that may act at once. -/
theorem AtomReady.atomic (h : AtomReady s c i o w t held) (hw : w ∣ 8) (f : Form) (k : AtomOp) (b : Word) (ret : Bool) :
    let old := valOf (s.readBytes none held)
    ∃ u e, Touched s u c e (atomWrites k w held old b.toNat)
      ∧ ∀ fin, s.atomic c f o t k w b ret fin = if ret then fin old (k.apply w old b.toNat).2.2 u else u.done f := by
  intro old
  obtain ⟨-, hplain⟩ := h.open'
  let v := s.clearRegionOf c
  have hv : Touched s v c c.newRegion [] := (Touched.refl h.ready.seat).clearRegionOf
  obtain ⟨ow, x, hcache⟩ := v.cacheOwners_caches held
  obtain ⟨y, htake⟩ := takeLine_caches (v.withCaches ow x v.cores) (unitOf v.cur.core o.scope) (held.headD t.off)
  let v1 := v.withCaches ow y v.cores
  have hv1 : Touched s v1 c c.newRegion [] := hv.caches _ _ _
  let v2 := if (k.apply w old b.toNat).2.1 then
      (v1.writeBytes (held.zip (bytesOf w (k.apply w old b.toNat).1))).dropLines v.cur.core s.devNum (linesOf held) else v1
  have hv2 : Touched s v2 c c.newRegion (atomWrites k w held old b.toNat) := by
    unfold v2 atomWrites
    split
    · exact (hv1.wrote (.writeBytes _ (forall_zip_fst hplain))).dropLines _ _ _
    · exact hv1
  let v3 := if o.ord = 1 ∨ o.ord = 3 then v2.acquire else v2
  have hv3 : Touched s v3 c c.newRegion (atomWrites k w held old b.toNat) := by
    unfold v3
    split
    · exact hv2.acquire
    · exact hv2
  refine ⟨v3, _, hv3, fun fin => ?_⟩
  have hrel := fun own hown kk => h.sync.releasing_here f 2 (own := own) hown kk
  have hsync : s.unperformed (c.order.outs.filter fun x => x.sync) = [] := h.sync.earlier
  have hdev : s.clearRegionOf c = v := rfl
  have hvd : v.devNum = s.devNum := devNum_clearRegionOf
  have hheld : v.heldSeat c.tenant ((List.range w).map (t.off + ·)) = .inl held := (heldSeat_clearRegionOf _ _).trans h.owned
  have hfree : v.touchesRecord held = false := touchesRecord_clearRegionOf.trans h.free
  have hat := h.atomicAt hw (u := v1) hv1.mem k b.toNat
  have hc1 : (v.withCaches ow x v.cores).takeLine (unitOf v.cur.core o.scope) (held.headD t.off) = v1 := htake
  unfold State.atomic
  simp only [h.fresh, Option.isSome_none, Bool.false_eq_true, if_false, h.here]
  rw [hrel _ (by split <;> simp)]
  simp only [bne_self_eq_false, Bool.false_and, Bool.or_false, hsync, List.isEmpty_nil, Bool.not_true, Bool.false_eq_true, if_false,
    h.sync.settled.closing h.ready.seat, hdev, hvd, if_true, hheld, hfree, hcache, hc1, hat]
  unfold v3 v2
  cases (k.apply w old b.toNat).2.1 <;> rfl

/-! ## The results (R263 to R266) -/

/-- Flags raised before or after a scalar result. -/
theorem putScalar_raise (s : State) (dst : Spec) (w : Word) (fl : BitVec 7) :
    (s.putScalar dst w).mapCx (fun c => c.raise fl) = (s.mapCx fun c => c.raise fl).putScalar dst w := by
  unfold State.putScalar
  dsimp only
  split
  · rw [pushNx_mapCx (g := fun c => c.raise fl) _ _ (fun _ => rfl) (fun _ => rfl) fun _ => rfl, mapCx_mapCx, mapCx_mapCx]
    rfl
  · rw [mapCx_mapCx, mapCx_mapCx]
    rfl

/-- The operand of an atomic of `w` bytes. -/
theorem toNat_atomOperand (x : Word) {w : Nat} (hw : w ∣ 8) : ((x.setWidth (8 * w)).setWidth 64).toNat = x.toNat % 2 ^ (8 * w) := by
  have hle : w ≤ 8 := Nat.le_of_dvd (by decide) hw
  rw [BitVec.toNat_setWidth, BitVec.toNat_setWidth]
  refine Nat.mod_eq_of_lt (Nat.lt_of_lt_of_le (Nat.mod_lt _ (Nat.two_pow_pos _)) (Nat.pow_le_pow_right (by decide) (by omega)))

/-- The address tests that an atomic passes. -/
theorem AtomReady.atomAddr (h : AtomReady s c i o w t held) (k : Tgt → State → State) : s.atomAddr c o w k = k t s := by
  obtain ⟨hopen, -⟩ := h.open'
  unfold State.atomAddr
  dsimp only
  rw [h.place.withAddr, if_neg (by simp [hopen])]

/-- The word of an atomic before and after it acts. -/
theorem AtomReady.word (h : AtomReady s c i o w t held) (hw : w ∣ 8) (k : AtomOp) (b : Nat)
    (hmem : u.mem = s.mem.writeEach (atomWrites k w held (valOf (s.readBytes none held)) b)) :
    let old := valOf (s.readBytes none held)
    old < 2 ^ (8 * w) ∧ valOf (u.readBytes none held) = if (k.apply w old b).2.1 then (k.apply w old b).1 % 2 ^ (8 * w) else old := by
  obtain ⟨-, hplain⟩ := h.open'
  rw [State.readBytes_plain (s := s) hplain] at hmem ⊢
  rw [State.readBytes_plain (s := u) hplain, hmem]
  refine ⟨?_, valOf_atomWrites s.mem (h.nodup hw) (h.length hw) rfl⟩
  have hlt := valOf_lt (held.map s.mem.get)
  rwa [List.length_map, h.length hw] at hlt

/-- What an operation computes of a word and an operand of `w` bytes, as it stands in the word. -/
def AtomGives (k : AtomOp) (w : Nat) (new : Nat → Nat → Nat) : Prop :=
  ∀ old < 2 ^ (8 * w), ∀ b < 2 ^ (8 * w), new old b = if (k.apply w old b).2.1 then (k.apply w old b).1 % 2 ^ (8 * w) else old

/-- An instruction that returns the old value of its word. -/
theorem atomicHere_of (hw : w ∣ 8) (hform : i.form = .m op o) {k : Ctx → AtomOp} {new : Ctx → Nat → Nat → Nat × BitVec 7}
    {fin : Ctx → Nat → BitVec 7 → State → State}
    (he : ∀ s, exec i s = s.run (.m op o) fun c s => s.atomAddr c o w fun t s =>
      s.atomic c (.m op o) o t (k c) w ((c.valB o.sa o.sb).setWidth (8 * w) |>.setWidth 64) true (fin c))
    (hfin : ∀ c old b s, fin c old ((k c).apply w old b).2.2 s
      = ((s.mapCx fun d => d.raise (new c old b).2).putScalar o.dst (BitVec.ofNat 64 old)).done (.m op o))
    (hnew : ∀ c, AtomGives (k c) w fun old b => (new c old b).1) : AtomicHere i o w new := by
  intro s c t held h old b
  have hb := toNat_atomOperand (c.valB o.sa o.sb) hw
  obtain ⟨u, e, htouch, hatomic⟩ := h.atomic hw (.m op o) (k c) ((c.valB o.sa o.sb).setWidth (8 * w) |>.setWidth 64) true
  rw [hb] at htouch
  obtain ⟨d, hregs, hd, hpass, hframe, hoth, hmem⟩ := htouch.scalar (.m op o) o.dst (BitVec.ofNat 64 old) (new c old b).2
  obtain ⟨hold, hword⟩ := h.word hw (k c) b hmem
  refine ⟨_, d, ?_, hd, hregs, ?_, hframe held atomWrites_inside, hform.symm ▸ hpass, hoth⟩
  · rw [he, run_ready (f := .m op o) (hform ▸ h.ready)]
    rw [h.atomAddr, hatomic, if_pos rfl, hb, hfin]
  · rw [hword]
    exact (hnew c old hold b (Nat.mod_lt _ (Nat.two_pow_pos _))).symm

/-- An instruction that returns nothing of its word. -/
theorem reductionHere_of (hw : w ∣ 8) (hform : i.form = .m op o) {k : Ctx → AtomOp} {new : Ctx → Nat → Nat → Nat}
    {fin : Ctx → Nat → BitVec 7 → State → State}
    (he : ∀ s, exec i s = s.run (.m op o) fun c s => s.atomAddr c o w fun t s =>
      s.atomic c (.m op o) o t (k c) w ((c.valB o.sa o.sb).setWidth (8 * w) |>.setWidth 64) false (fin c))
    (hnew : ∀ c, AtomGives (k c) w (new c)) : ReductionHere i o w new := by
  intro s c t held h old b
  have hb := toNat_atomOperand (c.valB o.sa o.sb) hw
  obtain ⟨u, e, htouch, hatomic⟩ := h.atomic hw (.m op o) (k c) ((c.valB o.sa o.sb).setWidth (8 * w) |>.setWidth 64) false
  rw [hb] at htouch
  obtain ⟨d, hregs, hd, hpass, hframe, hoth, hmem⟩ := htouch.done (.m op o)
  obtain ⟨hold, hword⟩ := h.word hw (k c) b hmem
  refine ⟨_, d, ?_, hd, hregs, ?_, hframe held atomWrites_inside, hform.symm ▸ hpass, hoth⟩
  · rw [he, run_ready (f := .m op o) (hform ▸ h.ready)]
    rw [h.atomAddr, hatomic, if_neg (by simp)]
  · rw [hword]
    exact (hnew c old hold b (Nat.mod_lt _ (Nat.two_pow_pos _))).symm

/-! ## The operations -/

section
variable {n : Nat}

theorem add_gives (w : Nat) : AtomGives .add w fun old b => (old + b) % 2 ^ (8 * w) := fun old _ b _ => by
  simp [AtomOp.apply]

theorem and_gives (w : Nat) : AtomGives .and w fun old b => old &&& b := fun _ ho _ _ =>
  (Nat.mod_eq_of_lt (Nat.lt_of_le_of_lt Nat.and_le_left ho)).symm

theorem or_gives (w : Nat) : AtomGives .or w fun old b => old ||| b := fun _ ho _ hb => (Nat.mod_eq_of_lt (Nat.or_lt_two_pow ho hb)).symm

theorem xor_gives (w : Nat) : AtomGives .xor w fun old b => old ^^^ b := fun _ ho _ hb => (Nat.mod_eq_of_lt (Nat.xor_lt_two_pow ho hb)).symm

theorem xchg_gives (w : Nat) : AtomGives .xchg w fun _ b => b := fun _ _ _ hb => (Nat.mod_eq_of_lt hb).symm

theorem minU_gives (w : Nat) : AtomGives .minU w fun old b => if b < old then b else old := fun old ho b hb => by
  have hlt : min old b < 2 ^ (8 * w) := by omega
  simp only [AtomOp.apply, if_true, Nat.mod_eq_of_lt hlt]
  split <;> omega

theorem maxU_gives (w : Nat) : AtomGives .maxU w fun old b => if old < b then b else old := fun old ho b hb => by
  have hlt : max old b < 2 ^ (8 * w) := by omega
  simp only [AtomOp.apply, if_true, Nat.mod_eq_of_lt hlt]
  split <;> omega

/-- A word of `w` bytes as a signed number. -/
theorem signed_bytes (w m : Nat) : signed (8 * (w + 1)) m = (m : Int).bmod (2 ^ (8 * (w + 1))) := signed_eq_bmod (8 * w + 7) m

theorem minS_gives (w : Nat) : AtomGives .minS (w + 1) fun old b =>
    if (b : Int).bmod (2 ^ (8 * (w + 1))) < (old : Int).bmod (2 ^ (8 * (w + 1))) then b else old := fun old ho b hb => by
  simp only [AtomOp.apply, if_true, signed_bytes, ← Int.not_lt, ite_not]
  split
  · exact (Nat.mod_eq_of_lt hb).symm
  · exact (Nat.mod_eq_of_lt ho).symm

theorem maxS_gives (w : Nat) : AtomGives .maxS (w + 1) fun old b =>
    if (old : Int).bmod (2 ^ (8 * (w + 1))) < (b : Int).bmod (2 ^ (8 * (w + 1))) then b else old := fun old ho b hb => by
  simp only [AtomOp.apply, if_true, signed_bytes, ← Int.not_lt, ite_not]
  split
  · exact (Nat.mod_eq_of_lt hb).symm
  · exact (Nat.mod_eq_of_lt ho).symm

theorem cas_gives (w : Nat) (x : Word) : AtomGives (.cas x) w fun old b => if old = x.toNat % 2 ^ (8 * w) then b else old :=
  fun old _ b hb => by
    simp only [AtomOp.apply]
    split
    · exact (Nat.mod_eq_of_lt hb).symm
    · rfl

theorem fadd_gives (rm : BitVec 2) : AtomGives (.fadd rm) 4 fun old b => (Flt.addF Flt.f32 rm old b).1 % 2 ^ 32 := fun _ _ _ _ => rfl

end

/-- An atomic that raises no flag. -/
theorem atomicHere_atom (hw : w ∣ 8) (hform : i.form = .m op o) (k : AtomOp) {new : Nat → Nat → Nat} (he : ∀ s, exec i s = s.atom op o w k)
    (hnew : AtomGives k w new) : AtomicHere i o w fun _ old b => (new old b, 0) :=
  atomicHere_of hw hform (k := fun _ => k) he (fun _ _ _ s => by rw [mapCx_raise_zero]) fun _ => hnew

theorem atomicHere_cas (hw : w ∣ 8) (hform : i.form = .m op o) (he : ∀ s, exec i s = s.cas op o w) : AtomicHere i o w fun c old b =>
    (if old = (c.srcS [o.sa, o.sb] o.dst).toNat % 2 ^ (8 * w) then b else old, 0) :=
  atomicHere_of hw hform (k := fun c => .cas (c.srcS [o.sa, o.sb] o.dst)) he (fun _ _ _ s => by rw [mapCx_raise_zero])
    fun c => cas_gives w _

theorem reductionHere_reduce (hw : w ∣ 8) (hform : i.form = .m op o) (k : AtomOp) {new : Nat → Nat → Nat}
    (he : ∀ s, exec i s = s.reduce op o w k) (hnew : AtomGives k w new) : ReductionHere i o w fun _ old b => new old b :=
  reductionHere_of hw hform (k := fun _ => k) he fun _ => hnew

/-- Settles O18: one that may act at once is a touch of its word, and each operation gives what R263 says of it. -/
theorem atomicsAndReductions : Obligations.AtomicsAndReductions := by
  unfold Obligations.AtomicsAndReductions
  have h4 : 4 ∣ 8 := by decide
  have h8 : 8 ∣ 8 := by decide
  refine ⟨fun o => ⟨⟨?_, ?_⟩, ⟨?_, ?_⟩, ⟨?_, ?_⟩, ⟨?_, ?_⟩, ⟨?_, ?_⟩, ⟨?_, ?_⟩, ⟨?_, ?_⟩, ⟨?_, ?_⟩, ⟨?_, ?_⟩, ?_, ?_, ?_⟩,
    fun o => ⟨?_, ?_, ?_, ?_, ?_, ?_, ?_⟩⟩
  · exact atomicHere_atom (op := 0x055) h4 rfl .add (fun _ => rfl) (add_gives 4)
  · exact atomicHere_atom (op := 0x056) h8 rfl .add (fun _ => rfl) (add_gives 8)
  · exact atomicHere_atom (op := 0x057) h4 rfl .and (fun _ => rfl) (and_gives 4)
  · exact atomicHere_atom (op := 0x058) h8 rfl .and (fun _ => rfl) (and_gives 8)
  · exact atomicHere_atom (op := 0x059) h4 rfl .or (fun _ => rfl) (or_gives 4)
  · exact atomicHere_atom (op := 0x05A) h8 rfl .or (fun _ => rfl) (or_gives 8)
  · exact atomicHere_atom (op := 0x05B) h4 rfl .xor (fun _ => rfl) (xor_gives 4)
  · exact atomicHere_atom (op := 0x05C) h8 rfl .xor (fun _ => rfl) (xor_gives 8)
  · exact atomicHere_atom (op := 0x05D) h4 rfl .minS (fun _ => rfl) (minS_gives 3)
  · exact atomicHere_atom (op := 0x05E) h8 rfl .minS (fun _ => rfl) (minS_gives 7)
  · exact atomicHere_atom (op := 0x05F) h4 rfl .minU (fun _ => rfl) (minU_gives 4)
  · exact atomicHere_atom (op := 0x060) h8 rfl .minU (fun _ => rfl) (minU_gives 8)
  · exact atomicHere_atom (op := 0x061) h4 rfl .maxS (fun _ => rfl) (maxS_gives 3)
  · exact atomicHere_atom (op := 0x062) h8 rfl .maxS (fun _ => rfl) (maxS_gives 7)
  · exact atomicHere_atom (op := 0x063) h4 rfl .maxU (fun _ => rfl) (maxU_gives 4)
  · exact atomicHere_atom (op := 0x064) h8 rfl .maxU (fun _ => rfl) (maxU_gives 8)
  · exact atomicHere_atom (op := 0x065) h4 rfl .xchg (fun _ => rfl) (xchg_gives 4)
  · exact atomicHere_atom (op := 0x066) h8 rfl .xchg (fun _ => rfl) (xchg_gives 8)
  · exact atomicHere_cas (op := 0x067) h4 rfl fun _ => rfl
  · have h := atomicHere_cas (i := .acasD o) (op := 0x068) h8 rfl fun _ => rfl
    have hmod (x : Word) : x.toNat % 2 ^ (8 * 8) = x.toNat := Nat.mod_eq_of_lt x.isLt
    simpa only [hmod] using h
  · exact atomicHere_of (op := 0x069) h4 rfl (k := fun c => .fadd c.rm) (fun _ => rfl)
      (fun c _ b s => congrArg (State.done · _) (putScalar_raise s _ _ _)) fun c => fadd_gives c.rm
  · exact reductionHere_reduce (op := 0x06A) h4 rfl .add (fun _ => rfl) (add_gives 4)
  · exact reductionHere_reduce (op := 0x06B) h8 rfl .add (fun _ => rfl) (add_gives 8)
  · exact reductionHere_of (op := 0x06C) h4 rfl (k := fun c => .fadd c.rm) (fun _ => rfl) fun c => fadd_gives c.rm
  · exact reductionHere_reduce (op := 0x06D) h4 rfl .maxS (fun _ => rfl) (maxS_gives 3)
  · exact reductionHere_reduce (op := 0x06E) h8 rfl .maxS (fun _ => rfl) (maxS_gives 7)
  · exact reductionHere_reduce (op := 0x06F) h4 rfl .maxU (fun _ => rfl) (maxU_gives 4)
  · exact reductionHere_reduce (op := 0x070) h8 rfl .maxU (fun _ => rfl) (maxU_gives 8)

end

end Sys2Proof.Machine
end

section
/-! PROOF. The engine forms (R323, R326, R334): the block is a plain load of the seat's scratchpad, and the command joins its queue. -/

namespace Sys2Proof.Machine

open Sys2Proof.Bits

section
variable {s u : State} {c e d : Ctx} {bytes : List (Nat × Byte)}

/-- A change of the context apart from its open region, made before and after a touch. -/
theorem Touched.mapCx (h : Touched s u c e bytes) (hc : s.cx = some c) (k : Ctx → Ctx) (hnum : ∀ x, (k x).num = x.num)
    (hk : ∀ l x m, k (c.withRegion l x m) = (k c).withRegion l x m) : Touched (s.mapCx k) (u.mapCx k) (k c) (k e) bytes where
  focus := by rw [State.mapCx_cx, h.focus]; rfl
  region := by
    obtain ⟨l, x, m, rfl⟩ := h.region
    exact ⟨l, x, m, hk l x m⟩
  others n hn := by
    rw [hnum] at hn
    rw [findCtx_mapCx h.focus (hnum e) (h.num.symm ▸ hn), findCtx_mapCx hc (hnum c) hn, h.others n hn]
  mem := h.mem
  control := h.control
  sched := h.sched
  fabric := h.fabric
  complex := h.complex
  clocks := h.clocks
  owes := h.owes
  cur := h.cur

/-- The frame of an access of a context that has changed is one of the context as it was. -/
theorem OthersKeep.of_mapCx {t : State} {k : Ctx → Ctx} {out : Option Vec} (hc : s.cx = some c) (hnum : (k c).num = c.num)
    (hnext : (k c).nextMember = c.nextMember) (h : OthersKeep (s.mapCx k) t (k c) out) : OthersKeep s t c out := by
  intro n hn
  rw [h n (hnum.symm ▸ hn), findCtx_mapCx hc hnum hn, hnext]

theorem WritesOnly.of_mapCx {t : State} {k : Ctx → Ctx} {held : List Nat} (h : WritesOnly (s.mapCx k) t held) : WritesOnly s t held :=
  ⟨h.bytes, h.control, h.sched, h.fabric, h.complex, h.clocks, h.owes⟩

/-- A step that is owed beside what an access leaves. -/
theorem WritesOnly.owe {t : State} {held : List Nat} (h : WritesOnly s t held) (i : Instr) :
    WritesOnly s { t.owe i with pend := s.pend } held ∧ (t.owe i).pend = s.pend ++ [i] :=
  ⟨⟨h.bytes, h.control, h.sched, h.fabric, h.complex, h.clocks, rfl⟩, by rw [← h.owes]; rfl⟩

theorem OthersKeep.owe {t : State} {out : Option Vec} (h : OthersKeep s t c out) (i : Instr) : OthersKeep s (t.owe i) c out := h

end

section
variable {i : Instr} {o : EOps} {op : BitVec 9} {coll : Bool} {s : State} {c : Ctx} {bytes : List Byte}

/-- The command that an engine form makes of the block it has read (R323, R326, R333). -/
def Ctx.newCmd (c : Ctx) (op : BitVec 9) (o : EOps) (qi : Nat) (b : Option GBind) (bytes : List Byte) : Cmd :=
  { num := (c.vq qi).issued + 1, op := op, block := BitVec.ofNat 512 (valOf bytes), et := o.et, ke := o.ke,
    pattern := c.srcS [o.sa] o.sb, indexLa := (c.srcS [o.sa, o.sb] o.sc).toNat % 2 ^ 17,
    rank := c.csrs.rank.toNat % 2 ^ 32, rm := c.rm, pc := c.pc, bind := (b.map (·.word)).getD 0,
    timeout := (b.map (·.timeout)).getD 0, inst := (b.map (·.seq)).getD 0, phase := .issued, src := 0, dst := 0,
    srcHdl := 0, dstHdl := 0, srcBase := 0, dstBase := 0, lands := [], dests := [], asked := false, fetched := false,
    acks := 0, done := 0, status := 0, flags := 0, arrived := 0, missing := [], stop := none, born := c.retires, times := [] }

/-- A context that has issued a command: its queue holds it, and a collective's binding counts it (R323, R333). -/
def Ctx.issues (c : Ctx) (qi : Nat) (k : Cmd) (coll : Bool) (slot : Nat) (b : Option GBind) : Ctx :=
  { c.mapVq qi fun q => { q with issued := k.num, cmds := q.cmds ++ [k] } with
    gbinds := if coll then setAt c.gbinds slot (b.map fun g => { g with seq := (g.seq + 1) % 65536 }) else c.gbinds }

theorem issuesCommand_engineForm (hform : i.form = .e op o) (he : ∀ s, exec i s = s.engineForm op o)
    (hcoll : decide (0x147 ≤ op.toNat) = coll) : IssuesCommand i o op coll := by
  intro s c held hr hport la qi slot bound hal hlo hhi hbound hroom offs hready hheld
  rw [hform] at hr ⊢
  have hslot : field o.ke.toNat 0 2 = slot := field_zero _ _
  let b := if coll then bound else none
  have hb : coll = true → b.isNone = false := fun h => by
    unfold b
    rw [if_pos h]
    exact Option.isNone_eq_false_iff.mpr (hbound h)
  let k := c.newCmd op o qi b (s.plainBytes c offs held)
  let g (d : Ctx) : Ctx := d.issues qi k coll slot b
  obtain ⟨u, e, htouch, hload⟩ := loadHere_plain hready hr.seat hheld
  have hg := htouch.mapCx hr.seat g (fun _ => rfl) fun _ _ _ => rfl
  obtain ⟨d, hregs, hd, hpass, hframe, hoth, -⟩ := hg.scalar (.e op o) o.dst (BitVec.ofNat 64 k.num) 0
  rw [mapCx_raise_zero] at hd hframe hoth
  have hwrites := (hframe [] fun _ hb => nomatch hb).of_mapCx
  have hothers := hoth.of_mapCx hr.seat rfl rfl
  obtain ⟨howes, hpend⟩ := hwrites.owe (.copyAccept (if coll then .coll else .copy) c.num o.vq.toNat k.num)
  have heng : engOf qi = if coll then .coll else .copy := by
    have hvq := o.vq.isLt
    unfold engOf qi
    cases coll
    · simp
      omega
    · simp
  refine ⟨(((u.mapCx g).putScalar o.dst (BitVec.ofNat 64 k.num)).done (.e op o)).owe
      (.copyAccept (if coll then .coll else .copy) c.num o.vq.toNat k.num), d, k, ?_, hd, hregs, rfl, rfl, rfl, rfl, rfl, rfl, rfl, rfl, rfl,
    fun h => ?_, ?_, howes, hpend, hothers.owe _⟩
  · rw [he, State.engineForm, run_ready (f := .e op o) hr]
    have hin : ¬ 16 ≤ (c.vq qi).cmds.length := Nat.not_le.mpr hroom
    dsimp only
    rw [hcoll, hslot]
    refine congrArg Host.Outcome.next ?_
    change (if (!isPort c.num && la % 64 != 0) = true then _ else if (!isPort c.num && (decide (la < 0x100) || decide (0x1FFC0 < la))) = true
      then _ else if coll = true ∧ b.isNone = true then _ else if 16 ≤ (c.vq qi).cmds.length then _ else _) = _
    rw [if_neg (by simp [hal]), if_neg (by simp [hlo, hhi]), if_neg (fun h => by simp [hb h.1] at h), if_neg hin]
    unfold State.withBlock
    rw [if_neg (by simp [hport]), hload, ← heng]
    rfl
  · obtain ⟨x, hx⟩ := Option.isSome_iff_exists.mp (hbound h)
    simp [k, Ctx.newCmd, b, h, hx]
  · cases coll
    · exact hpass
    · exact hpass

/-- Settles O35: every copy, fill and collective form is an engine form of its own code. -/
theorem engineCommands : Obligations.EngineCommands := by
  unfold Obligations.EngineCommands
  refine fun o => ⟨?_, ?_, ?_, ?_, ?_, ?_, ?_, ?_, ?_, ?_, ?_, ?_, ?_, ?_, ?_, ?_, ?_⟩
  · exact issuesCommand_engineForm (op := 0x140) rfl (fun _ => rfl) (by decide)
  · exact issuesCommand_engineForm (op := 0x141) rfl (fun _ => rfl) (by decide)
  · exact issuesCommand_engineForm (op := 0x142) rfl (fun _ => rfl) (by decide)
  · exact issuesCommand_engineForm (op := 0x143) rfl (fun _ => rfl) (by decide)
  · exact issuesCommand_engineForm (op := 0x144) rfl (fun _ => rfl) (by decide)
  · exact issuesCommand_engineForm (op := 0x145) rfl (fun _ => rfl) (by decide)
  · exact issuesCommand_engineForm (op := 0x146) rfl (fun _ => rfl) (by decide)
  · exact issuesCommand_engineForm (op := 0x147) rfl (fun _ => rfl) (by decide)
  · exact issuesCommand_engineForm (op := 0x148) rfl (fun _ => rfl) (by decide)
  · exact issuesCommand_engineForm (op := 0x149) rfl (fun _ => rfl) (by decide)
  · exact issuesCommand_engineForm (op := 0x14A) rfl (fun _ => rfl) (by decide)
  · exact issuesCommand_engineForm (op := 0x14B) rfl (fun _ => rfl) (by decide)
  · exact issuesCommand_engineForm (op := 0x14C) rfl (fun _ => rfl) (by decide)
  · exact issuesCommand_engineForm (op := 0x14D) rfl (fun _ => rfl) (by decide)
  · exact issuesCommand_engineForm (op := 0x14E) rfl (fun _ => rfl) (by decide)
  · exact issuesCommand_engineForm (op := 0x14F) rfl (fun _ => rfl) (by decide)
  · exact issuesCommand_engineForm (op := 0x150) rfl (fun _ => rfl) (by decide)

end

end Sys2Proof.Machine
end

section
/-! PROOF. The message forms (R338, R340, R342, R377): SEND puts its message into the network, MBSET sets the seat's mailbox, and RECV is a
plain load of the slot at HEAD. -/

namespace Sys2Proof.Machine

open Sys2Proof.Bits

section
variable {s u t : State} {c e : Ctx} {i : Instr} {o : EOps} {op : BitVec 9}

/-! ## Mailboxes -/

theorem core_mapCore (s : State) (core k : Nat) (f : Core → Core) : (s.mapCore core f).core k = if k = core then f (s.core core) else s.core k := by
  unfold State.core
  rw [State.mapCore_cores, look_put]
  by_cases h : k = core
  · rw [if_pos h, if_pos h.symm]
    rfl
  · rw [if_neg h, if_neg (Ne.symm h)]

theorem mailbox_setMailbox (s : State) (core : Nat) (net : Bool) (m : Mailbox) : ((s.setMailbox core net m).core core).mailbox net = m := by
  unfold State.setMailbox
  rw [core_mapCore, if_pos rfl]
  cases net <;> rfl

theorem mailbox_setMailbox_other (s : State) (core : Nat) (net : Bool) (m : Mailbox) :
    ((s.setMailbox core net m).core core).mailbox (!net) = (s.core core).mailbox (!net) := by
  unfold State.setMailbox
  rw [core_mapCore, if_pos rfl]
  cases net <;> rfl

theorem core_setMailbox_ne (s : State) {core k : Nat} (h : k ≠ core) (net : Bool) (m : Mailbox) : (s.setMailbox core net m).core k = s.core k := by
  unfold State.setMailbox
  rw [core_mapCore, if_neg h]

theorem core_congr (h : t.cores = s.cores) (k : Nat) : t.core k = s.core k := by
  unfold State.core
  rw [h]

/-! ## SEND (R340) -/

theorem send_gives {net : Bool} (hform : i.form = .e op o) (he : ∀ s, exec i s = s.sendForm op o net) :
    let w (c : Ctx) : Word := c.srcS [o.sa] o.sb
    let q (c : Ctx) : List Msg := (c.sendq[netAt net]?).getD []
    let m (s : State) (c : Ctx) : Msg :=
      { net := net, core := field (w c).toNat 0 11, word := w c, part := c.part, tenant := c.tenant, lslot := some c.lslot, cls := c.cls,
        dev := s.devNum, ctx := c.num, pc := c.pc, born := c.retires, seq := s.fresh, data := (c.srcV [] o.sa).setWidth 512 }
    let valid (c : Ctx) : Prop := field (w c).toNat 11 1 = 0 ∧ field (w c).toNat 24 40 = 0 ∧ field (w c).toNat 0 11 < Config.cores
    Gives i (fun s c => valid c ∧ (q c).length < 8 ∧ s.ownOut c = false ∧ s.wordDev (w c) = s.devNum)
        (fun s c => { c with sendq := setAt c.sendq (netAt net) (q c ++ [m s c]) }) none
        (fun s c t => Quiet s { t with pend := s.pend, fabric := s.fabric }
          ∧ t.fabric = { s.fabric with msgs := s.fabric.msgs ++ [m s c] }
          ∧ t.pend = s.pend ++ [.messageLand net (field (w c).toNat 0 11)])
      ∧ ∀ s c, Ready s c i.form → valid c → 8 ≤ (q c).length → exec i s = .next (s.trapEntry 2 (if net then 1 else 0)) := by
  intro w q m valid
  refine ⟨gives_changed fun s c hr ⟨⟨h11, h24, hcore⟩, hlen, hown, hdev⟩ => ?_, fun s c hr ⟨h11, h24, hcore⟩ hlen => ?_⟩
  · rw [hform] at hr ⊢
    have hgood : ¬ (field (w c).toNat 11 1 ≠ 0 ∨ field (w c).toNat 24 40 ≠ 0 ∨ Config.cores ≤ field (w c).toNat 0 11) := by omega
    let g (d : Ctx) : Ctx := { d with sendq := setAt d.sendq (netAt net) (q c ++ [m s c]) }
    have ha := alters_mapCx hr.seat g rfl rfl rfl rfl rfl
    refine ⟨(({ s.mapCx g with fresh := s.fresh + 1, fabric := { s.fabric with msgs := s.fabric.msgs ++ [m s c] } } : State).owe
      (.messageLand net (field (w c).toNat 0 11))), ?_, ⟨ha.focus, ha.num, ha.regs, ha.pc, ha.repst, ha.next, ha.others⟩, fun t ht => ?_⟩
    · rw [he, State.sendForm, run_ready (f := .e op o) hr]
      dsimp only
      rw [if_neg hgood, if_neg (Nat.not_le.mpr hlen), if_neg (by simp [hown])]
      unfold State.launchMsg
      dsimp only
      exact congrArg (fun s : State => Host.Outcome.next (s.done (.e op o))) (if_pos hdev)
    · exact ⟨⟨ht.bytes, ht.control, ht.cores, ht.slices, ht.sched, rfl, ht.complex, ht.clocks, rfl, ht.sent⟩, ht.fabric, ht.owes⟩
  · rw [hform] at hr
    have hgood : ¬ (field (w c).toNat 11 1 ≠ 0 ∨ field (w c).toNat 24 40 ≠ 0 ∨ Config.cores ≤ field (w c).toNat 0 11) := by omega
    rw [he, State.sendForm, run_ready (f := .e op o) hr]
    dsimp only
    rw [if_neg hgood, if_pos hlen]
    cases net <;> rfl

/-! ## MBSET (R338) -/

/-- What MBSET leaves of the mailboxes. -/
theorem setMailbox_becomes {net : Bool} {m : Mailbox}
    (ht : Quiet ((s.setMailbox s.cur.core net m).owe (.messageLand net s.cur.core)) t) :
    Quiet s { t with pend := s.pend, cores := s.cores } ∧ t.pend = s.pend ++ [.messageLand net s.cur.core]
      ∧ (t.core s.cur.core).mailbox net = m ∧ (t.core s.cur.core).mailbox (!net) = (s.core s.cur.core).mailbox (!net)
      ∧ ∀ k, k ≠ s.cur.core → t.core k = s.core k := by
  have hcore := core_congr ht.cores
  refine ⟨⟨ht.bytes, ht.control, rfl, ht.slices, ht.sched, ht.fabric, ht.complex, ht.clocks, rfl, ht.sent⟩, ht.owes, ?_, ?_, fun k hk => ?_⟩
  · rw [hcore]
    exact mailbox_setMailbox s s.cur.core net m
  · rw [hcore]
    exact mailbox_setMailbox_other s s.cur.core net m
  · rw [hcore]
    exact core_setMailbox_ne s hk net m

theorem alters_setMailbox (hc : s.cx = some c) (net : Bool) (m : Mailbox) :
    Alters s ((s.setMailbox s.cur.core net m).owe (.messageLand net s.cur.core)) c c :=
  ⟨hc, rfl, rfl, rfl, rfl, rfl, fun _ _ => rfl⟩

theorem mbset_gives {net : Bool} (hform : i.form = .e op o) (he : ∀ s, exec i s = s.mbset op o net) :
    let a (c : Ctx) : Word := c.srcS [] o.sa
    let b (c : Ctx) : Nat := (c.srcS [o.sa] o.sb).toNat
    let n := o.ke.toNat % 16
    let becomes (m : State → Ctx → Mailbox) (s : State) (c : Ctx) (t : State) : Prop :=
      Quiet s { t with pend := s.pend, cores := s.cores } ∧ t.pend = s.pend ++ [.messageLand net s.cur.core]
      ∧ (t.core s.cur.core).mailbox net = m s c ∧ (t.core s.cur.core).mailbox (!net) = (s.core s.cur.core).mailbox (!net)
      ∧ ∀ k, k ≠ s.cur.core → t.core k = s.core k
    Gives i (fun _ c => a c = 0) (fun _ c => c) none
        (becomes fun _ c => { base := 0, lsl := 0, head := 0, tail := 0, record := 0, ctr := 0, part := c.part, owner := none })
      ∧ Gives i
        (fun _ c => a c ≠ 0 ∧ field (a c).toNat 0 17 % 64 = 0 ∧ n ≤ 10 ∧ c.covers (field (a c).toNat 0 17) (64 * 2 ^ n) = true)
        (fun _ c => c) none
        (becomes fun _ c => { base := field (a c).toNat 0 17, lsl := n, head := 0, tail := 0, record := field (b c) 0 32,
                              ctr := field (b c) 32 2, part := c.part, owner := some c.num }) := by
  intro a b n becomes
  have hn : field o.ke.toNat 0 4 = n := field_zero _ _
  refine ⟨gives_changed fun s c hr ha => ?_, gives_changed fun s c hr ⟨ha, hal, hsize, hcov⟩ => ?_⟩
  · rw [hform] at hr ⊢
    refine ⟨_, ?_, alters_setMailbox hr.seat net _, fun t ht => setMailbox_becomes ht⟩
    rw [he, State.mbset, run_ready (f := .e op o) hr]
    dsimp only
    rw [if_pos ha]
    rfl
  · rw [hform] at hr ⊢
    refine ⟨_, ?_, alters_setMailbox hr.seat net _, fun t ht => setMailbox_becomes ht⟩
    have hfits : ¬ (field (a c).toNat 0 17 % 64 ≠ 0 ∨ 10 < n ∨ (!c.covers (field (a c).toNat 0 17) (64 * 2 ^ n)) = true) := by
      rw [hcov, Bool.not_true]
      rintro (h | h | h)
      · exact h hal
      · exact absurd hsize (Nat.not_le.mpr h)
      · cases h
    rw [he, State.mbset, run_ready (f := .e op o) hr]
    dsimp only
    rw [hn, if_neg ha, if_neg hfits]

/-! ## RECV (R342, R377) -/

/-- The registers of a context that has received: a full mask, and the slot at DST and in y1. -/
def Regs.received (r : Regs) (mask : Nat) (dst : Spec) (w : Vec) : Regs := { (r.setM mask (BitVec.allOnes 128)).putV dst w with y1 := w }

/-- A context that has received: a register result still owed at DST is owed no more (R270). -/
def Ctx.receives (c : Ctx) (mask : Nat) (dst : Spec) (w : Vec) : Ctx :=
  { c with regs := c.regs.received mask dst w, order := c.order.settle dst }

theorem putMask_putVector (s : State) (mask : Nat) (dst : Spec) (w : Vec) : (s.putMask mask (BitVec.allOnes 128)).putVector dst w
    = (s.mapCx fun c => c.receives mask dst w).pushOpt (if dst = specNx then some w else none) := by
  unfold State.putVector State.putMask
  dsimp only
  rw [mapCx_mapCx]
  by_cases h : dst = specNx
  · rw [if_pos h, if_pos (beq_iff_eq.mpr h)]
    rfl
  · rw [if_neg h, if_neg (beq_iff_eq.not.mpr h)]
    rfl

theorem pushOpt_cores (s : State) (out : Option Vec) : (s.pushOpt out).cores = s.cores := by
  unfold State.pushOpt State.pushNx
  cases out with
  | none => rfl
  | some w =>
    dsimp only
    cases s.cx with
    | none => rfl
    | some c => dsimp only; split <;> rfl

theorem putV_m (r : Regs) (dst : Spec) (w : Vec) : ({ r.putV dst w with y1 := w } : Regs).m = r.m := by
  unfold Regs.putV
  split
  · rfl
  · split <;> rfl

theorem recv_receives {net : Bool} (hform : i.form = .e op o) (he : ∀ s, exec i s = s.recv op o net) {s : State} {c : Ctx}
    (hr : Ready s c i.form) :
    let m := s.mailboxOf c s.cur.core net
    ((m.base = 0 ∨ m.count = 0) → ∃ t d, exec i s = .next t ∧ t.cx = some d ∧ MaskRegs c.regs d.regs o.sc 0
        ∧ Advances c d i.form 0 (c.nextPc i.form) ∧ Quiet s t ∧ OthersKeep s t c none)
      ∧ (m.base ≠ 0 → m.count ≠ 0 → ∀ held,
        let offs := (List.range 64).map fun j => padOff s.cur.core (m.base + 64 * (m.head % 2 ^ m.lsl) + j)
        PlainReady s c (s.raceLines c.tenant offs) → s.heldSeat c.tenant offs = .inl held →
        let v : Vec := BitVec.ofNat 1024 (valOf (s.plainBytes c offs held))
        ∃ t d, exec i s = .next t ∧ t.cx = some d ∧ d.regs.y1 = v ∧ d.regs.y0 = c.regs.y0 ∧ d.regs.s = c.regs.s
          ∧ (∀ n < 32, d.regs.getV n = if o.dst.toNat = 0x40 + n then v else c.regs.getV n)
          ∧ (∀ n < 8, d.regs.getO n = if o.dst.toNat = 0x60 + n then v else c.regs.getO n)
          ∧ (∀ n < 8, d.regs.getM n = if o.sc.toNat = n ∧ n ≠ 0 then BitVec.allOnes 128 else c.regs.getM n)
          ∧ (t.core s.cur.core).mailbox net = { m with head := (m.head + 1) % 65536 }
          ∧ Passes c d i.form 0 (c.nextPc i.form) ∧ WritesOnly s { t with pend := s.pend } []
          ∧ t.pend = s.pend ++ [.messageLand net s.cur.core]) := by
  rw [hform] at hr ⊢
  intro m
  refine ⟨fun hnone => ?_, ?_⟩
  · obtain ⟨d, hd, hregs, hadv, hquiet, hoth⟩ := mask_result (.e op o) o.sc 0 0 hr.seat
    rw [mapCx_raise_zero] at hd hquiet hoth
    refine ⟨_, d, ?_, hd, hregs, hadv, hquiet, hoth⟩
    rw [he, State.recv, run_ready (f := .e op o) hr]
    exact congrArg Host.Outcome.next (if_pos hnone)
  · intro hbase hcount held offs hready hheld v
    obtain ⟨u, e, htouch, hload⟩ := loadHere_plain hready hr.seat hheld
    let m' : Mailbox := { m with head := (m.head + 1) % 65536 }
    let u1 := u.setMailbox s.cur.core net m'
    have htouch1 : Touched s u1 c e [] := htouch.cores _
    let g (d : Ctx) : Ctx := d.receives o.sc.toNat o.dst v
    let u2 := (u1.putMask o.sc.toNat (BitVec.allOnes 128)).putVector o.dst v
    obtain ⟨d, hd, hregs, hpass, hframe, -, -⟩ := htouch1.result (v := u2) (.e op o) g (if o.dst = specNx then some v else none) 0
      (fun d => by simp [g, Ctx.receives]; rfl) (putMask_putVector u1 _ _ _)
    have heregs : e.regs = c.regs := by
      obtain ⟨l, x, k, rfl⟩ := htouch1.region
      rfl
    rw [show (g e).regs = c.regs.received o.sc.toNat o.dst v by rw [← heregs]; rfl] at hregs
    have hmask := setM_spec c.regs o.sc (BitVec.allOnes 128)
    have hvec := putV_spec (c.regs.setM o.sc.toNat (BitVec.allOnes 128)) o.dst v
    have hm : (Regs.received c.regs o.sc.toNat o.dst v).m = (c.regs.setM o.sc.toNat (BitVec.allOnes 128)).m := putV_m _ _ _
    refine ⟨(u2.done (.e op o)).owe (.messageLand net s.cur.core), d, ?_, hd, ?_, ?_, ?_, fun n hn => ?_, fun n hn => ?_, fun n hn => ?_,
      ?_, hpass, ?_⟩
    · rw [he, State.recv, run_ready (f := .e op o) hr]
      dsimp only
      rw [if_neg (not_or.mpr ⟨hbase, hcount⟩), hload, htouch.cur]
      rfl
    · rw [hregs]
      rfl
    · rw [hregs]
      exact hvec.y0.trans hmask.results.1
    · rw [hregs]
      exact hvec.scalars.trans hmask.scalars
    · rw [hregs]
      refine (hvec.vectors n hn).trans ?_
      rw [Regs.getV, Regs.getV, hmask.vectors]
    · rw [hregs]
      refine (hvec.operands n hn).trans ?_
      rw [Regs.getO, Regs.getO, hmask.operands]
    · rw [hregs, ← hmask.masks n hn, Regs.getM, Regs.getM, hm]
    · have hcores : u2.cores = u1.cores := by
        unfold u2
        rw [putMask_putVector, pushOpt_cores]
        rfl
      rw [core_congr (s := u1) (t := (u2.done (.e op o)).owe _) hcores]
      exact mailbox_setMailbox u s.cur.core net m'
    · exact (hframe [] fun _ hb => nomatch hb).owe _

/-- Settles O37. -/
theorem messageForms : Obligations.MessageForms := by
  unfold Obligations.MessageForms
  refine fun o => ⟨?_, ?_, ?_, ?_, ?_, ?_⟩
  · exact send_gives (op := 0x153) rfl fun _ => rfl
  · exact send_gives (op := 0x154) rfl fun _ => rfl
  · exact mbset_gives (op := 0x157) rfl fun _ => rfl
  · exact mbset_gives (op := 0x158) rfl fun _ => rfl
  · exact fun s c hr => recv_receives (op := 0x155) rfl (fun _ => rfl) hr
  · exact fun s c hr => recv_receives (op := 0x156) rfl (fun _ => rfl) hr

end

end Sys2Proof.Machine
end

section
/-! PROOF. O46: fatal faults and their reports (R358 to R362). The end of a firing keeps the registers that name the ring and the pool, so
the report is read from the ring of the state that the fault found. -/

namespace Sys2Proof.Machine

open Sys2Proof.Bits

/-! ## What the end of a firing keeps -/

/-- A register that counts no versions and no energy, and names no core: the rings, the partition table and the mode are such. -/
def Steady (off : Nat) : Prop := off ≠ devstat ∧ (off < 0x10000 ∨ 0x10400 ≤ off) ∧ off < 0x48000

theorem steady_fltring {p w : Nat} (hp : p < 64) (hw : w < 2) : Steady (fltring p w) := by
  unfold Steady fltring devstat
  omega

theorem steady_parttab {p w : Nat} (hp : p < 64) (hw : w < 8) : Steady (parttab p w) := by
  unfold Steady parttab devstat
  omega

theorem steady_modectl : Steady modectl := by
  unfold Steady modectl devstat
  omega

/-- No byte of memory and no context changes, no record begins or ends its life, and of the control block only counts and the cores in
service. -/
structure Tidies (s t : State) : Prop where
  control : ∀ off, Steady off → t.dcbGet off = s.dcbGet off
  focus : t.cx = s.cx
  seats : t.seats = s.seats
  saved : t.saved = s.saved
  live : t.sched.live = s.sched.live
  mem : t.mem = s.mem

section
variable {s t u : State} {c : Ctx}

theorem Tidies.refl (s : State) : Tidies s s := ⟨fun _ _ => rfl, rfl, rfl, rfl, rfl, rfl⟩

theorem Tidies.trans (h : Tidies s t) (k : Tidies t u) : Tidies s u :=
  ⟨fun off ho => (k.control off ho).trans (h.control off ho), k.focus.trans h.focus, k.seats.trans h.seats, k.saved.trans h.saved,
    k.live.trans h.live, k.mem.trans h.mem⟩

theorem Tidies.foldl {α : Type} {f : State → α → State} (hf : ∀ s a, Tidies s (f s a)) (l : List α) (s : State) : Tidies s (l.foldl f s) := by
  induction l generalizing s with
  | nil => exact .refl s
  | cons a l ih => exact (hf s a).trans (ih (f s a))

theorem Tidies.findCtx (h : Tidies s t) (n : Nat) : t.findCtx n = s.findCtx n := by
  unfold State.findCtx
  rw [h.focus, h.seats, h.saved]

theorem Tidies.recLive (h : Tidies s t) (p idx : Nat) : t.recLive p idx = s.recLive p idx := by
  unfold State.recLive
  rw [h.live]

theorem Tidies.dcbField (h : Tidies s t) {off : Nat} (ho : Steady off) (lo len : Nat) : t.dcbField off lo len = s.dcbField off lo len := by
  unfold State.dcbField
  rw [h.control off ho]

theorem Tidies.recAddr (h : Tidies s t) {p : Nat} (hp : p < 64) (idx : Nat) : t.recAddr p idx = s.recAddr p idx := by
  unfold State.recAddr State.poolBase
  rw [h.dcbField (steady_parttab hp (by decide))]

theorem Tidies.hbmEnd (h : Tidies s t) : t.hbmEnd = s.hbmEnd := by
  unfold State.hbmEnd State.confidential
  rw [h.control _ steady_modectl]

theorem Tidies.dcbSet (s : State) {off : Nat} (ho : ¬ Steady off) (v : Word) : Tidies s (s.dcbSet off v) :=
  ⟨fun k hk => by rw [State.dcbGet_dcbSet, if_neg fun (e : off = k) => ho (e ▸ hk)], rfl, rfl, rfl, rfl, rfl⟩

theorem Tidies.send (s : State) (x : Sent) : Tidies s (s.send x) := ⟨fun _ _ => rfl, rfl, rfl, rfl, rfl, rfl⟩

theorem Tidies.owe (s : State) (i : Instr) : Tidies s (s.owe i) := ⟨fun _ _ => rfl, rfl, rfl, rfl, rfl, rfl⟩

/-- What changes the cores, the home slices, the launch entries or the contexts that have ended. -/
theorem Tidies.rest (s : State) (x : List (Nat × Core)) (y : Slices) (z : List Launch) (e : List Ctx) :
    Tidies s { s with cores := x, slices := y, sched := { s.sched with launches := z }, ended := e } :=
  ⟨fun _ _ => rfl, rfl, rfl, rfl, rfl, rfl⟩

theorem Tidies.packets (s : State) (c : Ctx) (body : PktBody) (l : List Nat) : Tidies s (l.foldl (fun s d => s.packet c d body) s) :=
  .foldl (fun s _ => .send s _) l s

theorem Tidies.depart (s : State) (c : Ctx) : Tidies s (s.depart c) := by
  unfold State.depart
  exact (Tidies.foldl (fun s _ => .send s _) _ s).trans (.foldl (fun s _ => .send s _) _ _)

theorem Tidies.addPenergy (s : State) (c : Ctx) : Tidies s (s.addPenergy c) := by
  unfold State.addPenergy
  split
  · exact .refl s
  · refine .dcbSet s (fun ⟨_, _, h⟩ => ?_) _
    unfold penergy at h
    omega

theorem Tidies.removeCore (s : State) (core : Nat) : Tidies s (s.removeCore core) := by
  have hmap : Tidies s (s.dcbSetField (oosmap (core / 64)) (core % 64) 1 1) := .dcbSet s (fun ⟨_, _, h⟩ => by unfold oosmap at h; omega) _
  have hstat (s : State) (lo len v : Nat) : Tidies s (s.dcbSetField devstat lo len v) := .dcbSet s (fun ⟨h, _⟩ => h rfl) _
  have hctl (s : State) (x : Control) : Tidies s { s with control := x } := ⟨fun _ _ => rfl, rfl, rfl, rfl, rfl, rfl⟩
  unfold State.removeCore State.countCores State.requestReplacement
  exact (((hmap.trans (hctl _ _)).trans (hstat _ _ _ _)).trans (hstat _ _ _ _)).trans (.send _ _)

theorem Tidies.noteFree (s : State) (core part : Nat) : Tidies s (s.noteFree core part) := by
  unfold State.noteFree
  split
  · exact .removeCore s core
  · extract_lets s1
    have h1 : Tidies s s1 := by
      unfold s1
      split
      · exact .owe s _
      · exact .refl s
    exact h1.trans (.foldl (fun s _ => .owe s _) _ _)

theorem Tidies.cleanEnded (s : State) : Tidies s s.cleanEnded := by
  unfold State.cleanEnded
  extract_lets gone s1
  have h1 : Tidies s s1 := (Tidies.rest s s.cores s.slices s.sched.launches _).trans (.foldl .depart _ _)
  refine h1.trans (.foldl (fun s _ => ?_) _ _)
  split
  · exact .owe s _
  · exact .refl s

theorem Tidies.endKept (s : State) (p idx : Nat) : Tidies s (s.endKept p idx) := by
  unfold State.endKept
  extract_lets mine kept s1
  split
  · exact .refl s
  · have h1 : Tidies s s1 := .foldl .addPenergy _ s
    exact (h1.trans (.rest s1 s1.cores s1.slices s1.sched.launches _)).trans (.cleanEnded _)

theorem Tidies.countRecord (s : State) (slot : Nat) (faulted : Bool) : Tidies s (s.countRecord slot faulted) := by
  unfold State.countRecord
  dsimp only
  split
  · exact (Tidies.rest s s.cores s.slices _ s.ended).trans (.owe _ _)
  · exact .rest s s.cores s.slices _ s.ended

/-! ## A line written as by no bundle (R116) -/

theorem Tidies.tarnNote (s : State) {slice : Nat} (h : slice < 128) : Tidies s (s.tarnNote slice) := by
  refine .dcbSet s (fun ⟨_, ho, _⟩ => ?_) _
  unfold tarnstat at ho
  omega

theorem Tidies.setVersion (s : State) (line : Nat) (v : Version) : Tidies s (s.setVersion line v) := by
  have hslice : homeSlice line < 128 := Nat.mod_lt _ (by decide)
  unfold State.setVersion
  extract_lets h s1 s2
  split
  · exact (Tidies.rest s s.cores _ s.sched.launches s.ended).trans (.tarnNote _ hslice)
  · exact (Tidies.rest s s.cores _ s.sched.launches s.ended).trans (.tarnNote _ hslice)

theorem Tidies.nonBundled (s : State) (line : Nat) : Tidies s (s.nonBundled line) := by
  have hdiscard (s : State) : Tidies s (s.discardPending line) := by
    unfold State.discardPending
    split
    · exact .refl s
    · exact .setVersion s _ _
  have hdoom (s : State) (slice : Nat) (ident : Word) (reason : Nat) : Tidies s (s.doom slice ident reason) := by
    unfold State.doom
    split
    · exact .refl s
    · exact .rest s s.cores _ s.sched.launches s.ended
  unfold State.nonBundled
  split
  · exact .refl s
  · split
    · exact (hdiscard s).trans (hdoom _ _ _ _)
    · exact .refl s

/-! ## The end of a firing (R248, R362) -/

theorem Tidies.dropCtx (h : Tidies s t) (n : Nat) : Tidies (s.dropCtx n) (t.dropCtx n) :=
  ⟨h.control, by unfold State.dropCtx; rw [h.focus], by simp [h.seats], by simp [h.saved], h.live, h.mem⟩

theorem clearWait_mem (s : State) (c : Ctx) : ∃ m, s.clearWait c = { s with mem := m } := by
  unfold State.clearWait
  split
  · exact ⟨_, rfl⟩
  · exact ⟨_, rfl⟩

/-- A context that is dropped is nowhere. -/
theorem findCtx_dropCtx (s : State) (n : Nat) : (s.dropCtx n).findCtx n = none := by
  have hnone : (((s.seats.filter fun p => p.2.num != n).map (·.2)) ++ s.saved.filter fun c => c.num != n).find? (fun d => d.num == n) = none := by
    refine List.find?_eq_none.mpr fun d hd => ?_
    rcases List.mem_append.mp hd with hd | hd
    · obtain ⟨p, hp, rfl⟩ := List.mem_map.mp hd
      simpa using (List.mem_filter.mp hp).2
    · simpa using (List.mem_filter.mp hd).2
  unfold State.findCtx State.dropCtx
  dsimp only
  cases s.cx with
  | none => exact hnone
  | some c =>
    by_cases h : c.num = n
    · simp only [h, if_true]
      exact hnone
    · simp only [h, if_false]
      exact hnone

/-- The release of a context: its wait is taken from memory, it is dropped, and the rest is counted. -/
theorem release_tidies (s : State) (c : Ctx) (all kept : Bool) : ∃ m, Tidies (({ s with mem := m } : State).dropCtx c.num) (s.release c all kept) := by
  obtain ⟨m, hm⟩ := clearWait_mem s c
  refine ⟨m, ?_⟩
  unfold State.release
  extract_lets rest far s0 s1 s2 s3
  have h0 : Tidies { s with mem := m } s0 := hm ▸ .packets _ c _ far
  have h2 : Tidies (({ s with mem := m } : State).dropCtx c.num) s2 :=
    (h0.dropCtx c.num).trans (.rest (s0.dropCtx c.num) s2.cores s2.slices s2.sched.launches s2.ended)
  have h3 : Tidies (({ s with mem := m } : State).dropCtx c.num) s3 := by
    unfold s3
    split
    · exact h2.trans (.rest s2 s2.cores s2.slices s2.sched.launches _)
    · exact h2.trans (.depart s2 c)
  split
  · exact h3.trans (.noteFree s3 _ _)
  · exact (h3.trans (.addPenergy s3 c)).trans (.noteFree _ _ _)

/-- What a fatal fault of a single firing settles (R362). -/
structure SettlesFault (s t : State) (c : Ctx) : Prop where
  control : ∀ off, Steady off → t.dcbGet off = s.dcbGet off
  gone : t.findCtx c.num = none
  record : c.part < 64 → s.recLive c.part c.record = true → t.recState c.part c.record = 8 ∧ t.recLive c.part c.record = false

theorem settle_single (hchain : c.chain = []) (hbundle : c.order.bundle = none) :
    s.settle c = (s.release c false false).endRecord c.part c.record .faulted := by
  unfold State.settle State.members
  simp [hchain, State.settleBundle, hbundle]

/-- The faulted record: its line is written as by no bundle, and it is live no more. -/
theorem setRecState_faulted (s : State) (p idx : Nat) : ∃ (v : State) (m : Memory) (x : Sched), Tidies s v
    ∧ m = s.mem.writeNat (s.recAddr p idx) 64 (setField (s.recBits p idx) 56 4 8) ∧ x.live = s.sched.live.filter (· != (p, idx))
    ∧ s.setRecState p idx .faulted = { v with mem := m, sched := x } := by
  have hn := Tidies.nonBundled s (s.recAddr p idx / 64 * 64)
  unfold State.setRecState State.recPut
  dsimp only
  rw [hn.mem, hn.live]
  exact ⟨_, _, _, hn, rfl, rfl, rfl⟩

theorem field_mod_pow {lo len n : Nat} (w : Nat) (h : lo + len ≤ n) : field (w % 2 ^ n) lo len = field w lo len := by
  refine Nat.eq_of_testBit_eq fun k => ?_
  simp only [testBit_field, Nat.testBit_mod_two_pow]
  by_cases hk : k < len
  · simp [hk, show lo + k < n by omega]
  · simp [hk]

/-- What the fault makes of its record (R142, R362). -/
theorem faulted_settles {r : State} {p idx : Nat} (h : Tidies (r.setRecState p idx .faulted) t) :
    (∀ off, Steady off → t.dcbGet off = r.dcbGet off) ∧ (∀ n, t.findCtx n = r.findCtx n) ∧ t.recLive p idx = false
      ∧ (p < 64 → t.recState p idx = 8) := by
  obtain ⟨v, m, x, hn, hmem, hlive, hset⟩ := setRecState_faulted r p idx
  rw [hset] at h
  refine ⟨fun off ho => (h.control off ho).trans (hn.control off ho), fun n => (h.findCtx n).trans (hn.findCtx n), ?_, fun hp => ?_⟩
  · unfold State.recLive
    rw [h.live, hlive]
    simp
  · have haddr : t.recAddr p idx = r.recAddr p idx := (h.recAddr hp idx).trans (hn.recAddr hp idx)
    unfold State.recState State.recGet State.recBits
    rw [haddr, h.mem]
    dsimp only
    rw [hmem, Memory.readNat_writeNat, field_mod_pow _ (by decide), field_setField_inside _ _ (by decide) (by decide)]
    rfl

theorem settle_settles (hchain : c.chain = []) (hbundle : c.order.bundle = none) : SettlesFault s (s.settle c) c := by
  rw [settle_single hchain hbundle]
  obtain ⟨m, hrel⟩ := release_tidies s c false false
  generalize s.release c false false = r at hrel
  have hlive : r.recLive c.part c.record = s.recLive c.part c.record := hrel.recLive _ _
  have hgone : r.findCtx c.num = none := (hrel.findCtx _).trans (findCtx_dropCtx _ _)
  unfold State.endRecord
  by_cases h : r.recLive c.part c.record = true
  · rw [if_pos h]
    obtain ⟨hcontrol, hfind, hdead, hstate⟩ := faulted_settles
      ((Tidies.countRecord (r.setRecState c.part c.record .faulted) (r.recGet c.part c.record 44 12) true).trans
        (.endKept _ c.part c.record))
    exact ⟨fun off ho => (hcontrol off ho).trans (hrel.control off ho), (hfind _).trans hgone, fun hp _ => ⟨hstate hp, hdead⟩⟩
  · rw [if_neg h]
    exact ⟨hrel.control, hgone, fun _ hl => absurd (hlive.trans hl) h⟩

end

end Sys2Proof.Machine
end

section
/-! PROOF. O46, the report itself (R360, R361): its words are fields packed one above the other, written into the ring's slot at TAIL. -/

namespace Sys2Proof.Machine

open Sys2Proof.Bits

/-! ## Packed fields -/

/-- Fields packed one above the other, each in as many bits as stand beside it. -/
def packFields : List (Nat × Nat) → Nat
  | [] => 0
  | (n, x) :: l => x + 2 ^ n * packFields l

theorem field_low {k lo len : Nat} (a b : Nat) (h : lo + len ≤ k) : field (a + 2 ^ k * b) lo len = field a lo len := by
  rw [← field_mod_pow (a + 2 ^ k * b) h, Nat.add_mul_mod_self_left, field_mod_pow a h]

theorem field_high {k a : Nat} (b lo len : Nat) (h : a < 2 ^ k) : field (a + 2 ^ k * b) (k + lo) len = field b lo len := by
  unfold field
  rw [Nat.shiftRight_add, Nat.shiftRight_eq_div_pow _ k, Nat.add_mul_div_left _ _ (Nat.two_pow_pos k), Nat.div_eq_of_lt h, Nat.zero_add]

/-- A field of packed fields is read where the ones below it end. -/
theorem field_packFields {l : List (Nat × Nat)} {i n x len : Nat} (hb : ∀ e ∈ l, e.2 < 2 ^ e.1) (hi : l[i]? = some (n, x)) (hlen : len ≤ n) :
    field (packFields l) ((l.take i).map (·.1)).sum len = x % 2 ^ len := by
  induction l generalizing i with
  | nil => simp at hi
  | cons e l ih =>
    obtain ⟨k, y⟩ := e
    obtain ⟨hy, hl⟩ := List.forall_mem_cons.mp hb
    cases i with
    | zero =>
      obtain ⟨rfl, rfl⟩ : k = n ∧ y = x := by simpa using hi
      simp only [List.take_zero, List.map_nil, List.sum_nil, packFields]
      rw [field_low _ _ (by omega), field_zero]
    | succ i =>
      simp only [List.take_succ_cons, List.map_cons, List.sum_cons, packFields]
      rw [field_high _ _ _ hy]
      exact ih hl (by simpa using hi)

/-- The fields of a report, with their bits (R360). -/
def reportFields (r : Reporter) (f : Flt) (precise replay : Bool) (skid : Nat) : List (Nat × Nat) :=
  [(8, field f.code 0 8), (8, field f.sub 0 8), (1, ofBool precise), (1, ofBool replay), (6, field skid 0 6), (12, field r.tenant 0 12),
   (11, field r.seat.core 0 11), (2, field r.seat.seat 0 2), (15, field r.lslot 0 12), (32, field r.ctx 0 32), (32, field r.record 0 32),
   (32, field r.pc 0 32), (16, field r.image 0 16), (16, field r.igen 0 12), (64, f.val.toNat), (32, field f.aux1 0 32),
   (32, field f.aux2 0 32), (32, field r.tver 0 32), (32, f.pc.toNat), (32, field f.detail 0 32)]

theorem reportBits_eq (r : Reporter) (f : Flt) (precise replay : Bool) (skid : Nat) :
    reportBits r f precise replay skid = packFields (reportFields r f precise replay skid) := by
  unfold reportBits reportFields
  simp only [packFields, Nat.mul_add, ← Nat.mul_assoc, ← Nat.pow_add, Nat.reduceAdd, Nat.mul_zero, Nat.add_zero, Nat.add_assoc]

theorem field_le_lt (x : Nat) {len n : Nat} (h : len ≤ n) : field x 0 len < 2 ^ n := by
  rw [field_zero]
  exact Nat.lt_of_lt_of_le (Nat.mod_lt _ (Nat.two_pow_pos _)) (Nat.pow_le_pow_right (by decide) h)

theorem ofBool_lt (b : Bool) : ofBool b < 2 ^ 1 := by cases b <;> decide

theorem reportFields_fit (r : Reporter) (f : Flt) (precise replay : Bool) (skid : Nat) :
    ∀ e ∈ reportFields r f precise replay skid, e.2 < 2 ^ e.1 := by
  unfold reportFields
  simp only [List.forall_mem_cons, List.not_mem_nil, false_implies, implies_true, and_true, ofBool_lt, BitVec.isLt, true_and]
  repeat' apply And.intro
  all_goals exact field_le_lt _ (by decide)

/-- The bits of each field of a report. -/
def reportWidths : List Nat := [8, 8, 1, 1, 6, 12, 11, 2, 15, 32, 32, 32, 16, 16, 64, 32, 32, 32, 32, 32]

theorem reportFields_widths (r : Reporter) (f : Flt) (precise replay : Bool) (skid : Nat) :
    (reportFields r f precise replay skid).map (·.1) = reportWidths := rfl

/-- A field of a report, by its place among them. -/
theorem field_report {r : Reporter} {f : Flt} {precise replay : Bool} {skid : Nat} (i : Nat) {lo len n x : Nat}
    (hi : (reportFields r f precise replay skid)[i]? = some (n, x)) (hlo : (reportWidths.take i).sum = lo) (hlen : len ≤ n) :
    field (reportBits r f precise replay skid) lo len = x % 2 ^ len := by
  rw [reportBits_eq, ← hlo, ← reportFields_widths r f precise replay skid, ← List.map_take]
  exact field_packFields (reportFields_fit r f precise replay skid) hi hlen

theorem bit_of_field {w i : Nat} {b : Bool} (h : field w i 1 = ofBool b % 2 ^ 1) : bit w i = b := by
  have hb : (field w i 1).testBit 0 = w.testBit i := by rw [testBit_field]; simp
  rw [bit_eq_testBit, ← hb, h]
  cases b <;> rfl

/-! ## The ring (R361) -/

theorem readNat_writeEach (m : Memory) (a n v : Nat) :
    (m.writeEach (((List.range n).map (a + ·)).zip (bytesOf n v))).readNat a n = v % 2 ^ (8 * n) := by
  have hn : ((List.range n).map (a + ·)).Nodup := List.nodup_range.map fun _ _ e => Nat.add_left_cancel e
  have h := Memory.map_get_writeEach m hn (bs := bytesOf n v) (by simp [length_bytesOf])
  rw [List.map_map] at h
  unfold Memory.readNat
  rw [Memory.read_eq, ← valOf_bytesOf n v]
  exact congrArg valOf h

/-- A field just set reads as set. -/
theorem dcbField_dcbSetField (s : State) (off : Nat) {lo len : Nat} (v : Nat) (h : lo + len ≤ 64) :
    (s.dcbSetField off lo len v).dcbField off lo len = v % 2 ^ len := by
  unfold State.dcbField State.dcbSetField
  rw [State.dcbGet_dcbSet, if_pos rfl, field_ofNat h, field_setField_inside _ _ (Nat.le_refl _) (Nat.le_refl _), Nat.sub_self, field_zero]

section
variable {s t : State} {c : Ctx} {r : Reporter} {f : Flt} {precise replay : Bool} {skid : Nat}

/-- Has a partition's ring no room for a report, or no base? -/
def State.ringFull (s : State) (p : Nat) : Prop :=
  s.dcbField (fltring p 0) 0 45 = 0
    ∨ (s.dcbField (fltring p 1) 16 16 + 65536 - s.dcbField (fltring p 1) 0 16) % 65536 = 2 ^ s.dcbField (fltring p 0) 45 5

/-- The slot that a ring's next report takes. -/
def State.ringSlot (s : State) (p : Nat) : Nat :=
  s.dcbField (fltring p 0) 0 45 + 64 * (s.dcbField (fltring p 1) 16 16 % 2 ^ s.dcbField (fltring p 0) 45 5)

theorem report_dropped (h : s.ringFull r.part) : s.report r f precise replay skid
    = s.dcbSetField (fltring r.part 1) 32 16 (min 0xFFFF (s.dcbField (fltring r.part 1) 32 16 + 1)) := if_pos h

theorem report_placed (h : ¬ s.ringFull r.part) : s.report r f precise replay skid
    = (s.writeWord (s.ringSlot r.part) 64 (reportBits r f precise replay skid)).dcbSetField (fltring r.part 1) 16 16
        (s.dcbField (fltring r.part 1) 16 16 + 1) := by
  unfold State.report
  exact if_neg h

/-- The slots of a ring that lies in HBM. -/
theorem ringSlot_plain {p : Nat} (hfit : s.dcbField (fltring p 0) 0 45 + 64 * 2 ^ s.dcbField (fltring p 0) 45 5 ≤ s.hbmEnd) :
    ∀ x ∈ (List.range 64).map (s.ringSlot p + ·), inControl x = false := by
  intro x hx
  obtain ⟨k, hk, rfl⟩ := List.mem_map.mp hx
  have hk := List.mem_range.mp hk
  have hmod := Nat.mod_lt (s.dcbField (fltring p 1) 16 16) (Nat.two_pow_pos (s.dcbField (fltring p 0) 45 5))
  refine inControl_of_hbm (s := s) (Nat.lt_of_lt_of_le ?_ hfit)
  unfold State.ringSlot
  omega

theorem controlWrite_rest (s : State) (off : Nat) (mask val : Word) : ∃ d is, s.controlWrite off mask val = { s with dcb := d, pend := is } := by
  have hd (v : Word) : ∃ d is, s.dcbSet off v = { s with dcb := d, pend := is } := ⟨_, _, rfl⟩
  have ho (i : Instr) : ∃ d is, s.owe i = { s with dcb := d, pend := is } := ⟨_, _, rfl⟩
  have hdo (v : Word) (i : Instr) : ∃ d is, (s.dcbSet off v).owe i = { s with dcb := d, pend := is } := ⟨_, _, rfl⟩
  unfold State.controlWrite
  extract_lets old v s1 w
  split
  · exact ⟨_, _, rfl⟩
  · split
    · exact ⟨_, _, rfl⟩
    · split
      · exact ho _
      · split
        · exact ho _
        · split
          · split
            · exact hdo _ _
            · exact hd _
          · split
            · split
              · exact hd _
              · split
                · exact hdo _ _
                · exact hd _
            · split
              · exact hd _
              · exact hd _

theorem controlBytes_rest (s : State) (bytes : List (Nat × Byte)) : ∃ d is, s.controlBytes bytes = { s with dcb := d, pend := is } := by
  have hf : ∀ (g : State → Nat → State), (∀ s r, ∃ d is, g s r = { s with dcb := d, pend := is }) → ∀ (l : List Nat) (s : State),
      ∃ d is, l.foldl g s = { s with dcb := d, pend := is } := by
    intro g hg l
    induction l with
    | nil => exact fun s => ⟨s.dcb, s.pend, rfl⟩
    | cons r l ih =>
      intro s
      obtain ⟨d, is, hgs⟩ := hg s r
      obtain ⟨d', is', hl⟩ := ih (g s r)
      rw [List.foldl_cons, hl, hgs]
      exact ⟨d', is', rfl⟩
  exact hf _ (fun s r => controlWrite_rest s r _ _) _ s

/-- Bytes written, wherever they lie, leave the contexts and the lives of records. -/
theorem writeBytes_rest (s : State) (bytes : List (Nat × Byte)) :
    ∃ v m d is, Tidies s v ∧ s.writeBytes bytes = { v with mem := m, dcb := d, pend := is } := by
  unfold State.writeBytes
  extract_lets mem s1 s2
  have h1 : Tidies s s1 := .foldl .nonBundled _ s
  obtain ⟨d, is, h⟩ := controlBytes_rest s2 (bytes.filter fun b => inControl b.1)
  exact ⟨s1, _, d, is, h1, h⟩

end

end Sys2Proof.Machine
end

section
/-! PROOF. O46: what a report leaves of the machine, and of the fault that it reports (R358 to R362). -/

namespace Sys2Proof.Machine

open Sys2Proof.Bits

section
variable {s t : State} {c : Ctx} {r : Reporter} {f : Flt} {precise replay : Bool} {skid : Nat}

theorem findCtx_congr (hc : t.cx = s.cx) (hs : t.seats = s.seats) (hv : t.saved = s.saved) (n : Nat) : t.findCtx n = s.findCtx n := by
  unfold State.findCtx
  rw [hc, hs, hv]

theorem recLive_congr (h : t.sched.live = s.sched.live) (p idx : Nat) : t.recLive p idx = s.recLive p idx := by
  unfold State.recLive
  rw [h]

/-- A report changes no context and no record's life. -/
theorem report_keeps (s : State) (r : Reporter) (f : Flt) (precise replay : Bool) (skid n p idx : Nat) :
    (s.report r f precise replay skid).findCtx n = s.findCtx n ∧ (s.report r f precise replay skid).recLive p idx = s.recLive p idx := by
  have hset (reg lo len x : Nat) : (s.dcbSetField reg lo len x).findCtx n = s.findCtx n
      ∧ (s.dcbSetField reg lo len x).recLive p idx = s.recLive p idx :=
    ⟨findCtx_congr rfl rfl rfl n, recLive_congr rfl p idx⟩
  have hwrite (off k v lo len x reg : Nat) : ((s.writeWord off k v).dcbSetField reg lo len x).findCtx n = s.findCtx n
      ∧ ((s.writeWord off k v).dcbSetField reg lo len x).recLive p idx = s.recLive p idx := by
    obtain ⟨v', m, d, is, hv, hw⟩ := writeBytes_rest s (((List.range k).map (off + ·)).zip (bytesOf k v))
    unfold State.writeWord
    rw [hw]
    refine ⟨findCtx_congr ?_ ?_ ?_ n, recLive_congr ?_ p idx⟩
    · simpa using hv.focus
    · simpa using hv.seats
    · simpa using hv.saved
    · simpa using hv.live
  by_cases h : s.ringFull r.part
  · rw [report_dropped h]
    exact hset _ _ _ _
  · rw [report_placed h]
    exact hwrite _ _ _ _ _ _ _

/-- A fatal fault of a single firing settles it, and writes one report. -/
theorem fatal_single (hchain : c.chain = []) (hlate : c.lateFaults precise = []) :
    s.fatal c f precise skid = (s.settle c).report c.reporter f precise false skid := by
  unfold State.fatal State.members
  simp [hchain, hlate, State.reportAll]

theorem SettlesFault.dcbField (h : SettlesFault s t c) {off : Nat} (ho : Steady off) (lo len : Nat) :
    t.dcbField off lo len = s.dcbField off lo len := by
  unfold State.dcbField
  rw [h.control off ho]

theorem SettlesFault.hbmEnd (h : SettlesFault s t c) : t.hbmEnd = s.hbmEnd := by
  unfold State.hbmEnd State.confidential
  rw [h.control _ steady_modectl]

/-- The settlement leaves the ring as it was. -/
theorem SettlesFault.ring (h : SettlesFault s t c) (hp : c.part < 64) :
    (t.ringFull c.part ↔ s.ringFull c.part) ∧ t.ringSlot c.part = s.ringSlot c.part
      ∧ ∀ w < 2, ∀ lo len, t.dcbField (fltring c.part w) lo len = s.dcbField (fltring c.part w) lo len := by
  have hring : ∀ w < 2, ∀ lo len, t.dcbField (fltring c.part w) lo len = s.dcbField (fltring c.part w) lo len :=
    fun w hw lo len => h.dcbField (steady_fltring hp hw) lo len
  refine ⟨?_, ?_, hring⟩
  · unfold State.ringFull
    simp only [hring 0 (by decide), hring 1 (by decide)]
  · unfold State.ringSlot
    simp only [hring 0 (by decide), hring 1 (by decide)]

/-- What the report of a fatal fault leaves in its slot. -/
theorem report_slot (h : ¬ s.ringFull r.part)
    (hfit : s.dcbField (fltring r.part 0) 0 45 + 64 * 2 ^ s.dcbField (fltring r.part 0) 45 5 ≤ s.hbmEnd) :
    (s.report r f precise replay skid).mem.readNat (s.ringSlot r.part) 64 = reportBits r f precise replay skid % 2 ^ (8 * 64) := by
  have hw := Wrote.writeBytes s (bytes := ((List.range 64).map (s.ringSlot r.part + ·)).zip (bytesOf 64 (reportBits r f precise replay skid)))
    (forall_zip_fst (ringSlot_plain hfit))
  rw [report_placed h, State.dcbSetField_mem, State.writeWord, hw.mem, readNat_writeEach]

/-- The fields of the report of a context (R360). -/
theorem reporter_fields (c : Ctx) (f : Flt) (precise : Bool) (skid : Nat) {w : Nat}
    (hw : w = reportBits c.reporter f precise false skid % 2 ^ (8 * 64)) :
    field w 0 8 = f.code % 2 ^ 8 ∧ field w 8 8 = f.sub % 2 ^ 8 ∧ bit w 16 = precise ∧ bit w 17 = false
      ∧ field w 18 6 = skid % 2 ^ 6 ∧ field w 24 12 = c.tenant ∧ field w 36 11 = c.seatAt.core % 2 ^ 11
      ∧ field w 47 2 = c.seatAt.seat % 2 ^ 2 ∧ field w 49 12 = c.lslot % 2 ^ 12 ∧ field w 64 32 = c.num % 2 ^ 32
      ∧ field w 96 32 = c.record % 2 ^ 32 ∧ field w 128 32 = c.pc.toNat ∧ field w 160 16 = c.code.image % 2 ^ 16
      ∧ field w 176 12 = c.code.igen % 2 ^ 12 ∧ field w 192 64 = f.val.toNat ∧ field w 256 32 = f.aux1 % 2 ^ 32
      ∧ field w 288 32 = f.aux2 % 2 ^ 32 ∧ field w 320 32 = c.code.tver % 2 ^ 32
      ∧ field w 352 32 = f.pc.toNat ∧ field w 384 32 = f.detail % 2 ^ 32 := by
  have hfield (i : Nat) {lo len n x : Nat} (hi : (reportFields c.reporter f precise false skid)[i]? = some (n, x))
      (hlo : (reportWidths.take i).sum = lo) (hlen : len ≤ n) (htop : lo + len ≤ 8 * 64) :
      field w lo len = x % 2 ^ len := by
    rw [hw, field_mod_pow _ htop]
    exact field_report i hi hlo hlen
  have hnum (i : Nat) {lo len n x : Nat} (hi : (reportFields c.reporter f precise false skid)[i]? = some (n, field x 0 len))
      (hlo : (reportWidths.take i).sum = lo) (hlen : len ≤ n) (htop : lo + len ≤ 8 * 64) :
      field w lo len = x % 2 ^ len := by
    rw [hfield i hi hlo hlen htop, field_zero, Nat.mod_mod]
  have htenant : c.tenant < 2 ^ 12 := field_le_lt _ (Nat.le_refl 12)
  refine ⟨hnum 0 rfl (by decide) (by decide) (by decide), hnum 1 rfl (by decide) (by decide) (by decide),
    bit_of_field (hfield 2 rfl (by decide) (by decide) (by decide)), bit_of_field (hfield 3 rfl (by decide) (by decide) (by decide)),
    hnum 4 rfl (by decide) (by decide) (by decide), ?_, hnum 6 rfl (by decide) (by decide) (by decide), hnum 7 rfl (by decide) (by decide) (by decide),
    hnum 8 rfl (by decide) (by decide) (by decide), hnum 9 rfl (by decide) (by decide) (by decide), hnum 10 rfl (by decide) (by decide) (by decide), ?_,
    hnum 12 rfl (by decide) (by decide) (by decide), hnum 13 rfl (by decide) (by decide) (by decide), ?_, hnum 15 rfl (by decide) (by decide) (by decide),
    hnum 16 rfl (by decide) (by decide) (by decide), hnum 17 rfl (by decide) (by decide) (by decide), ?_, hnum 19 rfl (by decide) (by decide) (by decide)⟩
  · exact (hnum 5 rfl (by decide) (by decide) (by decide)).trans (Nat.mod_eq_of_lt htenant)
  · exact (hnum 11 rfl (by decide) (by decide) (by decide)).trans (Nat.mod_eq_of_lt c.pc.isLt)
  · exact (hfield 14 rfl (by decide) (by decide) (by decide)).trans (Nat.mod_eq_of_lt f.val.isLt)
  · exact (hfield 18 rfl (by decide) (by decide) (by decide)).trans (Nat.mod_eq_of_lt f.pc.isLt)

/-- Settles O46: the settlement keeps the ring, so the report is made in the ring that the fault found. -/
theorem faultReports : Obligations.FaultReports := by
  unfold Obligations.FaultReports
  intro s c f precise skid _ hchain hbundle hpart hlate
  have hs := settle_settles (s := s) hchain hbundle
  have hfat := fatal_single (s := s) (f := f) (skid := skid) hchain hlate
  obtain ⟨hfull, hslot, hring⟩ := hs.ring hpart
  obtain ⟨hfind, hdead⟩ := report_keeps (s.settle c) c.reporter f precise false skid c.num c.part c.record
  dsimp only
  rw [hfat]
  clear hfat
  generalize s.settle c = v at *
  refine ⟨hfind.trans hs.gone, fun hl => ?_, fun h => ?_, fun h hfit => ⟨?_, ?_⟩⟩
  · obtain ⟨hstate, hend⟩ := hs.record hpart hl
    exact ⟨hstate, hdead.trans hend⟩
  · rw [report_dropped (r := c.reporter) (hfull.mpr h), State.dcbSetField_mem]
    refine ⟨rfl, ?_⟩
    refine (dcbField_dcbSetField _ _ _ (by decide)).trans ?_
    rw [show c.reporter.part = c.part from rfl, hring 1 (by decide)]
    exact Nat.mod_eq_of_lt (by omega)
  · rw [report_placed (r := c.reporter) fun h' => h (hfull.mp h')]
    refine (dcbField_dcbSetField _ _ _ (by decide)).trans ?_
    rw [show c.reporter.part = c.part from rfl, hring 1 (by decide)]
    rfl
  · refine reporter_fields c f precise skid ?_
    have hslotEq := report_slot (s := v) (r := c.reporter) (f := f) (precise := precise) (replay := false) (skid := skid)
      (fun h' => h (hfull.mp h')) (by rw [show c.reporter.part = c.part from rfl, hring 0 (by decide), hring 0 (by decide), hs.hbmEnd]; exact hfit)
    rw [show c.reporter.part = c.part from rfl, hslot] at hslotEq
    exact hslotEq

end

end Sys2Proof.Machine
end

section
/-! PROOF. O60, levels, stages and samples of power (R409 to R411). -/

namespace Sys2Proof.Machine

open Sys2Proof.Bits

section
variable {s t u : State}

/-! ## Fields of registers -/

theorem dcbField_dcbSetField_apart (s : State) (off : Nat) {lo len a n : Nat} (v : Nat) (h64 : a + n ≤ 64) (h : a + n ≤ lo ∨ lo + len ≤ a) :
    (s.dcbSetField off lo len v).dcbField off a n = s.dcbField off a n := by
  unfold State.dcbField State.dcbSetField
  rw [State.dcbGet_dcbSet, if_pos rfl, field_ofNat h64, field_setField_apart _ _ h]

theorem dcbField_dcbSetField_other (s : State) {off k : Nat} (lo len v a n : Nat) (h : k ≠ off) :
    (s.dcbSetField off lo len v).dcbField k a n = s.dcbField k a n := by
  unfold State.dcbField
  rw [dcbGet_dcbSetField_other s lo len v h]

/-! ## A stage without an ended pause (R410, R411) -/

/-- The device at a stage: PWRSTAT.STAGE, the links' widths, and nothing else. -/
structure AtStage (s t : State) (n : Nat) : Prop where
  power : t.control = { s.control with power := { s.control.power with stage := n } }
  rest : t = { s with control := t.control, dcb := t.dcb }
  stage : t.dcbField pwrstat 5 5 = n % 2 ^ 5
  status : ∀ lo len, lo + len ≤ 64 → (lo + len ≤ 5 ∨ 5 + 5 ≤ lo) → t.dcbField pwrstat lo len = s.dcbField pwrstat lo len
  registers : ∀ off, off ≠ pwrstat → (∀ p, off ≠ linkst p) → t.dcbGet off = s.dcbGet off

/-- Links set by number: only their registers change. -/
theorem foldl_linkst (l : List Nat) (v : Nat) (s : State) : ∃ d, l.foldl (fun s p => s.dcbSetField (linkst p) 1 1 v) s = { s with dcb := d }
    ∧ ∀ off, (∀ p, off ≠ linkst p) → (l.foldl (fun s p => s.dcbSetField (linkst p) 1 1 v) s).dcbGet off = s.dcbGet off := by
  induction l generalizing s with
  | nil => exact ⟨s.dcb, rfl, fun _ _ => rfl⟩
  | cons p l ih =>
    obtain ⟨d, hd, hget⟩ := ih (s.dcbSetField (linkst p) 1 1 v)
    exact ⟨d, hd, fun off ho => (hget off ho).trans (dcbGet_dcbSetField_other s _ _ _ (ho p))⟩

theorem setStage_atStage (n : Nat) (h : ¬ ((n < 2 ∧ 2 ≤ s.control.power.stage) ∨ (n < 1 ∧ 1 ≤ s.control.power.stage))) :
    AtStage s (s.setStage n) n := by
  unfold State.setStage
  extract_lets old x y s1 s2 half s3
  rw [if_neg h]
  have hlink (p : Nat) : pwrstat ≠ linkst p := by
    unfold pwrstat linkst
    omega
  have h2 : AtStage s s2 n := by
    refine ⟨rfl, rfl, dcbField_dcbSetField s1 pwrstat n (by decide), fun lo len h64 ha => dcbField_dcbSetField_apart s1 pwrstat n h64 ha,
      fun off ho _ => dcbGet_dcbSetField_other s1 _ _ _ ho⟩
  unfold s3
  split
  · exact h2
  · obtain ⟨d, hd, hget⟩ := foldl_linkst ((List.range 24).filter fun p => s2.portUp p) half s2
    have hfield (lo len : Nat) : (((List.range 24).filter fun p => s2.portUp p).foldl (fun s p => s.dcbSetField (linkst p) 1 1 half) s2).dcbField
        pwrstat lo len = s2.dcbField pwrstat lo len := by
      unfold State.dcbField
      rw [hget _ hlink]
    refine ⟨?_, ?_, (hfield 5 5).trans h2.stage, fun lo len h64 ha => (hfield lo len).trans (h2.status lo len h64 ha),
      fun off ho hp => (hget off hp).trans (h2.registers off ho hp)⟩
    · rw [hd]
      exact h2.power
    · rw [hd]
      rfl

/-! ## A change of a source (R409, R411) -/

/-- What a change of a source leaves. -/
structure Levels (u t : State) (old : Nat) : Prop where
  sources : t.control.power.pins = u.control.power.pins ∧ t.control.power.i3c = u.control.power.i3c
  cap : t.dcbField pwrctl 0 3 = u.dcbField pwrctl 0 3
  level : t.dcbField pwrstat 0 3 = u.levelNow % 2 ^ 3
  source : t.dcbField pwrstat 3 2 = u.levelSource % 2 ^ 2
  stage : t.control.power.stage = if old < u.levelNow then max u.control.power.stage (levelStage u.levelNow) else u.control.power.stage
  shown : old < u.levelNow → t.dcbField pwrstat 5 5 = t.control.power.stage % 2 ^ 5
  rest : t = { u with control := t.control, dcb := t.dcb }

theorem applyLevel_levels (u : State) (old : Nat) : Levels u (u.applyLevel old) old := by
  unfold State.applyLevel
  extract_lets now s1 x y s2
  have hcap : s1.dcbField pwrctl 0 3 = u.dcbField pwrctl 0 3 :=
    (dcbField_dcbSetField_other _ _ _ _ _ _ (by decide)).trans (dcbField_dcbSetField_other _ _ _ _ _ _ (by decide))
  have hlevel : s1.dcbField pwrstat 0 3 = u.levelNow % 2 ^ 3 :=
    (dcbField_dcbSetField_apart _ _ _ (by decide) (by decide)).trans (dcbField_dcbSetField u _ _ (by decide))
  have hsource : s1.dcbField pwrstat 3 2 = u.levelSource % 2 ^ 2 := dcbField_dcbSetField _ _ _ (by decide)
  by_cases hsame : now = old
  · rw [if_pos hsame]
    have hnot : ¬ old < u.levelNow := by
      rw [← hsame]
      exact Nat.lt_irrefl _
    exact ⟨⟨rfl, rfl⟩, hcap, hlevel, hsource, by rw [if_neg hnot]; rfl, fun h => absurd h hnot, rfl⟩
  rw [if_neg hsame]
  by_cases hrise : old < now
  · rw [if_pos hrise]
    have hmax : u.control.power.stage ≤ max s2.control.power.stage (levelStage now) := Nat.le_max_left _ _
    have hst := setStage_atStage (s := s2) (max s2.control.power.stage (levelStage now)) (by
      show ¬ ((_ < 2 ∧ 2 ≤ u.control.power.stage) ∨ (_ < 1 ∧ 1 ≤ u.control.power.stage))
      omega)
    generalize s2.setStage (max s2.control.power.stage (levelStage now)) = v at hst
    refine ⟨?_, ?_, (hst.status 0 3 (by decide) (by decide)).trans hlevel, (hst.status 3 2 (by decide) (by decide)).trans hsource, ?_,
      fun _ => ?_, ?_⟩
    · rw [hst.power]
      exact ⟨rfl, rfl⟩
    · refine Eq.trans ?_ hcap
      unfold State.dcbField
      rw [hst.registers pwrctl (by decide) fun p => by unfold pwrctl linkst; omega]
      rfl
    · rw [hst.power, if_pos hrise]
      rfl
    · rw [hst.stage, hst.power]
    · rw [hst.rest]
      rfl
  · rw [if_neg hrise]
    exact ⟨⟨rfl, rfl⟩, hcap, hlevel, hsource, by rw [if_neg hrise]; rfl, fun h => absurd h hrise, rfl⟩

end

end Sys2Proof.Machine
end

section
/-! PROOF. O60, the power levels and the samples of power (R409 to R411). -/

namespace Sys2Proof.Machine

open Sys2Proof.Bits

section
variable {s t u : State}

/-- What O60 says of a change of a source. -/
structure Risen (s t : State) (pins i3c cap : Nat) : Prop where
  sources : t.control.power.pins = pins ∧ t.control.power.i3c = i3c ∧ t.dcbField pwrctl 0 3 = cap
  level : t.dcbField pwrstat 0 3 = max (max pins i3c) cap
  source : t.dcbField pwrstat 3 2 = if pins = max (max pins i3c) cap then 0 else if i3c = max (max pins i3c) cap then 1 else 2
  stage : t.control.power.stage = if s.levelNow < max (max pins i3c) cap then max s.control.power.stage (levelStage (max (max pins i3c) cap))
    else s.control.power.stage
  shown : s.levelNow < max (max pins i3c) cap → t.dcbField pwrstat 5 5 = t.control.power.stage % 32
  keeps : t.mem = s.mem ∧ ContextsKeep s t

theorem applyLevel_risen {pins i3c cap : Nat} (hpins : u.control.power.pins = pins) (hi3c : u.control.power.i3c = i3c) (hcap : u.pwrCap = cap)
    (hlt : pins < 8 ∧ i3c < 8 ∧ cap < 8) (hstage : u.control.power.stage = s.control.power.stage)
    (hmem : u.mem = s.mem) (hkeep : ContextsKeep s u) : Risen s (u.applyLevel s.levelNow) pins i3c cap := by
  have h := applyLevel_levels u s.levelNow
  generalize u.applyLevel s.levelNow = t at h ⊢
  obtain ⟨⟨hp, hi⟩, hc, hl, hsrc, hst, hshow, hrest⟩ := h
  have hnow : u.levelNow = max (max pins i3c) cap := by rw [State.levelNow, hpins, hi3c, hcap]
  have hsource : u.levelSource = if pins = max (max pins i3c) cap then 0 else if i3c = max (max pins i3c) cap then 1 else 2 := by
    rw [State.levelSource, hnow, hpins, hi3c]
  rw [hnow] at hl hst hshow
  rw [hstage] at hst
  refine ⟨⟨hp.trans hpins, hi.trans hi3c, hc.trans hcap⟩, ?_, ?_, hst, hshow, ?_, ?_⟩
  · rw [hl]
    exact Nat.mod_eq_of_lt (by omega)
  · rw [hsrc, hsource]
    refine Nat.mod_eq_of_lt ?_
    split_ifs <;> decide
  · rw [hrest]
    exact hmem
  · rw [hrest]
    exact ⟨hkeep.focus, hkeep.seats, hkeep.saved, hkeep.cores⟩

theorem pwrCap_lt (s : State) : s.pwrCap < 8 := by
  unfold State.pwrCap State.dcbField
  rw [field_zero]
  exact Nat.mod_lt _ (by decide)

theorem powerStep_risen (hi : s.control.power.i3c < 8) (pins : BitVec 3) :
    ∃ t, exec (.powerStep pins) s = .next t ∧ Risen s t pins.toNat s.control.power.i3c s.pwrCap :=
  ⟨_, rfl, applyLevel_risen (u := { s with control := { s.control with power := { s.control.power with pins := pins.toNat } } })
    rfl rfl rfl ⟨pins.isLt, hi, pwrCap_lt s⟩ rfl rfl ⟨⟨rfl, rfl⟩, rfl, ⟨rfl, rfl⟩, rfl⟩⟩

theorem i3cPowerLevel_risen (hp : s.control.power.pins < 8) (data : Byte) (h : data.toNat < 8) :
    ∃ t, exec (.i3cPowerLevel data) s = .next t ∧ Risen s t s.control.power.pins data.toNat s.pwrCap :=
  ⟨_, if_neg (Nat.not_le.mpr h), applyLevel_risen (u := { s with control := { s.control with power := { s.control.power with i3c := data.toNat } } })
    rfl rfl rfl ⟨hp, h, pwrCap_lt s⟩ rfl rfl ⟨⟨rfl, rfl⟩, rfl, ⟨rfl, rfl⟩, rfl⟩⟩

theorem powerCapWrite_risen (hp : s.control.power.pins < 8) (hi : s.control.power.i3c < 8) (val : Word) :
    ∃ t, exec (.powerCapWrite val) s = .next t ∧ Risen s t s.control.power.pins s.control.power.i3c (val.toNat % 8) := by
  have hcap : (s.dcbSetField pwrctl 0 3 (field val.toNat 0 3)).pwrCap = val.toNat % 8 := by
    rw [State.pwrCap, dcbField_dcbSetField s _ _ (by decide), field_zero]
    exact Nat.mod_mod _ 8
  exact ⟨_, rfl, applyLevel_risen (u := s.dcbSetField pwrctl 0 3 (field val.toNat 0 3))
    rfl rfl hcap ⟨hp, hi, Nat.mod_lt _ (by decide)⟩ rfl rfl ⟨⟨rfl, rfl⟩, rfl, ⟨rfl, rfl⟩, rfl⟩⟩

theorem i3cPowerLevel_ignored (data : Byte) (h : 8 ≤ data.toNat) : exec (.i3cPowerLevel data) s = .next s := if_pos h

/-! ## Samples (R410, R411) -/

theorem powerSample_early (watts : Nat) (h : s.time < s.control.power.sampled + 10000) : exec (.powerSample watts) s = .next s :=
  if_pos (Or.inl h)

/-- What a sample above the limit writes to PWRSTAT. -/
def State.sampledAbove (s : State) (watts : Nat) : State :=
  if s.control.power.since + 1000000 < s.time then (s.dcbSetField pwrstat 10 12 (min 4095 watts)).dcbSetField pwrstat 22 1 1
  else s.dcbSetField pwrstat 10 12 (min 4095 watts)

theorem sampledAbove_rest (s : State) (watts : Nat) : ∃ d, s.sampledAbove watts = { s with dcb := d } := by
  unfold State.sampledAbove
  split
  · exact ⟨_, rfl⟩
  · exact ⟨_, rfl⟩

theorem sampledAbove_watts {watts : Nat} (h : watts < 4096) : (s.sampledAbove watts).dcbField pwrstat 10 12 = watts := by
  have h1 : (s.dcbSetField pwrstat 10 12 (min 4095 watts)).dcbField pwrstat 10 12 = watts := by
    rw [dcbField_dcbSetField s _ _ (by decide), show min 4095 watts = watts by omega]
    exact Nat.mod_eq_of_lt h
  unfold State.sampledAbove
  split
  · exact (dcbField_dcbSetField_apart _ _ _ (by decide) (by decide)).trans h1
  · exact h1

theorem sampledAbove_flag {watts : Nat} (h : s.control.power.since + 1000000 < s.time) : (s.sampledAbove watts).dcbField pwrstat 22 1 = 1 := by
  unfold State.sampledAbove
  rw [if_pos h]
  exact dcbField_dcbSetField _ _ _ (by decide)

/-- A sample above the limit moves the device a stage up. -/
theorem powerSample_above {watts : Nat} (ht : s.control.power.sampled + 10000 ≤ s.time) (hp : s.control.pfail = false)
    (h : levelLimit s.levelNow < watts) : ∃ (u : State) (falling : Bool) (low : Option Nat), u = s.sampledAbove watts
      ∧ exec (.powerSample watts) s = .next (State.setStage { u with control := { u.control with power :=
          { s.control.power with falling := falling, lowSince := low, sampled := s.time } } } (min 18 (s.control.power.stage + 1))) := by
  show ∃ u falling low, u = s.sampledAbove watts ∧ execPowerSample watts s = _
  unfold execPowerSample
  extract_lets p level limit first above low since full falling stage s1 s2
  have hsoon : ¬ (s.time < p.sampled + 10000 ∨ s.control.pfail = true) := by
    rw [hp]
    exact fun hor => hor.elim (Nat.not_lt.mpr ht) Bool.false_ne_true
  have habove : above = true := decide_eq_true h
  have hstage : stage = min 18 (s.control.power.stage + 1) := if_pos habove
  have hs2 : s2 = s.sampledAbove watts := by
    unfold s2
    rw [habove, State.sampledAbove]
    simp only [true_and]
    rfl
  rw [if_neg hsoon, hstage]
  exact ⟨s2, _, _, hs2, rfl⟩

theorem powerSample_rises {watts : Nat} (ht : s.control.power.sampled + 10000 ≤ s.time) (hp : s.control.pfail = false)
    (hw : watts < 4096) (h : levelLimit s.levelNow < watts) : ∃ t, exec (.powerSample watts) s = .next t
      ∧ t.control.power.stage = min 18 (s.control.power.stage + 1) ∧ t.control.power.sampled = s.time
      ∧ t.dcbField pwrstat 10 12 = watts
      ∧ (s.control.power.since + 1000000 < s.time → bit (t.dcbGet pwrstat).toNat 22 = true) ∧ t.mem = s.mem := by
  obtain ⟨u, falling, low, hu, hexec⟩ := powerSample_above ht hp h
  obtain ⟨d, hd⟩ := sampledAbove_rest s watts
  have hwatts : u.dcbField pwrstat 10 12 = watts := hu ▸ sampledAbove_watts hw
  have hflag (hs : s.control.power.since + 1000000 < s.time) : u.dcbField pwrstat 22 1 = 1 := hu ▸ sampledAbove_flag hs
  have hmem : u.mem = s.mem := by rw [hu, hd]
  clear hu hd
  have hst := setStage_atStage (s := { u with control := { u.control with power :=
    { s.control.power with falling := falling, lowSince := low, sampled := s.time } } }) (min 18 (s.control.power.stage + 1)) (by
      show ¬ ((_ < 2 ∧ 2 ≤ s.control.power.stage) ∨ (_ < 1 ∧ 1 ≤ s.control.power.stage))
      omega)
  refine ⟨_, hexec, ?_⟩
  revert hst
  generalize State.setStage _ _ = t
  intro hst
  refine ⟨?_, ?_, (hst.status 10 12 (by decide) (by decide)).trans hwatts,
    fun hs => bit_of_field (((hst.status 22 1 (by decide) (by decide)).trans (hflag hs)).trans rfl), ?_⟩
  · rw [hst.power]
  · rw [hst.power]
  · rw [hst.rest]
    exact hmem

end

end Sys2Proof.Machine
end

section
/-! PROOF. O60, the power-fail trap, its image and its restore (R412 to R414). -/

namespace Sys2Proof.Machine

open Sys2Proof.Bits

section
variable {s t u v : State} {c d : Ctx}

/-! ## The power-fail trap (R412) -/

theorem foldl_same {α β : Type} {f : β → α → β} {l : List α} (b : β) (h : ∀ a ∈ l, f b a = b) : l.foldl f b = b := by
  induction l with
  | nil => rfl
  | cons a l ih =>
    rw [List.foldl_cons, h a List.mem_cons_self]
    exact ih fun x hx => h x (List.mem_cons_of_mem a hx)

/-- A late result that is owed to no register. -/
theorem late_idle {o : Order} (h : o.owed = []) {r : Late} (hr : r ∈ o.late) : r.writes = false ∧ r.y0 = false := by
  have hnone := List.flatMap_eq_nil_iff.mp h r hr
  cases hw : r.writes <;> cases hy : r.y0 <;> simp_all

theorem freeOwed_eq (n : Nat) (h : c.order.owed = []) : ∃ l, c.freeOwed n = { c with order := { c.order with late := l } } := by
  unfold Ctx.freeOwed
  extract_lets closing regs
  have hregs : regs = c.regs := by
    refine foldl_same c.regs fun x hx => ?_
    obtain ⟨hw, hy⟩ := late_idle h (List.mem_of_mem_filter (List.fst_mem_of_mem_zipIdx hx))
    simp only [hw, hy, Bool.false_eq_true, if_false]
  rw [hregs]
  exact ⟨_, rfl⟩

/-- What O60 says of a context that a power failure saves. -/
structure PfSaved (c d : Ctx) : Prop where
  phase : d.phase = .saving ∧ d.forced = true
  kept : d.regs = c.regs ∧ d.pc = c.pc ∧ d.mx = c.mx
  queues : ∀ q ∈ d.queues, q.cmds = []
  order : d.order.outs = [] ∧ d.order.tokens = []
  bundle : ∀ b, c.order.bundle = some b → ∃ b', d.order.bundle = some b' ∧ b'.doomed = some (4, none)

theorem loseCover_eq (c : Ctx) : ∃ lost handle flagHandle,
    c.loseCover = { c with coverLost := lost, handle := handle, flagHandle := flagHandle } := by
  unfold Ctx.loseCover
  split
  · exact ⟨_, _, _, rfl⟩
  · exact ⟨_, _, _, rfl⟩

theorem pfSaved_saves (n : Nat) (hy : c.inYield = false) (ho : c.order.owed = []) : PfSaved c (c.pfSaved n) := by
  obtain ⟨lost, handle, flagHandle, hcover⟩ := loseCover_eq c
  unfold Ctx.pfSaved
  extract_lets c1 c2
  have hc1 : c1 = { c with coverLost := lost, handle := handle, flagHandle := flagHandle } := by
    unfold c1
    rw [hy, hcover]
    rfl
  obtain ⟨l, hc2⟩ := freeOwed_eq (c := c1) n (by rw [hc1]; exact ho)
  have hc2 : c2 = { c with coverLost := lost, handle := handle, flagHandle := flagHandle, order := { c.order with late := l } } := by
    rw [hc1] at hc2
    exact (congrArg (fun d => d.freeOwed n) hc1).trans hc2
  rw [hc2]
  refine ⟨⟨rfl, rfl⟩, ⟨rfl, rfl, rfl⟩, fun q hq => ?_, ⟨rfl, rfl⟩, fun b hb => ⟨_, congrArg (Option.map _) hb, rfl⟩⟩
  obtain ⟨q', -, rfl⟩ := List.mem_map.mp hq
  rfl

theorem pfSaved_evt (e : Bool) (h : PfSaved { c with evt := e } d) : PfSaved c d := ⟨h.phase, h.kept, h.queues, h.order, h.bundle⟩

/-- Every context on a seat saved by the trap, and the device's messages and steps dropped. -/
def State.pfSaveAll (v : State) : State :=
  { v with
    cx := v.cx.map fun c => c.pfSaved (v.fresh + 64 * c.num),
    seats := v.seats.map fun (p : SeatId × Ctx) => (p.1, p.2.pfSaved (v.fresh + 64 * p.2.num)),
    fresh := v.fresh + 64 * 2 ^ 21, fabric := { v.fabric with msgs := [], retries := [], closes := [] }, pend := v.pend.filter ofKill }

/-- The trap with one context on its seat. -/
theorem powerFail_single (hp : s.control.pfail = false) (hpend : s.pend = []) (hc : s.cx = some c) (hs : s.seats = []) (hf : c.fault = none) :
    ∃ (e : Bool) (v : State), AtStage { s with cx := some { c with evt := e }, control := { s.control with pfail := true } } v 18
      ∧ exec .powerFail s = .next v.pfSaveAll := by
  have hrun : s.running = [(s.cur, c)] := by simp [State.running, hc, hs]
  have hhold : s.withhold s.cur = { s with cx := some { c with evt := c.evt || s.released s.cur } } := by
    refine (mapSeat_cur (by simp [hs]) _).trans ?_
    unfold State.mapCx
    rw [hc]
    rfl
  refine ⟨c.evt || s.released s.cur, _, setStage_atStage 18 (by omega), ?_⟩
  show execPowerFail s = _
  unfold execPowerFail State.pfSaveAll
  rw [hp, if_neg Bool.false_ne_true]
  simp only [hpend, List.contains_nil, Bool.false_eq_true, if_false, hrun, List.filter_cons, hf, Option.isSome_none, List.filter_nil,
    List.foldl_nil, List.map_cons, List.map_nil, List.foldl_cons, hhold]

theorem powerFail_saves (hp : s.control.pfail = false) (hpend : s.pend = []) (hc : s.cx = some c) (hs : s.seats = []) (hf : c.fault = none)
    (hy : c.inYield = false) (ho : c.order.owed = []) :
    ∃ t d, exec .powerFail s = .next t ∧ t.control.pfail = true ∧ t.control.power.stage = 18 ∧ t.cx = some d ∧ PfSaved c d
      ∧ t.mem = s.mem ∧ t.saved = s.saved ∧ t.fabric.msgs = [] := by
  obtain ⟨e, v, hv, hexec⟩ := powerFail_single hp hpend hc hs hf
  have hcx : v.cx = some { c with evt := e } := by rw [hv.rest]
  refine ⟨_, ({ c with evt := e } : Ctx).pfSaved (v.fresh + 64 * c.num), hexec, ?_, ?_, congrArg (Option.map _) hcx,
    pfSaved_evt e (pfSaved_saves _ hy ho), ?_, ?_, rfl⟩
  · show v.control.pfail = true
    rw [hv.power]
  · show v.control.power.stage = 18
    rw [hv.power]
  · show v.mem = s.mem
    rw [hv.rest]
  · show v.saved = s.saved
    rw [hv.rest]

/-! ## The image (R413) -/

theorem flashDrainDone_images (hp : s.control.pfail = true) (hd : s.control.drained = false) : exec .flashDrainDone s
    = .next { s with control := { s.control with flash := some s.flashImage, drained := true }, sent := .flashDone :: s.sent } := by
  show execFlashDrainDone s = _
  unfold execFlashDrainDone
  rw [if_neg (by simp [hp, hd])]
  rfl

theorem flashImage_ctxs (s : State) {p : SeatId × Ctx} (hp : p ∈ s.running) :
    ∃ d ∈ s.flashImage.ctxs, d.num = p.2.num ∧ d.regs = p.2.regs ∧ d.mx = p.2.mx ∧ d.pc = p.2.pc :=
  ⟨_, List.mem_map.mpr ⟨p, hp, rfl⟩, rfl, rfl, rfl, rfl⟩

/-! ## The restore (R414) -/

theorem Memory.rising_le {m : Memory} {lo : Nat} (h : Memory.risingFrom lo m = true) : ∀ x ∈ m.map (·.1), lo ≤ x := by
  induction m generalizing lo with
  | nil => simp
  | cons p m ih =>
    obtain ⟨k, b⟩ := p
    simp only [Memory.risingFrom, Bool.and_eq_true, decide_eq_true_eq] at h
    obtain ⟨⟨hk, -⟩, hm⟩ := h
    refine List.forall_mem_cons.mpr ⟨hk, fun x hx => ?_⟩
    have := ih hm x hx
    omega

theorem Memory.rising_nodup {m : Memory} {lo : Nat} (h : Memory.risingFrom lo m = true) : (m.map (·.1)).Nodup := by
  induction m generalizing lo with
  | nil => exact List.nodup_nil
  | cons p m ih =>
    obtain ⟨k, b⟩ := p
    simp only [Memory.risingFrom, Bool.and_eq_true] at h
    obtain ⟨-, hm⟩ := h
    refine List.nodup_cons.mpr ⟨fun hk => ?_, ih hm⟩
    have := Memory.rising_le hm k hk
    omega

theorem Memory.get_of_mem {m : Memory} (h : (m.map (·.1)).Nodup) {p : Nat × Byte} (hp : p ∈ m) : m.get p.1 = p.2 := by
  induction m with
  | nil => exact absurd hp List.not_mem_nil
  | cons q m ih =>
    obtain ⟨hq, hm⟩ := List.nodup_cons.mp h
    unfold Memory.get
    rcases List.mem_cons.mp hp with rfl | hp
    · exact if_pos rfl
    · rw [if_neg fun (e : q.1 = p.1) => hq (List.mem_map.mpr ⟨p, hp, e.symm⟩)]
      exact ih hm hp

theorem Memory.get_unlisted {m : Memory} {x : Nat} (h : x ∉ m.map (·.1)) : m.get x = Memory.unlisted := by
  induction m with
  | nil => rfl
  | cons q m ih =>
    obtain ⟨hq, hm⟩ := not_or.mp (mt List.mem_cons.mpr h)
    unfold Memory.get
    rw [if_neg (Ne.symm hq)]
    exact ih hm

/-- A canonical memory written over a range that holds nothing reads there as it does itself. -/
theorem Memory.get_writeEach_wf {m pad : Memory} (h : pad.wf = true) {x : Nat} (hx : m.get x = Memory.unlisted) :
    (m.writeEach pad).get x = pad.get x := by
  have hn := Memory.rising_nodup h
  by_cases hk : x ∈ pad.map (·.1)
  · obtain ⟨p, hp, rfl⟩ := List.mem_map.mp hk
    rw [Memory.get_writeEach_inside m pad hn hp, Memory.get_of_mem hn hp]
  · rw [Memory.get_writeEach_outside m pad x hk, hx, Memory.get_unlisted hk]

theorem Memory.get_filter {m : Memory} {f : Nat → Bool} {x : Nat} (hx : f x = true) : Memory.get (m.filter fun c => f c.1) x = m.get x := by
  induction m with
  | nil => rfl
  | cons q m ih =>
    rw [List.filter_cons]
    split
    · simp only [Memory.get, ih]
    · next hq =>
      simp only [Memory.get, ih]
      rw [if_neg fun (e : q.1 = x) => hq (e ▸ hx)]

theorem bankCore_padOff {core i : Nat} (hc : core < 1536) (hi : i < 0x20000) : bankCore (padOff core i) = some core := by
  have hin : Config.windowBase ≤ padOff core i ∧ padOff core i < windowOf Config.cores := by
    unfold padOff windowOf Config.windowBase Config.windowStride Config.cores
    omega
  have hdiv : (padOff core i - Config.windowBase) / Config.windowStride = core := by
    unfold padOff windowOf Config.windowBase Config.windowStride
    omega
  rw [bankCore, if_pos hin, hdiv]

theorem powerFailRestore_refused {img : FlashImage} {sig : Bool} (accept : List Nat) (h : s.control.flash = some img) (hd : s.deaf = false)
    (hno : sig = false ∨ img.conf ≠ s.confidential) :
    exec (.powerFailRestore sig accept) s = .next { s with control := { s.control with flash := none } } := by
  show execPowerFailRestore sig accept s = _
  unfold execPowerFailRestore
  rw [h]
  dsimp only
  rw [hd, if_neg Bool.false_ne_true, if_pos (by simpa using hno)]

theorem settleYielded_empty {p : Nat} (h : s.poolCnt p = 0) : s.settleYielded p = s := by
  unfold State.settleYielded
  rw [h]
  rfl

/-- The restore of one core's scratchpad, its partition without a pool. -/
theorem powerFailRestore_core {img : FlashImage} {core p : Nat} (h : s.control.flash = some img) (hd : s.deaf = false)
    (hconf : img.conf = s.confidential) (hp : p < 64) (hlive : s.partLive p = true) (hres : img.resident = [(core, p)])
    (hctx : img.ctxs = []) (hpool : s.poolCnt p = 0) :
    exec (.powerFailRestore true [p]) s = .next (({ s with control := { s.control with flash := none } } : State).restoreCore img core p) := by
  show execPowerFailRestore true [p] s = _
  unfold execPowerFailRestore
  rw [h]
  show (if s.deaf = true then _ else _) = _
  rw [hd, if_neg Bool.false_ne_true]
  rw [if_neg (by simpa using hconf)]
  extract_lets ps x s1 cs s2 s3
  have hps : ps = [p] := by simp [ps, List.eraseDups_cons, hp, hlive]
  have hs1 : s1 = ({ s with control := { s.control with flash := none } } : State).restoreCore img core p := by simp [s1, x, hres, hps]
  have hs3 : s3 = s1 := by simp [s3, s2, cs, hctx]
  have hpool1 : s1.poolCnt p = 0 := by
    rw [hs1]
    exact hpool
  rw [hps, hs3, List.foldl_cons, List.foldl_nil, settleYielded_empty hpool1, hs1]

/-- What O60 says of the restore of a core's scratchpad. -/
theorem restoreCore_pad {img : FlashImage} {core p : Nat} (hpad : img.pads.wf = true) (hc : core < 1536) :
    ((s.restoreCore img core p).core core).resident = some p
      ∧ (∀ i < 0x20000, (s.restoreCore img core p).mem.get (padOff core i) = img.pads.get (padOff core i))
      ∧ ∀ a, (a < padOff core 0 ∨ padOff core 0 + 0x20000 ≤ a) → bankCore a ≠ some core → (s.restoreCore img core p).mem.get a = s.mem.get a := by
  refine ⟨?_, fun i hi => ?_, fun a ha hb => ?_⟩
  · unfold State.restoreCore
    rw [core_mapCore, if_pos rfl]
  · have hzero : (s.mem.zero (padOff core 0) Config.padSize).get (padOff core i) = Memory.unlisted := by
      rw [Memory.get_zero, if_pos (by unfold padOff; simp only [Config.padSize]; omega)]
    refine (Memory.get_writeEach_wf (Memory.wf_filter _ hpad) hzero).trans ?_
    exact Memory.get_filter (f := fun a => bankCore a == some core) (by simp [bankCore_padOff hc hi])
  · refine (Memory.get_writeEach_outside _ _ a fun hin => ?_).trans ?_
    · obtain ⟨q, hq, rfl⟩ := List.mem_map.mp hin
      exact hb (by simpa using (List.mem_filter.mp hq).2)
    · rw [Memory.get_zero, if_neg (by simp only [Config.padSize]; omega)]

end

end Sys2Proof.Machine
end

section
/-! PROOF. O60, the flush of rows, errors, the removal of a core and the reset of the device (R415 to R417). -/

namespace Sys2Proof.Machine

open Sys2Proof.Bits

section
variable {s t u : State} {c : Ctx} {e : EccErr}

/-! ## Registers alone -/

theorem RegistersOnly.refl (s : State) : RegistersOnly s s [] :=
  ⟨rfl, fun _ _ => rfl, ⟨⟨rfl, rfl⟩, rfl, ⟨rfl, rfl⟩, rfl⟩, rfl, rfl, rfl, ⟨rfl, rfl, rfl⟩⟩

theorem RegistersOnly.trans {l k : List Nat} (h : RegistersOnly s t l) (g : RegistersOnly t u k) : RegistersOnly s u (l ++ k) :=
  ⟨g.mem.trans h.mem,
    fun off ho => (g.control off fun hk => ho (List.mem_append_right l hk)).trans (h.control off fun hl => ho (List.mem_append_left k hl)),
    ⟨⟨g.contexts.focus.1.trans h.contexts.focus.1, g.contexts.focus.2.trans h.contexts.focus.2⟩, g.contexts.seats.trans h.contexts.seats,
      ⟨g.contexts.saved.1.trans h.contexts.saved.1, g.contexts.saved.2.trans h.contexts.saved.2⟩, g.contexts.cores.trans h.contexts.cores⟩,
    g.slices.trans h.slices, g.sched.trans h.sched, g.fabric.trans h.fabric,
    ⟨g.clocks.1.trans h.clocks.1, g.clocks.2.1.trans h.clocks.2.1, g.clocks.2.2.trans h.clocks.2.2⟩⟩

theorem RegistersOnly.mono {l k : List Nat} (h : RegistersOnly s t l) (hk : ∀ x ∈ l, x ∈ k) : RegistersOnly s t k :=
  { h with control := fun off ho => h.control off fun hl => ho (hk off hl) }

theorem registersOnly_dcbSetField (s : State) (off lo len v : Nat) : RegistersOnly s (s.dcbSetField off lo len v) [off] :=
  ⟨rfl, fun _ hk => dcbGet_dcbSetField_other s lo len v (List.ne_of_not_mem_cons hk), ⟨⟨rfl, rfl⟩, rfl, ⟨rfl, rfl⟩, rfl⟩, rfl, rfl, rfl,
    ⟨rfl, rfl, rfl⟩⟩

theorem registersOnly_control (s : State) (x : Control) (l : List Sent) : RegistersOnly s { s with control := x, sent := l } [] :=
  ⟨rfl, fun _ _ => rfl, ⟨⟨rfl, rfl⟩, rfl, ⟨rfl, rfl⟩, rfl⟩, rfl, rfl, rfl, ⟨rfl, rfl, rfl⟩⟩

/-! ## The flush of rows (R415) -/

theorem saveRows_eq (s : State) (c : Ctx) : s.saveRows c
    = { s with mem := if s.buffered c = true then s.mem.write (s.bufferOf c.num + 0x4800) c.rowBytes else s.mem } := by
  unfold State.saveRows
  split
  · rfl
  · rfl

theorem foldl_saveRows (s : State) (l : List Ctx) (m : Memory) : l.foldl (fun s c => s.saveRows c) { s with mem := m }
    = { s with mem := (l.filter s.buffered).foldl (fun m c => Memory.write m (s.bufferOf c.num + 0x4800) c.rowBytes) m } := by
  induction l generalizing m with
  | nil => rfl
  | cons c l ih =>
    have hb : ({ s with mem := m } : State).buffered c = s.buffered c := rfl
    rw [List.foldl_cons, saveRows_eq, hb]
    refine (ih _).trans ?_
    by_cases hc : s.buffered c = true
    · rw [List.filter_cons_of_pos hc, List.foldl_cons, if_pos hc]
      rfl
    · rw [List.filter_cons_of_neg hc, if_neg hc]

theorem rowFlush_saves (h : bit (s.dcbGet rowflush).toNat 63 = true) : exec .rowFlush s = .next { s with
    mem := (s.saved.filter fun c => c.rows && s.buffered c).foldl (fun m c => Memory.write m (s.bufferOf c.num + 0x4800) c.rowBytes) s.mem,
    pend := s.pend ++ [.rowFlushComplete] } := by
  show execRowFlush s = _
  have hfilter : ((s.saved.filter (·.rows)).filter s.buffered) = s.saved.filter fun c => c.rows && s.buffered c := by
    rw [List.filter_filter]
    exact List.filter_congr fun c _ => Bool.and_comm _ _
  unfold execRowFlush
  rw [h, if_neg (by decide), ← hfilter, foldl_saveRows s _ s.mem]
  rfl

/-- A field of a register set: what is read back, and what stays. -/
theorem dcbSetField_sets (s : State) (off : Nat) {lo len : Nat} (v : Nat) (h : lo + len ≤ 64) : ∃ t, t = s.dcbSetField off lo len v
    ∧ field (t.dcbGet off).toNat lo len = v % 2 ^ len ∧ RegistersOnly s t [off] ∧ t.control = s.control ∧ t.pend = s.pend :=
  ⟨_, rfl, dcbField_dcbSetField s off v h, registersOnly_dcbSetField s off lo len v, rfl, rfl⟩

theorem rowFlushComplete_clears (s : State) : ∃ t, exec .rowFlushComplete s = .next t ∧ bit (t.dcbGet rowflush).toNat 63 = false
    ∧ RegistersOnly s t [rowflush] ∧ t.control = s.control ∧ t.pend = s.pend := by
  obtain ⟨t, ht, hfield, hregs, hctl, hpend⟩ := dcbSetField_sets s rowflush (lo := 63) (len := 1) 0 (by decide)
  refine ⟨t, ?_, bit_of_field (b := false) hfield, hregs, hctl, hpend⟩
  rw [ht]
  rfl

/-! ## Errors outside a core's own state (R391, R416) -/

/-- The count of failed tags, where one has failed. -/
def State.countTag (s : State) (tag : Bool) : State :=
  if tag = true then s.dcbSetField intstat 0 32 (min (2 ^ 32 - 1) (s.dcbField intstat 0 32 + 1)) else s

theorem tagged_iff (s : State) (e : EccErr) :
    s.tagged e = true ↔ e.sub = 1 ∧ s.confidential = true ∧ look s.control.seals (gaOff e.val.toNat / 512) ≠ none := by
  simp [State.tagged, and_assoc, Option.isSome_iff_ne_none]

theorem uncorrectableError_untagged (ht : e.tag = true) (h : s.tagged e = false) : exec (.uncorrectableError e) s = .next s := by
  show execUncorrectableError e s = _
  unfold execUncorrectableError
  rw [if_pos (by simp [ht, h])]

/-- An error of HBM or of a tarn, with its tag or with none to fail. -/
theorem uncorrectableError_memory (hsub : e.sub = 1 ∨ e.sub = 6) (hin : s.inService e.core = true) (ht : e.tag = false ∨ s.tagged e = true) :
    exec (.uncorrectableError e) s = .next (match e.ctx with
      | some n => match (s.countTag e.tag).findCtx n with
        | some c => (s.countTag e.tag).imprecise n
            { code := 17, sub := e.sub, val := e.val, aux1 := 0, aux2 := 0, pc := c.pc, detail := 0 } c.retires
        | none => s.countTag e.tag
      | none => s.countTag e.tag) := by
  show execUncorrectableError e s = _
  have hgo : ¬ (e.sub = 0 ∨ 6 < e.sub ∨ (!s.inService e.core) = true ∨ (e.tag = true ∧ (!s.tagged e) = true)) := by
    rw [hin]
    rcases ht with ht | ht
    · rw [ht]
      simp
      omega
    · rw [ht]
      simp
      omega
  unfold execUncorrectableError
  rw [if_neg hgo, if_neg (by omega)]
  rfl

theorem countTag_counts (s : State) (tag : Bool) : RegistersOnly s (s.countTag tag) [intstat] ∧ (s.countTag tag).pend = s.pend
    ∧ (s.countTag tag).dcbField intstat 0 32 = if tag = true then min (2 ^ 32 - 1) (s.dcbField intstat 0 32 + 1) else s.dcbField intstat 0 32 := by
  cases tag
  · exact ⟨(RegistersOnly.refl s).mono (by simp), rfl, rfl⟩
  · rw [if_pos rfl, show s.countTag true = _ from if_pos rfl]
    obtain ⟨t, ht, hfield, hregs, -, hpend⟩ := dcbSetField_sets s intstat (lo := 0) (len := 32)
      (min (2 ^ 32 - 1) (s.dcbField intstat 0 32 + 1)) (by decide)
    rw [← ht]
    exact ⟨hregs, hpend, hfield.trans (Nat.mod_eq_of_lt (by omega))⟩

/-- The first fault of a context, on its way. -/
theorem imprecise_becomes {n k : Nat} (f : Flt) (hc : s.findCtx n = some c) (hf : c.fault = none) :
    (s.imprecise n f k).pend = s.pend ++ [.impreciseFaultDelivery n]
      ∧ ContextBecomes s { s.imprecise n f k with pend := s.pend } n { c with faultAt := k, fault := some f } := by
  rw [imprecise_first f k hc hf]
  have hupd := findCtx_updCtx (s := s) (k := n) (g := fun c => { c with fault := some f, faultAt := k }) fun _ => rfl
  refine ⟨rfl, (hupd n).trans ?_, fun j hj => (hupd j).trans ?_, ⟨fun _ => rfl, fun _ => rfl, rfl, rfl, rfl, rfl, rfl, ⟨rfl, rfl, rfl⟩, rfl, rfl⟩⟩
  · rw [hc, Option.map_some, if_pos (findCtx_num hc)]
  · cases hj' : s.findCtx j with
    | none => rfl
    | some d => rw [Option.map_some, if_neg (findCtx_num hj' ▸ hj)]

end

end Sys2Proof.Machine
end

section
/-! PROOF. O60, the removal of a core and the reset of the device (R5, R416, R417); the settlement of O60. -/

namespace Sys2Proof.Machine

open Sys2Proof.Bits

section
variable {s t u : State} {e : EccErr}

/-! ## The removal of a core (R416, R417) -/

/-- A core is in service by its bit of the out-of-service map alone. -/
theorem inService_congr {k : Nat} (h : t.dcbGet (oosmap (k / 64)) = s.dcbGet (oosmap (k / 64))) : t.inService k = s.inService k := by
  unfold State.inService
  rw [h]

theorem oosmap_ne_devstat (w : Nat) : oosmap w ≠ devstat := by
  unfold oosmap devstat
  omega

theorem oosmap_inj {w x : Nat} (h : oosmap w = oosmap x) : w = x := by
  unfold oosmap at h
  omega

theorem inService_mapBit (s : State) (core k : Nat) :
    (s.dcbSetField (oosmap (core / 64)) (core % 64) 1 1).inService k = (s.inService k && decide (k ≠ core)) := by
  by_cases hw : k / 64 = core / 64
  · have hk : k % 64 < 64 := Nat.mod_lt _ (by decide)
    unfold State.inService State.dcbSetField
    rw [State.dcbGet_dcbSet, hw, if_pos rfl, bit_toNat, BitVec.getLsbD_ofNat, testBit_setField, bit_toNat, BitVec.getLsbD]
    by_cases he : k = core
    · rw [he, if_pos ⟨Nat.le_refl _, Nat.lt_succ_self _⟩]
      simp [Nat.mod_lt core]
    · rw [if_neg (by omega)]
      simp [he, hk]
  · rw [inService_congr (dcbGet_dcbSetField_other s _ _ _ fun h => hw (oosmap_inj h))]
    have he : k ≠ core := fun h => hw (h ▸ rfl)
    simp [he]

/-- What the removal of a core changes. -/
structure Removed (s t : State) (core : Nat) : Prop where
  service : ∀ k, t.inService k = (s.inService k && decide (k ≠ core))
  registers : RegistersOnly s t [oosmap (core / 64), devstat]
  board : t.dcbField devstat 0 1 = 1 ∧ t.dcbField devstat 1 11 = (allCores.filter fun k => !t.inService k).length ∧ t.sent = .replReq :: s.sent
  rest : ∃ l, t = { s with dcb := t.dcb, control := { s.control with removing := l }, sent := t.sent }

theorem allCores_filter_lt (f : Nat → Bool) : (allCores.filter f).length < 2 ^ 11 := by
  refine Nat.lt_of_le_of_lt (List.length_filter_le _ _) ?_
  rw [allCores, List.length_range]
  decide

/-- The two fields of DEVSTAT set one after the other. -/
theorem devstat_set (s : State) (n : Nat) : ∃ t, t = (s.dcbSetField devstat 1 11 n).dcbSetField devstat 0 1 1
    ∧ t.dcbField devstat 0 1 = 1 ∧ t.dcbField devstat 1 11 = n % 2 ^ 11 ∧ RegistersOnly s t [devstat]
    ∧ t = { s with dcb := t.dcb } :=
  ⟨_, rfl, dcbField_dcbSetField _ devstat 1 (by decide),
    (dcbField_dcbSetField_apart _ devstat 1 (by decide) (by decide)).trans (dcbField_dcbSetField s devstat n (by decide)),
    ((registersOnly_dcbSetField s devstat 1 11 n).trans (registersOnly_dcbSetField _ devstat 0 1 1)).mono (by simp), rfl⟩

theorem removeCore_removed (s : State) (core : Nat) : Removed s (s.removeCore core) core := by
  unfold State.removeCore State.requestReplacement State.countCores
  extract_lets s1 x s2
  have hservice : ∀ k, s2.inService k = (s.inService k && decide (k ≠ core)) := inService_mapBit s core
  have hregs : RegistersOnly s s2 [oosmap (core / 64)] := (registersOnly_dcbSetField s _ _ _ _).trans (registersOnly_control s1 _ s1.sent)
  have hrest : s2 = { s with dcb := s2.dcb, control := { s.control with removing := s.control.removing.filter (· != core) } } := rfl
  obtain ⟨t, ht, h0, h1, hstat, hdcb⟩ := devstat_set s2 (allCores.filter fun c => !s2.inService c).length
  rw [← ht]
  have hsame : ∀ k, t.inService k = s2.inService k := fun k =>
    inService_congr (hstat.control _ fun h => oosmap_ne_devstat _ (List.mem_singleton.mp h))
  clear_value s2
  refine ⟨fun k => (hsame k).trans (hservice k), (hregs.trans hstat).trans (registersOnly_control t t.control (.replReq :: t.sent)),
    ⟨h0, h1.trans ?_, ?_⟩, ⟨s.control.removing.filter (· != core), ?_⟩⟩
  · have hsend : ∀ k, (t.send .replReq).inService k = s2.inService k := hsame
    simp only [hsend]
    exact Nat.mod_eq_of_lt (allCores_filter_lt _)
  · show _ :: t.sent = _
    rw [hdcb, hrest]
  · unfold State.send
    rw [hdcb, hrest]

/-! ## Errors of a core (R416) -/

theorem uncorrectableError_core (h2 : 2 ≤ e.sub) (h5 : e.sub ≤ 5) (hin : s.inService e.core = true) (hrun : s.running = [])
    (hctx : e.ctx = none) (htag : e.tag = false) : exec (.uncorrectableError e) s = .next (s.removeCore e.core) := by
  show execUncorrectableError e s = _
  have hgo : ¬ (e.sub = 0 ∨ 6 < e.sub ∨ (!s.inService e.core) = true ∨ (e.tag = true ∧ (!s.tagged e) = true)) := by
    rw [hin, htag]
    simp
    omega
  have hcore : s.coreError e = s.removeCore e.core := by
    simp [State.coreError, hctx, hrun, hin]
  unfold execUncorrectableError
  rw [if_neg hgo, if_pos ⟨h2, h5⟩, hcore]

/-- What O60 says of a corrected error of a core. -/
structure Corrected (s t : State) (core limit recent : Nat) : Prop where
  service : t.inService core = decide (limit = 0 ∨ recent < limit)
  count : (t.core core).cerr.length = recent
  mem : t.mem = s.mem
  others : ∀ k, k ≠ core → t.inService k = s.inService k
  pend : t.pend = s.pend

/-- The removal of a core that has been counted and named. -/
theorem removal_corrects {core limit recent : Nat} (hlimit : ¬ (limit = 0 ∨ recent < limit)) (hservice : ∀ k, u.inService k = s.inService k)
    (hcount : (u.core core).cerr.length = recent) (hmem : u.mem = s.mem) (hpend : u.pend = s.pend) :
    Corrected s (u.removeCore core) core limit recent := by
  have h := removeCore_removed u core
  generalize u.removeCore core = t at h
  obtain ⟨hserv, -, -, l, hrest⟩ := h
  refine ⟨?_, ?_, ?_, fun k hk => ?_, ?_⟩
  · rw [hserv, decide_eq_false (not_not_intro rfl), Bool.and_false, decide_eq_false hlimit]
  · rw [hrest]
    exact hcount
  · rw [hrest]
    exact hmem
  · rw [hserv, hservice, decide_eq_true hk, Bool.and_true]
  · rw [hrest]
    exact hpend

theorem correctedError_corrects {core : Nat} (hin : s.inService core = true) (hrun : s.running = []) :
    ∃ t, exec (.correctedError core) s = .next t ∧ Corrected s t core (s.dcbField errthr 0 16)
      (((s.core core).cerr.filter fun t => decide (s.time < t + 1000000000)).length + 1) := by
  show ∃ t, execCorrectedError core s = _ ∧ _
  unfold execCorrectedError
  rw [hin, if_neg (by decide)]
  extract_lets times s1 limit x s2
  have htimes : times.length = ((s.core core).cerr.filter fun t => decide (s.time < t + 1000000000)).length + 1 := List.length_append
  have hcount : (s1.core core).cerr.length = times.length := by
    unfold s1
    rw [core_mapCore, if_pos rfl]
  rw [← htimes]
  by_cases hlimit : limit = 0 ∨ times.length < limit
  · rw [if_pos hlimit]
    refine ⟨s1, rfl, ⟨?_, hcount, rfl, fun _ _ => rfl, rfl⟩⟩
    rw [decide_eq_true hlimit]
    exact hin
  · rw [if_neg hlimit]
    have hidle : s2.coreIdle core = true := by
      have hr : s2.running = [] := hrun
      simp [State.coreIdle, hr]
    rw [hidle, if_pos rfl]
    exact ⟨_, rfl, removal_corrects hlimit (fun _ => rfl) hcount rfl rfl⟩

/-! ## The reset of the device -/

/-- What cores removed one after the other change. -/
theorem foldl_removeCore (l : List Nat) (s : State) : ∃ t, t = l.foldl (fun s c => s.removeCore c) s
    ∧ (∀ k, t.inService k = (s.inService k && decide (k ∉ l)))
    ∧ (∀ off, off ≠ devstat → (∀ w, off ≠ oosmap w) → t.dcbGet off = s.dcbGet off)
    ∧ ∃ r, t = { s with dcb := t.dcb, control := { s.control with removing := r }, sent := t.sent } := by
  induction l generalizing s with
  | nil => exact ⟨s, rfl, by simp, fun _ _ _ => rfl, s.control.removing, rfl⟩
  | cons c l ih =>
    have h := removeCore_removed s c
    obtain ⟨t, ht, hservice, hcontrol, r, hrest⟩ := ih (s.removeCore c)
    refine ⟨t, by rw [List.foldl_cons]; exact ht, fun k => ?_, fun off hd ho => ?_, r, ?_⟩
    · rw [hservice, h.service, Bool.and_assoc]
      simp
    · exact (hcontrol off hd ho).trans (h.registers.control off (by simp [hd, ho]))
    · clear ht hservice hcontrol
      obtain ⟨q, hq⟩ := h.rest
      rw [hrest, hq]

theorem field_single (w i : Nat) : field w i 1 = ofBool (bit w i) := by
  unfold field bit ofBool
  rcases Nat.mod_two_eq_zero_or_one (w >>> i) with h | h
  · rw [Nat.pow_one, h]
    rfl
  · rw [Nat.pow_one, h]
    rfl

theorem dcbReset_oosmap (w : Nat) : dcbReset (oosmap w) = 0 := by
  have hrange : ¬ ((decide (0x10000 ≤ oosmap w) && decide (oosmap w < 0x10400)) = true) := by
    rw [Bool.and_eq_true, decide_eq_true_eq, decide_eq_true_eq]
    unfold oosmap
    omega
  unfold dcbReset
  rw [if_neg (by unfold oosmap; omega), if_neg (by unfold oosmap; omega), if_neg (by unfold oosmap; omega), if_neg hrange]

/-- The reset state with what no reset clears, the mode apart. -/
def deviceResetBase (s : State) : State :=
  { State.reset with
    devNum := s.devNum, time := s.time, clock := s.clock, fresh := s.fresh, agenda := s.agenda, sent := s.sent,
    control := { State.reset.control with keySerial := s.control.keySerial, measures := s.control.measures, flash := s.control.flash } }

/-- The device reset before its self-test: the reset state, with what no reset clears. -/
theorem deviceReset_base (s : State) : ∃ u : State, u.mem = [] ∧ u.running = [] ∧ u.saved = [] ∧ u.ended = [] ∧ u.pend = []
    ∧ u.slices = Slices.fresh ∧ u.sched = Sched.fresh ∧ u.fabric = Fabric.fresh ∧ u.cores = []
    ∧ u.devNum = s.devNum ∧ u.control.flash = s.control.flash ∧ u.confidential = s.confidential
    ∧ (∀ off, off ≠ modectl → u.dcbGet off = dcbReset off)
    ∧ ∀ failed, exec (.deviceReset failed) s
      = .next ((failed.eraseDups.filter fun c => decide (c < Config.cores)).foldl (fun s c => s.removeCore c) u) := by
  have hset := dcbField_dcbSetField (deviceResetBase s) modectl (lo := 0) (len := 1) (s.dcbField modectl 0 1) (by decide)
  have hother := fun off (ho : off ≠ modectl) => dcbGet_dcbSetField_other (deviceResetBase s) 0 1 (s.dcbField modectl 0 1) ho
  refine ⟨(deviceResetBase s).dcbSetField modectl 0 1 (s.dcbField modectl 0 1), rfl, rfl, rfl, rfl, rfl, rfl, rfl, rfl, rfl, rfl, rfl, ?_,
    fun off ho => (hother off ho).trans rfl, fun failed => rfl⟩
  refine bit_of_field (hset.trans ?_)
  unfold State.confidential State.dcbField
  rw [field_single]

theorem deviceReset_resets (s : State) (failed : List Nat) : ∃ t, exec (.deviceReset failed) s = .next t ∧ t.mem = [] ∧ t.running = []
    ∧ t.saved = [] ∧ t.ended = [] ∧ t.pend = [] ∧ t.slices = Slices.fresh ∧ t.sched = Sched.fresh ∧ t.fabric = Fabric.fresh ∧ t.cores = []
    ∧ t.confidential = s.confidential ∧ t.devNum = s.devNum ∧ t.control.flash = s.control.flash
    ∧ (∀ k < 1536, t.inService k = decide (k ∉ failed))
    ∧ ∀ off, off ≠ modectl → off ≠ devstat → (∀ w, off ≠ oosmap w) → t.dcbGet off = dcbReset off := by
  obtain ⟨u, hmem, hrun, hsaved, hended, hpend, hslices, hsched, hfabric, hcores, hdev, hflash, hconf, hreg, hexec⟩ := deviceReset_base s
  obtain ⟨t, ht, hservice, hcontrol, r, hrest⟩ := foldl_removeCore (failed.eraseDups.filter fun c => decide (c < Config.cores)) u
  have hall (k : Nat) (hk : k < 1536) : u.inService k = true := by
    have hzero : u.dcbGet (oosmap (k / 64)) = 0 := by
      rw [hreg _ (by unfold oosmap modectl; omega)]
      exact dcbReset_oosmap _
    simp [State.inService, hzero, Config.cores, hk, bit]
  have hmode : t.confidential = u.confidential := by
    unfold State.confidential
    rw [hcontrol modectl (by decide) fun w => by unfold modectl oosmap; omega]
  refine ⟨t, ht ▸ hexec failed, ?_, ?_, ?_, ?_, ?_, ?_, ?_, ?_, ?_, hmode.trans hconf, ?_, ?_, fun k hk => ?_, fun off h1 h2 h3 =>
    (hcontrol off h2 h3).trans (hreg off h1)⟩
  case refine_12 =>
    rw [hservice, hall k hk]
    simp [hk, Config.cores]
  all_goals
    rw [hrest]
    assumption

end

/-- Settles O60: each clause by the lemma of its step. -/
theorem powerAndFailureSteps : Obligations.PowerAndFailureSteps := by
  refine ⟨fun s => ?_, fun s data h => i3cPowerLevel_ignored data h, ?_, fun s watts h => powerSample_early watts h, ?_, ?_, ?_,
    fun s h => rowFlush_saves h, rowFlushComplete_clears, ?_, ?_, ?_, deviceReset_resets⟩
  · intro risen hp hi
    have hrisen {i : Instr} {pins i3c cap : Nat} (h : ∃ t, exec i s = .next t ∧ Risen s t pins i3c cap) : risen i pins i3c cap := by
      obtain ⟨t, hexec, ⟨hpins, hi3c, hcap⟩, hlevel, hsource, hstage, hshown, hmem, hkeep⟩ := h
      exact ⟨t, hexec, hpins, hi3c, hcap, hlevel, hsource, hstage, hshown, hmem, hkeep⟩
    exact ⟨fun pins => hrisen (powerStep_risen hi pins), fun data h => hrisen (i3cPowerLevel_risen hp data h),
      fun val => hrisen (powerCapWrite_risen hp hi val)⟩
  · exact fun s watts ht hp hw => fun _ hlimit => powerSample_rises ht hp hw hlimit
  · intro s c hp hpend hc hs hf hy ho
    obtain ⟨t, d, hexec, hpfail, hstage, hcx, ⟨⟨hphase, hforced⟩, ⟨hregs, hpc, hmx⟩, hqueues, ⟨houts, htokens⟩, hbundle⟩, hmem, hsaved, hmsgs⟩ :=
      powerFail_saves hp hpend hc hs hf hy ho
    exact ⟨t, d, hexec, hpfail, hstage, hcx, hphase, hforced, hregs, hpc, hmx, hqueues, houts, htokens, hbundle, hmem, hsaved, hmsgs⟩
  · exact fun s hp hd => ⟨_, s.flashImage, flashDrainDone_images hp hd, rfl, rfl, rfl, rfl, List.length_map _, fun p hin => flashImage_ctxs s hin,
      fun x => List.mem_filter, rfl, rfl⟩
  · intro s img himg hd
    refine ⟨fun sig accept hno => powerFailRestore_refused accept himg hd hno, fun core p hconf hp hlive hres hctx hpool _ hpad hc => ?_⟩
    obtain ⟨hres', hin, hout⟩ := restoreCore_pad (s := { s with control := { s.control with flash := none } }) (p := p) hpad hc
    exact ⟨_, powerFailRestore_core himg hd hconf hp hlive hres hctx hpool, hres', rfl, hin, hout⟩
  · intro s e hsub hin written
    refine ⟨fun htag hno => ?_, fun htag hctx => ?_, fun n c hctx hc hf htag => ?_⟩
    · exact uncorrectableError_untagged htag (by rw [← Bool.not_eq_true, tagged_iff]; exact hno)
    · obtain ⟨hregs, hpend, hcount⟩ := countTag_counts s e.tag
      refine ⟨_, (uncorrectableError_memory hsub hin (htag.imp_right (tagged_iff s e).mpr)).trans ?_, hregs, hpend, hcount⟩
      rw [hctx]
    · obtain ⟨hpend, hbecomes⟩ := imprecise_becomes (k := c.retires)
        { code := 17, sub := e.sub, val := e.val, aux1 := 0, aux2 := 0, pc := c.pc, detail := 0 } hc hf
      refine ⟨_, (uncorrectableError_memory hsub hin (.inl htag)).trans ?_, hpend, hbecomes⟩
      have hs : s.countTag e.tag = s := by rw [htag]; rfl
      rw [hs, hctx]
      dsimp only
      rw [hc]
  · intro s e h2 h5 hin hrun hctx htag
    obtain ⟨hservice, hregs, ⟨hrepl, hcount, hsent⟩, -⟩ := removeCore_removed s e.core
    refine ⟨_, uncorrectableError_core h2 h5 hin hrun hctx htag, ?_, hrepl, hsent, hcount, hregs⟩
    rw [hservice, decide_eq_false (not_not_intro rfl), Bool.and_false]
  · intro s core hin hrun _
    obtain ⟨t, hexec, hservice, hcount, hmem, hothers, hpend⟩ := correctedError_corrects hin hrun
    exact ⟨t, hexec, hservice, hcount, hmem, hothers, hpend⟩

end Sys2Proof.Machine
end

section
/-! PROOF. O56, messages land, or are dropped at their router (R338 to R342, R383). -/

namespace Sys2Proof.Machine

open Sys2Proof.Bits

section
variable {s t u : State} {m : Msg} {p core la tenant : Nat} {net : Bool} {offs held : List Nat}

/-! ## Where a resident partition's bytes are held (R387) -/

theorem heldAll_self (h : ∀ o ∈ offs, ∀ x, s.heldAt tenant o = .inl x → x = o) (e : s.heldAll tenant offs = .inl held) : held = offs := by
  induction offs generalizing held with
  | nil => exact (Sum.inl.inj e).symm
  | cons o offs ih =>
    obtain ⟨ho, hs⟩ := List.forall_mem_cons.mp h
    rw [State.heldAll] at e
    cases hx : s.heldAt tenant o with
    | inr d => simp [hx] at e
    | inl x =>
      cases hxs : s.heldAll tenant offs with
      | inr d => simp [hx, hxs] at e
      | inl xs =>
        simp only [hx, hxs, Sum.inl.injEq] at e
        rw [← e, ho x hx, ih hs hxs]

/-- A place in a scratchpad lies in that core's window, if in one. -/
theorem placeOf_padOff {k : Nat} (hla : la < 0x20000) (h : s.placeOf (padOff core la) = .window k) : k = core := by
  have hdiv : (padOff core la - Config.windowBase) / Config.windowStride = core := by
    unfold padOff windowOf Config.windowBase Config.windowStride
    omega
  unfold State.placeOf at h
  dsimp only at h
  rw [hdiv] at h
  split_ifs at h
  exact (Place.window.inj h).symm

theorem tenant_of_partOfTenant (h : s.partOfTenant tenant = some p) : s.partTenant p = tenant ∧ tenant ≠ 0 := by
  unfold State.partOfTenant at h
  split at h
  · exact absurd h nofun
  · next h0 =>
    have hp := List.find?_some h
    rw [Bool.and_eq_true, beq_iff_eq] at hp
    exact ⟨hp.1, h0⟩

/-- A tenant whose partition is resident at a core holds the scratchpad's bytes in place. -/
theorem heldAt_resident (hp : s.partOfTenant tenant = some p) (hres : (s.core core).resident = some p) (hla : la < 0x20000) (x : Nat)
    (h : s.heldAt tenant (padOff core la) = .inl x) : x = padOff core la := by
  obtain ⟨-, h0⟩ := tenant_of_partOfTenant hp
  unfold State.heldAt at h
  cases hpl : s.placeOf (padOff core la) with
  | hbm =>
    simp only [hpl] at h
    split at h
    · exact (Sum.inl.inj h).symm
    · exact absurd h nofun
  | control =>
    simp only [hpl, if_neg h0] at h
    exact absurd h nofun
  | hole =>
    simp only [hpl] at h
    exact absurd h nofun
  | window k =>
    obtain rfl := placeOf_padOff hla hpl
    simp only [hpl, State.windowByte, if_neg h0, hp, hres, if_pos] at h
    split at h
    · next y hy =>
      split at hy
      · exact absurd hy nofun
      · rw [← Sum.inl.inj h, ← Option.some.inj hy]
    · exact absurd h nofun

/-! ## The landing (R341) -/

theorem answerMsg_away (d : Option Nat) (h : m.dev ≠ s.devNum) : s.answerMsg m d
    = s.send (s.sealFor m.tenant (.ack { dev := m.dev, ctx := m.ctx, strm := 32 + netAt m.net } m.seq d)) := if_neg h

theorem not_mem_takeMsg (s : State) (m : Msg) : m ∉ (s.takeMsg m).fabric.msgs ∧ ∀ x ∈ (s.takeMsg m).fabric.spilled, x.2 ≠ m := by
  unfold State.takeMsg
  exact ⟨fun h => by simpa using (List.mem_filter.mp h).2, fun x h => by simpa using (List.mem_filter.mp h).2⟩

/-- What O56 says of a landing. -/
structure Lands (s t : State) (p core : Nat) (net : Bool) (b : Mailbox) (m : Msg) : Prop where
  slot : t.mem.readNat (padOff core (b.base + 64 * (b.tail % 2 ^ b.lsl))) 64 = m.data.toNat
  mailbox : (t.core core).mailbox net = { b with tail := (b.tail + 1) % 65536 }
  gone : m ∉ t.fabric.msgs
  sent : t.sent = s.sealFor m.tenant (.ack { dev := m.dev, ctx := m.ctx, strm := 32 + netAt net } m.seq none) :: s.sent
  pend : t.pend = s.pend ++ [.dectApply p b.record b.ctr 1, .messageLand net core]

theorem ring_slot_lt {b : Mailbox} (h : b.base + 64 * 2 ^ b.lsl ≤ 0x20000) {i : Nat} (hi : i < 64) :
    b.base + 64 * (b.tail % 2 ^ b.lsl) + i < 0x20000 := by
  have hmod : b.tail % 2 ^ b.lsl < 2 ^ b.lsl := Nat.mod_lt _ (Nat.two_pow_pos _)
  omega

theorem landMsg_lands {b : Mailbox} (hcore : m.core = core) (hnet : m.net = net) (hdev : m.dev ≠ s.devNum) (hp : s.partOfTenant m.tenant = some p)
    (hres : (s.core core).resident = some p) (hfit : b.base + 64 * 2 ^ b.lsl ≤ 0x20000) : Lands s (s.landMsg p b m) p core net b m := by
  subst hcore hnet
  unfold State.landMsg
  extract_lets la offs held s1 s2
  have hoffs : offs = (List.range 64).map (padOff m.core la + ·) := List.map_congr_left fun i _ => (Nat.add_assoc _ _ _).symm
  have hheld : held = offs := by
    unfold held
    split
    · next xs h =>
      refine heldAll_self (fun o ho x hx => ?_) h
      obtain ⟨i, hi, rfl⟩ := List.mem_map.mp ho
      rw [(tenant_of_partOfTenant hp).1] at hx
      exact heldAt_resident hp hres (ring_slot_lt hfit (List.mem_range.mp hi)) x hx
    · rfl
  rw [answerMsg_away (s := s2.owe (.dectApply p b.record b.ctr 1)) none hdev]
  refine ⟨?_, ?_, (not_mem_takeMsg (s1.setMailbox m.core m.net { b with tail := (b.tail + 1) % 65536 }) m).1, rfl, ?_⟩
  · show (s.mem.writeEach (held.zip (bytesOf 64 m.data.toNat))).readNat (padOff m.core la) 64 = _
    rw [hheld, hoffs, readNat_writeEach]
    exact Nat.mod_eq_of_lt m.data.isLt
  · exact mailbox_setMailbox s1 m.core m.net _
  · show (s.pend ++ [_]) ++ [_] = _
    rw [List.append_assoc]
    rfl

theorem messageLand_lands (hnext : s.nextMsg net core = some m) (hcore : m.core = core) (hnet : m.net = net) (hdev : m.dev ≠ s.devNum)
    (hpart : s.msgPart m = some p) (hpurge : s.purged m = false) (hmesh : s.inMesh p core = true) (hsched : s.scheduled p = true)
    (hbase : ((s.core core).mailbox net).base ≠ 0) (hbpart : ((s.core core).mailbox net).part = p)
    (hres : (s.core core).resident = some p)
    (hfit : ((s.core core).mailbox net).base + 64 * 2 ^ ((s.core core).mailbox net).lsl ≤ 0x20000) :
    ∃ t, exec (.messageLand net core) s = .next t ∧ Lands s t p core net ((s.core core).mailbox net) m := by
  have hp : s.partOfTenant m.tenant = some p := (if_neg hdev).symm.trans hpart
  refine ⟨_, ?_, landMsg_lands hcore hnet hdev hp hres hfit⟩
  show execMessageLand net core s = _
  unfold execMessageLand
  simp only [hnext, hpart, hpurge, hmesh, hsched, hbase, hbpart, Bool.not_true, Bool.false_eq_true, if_false, not_true, ne_eq, or_self]

theorem messageLand_none (h : s.nextMsg net core = none) : exec (.messageLand net core) s = .next s := by
  show execMessageLand net core s = _
  unfold execMessageLand
  rw [h]

/-! ## The drop (R383) -/

/-- What O56 says of a drop. -/
structure Drops (s t : State) (core : Nat) (net : Bool) (m : Msg) : Prop where
  gone : m ∉ t.fabric.msgs ∧ ∀ x ∈ t.fabric.spilled, x.2 ≠ m
  mem : t.mem = s.mem
  count : t.dcbField (parttab m.part 6) 0 16 = min 0xFFFF (s.dcbField (parttab m.part 6) 0 16 + 1)
  others : ∀ off, off ≠ parttab m.part 6 → t.dcbGet off = s.dcbGet off
  sent : t.sent = s.sealFor m.tenant (.ack { dev := m.dev, ctx := m.ctx, strm := 32 + netAt net } m.seq (some 4)) :: s.sent
  pend : t.pend = s.pend ++ [.messageLand net core]

theorem sealFor_congr (hmode : t.dcbGet modectl = s.dcbGet modectl) (hkeys : t.control.keys = s.control.keys) (world : Nat) (x : Sent) :
    t.sealFor world x = s.sealFor world x := by
  unfold State.sealFor State.confidential State.worldGen
  rw [hmode, hkeys]

theorem dropMsg_drops (hnet : m.net = net) (hdev : m.dev ≠ s.devNum) : Drops s ((s.dropMsg m 4).owe (.messageLand net core)) core net m := by
  subst hnet
  unfold State.dropMsg
  extract_lets s1 s2
  have hs2 : s2 = s1.dcbSetField (parttab m.part 6) 0 16 (min 0xFFFF (s1.dcbField (parttab m.part 6) 0 16 + 1)) := if_pos rfl
  have hgone := not_mem_takeMsg s m
  obtain ⟨v, hv, hfield, hregs, hctl, hpend⟩ := dcbSetField_sets s1 (parttab m.part 6) (lo := 0) (len := 16)
    (min 0xFFFF (s1.dcbField (parttab m.part 6) 0 16 + 1)) (by decide)
  have hrest : v = { s1 with dcb := v.dcb } := by
    rw [hv]
    rfl
  rw [← hv] at hs2
  rw [hs2]
  clear hs2 hv
  have hother : ∀ off, off ≠ parttab m.part 6 → v.dcbGet off = s.dcbGet off := fun off ho =>
    hregs.control off fun h => ho (List.mem_singleton.mp h)
  have hseal := sealFor_congr (t := v) (s := s) (hother modectl (by unfold modectl parttab; omega)) (congrArg Control.keys hctl)
  have hdev' : m.dev ≠ v.devNum := by
    rw [hrest]
    exact hdev
  rw [answerMsg_away (some 4) hdev', hseal]
  refine ⟨?_, hregs.mem, ?_, hother, ?_, ?_⟩
  · show m ∉ v.fabric.msgs ∧ ∀ x ∈ v.fabric.spilled, x.2 ≠ m
    rw [hregs.fabric]
    exact hgone
  · exact hfield.trans (Nat.mod_eq_of_lt (by omega))
  · show _ :: v.sent = _
    rw [hrest]
    rfl
  · show v.pend ++ _ = _
    rw [hpend]
    rfl

theorem messageLand_drops (hnext : s.nextMsg net core = some m) (hnet : m.net = net) (hdev : m.dev ≠ s.devNum)
    (hpurge : s.purged m = false) (hpart : s.msgPart m = none ∨ ∃ p, s.msgPart m = some p ∧ s.inMesh p core = false) :
    ∃ t, exec (.messageLand net core) s = .next t ∧ Drops s t core net m := by
  refine ⟨_, ?_, dropMsg_drops hnet hdev⟩
  show execMessageLand net core s = _
  unfold execMessageLand
  rcases hpart with hpart | ⟨p, hpart, hmesh⟩
  · simp only [hnext, hpart, hpurge, Bool.false_eq_true, if_false]
  · simp only [hnext, hpart, hpurge, hmesh, Bool.not_false, Bool.false_eq_true, if_false, if_true]

end

end Sys2Proof.Machine
end

section
/-! PROOF. O56, remote matrix commands (R318), the answers a context waits for (R348, R349). -/

namespace Sys2Proof.Machine

open Sys2Proof.Bits

section
variable {s t u : State} {c : Ctx} {core n : Nat} {a : MxArrival} {rest : List MxArrival}

/-! ## One context changes -/

theorem updCtx_becomes {g : Ctx → Ctx} (hg : ∀ c, (g c).num = c.num) (hc : s.findCtx n = some c) : ContextBecomes s (s.updCtx n g) n (g c) := by
  refine ⟨(findCtx_updCtx hg n).trans ?_, fun j hj => (findCtx_updCtx hg j).trans ?_, quiet_updCtx s n g⟩
  · rw [hc, Option.map_some, if_pos (findCtx_num hc)]
  · cases hj' : s.findCtx j with
    | none => rfl
    | some d => rw [Option.map_some, if_neg (findCtx_num hj' ▸ hj)]

/-- Of a change only what it makes of the context it is for counts. -/
theorem updCtx_congr {f g : Ctx → Ctx} (h : ∀ c, c.num = n → f c = g c) : s.updCtx n f = s.updCtx n g := by
  have hfg : (fun c : Ctx => if c.num = n then f c else c) = fun c => if c.num = n then g c else c := by
    funext c
    by_cases hc : c.num = n
    · rw [if_pos hc, if_pos hc, h c hc]
    · rw [if_neg hc, if_neg hc]
  unfold State.updCtx
  rw [hfg]

/-! ## A remote command arrives (R318) -/

/-- What O56 says of an arrival that is answered and has no effect. -/
def AnswersMx (s : State) (core : Nat) (a : MxArrival) (rest : List MxArrival) (status cause : Nat) : Prop :=
  ∃ t, exec (.mxcmdArrival core) s = .next t ∧ (t.core core).arrivals = rest ∧ (∀ k, k ≠ core → t.core k = s.core k)
    ∧ t = { s with cores := t.cores, pend := s.pend ++ [.mxcmdReply a.ctx a.num status cause] }

/-- The device without the arrival that is judged. -/
def State.takeArrival (s : State) (core : Nat) (rest : List MxArrival) : State := s.mapCore core fun k => { k with arrivals := rest }

theorem takeArrival_core (s : State) (core : Nat) (rest : List MxArrival) :
    ((s.takeArrival core rest).core core).arrivals = rest ∧ ∀ k, k ≠ core → (s.takeArrival core rest).core k = s.core k := by
  unfold State.takeArrival
  refine ⟨?_, fun k hk => ?_⟩
  · rw [core_mapCore, if_pos rfl]
  · rw [core_mapCore, if_neg hk]

theorem takeArrival_mxRunning (s : State) (core : Nat) (rest : List MxArrival) : (s.takeArrival core rest).mxRunning core = s.mxRunning core := by
  unfold State.mxRunning State.takeArrival
  rw [core_mapCore, if_pos rfl]
  rfl

theorem exec_mxcmdArrival (ha : (s.core core).arrivals = a :: rest) : exec (.mxcmdArrival core) s
    = .next (match (s.takeArrival core rest).mxArrive core a with
      | (s2, some r) => s2.owe (.mxcmdReply a.ctx a.num r.1 r.2)
      | (_, none) => s.owe (.mxcmdArrival core)) := by
  show execMxcmdArrival core s = _
  unfold execMxcmdArrival
  rw [ha]
  rfl

theorem answersMx_of {status cause : Nat} (ha : (s.core core).arrivals = a :: rest)
    (h : (s.takeArrival core rest).mxArrive core a = (s.takeArrival core rest, some (status, cause))) : AnswersMx s core a rest status cause := by
  obtain ⟨hrest, hother⟩ := takeArrival_core s core rest
  refine ⟨(s.takeArrival core rest).owe (.mxcmdReply a.ctx a.num status cause), ?_, hrest, hother, rfl⟩
  rw [exec_mxcmdArrival ha, h]

/-- A command of another's unit: the owner holds the capability that the arrival shows. -/
def Ctx.holdsMx (c : Ctx) (core : Nat) (a : MxArrival) : Prop :=
  c.csrs.mxcap ≠ 0 ∧ c.csrs.mxcap = a.cap ∧ field c.csrs.mxcap.toNat 0 10 = core % 1024 ∧ field c.csrs.mxcap.toNat 10 12 = a.tenant

theorem mxArrive_idle (h : s.mxRunning core = none) : s.mxArrive core a = (s, some (3, 0)) := by
  unfold State.mxArrive
  rw [h]

theorem mxArrive_denied (h : s.mxRunning core = some c) (hno : ¬ c.holdsMx core a) : s.mxArrive core a = (s, some (1, 0)) := by
  have hno' : ¬ (c.csrs.mxcap ≠ 0 ∧ c.csrs.mxcap = a.cap ∧ field c.csrs.mxcap.toNat 0 10 = core % 1024
    ∧ field c.csrs.mxcap.toNat 10 12 = a.tenant) := hno
  unfold State.mxArrive
  simp only [h, hno', not_false_eq_true, true_or, if_true]
  split
  · rfl
  · rfl

theorem mxArrive_malformed (h : s.mxRunning core = some c) (hholds : c.holdsMx core a) (hw : mxWord a.word = none) :
    s.mxArrive core a = (s, some (2, 0)) := by
  have hholds' : c.csrs.mxcap ≠ 0 ∧ c.csrs.mxcap = a.cap ∧ field c.csrs.mxcap.toNat 0 10 = core % 1024
    ∧ field c.csrs.mxcap.toNat 10 12 = a.tenant := hholds
  unfold State.mxArrive
  simp only [h, hw, if_pos hholds']

/-- A well-formed command under its capability: its right is tested, then an entry of the queue, then the command itself. -/
theorem mxArrive_holds {op : BitVec 9} {o : AOps} (h : s.mxRunning core = some c) (hholds : c.holdsMx core a) (hw : mxWord a.word = some (op, o)) :
    s.mxArrive core a = (if bit c.csrs.mxcap.toNat (22 + rightOf op) = false then (s, some (1, 0))
      else if 8 ≤ c.mx.queue.length then (s, none)
      else match (if op = 0x102 then c.testZero
          else if op.toNat ≤ 0x105 then s.testLdw core c op a.arg
          else if isMac op then s.testMac core c op a.arg
          else c.testSt op a.arg (field (immVal o.sb).toNat 0 8) 0 o.ka.toNat (o.kb.toNat + 1)) with
        | .access _ _ _ => (s, some (4, 1))
        | .header _ sub => (s, some (4, 0x10 + sub))
        | .queue k view => (s.queueMx core c.num k view, some (0, 0))) := by
  have hholds' : c.csrs.mxcap ≠ 0 ∧ c.csrs.mxcap = a.cap ∧ field c.csrs.mxcap.toNat 0 10 = core % 1024
    ∧ field c.csrs.mxcap.toNat 10 12 = a.tenant := hholds
  unfold State.mxArrive
  rw [h]
  dsimp only
  rw [hw]
  dsimp only
  cases hb : bit c.csrs.mxcap.toNat (22 + rightOf op) with
  | false => rw [if_pos (Or.inr Bool.not_false), if_pos rfl]
  | true =>
    exact (if_neg fun hor => hor.elim (fun hno => hno hholds') (by decide)).trans (if_neg (by decide : ¬ true = false)).symm

theorem mxArrive_noRight {op : BitVec 9} {o : AOps} (h : s.mxRunning core = some c) (hw : mxWord a.word = some (op, o))
    (hb : bit a.cap.toNat (22 + rightOf op) = false) : s.mxArrive core a = (s, some (1, 0)) := by
  by_cases hholds : c.holdsMx core a
  · rw [mxArrive_holds h hholds hw, hholds.2.1, if_pos hb]
  · exact mxArrive_denied h hholds

theorem mxArrive_full {op : BitVec 9} {o : AOps} (h : s.mxRunning core = some c) (hholds : c.holdsMx core a) (hw : mxWord a.word = some (op, o))
    (hb : bit a.cap.toNat (22 + rightOf op) = true) (hfull : 8 ≤ c.mx.queue.length) : s.mxArrive core a = (s, none) := by
  rw [mxArrive_holds h hholds hw, hholds.2.1, hb, if_neg (by decide), if_pos hfull]

/-- The matrix state that an MXZERO leaves in view. -/
def Ctx.zeroView (c : Ctx) : Matrix := { c.mx with stat := mxSet (mxSet c.mx.stat 11 2 0) 30 1 0 }

theorem mxArrive_zero {o : AOps} (h : s.mxRunning core = some c) (hholds : c.holdsMx core a) (hw : mxWord a.word = some (0x102, o))
    (hb : bit a.cap.toNat (22 + rightOf 0x102) = true) (hroom : c.mx.queue.length < 8) :
    s.mxArrive core a = (s.queueMx core c.num (c.mxCmd 0x102 0) c.zeroView, some (0, 0)) := by
  rw [mxArrive_holds h hholds hw, hholds.2.1, hb, if_neg (by decide), if_neg (Nat.not_le.mpr hroom)]
  rfl

theorem zeroView_types (c : Ctx) : mxAtype c.zeroView.stat = 0 ∧ mxAscv c.zeroView.stat = false := by
  unfold Ctx.zeroView mxAtype mxAscv mxSet
  refine ⟨?_, bit_of_field (b := false) ?_⟩
  · rw [field_ofNat (by decide), field_setField_apart _ _ (by decide), BitVec.toNat_ofNat, field_mod_pow _ (by decide),
      field_setField_inside _ _ (Nat.le_refl _) (Nat.le_refl _)]
    rfl
  · rw [field_ofNat (by decide), field_setField_inside _ _ (Nat.le_refl _) (Nat.le_refl _)]
    rfl

theorem queued_fields (m : Matrix) (k : MxCmd) (view : Matrix) :
    (m.queued k view).queue = m.queue ++ [k] ∧ (m.queued k view).acc = m.acc ∧ (m.queued k view).stat = view.stat := ⟨rfl, rfl, rfl⟩

/-- A queued command: its context, and the turn that the sequencer is owed. -/
theorem queueMx_queues (hc : s.findCtx n = some c) (core : Nat) (k : MxCmd) (view : Matrix) : ∃ u, s.queueMx core n k view
    = { u with pend := s.pend ++ if c.mx.queue = [] then [.sequencerCommand core 0 0] else [] }
      ∧ ContextBecomes s u n { c with mx := c.mx.queued k view } ∧ u.mem = s.mem := by
  refine ⟨_, ?_, updCtx_becomes (g := fun c => c.mapMx fun m => m.queued k view) (fun _ => rfl) hc, rfl⟩
  unfold State.queueMx
  rw [hc]
  dsimp only
  cases hq : c.mx.queue with
  | nil => rfl
  | cons x l => rw [if_neg (by simp), if_neg (by simp), List.append_nil]; rfl

theorem mxcmdArrival_zero {o : AOps} (ha : (s.core core).arrivals = a :: rest) (h : s.mxRunning core = some c) (hholds : c.holdsMx core a)
    (hw : mxWord a.word = some (0x102, o)) (hb : bit a.cap.toNat (22 + rightOf 0x102) = true) (hroom : c.mx.queue.length < 8)
    (hc : s.findCtx c.num = some c) : ∃ t d k, exec (.mxcmdArrival core) s = .next t
      ∧ (t.core core).arrivals = rest ∧ t.findCtx c.num = some d ∧ d.mx.queue = c.mx.queue ++ [k] ∧ k.op = 0x102
      ∧ mxAtype d.mx.stat = 0 ∧ mxAscv d.mx.stat = false ∧ d.mx.acc = c.mx.acc ∧ d.regs = c.regs ∧ t.mem = s.mem
      ∧ t.pend = s.pend ++ (if c.mx.queue = [] then [.sequencerCommand core 0 0] else []) ++ [.mxcmdReply a.ctx a.num 0 0] := by
  have hrun : (s.takeArrival core rest).mxRunning core = some c := (takeArrival_mxRunning s core rest).trans h
  have hexec : exec (.mxcmdArrival core) s
      = .next (((s.takeArrival core rest).queueMx core c.num (c.mxCmd 0x102 0) c.zeroView).owe (.mxcmdReply a.ctx a.num 0 0)) := by
    rw [exec_mxcmdArrival ha, mxArrive_zero hrun hholds hw hb hroom]
  obtain ⟨harr, -⟩ := takeArrival_core s core rest
  have hcv : (s.takeArrival core rest).findCtx c.num = some c := hc
  have hmem : (s.takeArrival core rest).mem = s.mem := rfl
  have hpend : (s.takeArrival core rest).pend = s.pend := rfl
  obtain ⟨hat, hasc⟩ := zeroView_types c
  have hop : (c.mxCmd 0x102 0).op = 0x102 := rfl
  generalize s.takeArrival core rest = v at hexec harr hcv hmem hpend
  generalize c.mxCmd 0x102 0 = k at hexec hop
  generalize c.zeroView = view at hexec hat hasc
  obtain ⟨u, hqueue, hbecomes, humem⟩ := queueMx_queues hcv core k view
  obtain ⟨hthere, -, hquiet⟩ := hbecomes
  rw [hqueue] at hexec
  obtain ⟨hq, hacc, hstat⟩ := queued_fields c.mx k view
  rw [← hstat] at hat hasc
  generalize c.mx.queued k view = mx at hthere hq hacc hat hasc
  refine ⟨_, { c with mx := mx }, k, hexec, ?_, ?_, hq, hop, hat, hasc, hacc, rfl, ?_, ?_⟩
  · exact (congrArg Core.arrivals (core_congr hquiet.cores core)).trans harr
  · exact hthere
  · exact humem.trans hmem
  · rw [← hpend]
    rfl

/-! ## The answer comes (R97, R182, R318) -/

theorem mxcmdReply_word {status cause : Nat} (hs : status < 16) (hc : cause < 256) (ctx num : Nat) : exec (.mxcmdReply ctx num status cause) s
    = .next (s.putLate ctx num (BitVec.ofNat 64 (status + 2 ^ 16 * cause))) := by
  show execMxcmdReply ctx num status cause s = _
  unfold execMxcmdReply
  rw [Nat.mod_eq_of_lt hs, Nat.mod_eq_of_lt hc]

/-- A late result of a context that is not saved. -/
theorem putLate_becomes {r : Late} (w : Word) (hc : s.findCtx n = some c) (hr : c.order.late.find? (fun x => x.num == r.num) = some r)
    (hnext : c.nextMember = none) (hsaved : ∀ d ∈ s.saved, d.num ≠ n) : ContextBecomes s (s.putLate n r.num w) n (c.takesLate r w) := by
  have hnot : (s.saved.any fun d => d.num == n) = false := by simpa [List.any_eq_false] using hsaved
  unfold State.putLate
  simp only [hc, hr, hnext, hnot, Bool.false_eq_true, if_false]
  exact updCtx_becomes (g := fun c => c.takeLate r w) (fun _ => rfl) hc

theorem putInPlace_num (s : State) (c : Ctx) : (s.putInPlace c).num = c.num := by
  unfold State.putInPlace
  split
  · rfl
  · rfl

theorem saveEntries_rest (s : State) (c : Ctx) : ∃ m, s.saveEntries c = { s with mem := m } := by
  unfold State.saveEntries
  split
  · extract_lets base m m1 s1
    split
    · exact ⟨_, rfl⟩
    · rw [saveRows_eq]
      exact ⟨_, rfl⟩
  · exact ⟨_, rfl⟩

/-- A late result of a saved context reaches its save area. -/
theorem putLate_saved {r : Late} (w : Word) (hc : s.findCtx n = some c) (hr : c.order.late.find? (fun x => x.num == r.num) = some r)
    (hnext : c.nextMember = none) (hsaved : ∃ d ∈ s.saved, d.num = n) :
    (s.putLate n r.num w).findCtx n = some ((s.putInPlace c).takesLate r w) ∧ (s.putLate n r.num w).pend = s.pend
      ∧ ∀ k, k ≠ n → (s.putLate n r.num w).findCtx k = s.findCtx k := by
  have hany : (s.saved.any fun d => d.num == n) = true := by simpa [List.any_eq_true] using hsaved
  have hnum : ((s.putInPlace c).takesLate r w).num = n := (putInPlace_num s c).trans (findCtx_num hc)
  have hput : s.putLate n r.num w = (s.updCtx n fun _ => (s.putInPlace c).takesLate r w).saveEntries ((s.putInPlace c).takesLate r w) := by
    unfold State.putLate
    simp only [hc, hr, hnext, hany, if_true]
    rfl
  generalize (s.putInPlace c).takesLate r w = d at *
  have hupd : (s.updCtx n fun _ => d) = s.updCtx n fun e => { d with num := e.num } := updCtx_congr fun e he => by rw [he, ← hnum]
  obtain ⟨m, hm⟩ := saveEntries_rest (s.updCtx n fun _ => d) d
  rw [hput, hm, hupd]
  obtain ⟨hthere, hothers, -⟩ := updCtx_becomes (s := s) (g := fun e => { d with num := e.num }) (fun _ => rfl) hc
  refine ⟨hthere.trans ?_, rfl, hothers⟩
  rw [findCtx_num hc, ← hnum]

/-! ## Answers of the system image, and the time (R348, R349) -/

theorem ecallAnswer_answers {pc : BitVec 32} {l : List (BitVec 32 × Option Word)} (val : Word) (hc : s.findCtx n = some c)
    (he : c.ecalls = (pc, none) :: l) :
    ∃ t, exec (.ecallAnswer n val) s = .next t ∧ ContextBecomes s t n { c with ecalls := (pc, some val) :: l } := by
  refine ⟨_, rfl, ?_⟩
  have h := updCtx_becomes (g := fun c => { c with ecalls := answerFirst val c.ecalls }) (fun _ => rfl) hc
  rw [he] at h
  exact h

/-- A seat whose context's WAITT has waited long enough. -/
def expireWaitt (now : Nat) (c : Ctx) : Ctx :=
  match c.stall with
  | some (.time t) => if t ≤ now then { c with stall := some (.time 0) } else c
  | _ => c

theorem exec_waittExpiry (id : SeatId) : exec (.waittExpiry id) s = .next (s.mapSeat id (expireWaitt s.time)) := rfl

theorem ctxAt_mapSeat {id : SeatId} (g : Ctx → Ctx) : (s.mapSeat id g).ctxAt id = (s.ctxAt id).map g := by
  have hseats (l : List (SeatId × Ctx)) : ((l.map fun (p : SeatId × Ctx) => if p.1 = id then (p.1, g p.2) else p).find? fun p => p.1 == id).map (·.2)
      = ((l.find? fun p => p.1 == id).map (·.2)).map g := by
    induction l with
    | nil => rfl
    | cons p l ih =>
      by_cases hp : p.1 = id
      · simp [hp]
      · simp only [List.map_cons, if_neg hp, List.find?_cons, beq_eq_false_iff_ne.mpr hp]
        exact ih
  unfold State.ctxAt State.running State.mapSeat
  cases hc : s.cx with
  | none =>
    simp only [Option.map_none, ite_self, List.nil_append]
    exact hseats s.seats
  | some c =>
    by_cases hid : s.cur = id
    · simp [hid]
    · simp only [if_neg hid, List.cons_append, List.nil_append, List.find?_cons, beq_eq_false_iff_ne.mpr hid]
      exact hseats s.seats

theorem waittExpiry_expires {id : SeatId} {limit : Nat} (hc : s.ctxAt id = some c) (hst : c.stall = some (.time limit)) :
    (limit ≤ s.time → ∃ t, exec (.waittExpiry id) s = .next t ∧ t.ctxAt id = some { c with stall := some (.time 0) } ∧ Quiet s t)
      ∧ (s.time < limit → ∃ t, exec (.waittExpiry id) s = .next t ∧ t.ctxAt id = some c ∧ Quiet s t) := by
  have hquiet : Quiet s (s.mapSeat id (expireWaitt s.time)) := ⟨fun _ => rfl, fun _ => rfl, rfl, rfl, rfl, rfl, rfl, ⟨rfl, rfl, rfl⟩, rfl, rfl⟩
  have hat : (s.mapSeat id (expireWaitt s.time)).ctxAt id = some (expireWaitt s.time c) := by rw [ctxAt_mapSeat, hc]; rfl
  have hexp : expireWaitt s.time c = if limit ≤ s.time then { c with stall := some (.time 0) } else c := by rw [expireWaitt, hst]
  rw [hexp] at hat
  exact ⟨fun h => ⟨_, exec_waittExpiry id, hat.trans (congrArg some (if_pos h)), hquiet⟩,
    fun h => ⟨_, exec_waittExpiry id, hat.trans (congrArg some (if_neg (Nat.not_le.mpr h))), hquiet⟩⟩

end

end Sys2Proof.Machine
end

section
/-! PROOF. O56, accumulators: filled lane by lane, and their image in memory (R298, R317). -/

namespace Sys2Proof.Machine

open Sys2Proof.Bits

section
variable {m : Memory} {acc : List (Nat × Nat)} {base i : Nat}

/-! ## Accumulators by number -/

theorem accGet_accSet (acc : List (Nat × Nat)) (i v k : Nat) : accGet (accSet acc i v) k = if k = i then v else accGet acc k := by
  unfold accGet accSet
  by_cases hv : v = 0
  · rw [if_pos hv, look_drop]
    by_cases hk : k = i
    · rw [if_pos hk.symm, if_pos hk, hv]
      rfl
    · rw [if_neg (Ne.symm hk), if_neg hk]
  · rw [if_neg hv, look_put]
    by_cases hk : k = i
    · rw [if_pos hk.symm, if_pos hk]
      rfl
    · rw [if_neg (Ne.symm hk), if_neg hk]

/-- Neighbouring accumulators filled one after the other. -/
theorem accGet_fill (acc : List (Nat × Nat)) (b n : Nat) (v : Nat → Nat) (k : Nat) :
    accGet ((List.range n).foldl (fun a i => accSet a (b + i) (v i)) acc) k = if b ≤ k ∧ k < b + n then v (k - b) else accGet acc k := by
  induction n with
  | zero => rw [if_neg (by omega)]; rfl
  | succ n ih =>
    rw [List.range_succ, List.foldl_append, List.foldl_cons, List.foldl_nil, accGet_accSet, ih]
    by_cases hk : k = b + n
    · rw [if_pos hk, if_pos (by omega), hk, Nat.add_sub_cancel_left]
    · rw [if_neg hk]
      by_cases hin : b ≤ k ∧ k < b + n
      · rw [if_pos hin, if_pos (by omega)]
      · rw [if_neg hin, if_neg (by omega)]

theorem mem_of_look {α : Type} {l : List (Nat × α)} {k : Nat} {v : α} (h : look l k = some v) : (k, v) ∈ l := by
  induction l with
  | nil => exact absurd h nofun
  | cons p l ih =>
    obtain ⟨j, w⟩ := p
    unfold look at h
    split at h
    · next hj =>
      rw [← beq_iff_eq.mp hj, Option.some.inj h]
      exact List.mem_cons_self
    · exact List.mem_cons_of_mem _ (ih h)

theorem look_none_of {α : Type} {l : List (Nat × α)} {k : Nat} (h : look l k = none) : k ∉ l.map (·.1) := by
  induction l with
  | nil => exact List.not_mem_nil
  | cons p l ih =>
    obtain ⟨j, w⟩ := p
    unfold look at h
    split at h
    · exact absurd h nofun
    · next hj =>
      rw [List.map_cons, List.mem_cons, not_or]
      exact ⟨fun e => hj (beq_iff_eq.mpr e.symm), ih h⟩

theorem accGet_lt (h : ∀ p ∈ acc, p.1 < 2048 ∧ p.2 < 2 ^ 32) (i : Nat) : accGet acc i < 2 ^ 32 := by
  unfold accGet
  cases hi : look acc i with
  | none => exact Nat.two_pow_pos 32
  | some v => exact (h _ (mem_of_look hi)).2

/-! ## The bytes of an image (R317) -/

theorem mem_accBytes (acc : List (Nat × Nat)) (x : Nat) : x ∈ (accBytes acc).map (·.1) ↔ x / 4 ∈ acc.map (·.1) := by
  induction acc with
  | nil => simp [accBytes]
  | cons p acc ih =>
    have hcons : (accBytes (p :: acc)).map (·.1) = [4 * p.1, 4 * p.1 + 1, 4 * p.1 + 2, 4 * p.1 + 3] ++ (accBytes acc).map (·.1) := rfl
    rw [hcons, List.mem_append, ih, List.map_cons, List.mem_cons (a := x / 4)]
    refine or_congr ?_ Iff.rfl
    simp only [List.mem_cons, List.not_mem_nil, or_false]
    omega

theorem accBytes_nodup (h : (acc.map (·.1)).Nodup) : ((accBytes acc).map (·.1)).Nodup := by
  induction acc with
  | nil => exact List.nodup_nil
  | cons p acc ih =>
    obtain ⟨hp, hacc⟩ := List.nodup_cons.mp h
    have hcons : (accBytes (p :: acc)).map (·.1) = [4 * p.1, 4 * p.1 + 1, 4 * p.1 + 2, 4 * p.1 + 3] ++ (accBytes acc).map (·.1) := rfl
    rw [hcons]
    refine List.nodup_append.mpr ⟨by simp, ih hacc, fun a ha b hb hab => hp ?_⟩
    rw [mem_accBytes] at hb
    have hdiv : b / 4 = p.1 := by
      simp only [List.mem_cons, List.not_mem_nil, or_false] at ha
      omega
    rwa [hdiv] at hb

/-- The accumulators written over an empty range, in the layout of R317. -/
def Memory.withAcc (m : Memory) (base : Nat) (acc : List (Nat × Nat)) : Memory :=
  (m.zero base 8208).writeEach ((accBytes acc).map fun b => (base + b.1, b.2))

theorem withAcc_keys (base : Nat) (acc : List (Nat × Nat)) :
    ((accBytes acc).map fun b => (base + b.1, b.2)).map (·.1) = ((accBytes acc).map (·.1)).map (base + ·) := by
  rw [List.map_map, List.map_map]
  rfl

theorem withAcc_outside (h : ∀ p ∈ acc, p.1 < 2048 ∧ p.2 < 2 ^ 32) {x : Nat} (hx : x < base ∨ base + 8192 ≤ x) :
    (m.withAcc base acc).get x = (m.zero base 8208).get x := by
  refine Memory.get_writeEach_outside _ _ x fun hin => ?_
  rw [withAcc_keys] at hin
  obtain ⟨y, hy, rfl⟩ := List.mem_map.mp hin
  obtain ⟨p, hp, hpy⟩ := List.mem_map.mp ((mem_accBytes acc y).mp hy)
  have := (h p hp).1
  omega

theorem withAcc_byte (hn : (acc.map (·.1)).Nodup) (hi : i < 2048) {j : Nat} (hj : j < 4) :
    (m.withAcc base acc).get (base + (4 * i + j)) = BitVec.ofNat 8 (accGet acc i >>> (8 * j)) := by
  have hkeys : (((accBytes acc).map fun b => (base + b.1, b.2)).map (·.1)).Nodup := by
    rw [withAcc_keys]
    exact (accBytes_nodup hn).map fun _ _ e => Nat.add_left_cancel e
  have hdiv : (4 * i + j) / 4 = i := by omega
  unfold accGet
  cases hv : look acc i with
  | some v =>
    have hmem : (4 * i + j, BitVec.ofNat 8 (v >>> (8 * j))) ∈ accBytes acc := by
      refine List.mem_flatMap.mpr ⟨(i, v), mem_of_look hv, List.mem_map.mpr ⟨j, ?_, rfl⟩⟩
      simp only [List.mem_cons, List.not_mem_nil, or_false]
      omega
    exact Memory.get_writeEach_inside _ _ hkeys (List.mem_map.mpr ⟨_, hmem, rfl⟩)
  | none =>
    have hnone : base + (4 * i + j) ∉ ((accBytes acc).map fun b => (base + b.1, b.2)).map (·.1) := by
      rw [withAcc_keys]
      intro hin
      obtain ⟨y, hy, e⟩ := List.mem_map.mp hin
      obtain rfl : y = 4 * i + j := Nat.add_left_cancel e
      rw [mem_accBytes, hdiv] at hy
      exact look_none_of hv hy
    refine (Memory.get_writeEach_outside _ _ _ hnone).trans ?_
    rw [Memory.get_zero, if_pos (by omega)]
    simp [Memory.unlisted]

/-- Four bytes that are those of a number hold it. -/
theorem readNat_four {a v : Nat} (hv : v < 2 ^ 32) (h : ∀ j < 4, m.get (a + j) = BitVec.ofNat 8 (v >>> (8 * j))) : m.readNat a 4 = v := by
  have hread : m.read a 4 = bytesOf 4 v := by
    simp only [Memory.read_eq, bytesOf, List.range_succ, List.range_zero, List.nil_append, List.cons_append, List.map_cons, List.map_nil]
    rw [h 0 (by decide), h 1 (by decide), h 2 (by decide), h 3 (by decide)]
    simp only [Nat.shiftRight_eq_div_pow, Nat.div_div_eq_div_mul, Nat.reduceMul, Nat.reducePow, Nat.div_one]
  unfold Memory.readNat
  rw [hread, valOf_bytesOf]
  exact Nat.mod_eq_of_lt hv

theorem readNat_unlisted {a n : Nat} (h : ∀ j < n, m.get (a + j) = 0) : m.readNat a n = 0 := by
  have hread : m.read a n = bytesOf n 0 := by
    rw [Memory.read_eq, List.map_congr_left fun j hj => h j (List.mem_range.mp hj)]
    clear h
    induction n with
    | zero => rfl
    | succ n ih =>
      rw [List.range_succ_eq_map, List.map_cons, List.map_map]
      exact congrArg (0#8 :: ·) ih
  unfold Memory.readNat
  rw [hread, valOf_bytesOf, Nat.zero_mod]

/-- An image in memory: the accumulators, the status word, and zeros behind it. -/
structure Imaged (m m' : Memory) (base : Nat) (acc : List (Nat × Nat)) (w : Word) : Prop where
  acc : ∀ i < 2048, m'.readNat (base + 4 * i) 4 = accGet acc i
  stat : m'.readNat (base + 8192) 16 = w.toNat
  outside : ∀ a, a < base ∨ base + 8208 ≤ a → m'.get a = m.get a

theorem image_imaged (hn : (acc.map (·.1)).Nodup) (h : ∀ p ∈ acc, p.1 < 2048 ∧ p.2 < 2 ^ 32) (m : Memory) (base : Nat) (w : Word) :
    Imaged m ((m.withAcc base acc).writeNat (base + 8192) 8 w.toNat) base acc w := by
  have hout {x : Nat} (hx : x < base + 8192 ∨ base + 8200 ≤ x) :
      ((m.withAcc base acc).writeNat (base + 8192) 8 w.toNat).get x = (m.withAcc base acc).get x := by
    refine Memory.get_writeNat_outside _ _ _ _ _ fun hin => ?_
    obtain ⟨y, hy, rfl⟩ := List.mem_map.mp hin
    have := List.mem_range.mp hy
    omega
  refine ⟨fun i hi => readNat_four (accGet_lt h i) fun j hj => ?_, ?_, fun a ha => ?_⟩
  · rw [Nat.add_assoc, hout (by omega), withAcc_byte hn hi hj]
  · have hzero : ((m.withAcc base acc).writeNat (base + 8192) 8 w.toNat).readNat (base + 8192 + 8) 8 = 0 := by
      refine readNat_unlisted fun j hj => ?_
      rw [hout (by omega), withAcc_outside h (by omega), Memory.get_zero, if_pos (by omega)]
      rfl
    rw [show (16 : Nat) = 8 + 8 from rfl, Memory.readNat_add, hzero, Memory.readNat_writeNat, Nat.mul_zero, Nat.add_zero]
    exact Nat.mod_eq_of_lt w.isLt
  · rw [hout (by omega), withAcc_outside h (by omega), Memory.get_zero, if_neg (by omega)]

end

end Sys2Proof.Machine
end

section
/-! PROOF. O56, the sequencer takes a command (R300, R308, R311 to R317). -/

namespace Sys2Proof.Machine

open Sys2Proof.Bits

section
variable {s t u v : State} {c d : Ctx} {core n : Nat} {k : MxCmd} {rest : List MxCmd} {f : Matrix → Matrix} {m : Memory} {x : List (Nat × Core)}

/-! ## The next turn (R300) -/

/-- What the sequencer of a core is owed for a queue. -/
def mxTurn (core : Nat) (q : List MxCmd) : List Instr :=
  if q = [] then [] else if q.any (fun x => x.start.isSome) then [.kstep core] else [.sequencerCommand core 0 0]

theorem mxTurn_idle (h : ∀ x ∈ rest, x.start = none) : mxTurn core rest = if rest = [] then [] else [.sequencerCommand core 0 0] := by
  have hany : rest.any (fun x => x.start.isSome) = false := by
    rw [List.any_eq_false]
    intro x hx
    rw [h x hx]
    decide
  unfold mxTurn
  rw [hany]
  rfl

theorem oweSequencer_eq (s : State) (core : Nat) (c : Ctx) : s.oweSequencer core c = { s with pend := s.pend ++ mxTurn core c.mx.queue } := by
  unfold State.oweSequencer mxTurn
  cases hq : c.mx.queue with
  | nil => rw [if_pos rfl, List.append_nil]
  | cons k rest =>
    rw [if_neg (List.cons_ne_nil k rest)]
    dsimp only
    split
    · rfl
    · rfl

/-! ## A command done with -/

/-- A matrix state without a command of its queue. -/
def Matrix.without (m : Matrix) (pick : Nat) : Matrix := { m with queue := m.queue.eraseIdx pick }

theorem updCtx_updCtx {f g : Ctx → Ctx} (hf : ∀ c, (f c).num = c.num) : (s.updCtx n f).updCtx n g = s.updCtx n fun c => g (f c) := by
  have hfg : ((fun c : Ctx => if c.num = n then g c else c) ∘ fun c => if c.num = n then f c else c) = fun c => if c.num = n then g (f c) else c := by
    funext c
    show (if (if c.num = n then f c else c).num = n then _ else _) = _
    by_cases hc : c.num = n
    · simp only [hf, hc, if_true]
    · simp only [if_neg hc]
  unfold State.updCtx
  simp only [Option.map_map, List.map_map, hfg, State.mk.injEq, true_and, and_true]
  exact List.map_congr_left fun p _ => congrArg (Prod.mk p.1) (congrFun hfg p.2)

theorem updCtx_mapMx (s : State) (n : Nat) (f g : Matrix → Matrix) :
    (s.updCtx n fun c => c.mapMx f).updCtx n (fun c => c.mapMx g) = s.updCtx n fun c => c.mapMx fun m => g (f m) := updCtx_updCtx fun _ => rfl

theorem updCtx_id (s : State) (n : Nat) : (s.updCtx n fun c => c) = s := by
  unfold State.updCtx
  simp

/-- The matrix state of a context that has run a command and no longer has it. -/
theorem finishMx_eq (hc : s.findCtx n = some c) (pick : Nat) : s.finishMx core n pick
    = { s.updCtx n (fun c => c.mapMx fun m => m.without pick) with pend := s.pend ++ mxTurn core (c.mx.queue.eraseIdx pick) } := by
  have hthere := (updCtx_becomes (g := fun c => c.mapMx fun m => m.without pick) (fun _ => rfl) hc).there
  unfold State.finishMx
  show (match (s.updCtx n fun c => c.mapMx fun m => m.without pick).findCtx n with
    | some c => (s.updCtx n fun c => c.mapMx fun m => m.without pick).oweSequencer core c
    | none => s.updCtx n fun c => c.mapMx fun m => m.without pick) = _
  rw [hthere]
  exact oweSequencer_eq _ _ _

/-- What O56 says of a command that the sequencer has run whole: the context's matrix state, and the turn owed. -/
structure TakesMx (s t : State) (core : Nat) (c : Ctx) (rest : List MxCmd) (mx : Matrix) : Prop where
  there : t.findCtx c.num = some { c with mx := mx }
  becomes : ContextBecomes s { t with pend := s.pend, mem := s.mem, cores := s.cores } c.num { c with mx := mx }
  pend : t.pend = s.pend ++ if rest = [] then [] else [.sequencerCommand core 0 0]

/-- A command that changes memory, the cores and its context's matrix state, run and removed. -/
theorem finishMx_takes (hc : s.findCtx c.num = some c) (hrest : ∀ x ∈ rest, x.start = none) (hq : (f c.mx).queue = k :: rest) :
    TakesMx s (({ s.updCtx c.num (fun d => d.mapMx f) with mem := m, cores := x } : State).finishMx core c.num 0) core c rest
        { f c.mx with queue := rest }
      ∧ (({ s.updCtx c.num (fun d => d.mapMx f) with mem := m, cores := x } : State).finishMx core c.num 0).mem = m
      ∧ (({ s.updCtx c.num (fun d => d.mapMx f) with mem := m, cores := x } : State).finishMx core c.num 0).cores = x := by
  have hthere : ({ s.updCtx c.num (fun d => d.mapMx f) with mem := m, cores := x } : State).findCtx c.num = some (c.mapMx f) :=
    (updCtx_becomes (g := fun d => d.mapMx f) (fun _ => rfl) hc).there
  have hboth : (s.updCtx c.num fun d => d.mapMx f).updCtx c.num (fun d => d.mapMx fun m => m.without 0)
      = s.updCtx c.num fun d => d.mapMx fun m => (f m).without 0 := updCtx_mapMx s c.num f _
  have hb := updCtx_becomes (g := fun d => d.mapMx fun m => (f m).without 0) (fun _ => rfl) hc
  have hmx : (c.mapMx fun m => (f m).without 0) = { c with mx := { f c.mx with queue := rest } } := by
    show ({ c with mx := { f c.mx with queue := (f c.mx).queue.eraseIdx 0 } } : Ctx) = _
    rw [hq, List.eraseIdx_cons_zero]
  have hturn : mxTurn core ((c.mapMx f).mx.queue.eraseIdx 0) = if rest = [] then [] else [.sequencerCommand core 0 0] := by
    rw [show (c.mapMx f).mx.queue = k :: rest from hq]
    exact mxTurn_idle hrest
  rw [hmx] at hb
  rw [finishMx_eq hthere, hturn]
  rw [← hboth] at hb
  exact ⟨⟨hb.there, ⟨hb.there, hb.others, ⟨hb.quiet.bytes, hb.quiet.control, rfl, hb.quiet.slices, hb.quiet.sched, hb.quiet.fabric,
    hb.quiet.complex, hb.quiet.clocks, rfl, hb.quiet.sent⟩⟩, rfl⟩, rfl, rfl⟩

/-! ## The pick (R308) -/

/-- A multiply that its chain leaves unordered. -/
def MxCmd.unordered (k : MxCmd) : Bool := isMac k.op && k.chain && !k.seq

theorem mxPick_head (hstart : ∀ x ∈ k :: rest, x.start = none) (h : k.unordered = false) : mxPick (k :: rest) 0 0 = true := by
  have hany : ((k :: rest).any fun k => k.start.isSome) = false := by
    rw [List.any_eq_false]
    intro x hx
    rw [hstart x hx]
    decide
  have hall : ((k :: rest).take (0 + 1)).all (fun k => isMac k.op && k.chain && !k.seq) = false := by
    rw [List.take_succ_cons, List.take_zero, List.all_cons, List.all_nil, Bool.and_true]
    exact h
  unfold mxPick
  simp only [hany, List.getElem?_cons_zero, hall]
  rfl

theorem mxPick_unordered {q : List MxCmd} {pick start : Nat} {j : MxCmd} (hstart : ∀ x ∈ q, x.start = none) (hj : q[pick]? = some j)
    (hfree : ∀ x ∈ q.take (pick + 1), isMac x.op = true ∧ x.chain = true ∧ x.seq = false)
    (hsteps : start < hKlen j.hdr / macSpan (macForm j.op) j.wsparse) : mxPick q pick start = true := by
  have hany : (q.any fun k => k.start.isSome) = false := by
    rw [List.any_eq_false]
    intro x hx
    rw [hstart x hx]
    decide
  have hall : (q.take (pick + 1)).all (fun k => isMac k.op && k.chain && !k.seq) = true := by
    rw [List.all_eq_true]
    intro x hx
    obtain ⟨hmac, hchain, hseq⟩ := hfree x hx
    rw [hmac, hchain, hseq]
    rfl
  unfold mxPick
  simp only [hany, hj, hall, if_true, decide_eq_true hsteps]
  rfl

theorem exec_sequencerCommand {q : List MxCmd} {pick start : Nat} {j : MxCmd} (hrun : s.mxRunning core = some c) (hq : c.mx.queue = q)
    (hstart : ∀ x ∈ q, x.start = none) (hj : q[pick]? = some j) (hpick : mxPick q pick start = true) :
    exec (.sequencerCommand core pick start) s = .next (if isMac j.op = true then
      match s.refillWeights core j with
      | none => s.metadataFault c.num j 2 pick 0
      | some s1 => (s1.updCtx c.num fun c => c.mapMx fun m =>
          { m with queue := setAt m.queue pick { j with start := some start, step := 0 } }).owe (.kstep core)
      else (s.runMx core c j).finishMx core c.num pick) := by
  have hany : (q.any fun k => k.start.isSome) = false := by
    rw [List.any_eq_false]
    intro x hx
    rw [hstart x hx]
    decide
  show execSequencerCommand core pick start s = _
  unfold execSequencerCommand
  simp only [hrun, hq, hany, hj, hpick, Bool.false_eq_true, if_false] <;> rfl

theorem sequencer_runs (hrun : s.mxRunning core = some c) (hq : c.mx.queue = k :: rest) (hstart : ∀ x ∈ k :: rest, x.start = none)
    (hmac : isMac k.op = false) : exec (.sequencerCommand core 0 0) s = .next ((s.runMx core c k).finishMx core c.num 0) := by
  have hfree : k.unordered = false := by rw [MxCmd.unordered, hmac]; rfl
  rw [exec_sequencerCommand hrun hq hstart List.getElem?_cons_zero (mxPick_head hstart hfree), hmac, if_neg Bool.false_ne_true]

/-- A multiply taken: its k-steps begin, the weights in their buffer. -/
theorem sequencer_starts {q : List MxCmd} {pick start : Nat} {j : MxCmd} (hrun : s.mxRunning core = some c) (hc : s.findCtx c.num = some c)
    (hq : c.mx.queue = q) (hstart : ∀ x ∈ q, x.start = none) (hj : q[pick]? = some j) (hpick : mxPick q pick start = true)
    (hmac : isMac j.op = true) (hw : (s.core core).weights ≠ []) : ∃ t, exec (.sequencerCommand core pick start) s = .next t
      ∧ t.pend = s.pend ++ [.kstep core]
      ∧ ContextBecomes s { t with pend := s.pend } c.num { c with
        mx := { c.mx with queue := setAt q pick { j with start := some start, step := 0 } } } := by
  have hfill : s.refillWeights core j = some s := by
    unfold State.refillWeights
    simp [hw]
  have hexec := exec_sequencerCommand hrun hq hstart hj hpick
  rw [if_pos hmac, hfill] at hexec
  have hb := updCtx_becomes (g := fun c => c.mapMx fun m =>
    { m with queue := setAt m.queue pick { j with start := some start, step := 0 } }) (fun _ => rfl) hc
  refine ⟨_, hexec, rfl, ?_⟩
  rw [← hq]
  exact ⟨hb.there, hb.others, hb.quiet⟩

theorem setAt_eq_set {α : Type} (l : List α) (i : Nat) (a : α) : setAt l i a = l.set i a := by
  induction l generalizing i with
  | nil => rfl
  | cons b l ih => cases i with
    | zero => rfl
    | succ i => exact congrArg (b :: ·) (ih i)

end

end Sys2Proof.Machine
end

section
/-! PROOF. O56, each command of the sequencer (R311 to R317) and its k-steps (R304, R307); the settlement of O56. -/

namespace Sys2Proof.Machine

open Sys2Proof.Bits

section
variable {s t : State} {c : Ctx} {core : Nat} {k : MxCmd} {rest : List MxCmd}

/-! ## The effect of each command (R311 to R317) -/

theorem runMx_zero (h : k.op = 0x102) : s.runMx core c k
    = { s.updCtx c.num (fun d => d.mapMx fun m => { m with acc := [] }) with mem := s.mem, cores := s.cores } := if_pos h

theorem runMx_load (h : 0x103 ≤ k.op.toNat ∧ k.op.toNat ≤ 0x105) : s.runMx core c k
    = { s.updCtx c.num (fun d => d.mapMx fun m => m) with mem := s.mem, cores := (s.loadWeights core k.la k.hdr k.wsparse).cores } := by
  have h1 : ¬ k.op = 0x102 := by bv_omega
  have hid : (s.updCtx c.num fun d => d.mapMx fun m => m) = s := updCtx_id s c.num
  unfold State.runMx
  dsimp only
  rw [if_neg h1, if_pos h, hid]
  rfl

theorem runMx_write (h : k.op = 0x113 ∨ k.op = 0x114) : s.runMx core c k
    = { s.updCtx c.num (fun d => d.mapMx fun m =>
        { m with acc := (List.range 32).foldl (fun a i => accSet a (32 * k.row + i) (lane 32 k.vec i)) m.acc }) with mem := s.mem, cores := s.cores } := by
  have h1 : ¬ k.op = 0x102 := by bv_omega
  have h2 : ¬ (0x103 ≤ k.op.toNat ∧ k.op.toNat ≤ 0x105) := by bv_omega
  unfold State.runMx
  dsimp only
  rw [if_neg h1, if_neg h2, if_pos h]
  rfl

/-- The rows that an MXST stores. -/
def mxstRows (c : Ctx) (k : MxCmd) : List (List (Nat × Flt.Flags)) := (List.range k.nrow).map fun i => mxstRow c k (k.row0 + i)

theorem runMx_store (h : 0x115 ≤ k.op.toNat ∧ k.op.toNat ≤ 0x11C) : s.runMx core c k
    = { s.updCtx c.num (fun d => d.mapMx fun m =>
        { m with stat := m.stat ||| mxSticky ((mxstRows c k).flatten.foldl (fun a x => a ||| x.2) 0) }) with
      mem := s.mem.write (padOff core k.la) ((mxstRows c k).flatMap fun r =>
        bytesOf (32 * Flt.etWidth (mxstTarget k.op) / 8) (packLanes (Flt.etWidth (mxstTarget k.op)) (r.map (·.1)))),
      cores := s.cores } := by
  have h1 : ¬ k.op = 0x102 := by bv_omega
  have h2 : ¬ (0x103 ≤ k.op.toNat ∧ k.op.toNat ≤ 0x105) := by omega
  have h3 : ¬ (k.op = 0x113 ∨ k.op = 0x114) := by bv_omega
  unfold State.runMx
  dsimp only
  rw [if_neg h1, if_neg h2, if_neg h3, if_pos h, List.foldl_flatten]
  rfl

/-- The sticky bits of MXSTAT (R298). -/
def stickyBits : Word := BitVec.ofNat 64 (0x7F * 2 ^ 40)

theorem runMx_save (h : k.op = 0x11F) : s.runMx core c k
    = { s.updCtx c.num (fun d => d.mapMx fun m => m) with
      mem := (s.mem.withAcc (padOff core k.la) c.mx.acc).writeNat (padOff core k.la + 8192) 8
        (k.hdr.setWidth 64 ||| (c.mx.stat &&& stickyBits)).toNat,
      cores := s.cores } := by
  have h1 : ¬ k.op = 0x102 := by bv_omega
  have h2 : ¬ (0x103 ≤ k.op.toNat ∧ k.op.toNat ≤ 0x105) := by bv_omega
  have h3 : ¬ (k.op = 0x113 ∨ k.op = 0x114) := by bv_omega
  have h4 : ¬ (0x115 ≤ k.op.toNat ∧ k.op.toNat ≤ 0x11C) := by bv_omega
  have hid : (s.updCtx c.num fun d => d.mapMx fun m => m) = s := updCtx_id s c.num
  unfold State.runMx
  dsimp only
  rw [if_neg h1, if_neg h2, if_neg h3, if_neg h4, if_pos h, hid]
  rfl

theorem runMx_restore (h : k.op = 0x120) : ∃ acc, (∀ i < 2048, accGet acc i = s.mem.readNat (padOff core k.la + 4 * i) 4) ∧ s.runMx core c k
    = { s.updCtx c.num (fun d => d.mapMx fun m =>
        { m with acc := acc, stat := m.stat ||| (BitVec.ofNat 64 (s.mem.readNat (padOff core k.la + 8192) 8) &&& stickyBits) }) with
      mem := s.mem, cores := s.cores } := by
  have hfill (i : Nat) (hi : i < 2048) : accGet ((List.range 2048).foldl (fun a i => accSet a i (s.mem.readNat (padOff core k.la + 4 * i) 4)) []) i
      = s.mem.readNat (padOff core k.la + 4 * i) 4 := by
    have hget := accGet_fill [] 0 2048 (fun i => s.mem.readNat (padOff core k.la + 4 * i) 4) i
    simp only [Nat.zero_add, Nat.zero_le, hi, and_self, if_true, Nat.sub_zero] at hget
    exact hget
  refine ⟨_, hfill, ?_⟩
  clear hfill
  have h1 : ¬ k.op = 0x102 := by bv_omega
  have h2 : ¬ (0x103 ≤ k.op.toNat ∧ k.op.toNat ≤ 0x105) := by bv_omega
  have h3 : ¬ (k.op = 0x113 ∨ k.op = 0x114) := by bv_omega
  have h4 : ¬ (0x115 ≤ k.op.toNat ∧ k.op.toNat ≤ 0x11C) := by bv_omega
  have h5 : ¬ k.op = 0x11F := by bv_omega
  unfold State.runMx State.stickMx
  dsimp only
  rw [if_neg h1, if_neg h2, if_neg h3, if_neg h4, if_neg h5, if_pos h]
  generalize (List.range 2048).foldl (fun a i => accSet a i (s.mem.readNat (padOff core k.la + 4 * i) 4)) [] = acc
  exact updCtx_mapMx s c.num _ _

/-! ## A command taken -/

theorem sequencer_takes {f : Matrix → Matrix} {m : Memory} {x : List (Nat × Core)} (hrun : s.mxRunning core = some c)
    (hc : s.findCtx c.num = some c) (hq : c.mx.queue = k :: rest) (hstart : ∀ x ∈ k :: rest, x.start = none) (hmac : isMac k.op = false)
    (hf : (f c.mx).queue = c.mx.queue) (heff : s.runMx core c k = { s.updCtx c.num (fun d => d.mapMx f) with mem := m, cores := x }) :
    ∃ t, exec (.sequencerCommand core 0 0) s = .next t ∧ TakesMx s t core c rest { f c.mx with queue := rest } ∧ t.mem = m ∧ t.cores = x := by
  refine ⟨_, sequencer_runs hrun hq hstart hmac, ?_⟩
  rw [heff]
  exact finishMx_takes hc (fun y hy => hstart y (List.mem_cons_of_mem k hy)) (hf.trans hq)

theorem loadWeights_core (s : State) (core la : Nat) (h : BitVec 128) (sparse : Bool) :
    ((s.loadWeights core la h sparse).core core).weights = s.mem.read (padOff core (la + 16)) (weightBytes h sparse)
      ∧ ((s.loadWeights core la h sparse).core core).whdr = h ∧ ∀ n, n ≠ core → (s.loadWeights core la h sparse).core n = s.core n := by
  unfold State.loadWeights
  refine ⟨?_, ?_, fun n hn => ?_⟩
  · rw [core_mapCore, if_pos rfl]
  · rw [core_mapCore, if_pos rfl]
  · rw [core_mapCore, if_neg hn]

/-! ## A k-step (R304, R307) -/

/-- The matrix state after a k-step. -/
def Matrix.stepped (m : Matrix) (k : MxCmd) (r : List (Nat × Nat) × Word) (anan : Word) : Matrix :=
  { m with acc := r.1, stat := m.stat ||| r.2 ||| anan, queue := setAt m.queue 0 { k with step := k.step + 1 } }

theorem charge_mapMx (c : Ctx) (f : Matrix → Matrix) (n : Nat) : (c.mapMx f).charge n = (c.charge n).mapMx f := by
  have hbit : (c.mapMx f).csrs = c.csrs := rfl
  unfold Ctx.charge
  dsimp only
  rw [hbit]
  split
  · rfl
  · rfl

/-- The device after a k-step: the command goes on, or is done with. -/
def State.stepMx (s : State) (core n : Nat) (k : MxCmd) (total : Nat) (r : List (Nat × Nat) × Word) (anan : Word) : State :=
  let s1 := s.updCtx n fun c => (c.mapMx fun m => m.stepped k r anan).charge (macEnergy k.op)
  if total ≤ k.step + 1 then s1.finishMx core n 0 else s1.owe (.kstep core)

/-- What O56 says of a k-step. -/
structure StepsMx (s t : State) (core : Nat) (c : Ctx) (k : MxCmd) (rest : List MxCmd) (total : Nat) (r : List (Nat × Nat) × Word)
    (anan : Word) : Prop where
  context : ∃ d, t.findCtx c.num = some d ∧ d.mx.acc = r.1 ∧ d.mx.stat = c.mx.stat ||| r.2 ||| anan
    ∧ d.mx.queue = (if total ≤ k.step + 1 then rest else { k with step := k.step + 1 } :: rest)
    ∧ d.csrs = { c.csrs with energy := (c.charge (macEnergy k.op)).csrs.energy }
  pend : t.pend = s.pend ++ if k.step + 1 < total then [.kstep core] else mxTurn core rest
  mem : t.mem = s.mem
  cores : t.cores = s.cores

theorem charge_csrs (c : Ctx) (n : Nat) : (c.charge n).csrs = { c.csrs with energy := (c.charge n).csrs.energy } := by
  have h := congrArg Ctx.csrs (charge_eq c n)
  exact h

/-- The k-step's effect, and the command's end after its last one. -/
theorem stepped_steps (hc : s.findCtx c.num = some c) (hq : c.mx.queue = k :: rest) (total : Nat) (r : List (Nat × Nat) × Word) (anan : Word) :
    StepsMx s (s.stepMx core c.num k total r anan) core c k rest total r anan := by
  have hfun : (fun c : Ctx => (c.mapMx fun m => m.stepped k r anan).charge (macEnergy k.op))
      = fun c => (c.charge (macEnergy k.op)).mapMx fun m => m.stepped k r anan := funext fun c => charge_mapMx c _ _
  have hnum : ∀ c : Ctx, ((c.charge (macEnergy k.op)).mapMx fun m => m.stepped k r anan).num = c.num := fun c => (charge_keeps c _).1
  have hb := updCtx_becomes hnum hc
  obtain ⟨-, -, -, -, -, -, hmx⟩ := charge_keeps c (macEnergy k.op)
  have hqueue : ((c.charge (macEnergy k.op)).mapMx fun m => m.stepped k r anan).mx.queue = { k with step := k.step + 1 } :: rest := by
    show setAt (c.charge (macEnergy k.op)).mx.queue 0 _ = _
    rw [hmx, hq]
    rfl
  have hstat : ((c.charge (macEnergy k.op)).mapMx fun m => m.stepped k r anan).mx.stat = c.mx.stat ||| r.2 ||| anan := by
    show (c.charge (macEnergy k.op)).mx.stat ||| r.2 ||| anan = _
    rw [hmx]
  have hcsrs : ((c.charge (macEnergy k.op)).mapMx fun m => m.stepped k r anan).csrs
      = { c.csrs with energy := (c.charge (macEnergy k.op)).csrs.energy } := charge_csrs c _
  have hacc : ((c.charge (macEnergy k.op)).mapMx fun m => m.stepped k r anan).mx.acc = r.1 := rfl
  unfold State.stepMx
  rw [hfun]
  by_cases hlast : total ≤ k.step + 1
  · rw [if_pos hlast, finishMx_eq hb.there]
    have hfin := updCtx_becomes (g := fun c => c.mapMx fun m => m.without 0) (fun _ => rfl) hb.there
    refine ⟨⟨_, hfin.there, hacc, hstat, ?_, hcsrs⟩, ?_, rfl, rfl⟩
    · rw [if_pos hlast]
      exact (congrArg (fun q : List MxCmd => q.eraseIdx 0) hqueue).trans rfl
    · rw [if_neg (Nat.not_lt.mpr hlast), hqueue]
      rfl
  · rw [if_neg hlast]
    refine ⟨⟨_, hb.there, hacc, hstat, ?_, hcsrs⟩, ?_, rfl, rfl⟩
    · rw [if_neg hlast]
      exact hqueue
    · rw [if_pos (Nat.lt_of_not_le hlast)]
      rfl

/-- The k-step of a command in progress, the weights in their buffer. -/
theorem exec_kstep {first : Nat} (hrun : s.mxRunning core = some c) (hq : c.mx.queue = k :: rest) (hstart : k.start = some first)
    (hw : (s.core core).weights ≠ []) :
    let f := macForm k.op
    let span := macSpan f k.wsparse
    let total := hKlen k.hdr / span
    let k0 := (first + k.step) % total * span
    let hb := (s.core core).whdr
    let b := (s.core core).weights
    let a := s.mem.read (padOff core (k.la + 16)) (hKlen k.hdr * hRows k.hdr * Flt.etWidth f.a / 8)
    let r := macStep f k0 span k.rm k.hdr hb k.wsparse a b c.mx.acc
    let anan : Word := if f.int = true ∧ (hE8 k.hdr = 255 ∨ hE8 hb = 255) then BitVec.ofNat 64 (2 ^ 45) else 0
    exec (.kstep core) s = .next (match (if k.wsparse = true then badUnit hb b k0 span else none) with
      | some off => s.metadataFault c.num k 1 0 off
      | none => s.stepMx core c.num k total r anan) := by
  intro f span total k0 hb b a r anan
  have hfill : s.refillWeights core k = some s := by
    unfold State.refillWeights
    simp [hw]
  have hpos : indexOf (fun k : MxCmd => k.start.isSome) (k :: rest) = some 0 := by
    unfold indexOf
    rw [hstart]
    rfl
  have hfirst : k.start.getD 0 = first := by rw [hstart]; rfl
  show execKstep core s = _
  unfold execKstep
  simp only [hrun, hq, hpos, List.getElem?_cons_zero, hfill, hfirst] <;> rfl

end

/-- Settles O56: each clause by the lemma of its step. -/
theorem messageAndMatrixSteps : Obligations.MessageAndMatrixSteps := by
  refine ⟨?_, ?_, fun s net core h => messageLand_none h, ?_, ?_, ?_, ?_, fun s ctx c pc rest val hc he => ecallAnswer_answers val hc he,
    fun s id c limit hc hst => waittExpiry_expires hc hst⟩
  · intro s net core m p hnext hcore hnet hdev hpart hpurge hmesh hsched b hbase hbpart _ hres hfit
    obtain ⟨t, hexec, hslot, hbox, hgone, hsent, hpend⟩ :=
      messageLand_lands hnext hcore hnet hdev hpart hpurge hmesh hsched hbase hbpart hres hfit
    exact ⟨t, hexec, hslot, hbox, hgone, hsent, hpend⟩
  · intro s net core m hnext _ hnet hdev hpurge hpart _
    obtain ⟨t, hexec, ⟨hmsgs, hspilled⟩, hmem, hcount, hothers, hsent, hpend⟩ := messageLand_drops hnext hnet hdev hpurge hpart
    exact ⟨t, hexec, hmsgs, hspilled, hmem, hcount, hothers, hsent, hpend⟩
  · intro s core a rest ha answers
    have hans {status cause : Nat} (h : (s.takeArrival core rest).mxArrive core a = (s.takeArrival core rest, some (status, cause))) :
        answers status cause := answersMx_of ha h
    have hrunning := takeArrival_mxRunning s core rest
    refine ⟨fun h => hans (mxArrive_idle (hrunning.trans h)), fun c h => ?_⟩
    have hrun : (s.takeArrival core rest).mxRunning core = some c := hrunning.trans h
    refine ⟨fun hcap => hans (mxArrive_denied hrun fun ⟨h0, heq, _⟩ => hcap.elim h0 fun hne => hne heq), fun hcap => ?_, fun h0 heq hcore hten hw => ?_,
      fun op o hw hb => hans (mxArrive_noRight hrun hw hb), fun op o hw heq h0 hcore hten hb => ?_⟩
    · refine hans (mxArrive_denied hrun fun ⟨_, heq, hcore, hten⟩ => ?_)
      rw [heq] at hcore hten
      exact hcap.elim (fun hne => hne hcore) fun hne => hne hten
    · exact hans (mxArrive_malformed hrun ⟨h0, heq, heq ▸ hcore, heq ▸ hten⟩ hw)
    · have hholds : c.holdsMx core a := ⟨h0, heq, heq ▸ hcore, heq ▸ hten⟩
      refine ⟨fun hfull => ?_, fun hroom hop hc => ?_⟩
      · rw [exec_mxcmdArrival ha, mxArrive_full hrun hholds hw hb hfull]
        rfl
      · subst hop
        exact mxcmdArrival_zero ha h hholds hw hb hroom hc
  · intro s ctx c r status cause hc hr hnext hs hcause w
    have hexec := mxcmdReply_word (s := s) hs hcause ctx r.num
    exact ⟨fun hsaved => ⟨_, hexec, putLate_becomes w hc hr hnext hsaved⟩, fun hsaved => ⟨_, hexec, putLate_saved w hc hr hnext hsaved⟩⟩
  · intro s core c k rest hrun hc hq hstart sticky base takes
    have htakes {t : State} {mx : Matrix} {post : State → Ctx → Prop} (hexec : exec (.sequencerCommand core 0 0) s = .next t)
        (h : TakesMx s t core c rest mx) (hp : post t { c with mx := mx }) : takes post :=
      ⟨t, _, hexec, h.there, rfl, h.becomes, h.pend, hp⟩
    have hmac (h : k.op.toNat < 0x106 ∨ 0x10F < k.op.toNat) : isMac k.op = false := by
      simp only [isMac, Bool.and_eq_false_iff, decide_eq_false_iff_not]
      omega
    refine ⟨fun hop => ?_, fun hlo hhi => ?_, fun hop hrow => ?_, fun hlo hhi => ?_, fun hop hn hfit => ?_, fun hop => ?_,
      fun hm hord hw => ?_, fun pick start m hm hfree hsteps hw => ?_⟩
    · obtain ⟨t, hexec, htake, hmem, hcores⟩ := sequencer_takes hrun hc hq hstart (hmac (by bv_omega)) rfl (runMx_zero hop)
      exact htakes hexec htake ⟨rfl, hmem, hcores⟩
    · obtain ⟨t, hexec, htake, hmem, hcores⟩ := sequencer_takes hrun hc hq hstart (hmac (by omega)) rfl (runMx_load ⟨hlo, hhi⟩)
      obtain ⟨hw, hh, hother⟩ := loadWeights_core s core k.la k.hdr k.wsparse
      exact htakes hexec htake ⟨rfl, hmem, (congrArg Core.weights (core_congr hcores core)).trans hw,
        (congrArg Core.whdr (core_congr hcores core)).trans hh, fun n hn => (core_congr hcores n).trans (hother n hn)⟩
    · obtain ⟨t, hexec, htake, hmem, hcores⟩ := sequencer_takes hrun hc hq hstart (hmac (by bv_omega)) rfl (runMx_write hop)
      refine htakes hexec htake ⟨rfl, hmem, fun i hi => ?_, fun i hi => ?_, hcores⟩
      · refine (accGet_fill c.mx.acc (32 * k.row) 32 (lane 32 k.vec) _).trans ?_
        rw [if_pos (by omega), Nat.add_sub_cancel_left]
      · refine (accGet_fill c.mx.acc (32 * k.row) 32 (lane 32 k.vec) _).trans ?_
        rw [if_neg (by omega)]
    · obtain ⟨t, hexec, htake, hmem, hcores⟩ := sequencer_takes hrun hc hq hstart (hmac (by omega)) rfl (runMx_store ⟨hlo, hhi⟩)
      exact htakes hexec htake ⟨hmem, rfl, hcores⟩
    · obtain ⟨t, hexec, htake, hmem, hcores⟩ := sequencer_takes hrun hc hq hstart (hmac (by bv_omega)) rfl (runMx_save hop)
      obtain ⟨hacc, hstat, hout⟩ := image_imaged hn hfit s.mem base (k.hdr.setWidth 64 ||| (c.mx.stat &&& sticky))
      refine htakes hexec htake ⟨rfl, ?_, ?_, ?_, hcores⟩
      · exact fun i hi => (congrArg (fun m : Memory => m.readNat (base + 4 * i) 4) hmem).trans (hacc i hi)
      · exact (congrArg (fun m : Memory => m.readNat (base + 8192) 16) hmem).trans hstat
      · exact fun a ha => (congrArg (fun m : Memory => m.get a) hmem).trans (hout a ha)
    · obtain ⟨acc, hacc, heff⟩ := runMx_restore (s := s) (c := c) (core := core) hop
      obtain ⟨t, hexec, htake, hmem, hcores⟩ := sequencer_takes hrun hc hq hstart (hmac (by bv_omega)) rfl heff
      exact htakes hexec htake ⟨hacc, hmem, rfl, hcores⟩
    · have hfree : k.unordered = false := by
        unfold MxCmd.unordered
        rcases hord with h | h
        · rw [h, Bool.and_false, Bool.false_and]
        · rw [h]
          exact Bool.and_false _
      exact sequencer_starts hrun hc hq hstart List.getElem?_cons_zero (mxPick_head hstart hfree) hm hw
    · have hin : m ∈ (k :: rest).take (pick + 1) := by
        refine List.mem_of_getElem? (i := pick) ?_
        rw [List.getElem?_take, if_pos (Nat.lt_succ_self pick), hm]
      have h := sequencer_starts hrun hc hq hstart hm (mxPick_unordered hstart hm hfree hsteps) (hfree m hin).1 hw
      rw [setAt_eq_set] at h
      exact h
  · intro s core c k rest first hrun hc hq hstart hw f span total k0 hb b a hstep
    have hexec := exec_kstep hrun hq hstart hw
    refine ⟨fun off hsp hbad => ?_, fun hgood => ?_⟩
    · refine hexec.trans ?_
      rw [if_pos hsp, hbad]
      rfl
    · intro r anan
      have hnone : (if k.wsparse = true then badUnit hb b k0 span else none) = none := by
        rcases hgood with h | h
        · rw [h]
          rfl
        · rw [h, ite_self]
      have hgo : exec (.kstep core) s = .next (s.stepMx core c.num k total r anan) := hexec.trans (by rw [hnone])
      obtain ⟨⟨d, hd, hacc, hstat, hqueue, hcsrs⟩, hpend, hmem, hcores⟩ := stepped_steps (core := core) hc hq total r anan
      exact ⟨_, d, hgo, hd, hacc, hstat, hqueue, hcsrs, hpend, hmem, hcores⟩

end Sys2Proof.Machine
end
